-- ==== Sys2Proof/Word.lean ====
section
/-! DEFINITION. The word types of the Zellia Z8 and nothing else: 64-bit scalars, 32-bit vector elements, 16-bit
halfwords and bytes (07 R162, R165). -/

namespace Sys2Proof

/-- A scalar or A register, a special register, a queue element (07 R162, R168). -/
abbrev Word := BitVec 64

/-- An element of a vector register (07 R162). -/
abbrev Elem := BitVec 32

/-- A halfword of an instruction scratchpad (07 R165). -/
abbrev Half := BitVec 16

/-- A byte of memory. -/
abbrev Byte := BitVec 8

/-- A 16 x 64 mask of the V stream, bit 64 * row + column (07 R162). -/
abbrev Mask := BitVec 1024

end Sys2Proof
end

