-- ==== Sys2Proof/Config.lean ====
section
/-! DEFINITION. What one implementation fixes and the spec leaves open: free values, with no body, so that no proof can
see one. Each is named by an entry of the assumption log. -/

namespace Sys2Proof.Config

/-- A free number of 64 bits, one for each count of State.fresh (log 1): times with no figure (07 R183), old-or-new
choices, contents the spec calls undefined. -/
opaque freeWord : Nat → BitVec 64

/-- A free number of clk for an access whose time the spec does not fix (07 R183, 15 R361), by State.fresh (log 1). -/
opaque freeDelay : Nat → Nat

/-- The module serial number of a module (03 R84, 04 R88; log 5). -/
opaque serial : Nat → BitVec 64

/-- The SHA-512 of a list of bytes, as 64 bytes: FIPS 180 is outside the spec (03 R82, R84; log 5). -/
opaque sha512 : List (BitVec 8) → List (BitVec 8)

/-- The fused hash of the public key of a module's images (03 R82; log 5). -/
opaque keyHash : Nat → List (BitVec 8)

/-- The signature of a module's identity key over bytes, 132 bytes: the key is a device secret (03 R84; log 5). -/
opaque sign : Nat → List (BitVec 8) → List (BitVec 8)

/-- Byte `i` of the identity certificate of a module (03 R68, R84; log 5). -/
opaque certByte : Nat → Nat → BitVec 8

/-- PODBLAT, the pod barrier latency, by module: measured at link bring-up, at most 8,192 clk (05 R117; log 5). -/
opaque podblatRaw : Nat → Nat

/-- What the initial survey of a die measures of a unit: 4 * STATUS + CLASS, by die and 256 * KIND + INDEX (03 R82, 04 R92; log 5). -/
opaque initialUnit : Nat → Nat → Nat

/-- What a resurvey measures of a unit: 4 * STATUS + CLASS, by State.fresh and 256 * KIND + INDEX (04 R97; log 68). -/
opaque resurveyUnit : Nat → Nat → Nat

/-- LAT of a path entry of PKIND 2 or 3, by die, PKIND, FROM and TO (04 R90; log 5). -/
opaque pathLat : Nat → Nat → Nat → Nat → Nat

/-- The address of a symbol of a code object, by the contents of its symbol-name sections, the ADDR of each section and the index of the
symbol: the format of the symbol-name section is not given (06 R152; log 39). -/
opaque symbolAddr : List (BitVec 8) → List Nat → Nat → Nat

/-- The halfword offset of the resolver stub of a symbol, by the same (06 R152, R155; log 39). -/
opaque stubAddr : List (BitVec 8) → List Nat → Nat → BitVec 16

/-- The measurement and self-test outcomes are read from the event that reports them; the value a unit struck for a lasting
fault computes is free (04 R112; log 1). -/
opaque struckValue : Nat → BitVec 32

end Sys2Proof.Config
end

