-- ==== Sys2Proof/Names.lean ====
section
/-! DEFINITION. The names that words and events carry: streams, kinds of core, contexts, guards, the common fields of engine
commands, slots of the rings, and the units that the events of the device name.

Numbers of units: a core is 128 * module + 16 * die + SCORE (01 R20: 0 to 7 compute, 8 dispatch, 9 and 10
management), a die 8 * module + die, a station 16 * module + station number (01 R12). -/

namespace Sys2Proof

/-- The three instruction streams of a context (07 R162). -/
inductive Stream where
  | c | a | v
deriving DecidableEq, Repr

/-- The kinds of core: a compute core, or a control-only core (07 R190), dispatch or management. -/
inductive CoreKind where
  | compute | dispatch | management
deriving DecidableEq, Repr

/-- A context bank of a core (07 R188). -/
structure CtxId where
  core : Nat
  bank : Nat
deriving DecidableEq, Repr

/-- A stream of a context bank. -/
structure StreamId where
  ctx : CtxId
  st  : Stream
deriving DecidableEq, Repr

/-- The guard of a word: a predicate and the negate bit (13 R303, R304). -/
structure Guard where
  neg : Bool
  p   : BitVec 6
deriving DecidableEq, Repr

/-- The fields every engine command word has (13 R303, R312): SW, signal, wait, sb, sa. -/
structure EngArgs where
  sw   : Bool
  sig  : BitVec 3
  wait : BitVec 3
  sb   : BitVec 5
  sa   : BitVec 5
deriving DecidableEq, Repr

/-- The engines' queues: copy loads q10, copy stores q11, matrix q12, row q13 (07 R168, 12 R281). -/
inductive EngQ where
  | load | store | matrix | row
deriving DecidableEq, Repr

/-- A slot of the rings: the header fields of 01 R20 and the payload bytes, 64 for each valid flit. `poison` marks flits
delivered damaged (01 R30); `trk` is the track that the slot rides on a local ring (01 R13). -/
structure Slot where
  kind : BitVec 4
  job : BitVec 12
  dmod : BitVec 6
  dsta : BitVec 4
  dcore : BitVec 4
  smod : BitVec 6
  ssta : BitVec 4
  score : BitVec 4
  nfl : BitVec 2
  rfs : Bool
  rtn : Bool
  mir : Bool
  /-- A slot refused once that goes round the whole trunk ring: it has left its destination module (01 R27). The header does not carry it. -/
  far : Bool := false
  tag : BitVec 14
  arg : BitVec 16
  seq : BitVec 16
  trk : Nat
  poison : Bool
  data : List Byte
deriving DecidableEq, Repr

/-- One direction of one link (01 R29): an output of a station, on its local ring or, for a waystation, on its trunk
link. -/
structure HopId where
  sta   : Nat
  trunk : Bool
  ccw   : Bool
deriving DecidableEq, Repr

/-- A barrier unit: the plat, the scope code (13 R306), the instance of that scope and the BID (05 R118, 08 R218). -/
structure BarUnit where
  plat  : Word
  scope : Nat
  inst  : Nat
  bid   : Nat
deriving DecidableEq, Repr

/-- A muster wave: a module wave of one module, or a pod wave; `w` is the pod cycle it began at (02 R53, R57). -/
structure WaveId where
  pod : Bool
  mod : Nat
  w   : Nat
deriving DecidableEq, Repr

/-- Access kinds of the access processor (09 R225, R232). -/
inductive Access where
  | read | write | atomic | overlay | prefetch | probe
deriving DecidableEq, Repr

/-- A translation that a walk serves: whose it is, the virtual address, the access (09 R228, R232). `src` is 0 for the
C stream, 1 for the A stream, 2 for a load of the copy engine, 3 for a store of it, 4 for a drain. -/
structure WalkReq where
  ctx : CtxId
  job : BitVec 12
  va  : Nat
  acc : Access
  src : Nat
deriving DecidableEq, Repr

/-- A unit of a die's survey: KIND and INDEX (04 R89). -/
structure UnitId where
  kind  : Nat
  index : Nat
deriving DecidableEq, Repr

/-- A measured change of a unit: its new STATUS and CLASS (04 R89, R91, R97). -/
structure UnitChange where
  unit   : UnitId
  status : Nat
  cls    : Nat
deriving DecidableEq, Repr

/-- What link bring-up measured of one trunk link (01 R31, 04 R90): the waystation it leaves, its direction, the lanes that
trained and the round trip in clk. -/
structure LinkReport where
  sta   : Nat
  ccw   : Bool
  lanes : Nat
  trip  : Nat
deriving DecidableEq, Repr

end Sys2Proof
end

