-- ==== Sys2Proof/Syntax.lean ====
section
/-! DEFINITION. The syntax of the machine's steps: one constructor of `Instr` for each row of spec/opcode_table.json, the
245 words of the streams (13 R303 to R312) and the 121 events of the device and of the outside world
(95_what_each_step_holds.md). A word's arguments are its encoding's fields. An event has no encoding and no fields: the
unit it happens at and the data it carries stand in the state, as the operands of the event under way
(`Sys2Proof.Event`). -/

namespace Sys2Proof

/-- The rows of the opcode table. The words with fields stand first. -/
inductive Instr where
  /-- Adds two registers modulo 2^64 in the C or A stream (R318). -/
  | add (g : Guard) (b : BitVec 5) (a : BitVec 5) (d : BitVec 5)
  /-- Subtracts rb from ra modulo 2^64 (R318). -/
  | sub (g : Guard) (b : BitVec 5) (a : BitVec 5) (d : BitVec 5)
  /-- Bitwise AND of two registers (R318). -/
  | and (g : Guard) (b : BitVec 5) (a : BitVec 5) (d : BitVec 5)
  /-- Bitwise OR of two registers (R318). -/
  | or (g : Guard) (b : BitVec 5) (a : BitVec 5) (d : BitVec 5)
  /-- Bitwise XOR of two registers (R318). -/
  | xor (g : Guard) (b : BitVec 5) (a : BitVec 5) (d : BitVec 5)
  /-- ra AND NOT rb (R318). -/
  | andn (g : Guard) (b : BitVec 5) (a : BitVec 5) (d : BitVec 5)
  /-- Shifts ra left by rb[5:0] (R318). -/
  | shl (g : Guard) (b : BitVec 5) (a : BitVec 5) (d : BitVec 5)
  /-- Logical right shift of ra by rb[5:0] (R318). -/
  | shr (g : Guard) (b : BitVec 5) (a : BitVec 5) (d : BitVec 5)
  /-- Arithmetic right shift of ra by rb[5:0] (R318). -/
  | sar (g : Guard) (b : BitVec 5) (a : BitVec 5) (d : BitVec 5)
  /-- Rotates ra left by rb[5:0] (R318). -/
  | rol (g : Guard) (b : BitVec 5) (a : BitVec 5) (d : BitVec 5)
  /-- Signed minimum of two registers (R318). -/
  | min (g : Guard) (b : BitVec 5) (a : BitVec 5) (d : BitVec 5)
  /-- Signed maximum of two registers (R318). -/
  | max (g : Guard) (b : BitVec 5) (a : BitVec 5) (d : BitVec 5)
  /-- Unsigned minimum of two registers (R318). -/
  | minu (g : Guard) (b : BitVec 5) (a : BitVec 5) (d : BitVec 5)
  /-- Unsigned maximum of two registers (R318). -/
  | maxu (g : Guard) (b : BitVec 5) (a : BitVec 5) (d : BitVec 5)
  /-- Multiplies two registers modulo 2^64 with latency 3 (R318). -/
  | mul (g : Guard) (b : BitVec 5) (a : BitVec 5) (d : BitVec 5)
  /-- High 64 bits of the unsigned 128-bit product (R318). -/
  | mulhu (g : Guard) (b : BitVec 5) (a : BitVec 5) (d : BitVec 5)
  /-- Adds a sign-extended 12-bit immediate (R319). -/
  | addi (i : BitVec 12) (a : BitVec 5) (d : BitVec 5)
  /-- ANDs with a sign-extended immediate (R319). -/
  | andi (i : BitVec 12) (a : BitVec 5) (d : BitVec 5)
  /-- ORs with a sign-extended immediate (R319). -/
  | ori (i : BitVec 12) (a : BitVec 5) (d : BitVec 5)
  /-- XORs with a sign-extended immediate (R319). -/
  | xori (i : BitVec 12) (a : BitVec 5) (d : BitVec 5)
  /-- Shifts left by imm12[5:0] (R319). -/
  | shli (i : BitVec 6) (a : BitVec 5) (d : BitVec 5)
  /-- Logical right shift by imm12[5:0] (R319). -/
  | shri (i : BitVec 6) (a : BitVec 5) (d : BitVec 5)
  /-- Arithmetic right shift by imm12[5:0] (R319). -/
  | sari (i : BitVec 6) (a : BitVec 5) (d : BitVec 5)
  /-- Multiplies by a sign-extended immediate with latency 3 (R319). -/
  | muli (i : BitVec 12) (a : BitVec 5) (d : BitVec 5)
  /-- Writes sext(imm20) times 4,096 (R320). -/
  | lui (i : BitVec 20) (d : BitVec 5)
  /-- Writes the block header offset plus sext(imm20) times 4,096 (R320). -/
  | auib (i : BitVec 20) (d : BitVec 5)
  /-- Extracts a zero-extended bit field described by rb (R321). -/
  | bext (g : Guard) (b : BitVec 5) (a : BitVec 5) (d : BitVec 5)
  /-- Extracts a sign-extended bit field described by rb (R321). -/
  | bexts (g : Guard) (b : BitVec 5) (a : BitVec 5) (d : BitVec 5)
  /-- Inserts the low bits of ra into a field of rd described by rb (R321). -/
  | bins (g : Guard) (b : BitVec 5) (a : BitVec 5) (d : BitVec 5)
  /-- Counts leading zero bits (R321). -/
  | clz (g : Guard) (a : BitVec 5) (d : BitVec 5)
  /-- Counts trailing zero bits (R321). -/
  | ctz (g : Guard) (a : BitVec 5) (d : BitVec 5)
  /-- Counts one bits (R321). -/
  | popc (g : Guard) (a : BitVec 5) (d : BitVec 5)
  /-- Extracts a bit field given by immediate offset and width (R321). -/
  | bexti (w : BitVec 6) (o : BitVec 6) (a : BitVec 5) (d : BitVec 5)
  /-- Inserts a bit field given by immediate offset and width (R321). -/
  | binsi (w : BitVec 6) (o : BitVec 6) (a : BitVec 5) (d : BitVec 5)
  /-- Writes pd with ra = rb, optionally negated (R322). -/
  | cmpEq (n : Bool) (b : BitVec 5) (a : BitVec 5) (p : BitVec 6)
  /-- Writes pd with ra != rb (R322). -/
  | cmpNe (n : Bool) (b : BitVec 5) (a : BitVec 5) (p : BitVec 6)
  /-- Writes pd with signed ra < rb (R322). -/
  | cmpLt (n : Bool) (b : BitVec 5) (a : BitVec 5) (p : BitVec 6)
  /-- Writes pd with signed ra >= rb (R322). -/
  | cmpGe (n : Bool) (b : BitVec 5) (a : BitVec 5) (p : BitVec 6)
  /-- Writes pd with unsigned ra < rb (R322). -/
  | cmpLtu (n : Bool) (b : BitVec 5) (a : BitVec 5) (p : BitVec 6)
  /-- Writes pd with unsigned ra >= rb (R322). -/
  | cmpGeu (n : Bool) (b : BitVec 5) (a : BitVec 5) (p : BitVec 6)
  /-- Writes pd with ra equal to a sign-extended imm11 (R322). -/
  | cmpiEq (n : Bool) (i : BitVec 11) (a : BitVec 5) (p : BitVec 6)
  /-- Writes pd with ra unequal to imm11 (R322). -/
  | cmpiNe (n : Bool) (i : BitVec 11) (a : BitVec 5) (p : BitVec 6)
  /-- Writes pd with signed ra < imm11 (R322). -/
  | cmpiLt (n : Bool) (i : BitVec 11) (a : BitVec 5) (p : BitVec 6)
  /-- Writes pd with signed ra >= imm11 (R322). -/
  | cmpiGe (n : Bool) (i : BitVec 11) (a : BitVec 5) (p : BitVec 6)
  /-- Writes pd with unsigned ra < sign-extended imm11 (R322). -/
  | cmpiLtu (n : Bool) (i : BitVec 11) (a : BitVec 5) (p : BitVec 6)
  /-- Writes pd with unsigned ra >= sign-extended imm11 (R322). -/
  | cmpiGeu (n : Bool) (i : BitVec 11) (a : BitVec 5) (p : BitVec 6)
  /-- Predicate or mask AND in the C, A or V stream (R323). -/
  | pand (n : Bool) (b : BitVec 5) (a : BitVec 5) (p : BitVec 6)
  /-- Predicate or mask OR (R323). -/
  | por (n : Bool) (b : BitVec 5) (a : BitVec 5) (p : BitVec 6)
  /-- Predicate or mask XOR (R323). -/
  | pxor (n : Bool) (b : BitVec 5) (a : BitVec 5) (p : BitVec 6)
  /-- Predicate or mask AND NOT (R323). -/
  | pandn (n : Bool) (b : BitVec 5) (a : BitVec 5) (p : BitVec 6)
  /-- Copies a predicate or mask (R323). -/
  | pmov (n : Bool) (a : BitVec 5) (p : BitVec 6)
  /-- Inverts a predicate or mask (R323). -/
  | pnot (n : Bool) (a : BitVec 5) (p : BitVec 6)
  /-- Pops the oldest element of a scalar queue into rd, waiting while it is empty (R324). -/
  | movqPop (g : Guard) (q : BitVec 5) (d : BitVec 5)
  /-- Appends ra to a scalar queue, waiting while it is full (R324). -/
  | movqPush (g : Guard) (a : BitVec 5) (q : BitVec 5)
  /-- Pops a scalar queue element if present without waiting and reports success in pb (R324). -/
  | trypopQueue (g : Guard) (p : BitVec 5) (q : BitVec 5) (d : BitVec 5)
  /-- Loads one byte zero-extended (R325). -/
  | ldB (i : BitVec 12) (b : BitVec 5) (r : BitVec 5)
  /-- Loads two bytes zero-extended (R325). -/
  | ldH (i : BitVec 12) (b : BitVec 5) (r : BitVec 5)
  /-- Loads four bytes zero-extended (R325). -/
  | ldW (i : BitVec 12) (b : BitVec 5) (r : BitVec 5)
  /-- Loads eight bytes, interlocked (R325). -/
  | ld (i : BitVec 12) (b : BitVec 5) (r : BitVec 5)
  /-- Loads one byte sign-extended (R325). -/
  | ldSb (i : BitVec 12) (b : BitVec 5) (r : BitVec 5)
  /-- Loads two bytes sign-extended (R325). -/
  | ldSh (i : BitVec 12) (b : BitVec 5) (r : BitVec 5)
  /-- Loads four bytes sign-extended (R325). -/
  | ldSw (i : BitVec 12) (b : BitVec 5) (r : BitVec 5)
  /-- Loads eight bytes as a load-acquire at the encoded scope (R327). -/
  | ldAcq (s : BitVec 3) (i : BitVec 12) (b : BitVec 5) (r : BitVec 5)
  /-- Stores one byte (R325). -/
  | stB (i : BitVec 12) (b : BitVec 5) (r : BitVec 5)
  /-- Stores two bytes (R325). -/
  | stH (i : BitVec 12) (b : BitVec 5) (r : BitVec 5)
  /-- Stores four bytes (R325). -/
  | stW (i : BitVec 12) (b : BitVec 5) (r : BitVec 5)
  /-- Stores eight bytes to memory, a buffer, a window or register space (R325). -/
  | st (i : BitVec 12) (b : BitVec 5) (r : BitVec 5)
  /-- Stores eight bytes as a store-release at the encoded scope, after sending combining entries (R327). -/
  | stRel (s : BitVec 3) (i : BitVec 12) (b : BitVec 5) (r : BitVec 5)
  /-- Atomic add at the home, returning the old value (R328). -/
  | amoAdd (g : Guard) (b : BitVec 5) (a : BitVec 5) (d : BitVec 5)
  /-- Atomic AND at the home (R328). -/
  | amoAnd (g : Guard) (b : BitVec 5) (a : BitVec 5) (d : BitVec 5)
  /-- Atomic OR at the home (R328). -/
  | amoOr (g : Guard) (b : BitVec 5) (a : BitVec 5) (d : BitVec 5)
  /-- Atomic XOR at the home (R328). -/
  | amoXor (g : Guard) (b : BitVec 5) (a : BitVec 5) (d : BitVec 5)
  /-- Atomic signed minimum at the home (R328). -/
  | amoMin (g : Guard) (b : BitVec 5) (a : BitVec 5) (d : BitVec 5)
  /-- Atomic signed maximum at the home (R328). -/
  | amoMax (g : Guard) (b : BitVec 5) (a : BitVec 5) (d : BitVec 5)
  /-- Atomic unsigned minimum at the home (R328). -/
  | amoMinu (g : Guard) (b : BitVec 5) (a : BitVec 5) (d : BitVec 5)
  /-- Atomic unsigned maximum at the home (R328). -/
  | amoMaxu (g : Guard) (b : BitVec 5) (a : BitVec 5) (d : BitVec 5)
  /-- Atomic swap at the home (R328). -/
  | amoSwap (g : Guard) (b : BitVec 5) (a : BitVec 5) (d : BitVec 5)
  /-- Atomic compare-and-swap against rd, returning the old value (R328). -/
  | cas (g : Guard) (b : BitVec 5) (a : BitVec 5) (d : BitVec 5)
  /-- Loads one spill byte zero-extended (R329). -/
  | ldlB (i : BitVec 12) (r : BitVec 5)
  /-- Loads two spill bytes zero-extended (R329). -/
  | ldlH (i : BitVec 12) (r : BitVec 5)
  /-- Loads four spill bytes zero-extended (R329). -/
  | ldlW (i : BitVec 12) (r : BitVec 5)
  /-- Loads eight spill bytes, written at the end of issue clk plus 2 (R329). -/
  | ldl (i : BitVec 12) (r : BitVec 5)
  /-- Loads one spill byte sign-extended (R329). -/
  | ldlSb (i : BitVec 12) (r : BitVec 5)
  /-- Loads two spill bytes sign-extended (R329). -/
  | ldlSh (i : BitVec 12) (r : BitVec 5)
  /-- Loads four spill bytes sign-extended (R329). -/
  | ldlSw (i : BitVec 12) (r : BitVec 5)
  /-- Stores one byte into spill memory (R329). -/
  | stlB (i : BitVec 12) (r : BitVec 5)
  /-- Stores two bytes into spill memory (R329). -/
  | stlH (i : BitVec 12) (r : BitVec 5)
  /-- Stores four bytes into spill memory (R329). -/
  | stlW (i : BitVec 12) (r : BitVec 5)
  /-- Stores eight bytes into spill memory (R329). -/
  | stl (i : BitVec 12) (r : BitVec 5)
  /-- Sends combining entries and orders the stream's earlier accesses before later ones at a scope (R330). -/
  | fence (u : Bool) (s : BitVec 3)
  /-- Prepares a branch register with a relative block target and begins its fetch (R331). -/
  | pbr (o : BitVec 20) (t : BitVec 3)
  /-- Prepares a branch register from ra[15:0] (R331). -/
  | pbrx (a : BitVec 5) (g : Guard) (t : BitVec 3)
  /-- Branches to the block in a branch register, with prepare-to-branch bubbles (R332). -/
  | br (g : Guard) (t : BitVec 3)
  /-- Branches and writes the link into b7 (R332). -/
  | brl (g : Guard) (t : BitVec 3)
  /-- Starts an A-stream stage loop with trip count ra and epilogue count ec (R372). -/
  | sloop (e : BitVec 4) (a : BitVec 5)
  /-- Advances a stage loop, rotating the window and branching while passes remain (R373). -/
  | snext (t : BitVec 3)
  /-- Signed divide, interlocked (R333). -/
  | div (g : Guard) (b : BitVec 5) (a : BitVec 5) (d : BitVec 5)
  /-- Unsigned divide, interlocked (R333). -/
  | divu (g : Guard) (b : BitVec 5) (a : BitVec 5) (d : BitVec 5)
  /-- Signed remainder, interlocked (R333). -/
  | rem (g : Guard) (b : BitVec 5) (a : BitVec 5) (d : BitVec 5)
  /-- Unsigned remainder, interlocked (R333). -/
  | remu (g : Guard) (b : BitVec 5) (a : BitVec 5) (d : BitVec 5)
  /-- Reads a special register into rd (R334). -/
  | mfs (s : BitVec 12) (d : BitVec 5)
  /-- Writes a special register from ra, field by field (R334). -/
  | mts (s : BitVec 12) (a : BitVec 5)
  /-- Adds the party's arrival to a barrier phase as a release (R336). -/
  | barArrive (s : BitVec 3) (i : BitVec 5)
  /-- Waits until the party's last phase completes (R336). -/
  | barWait (s : BitVec 3) (i : BitVec 5)
  /-- Arrives at a barrier and then waits (R336). -/
  | barAw (s : BitVec 3) (i : BitVec 5)
  /-- Waits for a cycle, or for a promise's cycle and command completion with acquire (R338). -/
  | twait (p : Bool) (a : BitVec 5)
  /-- Waits until a memory word differs from rd, then acquires it (R339). -/
  | waitm (a : BitVec 5) (d : BitVec 5)
  /-- Sends combining entries, registers for quiet and waits for a muster wave to declare the job quiet (R340). -/
  | qwait (s : BitVec 3)
  /-- Sends an uncounted SIGNAL slot to a named context (R341). -/
  | signal (a : BitVec 5)
  /-- Pushes the engine command word held in ra (R342). -/
  | push (g : Guard) (a : BitVec 5)
  /-- Takes one token from a token FIFO, waiting while empty, and acquires (R343). -/
  | pop (g : Guard) (t : BitVec 5)
  /-- Takes a token if one is free without waiting and reports it in pb (R343). -/
  | trypopToken (g : Guard) (p : BitVec 5) (t : BitVec 5)
  /-- Writes one word of an engine's shadow setup set, waiting under R172 (R344). -/
  | setup (g : Guard) (b : BitVec 5) (a : BitVec 5)
  /-- Claims an operand slot, zeroing it if another job held it last (R345). -/
  | oclaim (i : BitVec 5) (d : BitVec 5)
  /-- Waits for commands naming the slot, then frees it (R345). -/
  | orelease (i : BitVec 5)
  /-- Builds an active message from X and enters it into the egress as a release (R346). -/
  | send (g : Guard) (b : BitVec 5) (a : BitVec 5)
  /-- Closes the open handler: waits for egress acceptance, frees the inbox entry, counts CON (R347). -/
  | hret (g : Guard)
  /-- Raises the cause TRAP with a code (R349). -/
  | trap (c : BitVec 12)
  /-- Marks a waypoint, sends entries, starts a freeze interval and stops or waits when required (R350). -/
  | waypt (i : BitVec 12)
  /-- Writes the evacuation record for the current waypoint from the waypoint map (R351). -/
  | evac (a : BitVec 5) (d : BitVec 5)
  /-- Adds a delta to one manifest counter at a named station and may clear its unrepaired state (R354). -/
  | mrepair (a : BitVec 5) (d : BitVec 5)
  /-- Releases earlier stores and has the die scheduler check and accept a plat (R125). -/
  | launch (g : Guard) (b : BitVec 5) (a : BitVec 5) (d : BitVec 5)
  /-- Takes a checkpoint of every parcel at the current waypoint (R352). -/
  | ckpt (a : BitVec 5)
  /-- Copy-engine load of a tile into W, X or an operand slot (R419). -/
  | cld (e : EngArgs)
  /-- Copy-engine store of a tile from local space to a tensor (R419). -/
  | cst (e : EngArgs)
  /-- Copy-engine atomic FP32 add of a tile into a RAW32 tensor (R419). -/
  | csta (e : EngArgs)
  /-- Runs one member of a chain multicast in timetabled slots (R420). -/
  | cchn (e : EngArgs) (head last : Bool)
  /-- Slice multicast to up to 64 receivers as posted writes (R421). -/
  | cslc (e : EngArgs)
  /-- Overlays code from an executable page into a stream scratchpad (R422). -/
  | covl (e : EngArgs)
  /-- Copies a physical page between frames without translation (R422). -/
  | cmig (e : EngArgs) (big : Bool)
  /-- Places invalidation markers for a job's range at every core of the module (R236). -/
  | cinv (e : EngArgs) (all : Bool)
  /-- Matrix multiply-accumulate of two slots into Z (R426). -/
  | mma (e : EngArgs) (tb : Bool) (fmt : BitVec 3)
  /-- Matrix multiply-accumulate with 2:4 structured sparsity (R426). -/
  | mmas (e : EngArgs) (tb : Bool) (fmt : BitVec 3)
  /-- Applies a Hadamard rotation to Z rows (R427). -/
  | mrot (e : EngArgs)
  /-- Drains Z rows into a global tile with format conversion (R428). -/
  | mdrn (e : EngArgs)
  /-- Writes +0 into M Z rows (R427). -/
  | mclr (e : EngArgs)
  /-- Loads a sign matrix of an order from a slot into the sign store (R427). -/
  | msgn (e : EngArgs)
  /-- Row engine: scaled row maximum into statistics (R430). -/
  | wmax (e : EngArgs)
  /-- Row engine: exponentials of rows and their sum (R430). -/
  | wexs (e : EngArgs)
  /-- Row engine: scales destination rows by the reciprocal sum (R430). -/
  | wscl (e : EngArgs)
  /-- Row engine: row mean and variance (R430). -/
  | wmom (e : EngArgs)
  /-- Row engine: normalises rows with the statistics (R430). -/
  | wapl (e : EngArgs)
  /-- Loads rows into a data queue, reserving granules (R362). -/
  | ldv (n : BitVec 6) (r : BitVec 5) (b : BitVec 5) (q : BitVec 5)
  /-- Stores granules taken from a data queue as rows (R363). -/
  | stv (n : BitVec 6) (r : BitVec 5) (b : BitVec 5) (q : BitVec 5)
  /-- Gathers granules using an index queue (R364). -/
  | ldg (n : BitVec 6) (r : BitVec 5) (b : BitVec 5) (q : BitVec 5)
  /-- Scatters granules using an index queue (R365). -/
  | stsc (n : BitVec 6) (r : BitVec 5) (b : BitVec 5) (q : BitVec 5)
  /-- Lane-wise atomic FP32 add to global memory (R366). -/
  | amovAdd (n : BitVec 6) (r : BitVec 5) (b : BitVec 5) (q : BitVec 5)
  /-- Lane-wise atomic FP32 maximum to global memory (R366). -/
  | amovMax (n : BitVec 6) (r : BitVec 5) (b : BitVec 5) (q : BitVec 5)
  /-- Walks a translation into the TLB without moving data (R369). -/
  | pref (i : BitVec 12) (a : BitVec 5)
  /-- Probes the translation of ra without faulting or changing the TLB (R370). -/
  | tlbp (a : BitVec 5) (d : BitVec 5)
  /-- Element-wise FP32 add (R383). -/
  | vadd (g : Guard) (b : BitVec 5) (a : BitVec 5) (d : BitVec 5)
  /-- Element-wise FP32 subtract (R383). -/
  | vsub (g : Guard) (b : BitVec 5) (a : BitVec 5) (d : BitVec 5)
  /-- Element-wise FP32 multiply (R383). -/
  | vmul (g : Guard) (b : BitVec 5) (a : BitVec 5) (d : BitVec 5)
  /-- Element-wise FP32 minimum (R383). -/
  | vmin (g : Guard) (b : BitVec 5) (a : BitVec 5) (d : BitVec 5)
  /-- Element-wise FP32 maximum (R383). -/
  | vmax (g : Guard) (b : BitVec 5) (a : BitVec 5) (d : BitVec 5)
  /-- Clears sign bits (R383). -/
  | vabs (g : Guard) (a : BitVec 5) (d : BitVec 5)
  /-- Inverts sign bits (R383). -/
  | vneg (g : Guard) (a : BitVec 5) (d : BitVec 5)
  /-- Copies elements bit for bit (R383). -/
  | vmov (g : Guard) (a : BitVec 5) (d : BitVec 5)
  /-- Fused axb + c (R384). -/
  | vfma (g : BitVec 4) (c : BitVec 5) (b : BitVec 5) (a : BitVec 5) (d : BitVec 5)
  /-- Fused axb - c (R384). -/
  | vfms (g : BitVec 4) (c : BitVec 5) (b : BitVec 5) (a : BitVec 5) (d : BitVec 5)
  /-- Fused -(axb) - c (R384). -/
  | vfnma (g : BitVec 4) (c : BitVec 5) (b : BitVec 5) (a : BitVec 5) (d : BitVec 5)
  /-- Fused -(axb) + c (R384). -/
  | vfnms (g : BitVec 4) (c : BitVec 5) (b : BitVec 5) (a : BitVec 5) (d : BitVec 5)
  /-- Correctly rounded reciprocal (R385). -/
  | vrcp (g : Guard) (a : BitVec 5) (d : BitVec 5)
  /-- Correctly rounded reciprocal square root (R385). -/
  | vrsq (g : Guard) (a : BitVec 5) (d : BitVec 5)
  /-- Correctly rounded square root (R385). -/
  | vsqrt (g : Guard) (a : BitVec 5) (d : BitVec 5)
  /-- Correctly rounded 2^x (R385). -/
  | vexp2 (g : Guard) (a : BitVec 5) (d : BitVec 5)
  /-- Correctly rounded log2 (R385). -/
  | vlog2 (g : Guard) (a : BitVec 5) (d : BitVec 5)
  /-- Correctly rounded sine with range rule (R385). -/
  | vsin (g : Guard) (a : BitVec 5) (d : BitVec 5)
  /-- Correctly rounded cosine with range rule (R385). -/
  | vcos (g : Guard) (a : BitVec 5) (d : BitVec 5)
  /-- Correctly rounded tanh (R385). -/
  | vtanh (g : Guard) (a : BitVec 5) (d : BitVec 5)
  /-- 32-bit integer add (R386). -/
  | viadd (g : Guard) (b : BitVec 5) (a : BitVec 5) (d : BitVec 5)
  /-- 32-bit integer subtract (R386). -/
  | visub (g : Guard) (b : BitVec 5) (a : BitVec 5) (d : BitVec 5)
  /-- 32-bit integer multiply, low bits (R386). -/
  | vimul (g : Guard) (b : BitVec 5) (a : BitVec 5) (d : BitVec 5)
  /-- Element-wise bitwise AND (R386). -/
  | vand (g : Guard) (b : BitVec 5) (a : BitVec 5) (d : BitVec 5)
  /-- Element-wise bitwise OR (R386). -/
  | vor (g : Guard) (b : BitVec 5) (a : BitVec 5) (d : BitVec 5)
  /-- Element-wise bitwise XOR (R386). -/
  | vxor (g : Guard) (b : BitVec 5) (a : BitVec 5) (d : BitVec 5)
  /-- Element-wise left shift (R386). -/
  | vshl (g : Guard) (b : BitVec 5) (a : BitVec 5) (d : BitVec 5)
  /-- Element-wise logical right shift (R386). -/
  | vshr (g : Guard) (b : BitVec 5) (a : BitVec 5) (d : BitVec 5)
  /-- Element-wise arithmetic right shift (R386). -/
  | vsar (g : Guard) (b : BitVec 5) (a : BitVec 5) (d : BitVec 5)
  /-- Element-wise signed minimum (R386). -/
  | vimin (g : Guard) (b : BitVec 5) (a : BitVec 5) (d : BitVec 5)
  /-- Element-wise signed maximum (R386). -/
  | vimax (g : Guard) (b : BitVec 5) (a : BitVec 5) (d : BitVec 5)
  /-- Float equality into a mask (R387). -/
  | vcmpEq (n : Bool) (b : BitVec 5) (a : BitVec 5) (p : BitVec 6)
  /-- Float inequality into a mask (R387). -/
  | vcmpNe (n : Bool) (b : BitVec 5) (a : BitVec 5) (p : BitVec 6)
  /-- Ordered float less-than into a mask (R387). -/
  | vcmpLt (n : Bool) (b : BitVec 5) (a : BitVec 5) (p : BitVec 6)
  /-- Ordered float less-or-equal into a mask (R387). -/
  | vcmpLe (n : Bool) (b : BitVec 5) (a : BitVec 5) (p : BitVec 6)
  /-- Ordered float greater-than into a mask (R387). -/
  | vcmpGt (n : Bool) (b : BitVec 5) (a : BitVec 5) (p : BitVec 6)
  /-- Ordered float greater-or-equal into a mask (R387). -/
  | vcmpGe (n : Bool) (b : BitVec 5) (a : BitVec 5) (p : BitVec 6)
  /-- True where neither operand is NaN (R387). -/
  | vcmpOrd (n : Bool) (b : BitVec 5) (a : BitVec 5) (p : BitVec 6)
  /-- True where either operand is NaN (R387). -/
  | vcmpUno (n : Bool) (b : BitVec 5) (a : BitVec 5) (p : BitVec 6)
  /-- 32-bit integer equality into a mask (R387). -/
  | vcmpIeq (n : Bool) (b : BitVec 5) (a : BitVec 5) (p : BitVec 6)
  /-- Signed integer less-than into a mask (R387). -/
  | vcmpIlt (n : Bool) (b : BitVec 5) (a : BitVec 5) (p : BitVec 6)
  /-- Unsigned integer less-than into a mask (R387). -/
  | vcmpIltu (n : Bool) (b : BitVec 5) (a : BitVec 5) (p : BitVec 6)
  /-- Selects elements of va or vb by a mask (R389). -/
  | vsel (k : Guard) (b : BitVec 5) (a : BitVec 5) (d : BitVec 5)
  /-- FP32 to INT32 conversion under RM (R390). -/
  | vcvtI32 (g : Guard) (a : BitVec 5) (d : BitVec 5)
  /-- INT32 to FP32 conversion under RM (R390). -/
  | vcvtF32 (g : Guard) (a : BitVec 5) (d : BitVec 5)
  /-- Rounds to BF16 and widens back to FP32 (R390). -/
  | vrndBf16 (g : Guard) (a : BitVec 5) (d : BitVec 5)
  /-- Rounds to T8 and decodes back to FP32 (R390). -/
  | vrndT8 (g : Guard) (a : BitVec 5) (d : BitVec 5)
  /-- Rounds to T6 and decodes back to FP32 (R390). -/
  | vrndT6 (g : Guard) (a : BitVec 5) (d : BitVec 5)
  /-- Rotates rows within each column (R391). -/
  | vrotr (k : BitVec 4) (a : BitVec 5) (d : BitVec 5)
  /-- Rotates columns within each row (R391). -/
  | vrotc (k : BitVec 6) (a : BitVec 5) (d : BitVec 5)
  /-- Broadcasts one row to all rows (R391). -/
  | vbcr (k : BitVec 4) (a : BitVec 5) (d : BitVec 5)
  /-- Broadcasts one column to all columns (R391). -/
  | vbcc (k : BitVec 6) (a : BitVec 5) (d : BitVec 5)
  /-- Transposes each 16 x 16 block (R391). -/
  | vtrn16 (a : BitVec 5) (d : BitVec 5)
  /-- Tree sum of each column (R392). -/
  | vredrSum (a : BitVec 5) (d : BitVec 5)
  /-- Maximum of each column (R392). -/
  | vredrMax (a : BitVec 5) (d : BitVec 5)
  /-- Minimum of each column (R392). -/
  | vredrMin (a : BitVec 5) (d : BitVec 5)
  /-- Tree sum of each row (R392). -/
  | vredcSum (a : BitVec 5) (d : BitVec 5)
  /-- Maximum of each row (R392). -/
  | vredcMax (a : BitVec 5) (d : BitVec 5)
  /-- Minimum of each row (R392). -/
  | vredcMin (a : BitVec 5) (d : BitVec 5)
  /-- Sets every element to imm20 times 2^12 (R393). -/
  | vli (i : BitVec 20) (d : BitVec 5)
  /-- Takes granules from a data queue into rows of vd (R395). -/
  | vpop (c : BitVec 4) (r : BitVec 4) (q : BitVec 4) (d : BitVec 5)
  /-- Appends rows of va as granules to a data queue (R395). -/
  | vpush (c : BitVec 4) (r : BitVec 4) (q : BitVec 4) (a : BitVec 5)
  /-- Pushes two elements of a row to q3 as a release (R396). -/
  | vtos (j : BitVec 5) (r : BitVec 4) (a : BitVec 5)
  /-- Pops q1 and broadcasts a half into vd (R396). -/
  | vfrs (h : Bool) (d : BitVec 5)
  /-- Loads a vector register from V spill memory (R398). -/
  | vldl (o : BitVec 12) (d : BitVec 5)
  /-- Stores a vector register into V spill memory (R398). -/
  | vstl (o : BitVec 12) (a : BitVec 5)
  /-- Pops the trip count from q1 and starts a V stage loop (R400). -/
  | vSloop (e : BitVec 4)
  /-- Adds two distributions by pairing case (R402). -/
  | dadd (b : BitVec 5) (a : BitVec 5) (d : BitVec 5)
  /-- Subtracts two distributions by pairing case (R402). -/
  | dsub (b : BitVec 5) (a : BitVec 5) (d : BitVec 5)
  /-- Multiplies two distributions by pairing case (R402). -/
  | dmul (b : BitVec 5) (a : BitVec 5) (d : BitVec 5)
  /-- Mixes two distributions by pairing case (R402). -/
  | dmix (b : BitVec 5) (a : BitVec 5) (d : BitVec 5)
  /-- Multiplies each point by a column scalar (R403). -/
  | dmuls (b : BitVec 5) (a : BitVec 5) (d : BitVec 5)
  /-- Adds a column scalar to each point (R403). -/
  | dadds (b : BitVec 5) (a : BitVec 5) (d : BitVec 5)
  /-- Takes the maximum of each point and a scalar (R403). -/
  | dmaxs (b : BitVec 5) (a : BitVec 5) (d : BitVec 5)
  /-- Maps each point by 2^v (R403). -/
  | dmapExp2 (a : BitVec 5) (d : BitVec 5)
  /-- Maps each point by log2 (R403). -/
  | dmapLog2 (a : BitVec 5) (d : BitVec 5)
  /-- Maps each point by tanh (R403). -/
  | dmapTanh (a : BitVec 5) (d : BitVec 5)
  /-- Maps each point by the logistic sigmoid (R403). -/
  | dmapSigmoid (a : BitVec 5) (d : BitVec 5)
  /-- Builds point masses from a vector row with a fresh stamp (R404). -/
  | dpt (r : BitVec 4) (a : BitVec 5) (d : BitVec 5)
  /-- Builds eight-point Gaussians from mean and sigma rows (R405). -/
  | dgauss (r : BitVec 4) (a : BitVec 5) (d : BitVec 5)
  /-- Takes a distribution row from a data queue and normalises it (R404). -/
  | dpop (q : BitVec 4) (d : BitVec 5)
  /-- Appends a distribution row to a data queue (R404). -/
  | dpush (q : BitVec 4) (a : BitVec 5)
  /-- Writes a moment of each lane into a row (R406). -/
  | dmom (k : BitVec 2) (r : BitVec 4) (a : BitVec 5) (d : BitVec 5)
  /-- Writes a quantile of each lane into a row (R406). -/
  | dqnt (r : BitVec 4) (a : BitVec 5) (d : BitVec 5)
  /-- Sets a distribution register's tag set (R407). -/
  | dtag (i : BitVec 16) (d : BitVec 5)
  /-- Sets a distribution register's lineage stamp (R407). -/
  | dlin (i : BitVec 16) (d : BitVec 5)
  /-- Clears DSTAT flags and may set RM and DDE (R408). -/
  | dflg (i : BitVec 16)
  /-- Pushes DSTAT to q3, then clears flags and may set RM and DDE (R408). -/
  | dflgRd (i : BitVec 16)
  /-- Holds the stream for n clk (R307). -/
  | stall (n : BitVec 11)
  /-- Copies one register to another in 16 bits (R307). -/
  | mvh (a : BitVec 5) (d : BitVec 5)
  /-- Adds a 6-bit immediate to rd in 16 bits (R307). -/
  | addih (i : BitVec 6) (d : BitVec 5)
  /-- Guarded branch in 16 bits (R307). -/
  | brh (g : Guard) (t : BitVec 3)
  /-- Returns from a handler, resuming the context at t_r (R293). -/
  | rte
  /-- Returns from a handler, resuming the trapping stream after its word (R293). -/
  | rteSkip
  /-- Waits for outstanding work and ends the parcel (R353). -/
  | retire
  /-- A stream fetches a block header and checks stream, edition and loaded region (R165). -/
  | blockFetch
  /-- The count of a STALL runs out and the stream issues again (R180). -/
  | stallEnd
  /-- A fixed-latency result is written at the end of its landing clk (R180). -/
  | resultLand
  /-- The result of an interlocked word arrives and is written to its register (R183). -/
  | interlockedResultArrival
  /-- Data of a reserved granule arrives in a data queue (R170). -/
  | granuleDataArrival
  /-- CYC reaches a TWAIT target and the stream goes on (R338). -/
  | twaitExpiry
  /-- A write to the watched word becomes visible and WAITM rereads it (R339). -/
  | waitmWake
  /-- A QWAIT completes after the result of a wave that declared its job quiet passes (R56). -/
  | qwaitComplete
  /-- Waiting parties leave a completed barrier at T + L (R118). -/
  | barrierRelease
  /-- A combining entry is sent 32 clk after it opened (R213). -/
  | combiningEntrySend
  /-- A sent entry begins injection 3 clk later when the station has an empty slot (R213). -/
  | combiningEntryInject
  /-- A station injects a free slot into the lowest empty track in the chosen direction (R14). -/
  | slotInject
  /-- A slot arrives over a hop, is checked, acknowledged and forwarded or delivered (R29). -/
  | slotHopArrival
  /-- The next station acknowledges a slot, which leaves the retry buffer (R48). -/
  | hopAcknowledge
  /-- A slot that failed its check is retransmitted from the hop's retry buffer (R29). -/
  | hopRetransmit
  /-- A hop's retry limit is exhausted: slots are counted lost, discarded, the hop retrains and loss notices go out (R48). -/
  | retryExhausted
  /-- A hop completes retraining and resends kept KIND 9, 11 and 12 slots (R442). -/
  | hopRetrained
  /-- The egress reinjects returned slots 64 clk after the last arrives (R28). -/
  | returnedSlotReinject
  /-- A timetabled slot enters the destination core's landing buffer (R26). -/
  | timetabledSlotArrival
  /-- The landing buffer writes one slot into X per clk (R26). -/
  | landingBufferDrain
  /-- A waystation receives a trunk group, checks it and steers the clock (R32). -/
  | trunkGroupArrival
  /-- A difference above 2 clk for 64 groups declares the link out of lock (R34). -/
  | linkOutOfLock
  /-- A trunk lane fails and the link runs on 17 lanes or leaves service (R19). -/
  | laneFailure
  /-- Trunk links train, measure latencies and align CYC across the pod (R31). -/
  | linkBringUp
  /-- A mirror's acceptance releases a retained mirror copy (R36). -/
  | mirrorAcceptance
  /-- A reset notice from a module arrives and the module is declared lost (R37). -/
  | resetNoticeArrival
  /-- An active message is written to an inbox and its descriptor pushed to q15, or refused (R45). -/
  | activeMessageArrival
  /-- A posted write is written into X, a displaced copy or memory, or dropped (R205). -/
  | postedWriteArrival
  /-- A remote read is performed and its reply injected (R44). -/
  | remoteReadRequest
  /-- Read data arrives and is written into the requester's register or queue (R44). -/
  | remoteReadReply
  /-- A remote atomic is performed at the home and its reply injected (R240). -/
  | remoteAtomicRequest
  /-- An atomic reply arrives at the requester (R44). -/
  | remoteAtomicReply
  /-- Migration data is written at its destination (R44). -/
  | migrationDataArrival
  /-- A loss notice reaches the source and raises LOSS or goes to management core 0 (R48). -/
  | lossNoticeArrival
  /-- A credit for a performed line arrives and raises CUR (R214). -/
  | creditReturn
  /-- A module muster wave begins every 2,048 clk (R53). -/
  | moduleWaveBegin
  /-- A pod muster wave begins every 32,768 clk (R57). -/
  | podWaveBegin
  /-- A part of a pod wave leaves the leader at W_n (R441). -/
  | podWavePart
  /-- A station merges its bits or counters into a passing muster slot (R54). -/
  | musterSlotMerge
  /-- The roll returns to the leader, which takes up to 256 jobs (R54). -/
  | musterRollReturn
  /-- An opening notice arrives and a FREE job enters OPEN (R52). -/
  | jobOpenNotice
  /-- A closing notice arrives and the job enters CLOSING at the station (R62). -/
  | jobCloseNotice
  /-- A free notice zeroes the job's counters and sets it FREE (R63). -/
  | jobFreeNotice
  /-- A station empties, zeroes its counters, becomes unrepaired and sends reset notices (R58). -/
  | stationReset
  /-- The named station applies a repair delta and abandons waves through it (R59). -/
  | mrepairArrival
  /-- A SIGNAL slot reaches its target context and raises SIGNAL or is discarded (R341). -/
  | signalArrival
  /-- An invalidation marker enters the copy queues and request order of a target core (R236). -/
  | invalidationMarkerArrival
  /-- A table walk ends with a leaf in the TLB or a page fault (R229). -/
  | tlbWalkComplete
  /-- A fault stops the context, saves its frame, writes the record and switches bank (R233). -/
  | pageFault
  /-- A fault answered with VERDICT 0 makes the context ready to rerun the faulting word (R234). -/
  | fnfresRetry
  /-- A fault answered with VERDICT 1 resumes the context to raise PERM or copy error 1 (R234). -/
  | fnfresRaisePerm
  /-- A fault answered with VERDICT 2 ends the plat with cause PERM (R234). -/
  | fnfresEndPlat
  /-- A write with VERDICT 3 answers nothing (R232). -/
  | fnfresAnswerNothing
  /-- A bank switch ends and the new bank issues (R138). -/
  | bankSwitchComplete
  /-- A pending cause is delivered at a C-stream boundary and the streams stop (R285). -/
  | trapDelivery
  /-- At t_c the pipelines stop, results are latched and the frame is written (R288). -/
  | trapCapture
  /-- The handler's first word issues at t_c + 24, or the plat ends without a handler (R289). -/
  | handlerStart
  /-- The context resumes at t_r with its stop points, latches and slip (R293). -/
  | rteResume
  /-- A result latch writes its register at t_r + r − 1 (R293). -/
  | latchReinject
  /-- CYC equals TIMECMP and TIMER becomes pending (R286). -/
  | timerMatch
  /-- A copy command is not complete at its promised cycle (R179). -/
  | promiseMiss
  /-- An eligible command with its token and room begins, swapping setup and pushing its promise (R171). -/
  | engineCommandBegin
  /-- An engine issues one micro-step of its command (R432). -/
  | engineMicroStep
  /-- A command's last data write completes and it signals its token (R176). -/
  | engineCommandComplete
  /-- A correctable SRAM error freezes the core for 40 clk and starts a self-test (R185). -/
  | eccFreezeBegin
  /-- A freeze ends and the slip of every stream rises by 40 (R186). -/
  | eccFreezeEnd
  /-- A targeted self-test ends: a pass counts a soft error, a fail quarantines or strikes the unit (R100). -/
  | selfTestEnd
  /-- A context consumes an uncorrectable error: rollback or POISON (R109). -/
  | uncorrectableErrorConsumed
  /-- A memory controller finds an uncorrectable error and tests the row (R98). -/
  | memoryUncorrectableError
  /-- The second member's slot arrives and the pair's slots are compared (R103). -/
  | pairSlotCompare
  /-- The second slot has not arrived within 64 clk and CHECK is raised (R103). -/
  | pairCompareTimeout
  /-- A die's periodic resurvey begins at its PTIME slot (R97). -/
  | periodicResurvey
  /-- The resurvey ends and publishes its results (R97). -/
  | resurveyEnd
  /-- At E, SURVEY_CHANGE is posted to touched plats and guarded timing begins (R110). -/
  | surveyChangePost
  /-- A junction reading of 105 °C stops all plats at their next waypoints (R11). -/
  | thermalStop
  /-- A reading of 115 °C removes core rail power within 1 ms (R11). -/
  | thermalPowerOff
  /-- At D_k each die sends its ready or failed verdict (R128). -/
  | readinessDeadline
  /-- A verdict from another die of the plat arrives (R128). -/
  | readinessVerdict
  /-- At S_k − 1,024 a missing or failed verdict withdraws the plat (R128). -/
  | verdictTimeout
  /-- At S_k every stream of every parcel starts in its release state (R132). -/
  | platRelease
  /-- A waiting plat's effective priority rises after 2^20 clk (R134). -/
  | priorityAging
  /-- An equal-priority occupant has run 2^20 clk and pre-emption is requested (R135). -/
  | runQuantumExpiry
  /-- An occupant not stopped 2^20 clk after the request is forcibly stopped (R136). -/
  | forcedStop
  /-- The scheduler resumes a pre-empted plat from its records or banks (R137). -/
  | platResume
  /-- A management core loads a code object into a plat and writes the result (R161). -/
  | loaderRequest
  /-- The translator fills templates for current editions and emits a code object (R147). -/
  | templatePass
  /-- A background pass writes a new code object from stall counters (R148). -/
  | profilePass
  /-- Selects a job and snapshots its manifest counters (R50). -/
  | manselWrite
  /-- Sends an opening notice for a job, or updates ERR only (R52). -/
  | jopenWrite
  /-- Sends a closing notice for a job to every station (R61). -/
  | jcloseWrite
  /-- Writing 1 to FULL clears FULL and NEXT, emptying the loss log (R49). -/
  | losscntClear
  /-- Writes a mirror entry at all four waystations (R35). -/
  | mirentWrite
  /-- Clearing PLOST restores a module as primary (R39). -/
  | plostClear
  /-- A write of 1 takes a free semaphore, with round-robin ties (R71). -/
  | hsemAcquire
  /-- A write of 0 by the owner frees the semaphore (R71). -/
  | hsemRelease
  /-- Starts a function reset that stops contexts, ends plats and closes jobs (R74). -/
  | fnctlRst
  /-- Every job of the function reads FREE and RST clears (R74). -/
  | functionResetComplete
  /-- Finalises feature negotiation and locks FEATACC (R74). -/
  | fnctlGo
  /-- Enables or disables the function (R74). -/
  | fnctlEn
  /-- Assigns the function's job range or sets JOBERR (R75). -/
  | fnjobsWrite
  /-- Writes accepted features or sets FEATERR (R76). -/
  | feataccWrite
  /-- Masks features of a VF from each context's next bank activation (R76). -/
  | featmaskWrite
  /-- Sends MSI-X vector n of the function (R73). -/
  | fnnotifyWrite
  /-- Zeroes the selected error counters (R77). -/
  | fnerrclrWrite
  /-- Starts a signed attestation report over the nonce (R84). -/
  | attctlRequest
  /-- The attestation report is written and marked ready (R84). -/
  | attestReportReady
  /-- Writing 1 requests DEBUG for a context (R286). -/
  | dbgreqRequest
  /-- Writing 0 withdraws a pending DEBUG request (R286). -/
  | dbgreqWithdraw
  /-- A write to a register with no behaviour of its own, under the access rules (R4). -/
  | registerWrite
  /-- A host write through BAR2 becomes visible in port order (R81). -/
  | hostBar2Write
  /-- A host read of module memory through BAR2, translated for a VF (R67). -/
  | hostBar2Read
  /-- A configuration request, answered with retry status until boot completes (R67). -/
  | hostConfigRequest
  /-- A port's PF reset or link loss frees its semaphores (R71). -/
  | portReset
  /-- The boot ROM starts management core 0 and the boot sequence (R82). -/
  | powerOn
  /-- No DHCPv6 answer within 2 s, so DHCP is used (R82). -/
  | dhcpv6Timeout
  /-- A fetched image is checked and accepted or another server is tried (R82). -/
  | imageFetchComplete
  /-- The management cores raise the fused minimum version (R85). -/
  | firmwareUpdate
  /-- The module is reset and locks and registers return to reset values (R4). -/
  | moduleReset
  /-- IEEE 1588 updates PTIME and disciplines the nominal frequency (R32). -/
  | ptimeSync
  /-- An MREPAIR that has had no answer within 65,536 clk completes with status 2 in rd (R354). -/
  | mrepairNoAnswer
  /-- A host port finishes link training or leaves reset, so that its functions stop counting as disabled and take part again, including as the recipient of fault records (R66). -/
  | hostPortTrained
deriving DecidableEq, Repr

end Sys2Proof
end

