-- ==== Sys2Proof/Event.lean ====
section
/-! DEFINITION. The events of the device and of the outside world with the operands they carry: one constructor for each row
of spec/opcode_table.json that has no encoding, and the row it is. -/

namespace Sys2Proof

/-- An event and its operands. -/
inductive Event where
  /-- A stream fetches a block header and checks stream, edition and loaded region (R165). -/
  | blockFetch
  /-- The count of a STALL runs out and the stream issues again (R180). -/
  | stallEnd (s : StreamId)
  /-- A fixed-latency result is written at the end of its landing clk (R180). -/
  | resultLand (s : StreamId) (id : Nat)
  /-- The result of an interlocked word arrives and is written to its register (R183). -/
  | interlockedResultArrival (s : StreamId) (id : Nat)
  /-- Data of a reserved granule arrives in a data queue (R170). -/
  | granuleDataArrival (c : CtxId) (q ticket : Nat) (data : List Elem)
  /-- CYC reaches a TWAIT target and the stream goes on (R338). -/
  | twaitExpiry (s : StreamId)
  /-- A write to the watched word becomes visible and WAITM rereads it (R339). -/
  | waitmWake (s : StreamId)
  /-- A QWAIT completes after the result of a wave that declared its job quiet passes (R56). -/
  | qwaitComplete (c : CtxId) (pod : Bool) (w : Nat)
  /-- Waiting parties leave a completed barrier at T + L (R118). -/
  | barrierRelease (u : BarUnit) (phase : Nat)
  /-- A combining entry is sent 32 clk after it opened (R213). -/
  | combiningEntrySend (core id : Nat)
  /-- A sent entry begins injection 3 clk later when the station has an empty slot (R213). -/
  | combiningEntryInject (core id : Nat)
  /-- A station injects a free slot into the lowest empty track in the chosen direction (R14). -/
  | slotInject (sta : Nat)
  /-- A slot arrives over a hop, is checked, acknowledged and forwarded or delivered (R29). -/
  | slotHopArrival (hop : HopId) (slot : Slot) (intact : Bool)
  /-- The next station acknowledges a slot, which leaves the retry buffer (R48). -/
  | hopAcknowledge (hop : HopId) (seq : BitVec 16)
  /-- A slot that failed its check is retransmitted from the hop's retry buffer (R29). -/
  | hopRetransmit (hop : HopId) (seq : BitVec 16)
  /-- A hop's retry limit is exhausted: slots are counted lost, discarded, the hop retrains and loss notices go out (R48). -/
  | retryExhausted (hop : HopId)
  /-- A hop completes retraining and resends kept KIND 9, 11 and 12 slots (R442). -/
  | hopRetrained (hop : HopId)
  /-- The egress reinjects returned slots 64 clk after the last arrives (R28). -/
  | returnedSlotReinject (core : Nat)
  /-- A timetabled slot enters the destination core's landing buffer (R26). -/
  | timetabledSlotArrival (core : Nat) (slot : Slot)
  /-- The landing buffer writes one slot into X per clk (R26). -/
  | landingBufferDrain (core : Nat)
  /-- A waystation receives a trunk group, checks it and steers the clock (R32). -/
  | trunkGroupArrival (sta : Nat) (ccw : Bool) (seq : BitVec 16) (intact : Bool)
  /-- A difference above 2 clk for 64 groups declares the link out of lock (R34). -/
  | linkOutOfLock (sta : Nat) (ccw : Bool)
  /-- A trunk lane fails and the link runs on 17 lanes or leaves service (R19). -/
  | laneFailure (sta : Nat) (ccw : Bool) (failed : Nat)
  /-- Trunk links train, measure latencies and align CYC across the pod (R31). -/
  | linkBringUp (mods : List Nat) (links : List LinkReport)
  /-- A module sets CYC at its frame boundary to the value that the root sent at a clk, within link bring-up (R31). -/
  | podCycAlign (mod sent : Nat) (v : Word)
  /-- A mirror's acceptance releases a retained mirror copy (R36). -/
  | mirrorAcceptance (slot : Slot)
  /-- A reset notice from a module arrives and the module is declared lost (R37). -/
  | resetNoticeArrival (sta : Nat) (slot : Slot)
  /-- An active message is written to an inbox and its descriptor pushed to q15, or refused (R45). -/
  | activeMessageArrival (slot : Slot)
  /-- A posted write is written into X, a displaced copy or memory, or dropped (R205). -/
  | postedWriteArrival (slot : Slot)
  /-- A remote read is performed and its reply injected (R44). -/
  | remoteReadRequest (slot : Slot)
  /-- Read data arrives and is written into the requester's register or queue (R44). -/
  | remoteReadReply (slot : Slot)
  /-- A remote atomic is performed at the home and its reply injected (R240). -/
  | remoteAtomicRequest (slot : Slot)
  /-- An atomic reply arrives at the requester (R44). -/
  | remoteAtomicReply (slot : Slot)
  /-- Migration data is written at its destination (R44). -/
  | migrationDataArrival (slot : Slot)
  /-- A loss notice reaches the source and raises LOSS or goes to management core 0 (R48). -/
  | lossNoticeArrival (slot : Slot)
  /-- A credit for a performed line arrives and raises CUR (R214). -/
  | creditReturn (slot : Slot)
  /-- A module muster wave begins every 2,048 clk (R53). -/
  | moduleWaveBegin (mod : Nat)
  /-- A pod muster wave begins every 32,768 clk (R57). -/
  | podWaveBegin
  /-- A part of a pod wave leaves the leader at W_n (R441). -/
  | podWavePart (part : Nat)
  /-- A station merges its bits or counters into a passing muster slot (R54). -/
  | musterSlotMerge (lead : WaveId) (part place sta : Nat)
  /-- The roll returns to the leader, which takes up to 256 jobs (R54). -/
  | musterRollReturn (lead : WaveId)
  /-- An opening notice arrives and a FREE job enters OPEN (R52). -/
  | jobOpenNotice (sta : Nat) (job : BitVec 12)
  /-- A closing notice arrives and the job enters CLOSING at the station (R62). -/
  | jobCloseNotice (sta : Nat) (job : BitVec 12)
  /-- A free notice zeroes the job's counters and sets it FREE (R63). -/
  | jobFreeNotice (sta : Nat) (job : BitVec 12)
  /-- A station empties, zeroes its counters, becomes unrepaired and sends reset notices (R58). -/
  | stationReset (sta : Nat)
  /-- The named station applies a repair delta and abandons waves through it (R59). -/
  | mrepairArrival (sta : Nat) (desc : Word) (s : StreamId) (id : Nat)
  /-- A SIGNAL slot reaches its target context and raises SIGNAL or is discarded (R341). -/
  | signalArrival (slot : Slot)
  /-- An invalidation marker enters the copy queues and request order of a target core (R236). -/
  | invalidationMarkerArrival (core : Nat) (slot : Slot)
  /-- A table walk ends with a leaf in the TLB or a page fault (R229). -/
  | tlbWalkComplete (core : Nat) (r : WalkReq)
  /-- A fault stops the context, saves its frame, writes the record and switches bank (R233). -/
  | pageFault (r : WalkReq) (kind level : Nat)
  /-- A fault answered with VERDICT 0 makes the context ready to rerun the faulting word (R234). -/
  | fnfresRetry (mod port : Nat) (slot : BitVec 6)
  /-- A fault answered with VERDICT 1 resumes the context to raise PERM or copy error 1 (R234). -/
  | fnfresRaisePerm (mod port : Nat) (slot : BitVec 6)
  /-- A fault answered with VERDICT 2 ends the plat with cause PERM (R234). -/
  | fnfresEndPlat (mod port : Nat) (slot : BitVec 6)
  /-- A write with VERDICT 3 answers nothing (R232). -/
  | fnfresAnswerNothing (mod port : Nat) (slot : BitVec 6)
  /-- A bank switch ends and the new bank issues (R138). -/
  | bankSwitchComplete (core : Nat)
  /-- A pending cause is delivered at a C-stream boundary and the streams stop (R285). -/
  | trapDelivery (c : CtxId)
  /-- At t_c the pipelines stop, results are latched and the frame is written (R288). -/
  | trapCapture (c : CtxId)
  /-- The handler's first word issues at t_c + 24, or the plat ends without a handler (R289). -/
  | handlerStart (c : CtxId)
  /-- The context resumes at t_r with its stop points, latches and slip (R293). -/
  | rteResume (c : CtxId)
  /-- A result latch writes its register at t_r + r − 1 (R293). -/
  | latchReinject (s : StreamId) (id : Nat)
  /-- CYC equals TIMECMP and TIMER becomes pending (R286). -/
  | timerMatch (c : CtxId)
  /-- A copy command is not complete at its promised cycle (R179). -/
  | promiseMiss (c : CtxId) (tag : BitVec 16)
  /-- An eligible command with its token and room begins, swapping setup and pushing its promise (R171). -/
  | engineCommandBegin (c : CtxId) (e : EngQ)
  /-- An engine issues one micro-step of its command (R432). -/
  | engineMicroStep (c : CtxId) (e : EngQ)
  /-- A command's last data write completes and it signals its token (R176). -/
  | engineCommandComplete (c : CtxId) (e : EngQ)
  /-- A correctable SRAM error freezes the core for 40 clk and starts a self-test (R185). -/
  | eccFreezeBegin (core : Nat) (unit : UnitId) (passes : Bool)
  /-- A freeze ends and the slip of every stream rises by 40 (R186). -/
  | eccFreezeEnd (core : Nat)
  /-- A targeted self-test ends: a pass counts a soft error, a fail quarantines or strikes the unit (R100). -/
  | selfTestEnd (die : Nat) (unit : UnitId) (passes : Bool)
  /-- A context consumes an uncorrectable error: rollback or POISON (R109). -/
  | uncorrectableErrorConsumed (c : CtxId) (addr : Word) (test : Option (UnitId × Bool))
  /-- A memory controller finds an uncorrectable error and tests the row (R98). -/
  | memoryUncorrectableError (die : Nat) (unit : UnitId) (passes : Bool)
  /-- The second member's slot arrives and the pair's slots are compared (R103). -/
  | pairSlotCompare (core : Nat) (slot : Slot) (at_ : Option (Nat × Nat × Nat))
  /-- The second slot has not arrived within 64 clk and CHECK is raised (R103). -/
  | pairCompareTimeout (core : Nat) (seq : Nat)
  /-- A die's periodic resurvey begins at its PTIME slot (R97). -/
  | periodicResurvey (die : Nat)
  /-- The resurvey ends and publishes its results (R97). -/
  | resurveyEnd (die : Nat) (changes : List UnitChange) (lats : List (Nat × Nat))
  /-- At E, SURVEY_CHANGE is posted to touched plats and guarded timing begins (R110). -/
  | surveyChangePost (die : Nat) (edition : BitVec 32) (skip : List Word)
  /-- A junction reading of 105 °C stops all plats at their next waypoints (R11). -/
  | thermalStop (mod : Nat)
  /-- A reading of 115 °C removes core rail power within 1 ms (R11). -/
  | thermalPowerOff (mod : Nat)
  /-- At D_k each die sends its ready or failed verdict (R128). -/
  | readinessDeadline (die : Nat) (plat : Word) (k : Nat)
  /-- A verdict from another die of the plat arrives (R128). -/
  | readinessVerdict (die : Nat) (plat : Word) (frm k verdict : Nat)
  /-- At S_k − 1,024 a missing or failed verdict withdraws the plat (R128). -/
  | verdictTimeout (die : Nat) (plat : Word) (k : Nat)
  /-- At S_k every stream of every parcel starts in its release state (R132). -/
  | platRelease (die : Nat) (plat : Word) (k : Nat)
  /-- A waiting plat's effective priority rises after 2^20 clk (R134). -/
  | priorityAging (die : Nat) (plat : Word)
  /-- An equal-priority occupant has run 2^20 clk and pre-emption is requested (R135). -/
  | runQuantumExpiry (die : Nat) (plat : Word)
  /-- An occupant not stopped 2^20 clk after the request is forcibly stopped (R136). -/
  | forcedStop (die : Nat) (plat : Word)
  /-- The scheduler resumes a pre-empted plat from its records or banks (R137). -/
  | platResume (die : Nat) (plat : Word)
  /-- A management core loads a code object into a plat and writes the result (R161). -/
  | loaderRequest (die : Nat) (va : Word)
  /-- The translator fills templates for current editions and emits a code object (R147). -/
  | templatePass (mod : Nat) (out : List (Nat × List Byte))
  /-- A background pass writes a new code object from stall counters (R148). -/
  | profilePass (mod : Nat) (editions : List (Nat × BitVec 32)) (out : List (Nat × List Byte))
  /-- Selects a job and snapshots its manifest counters (R50). -/
  | manselWrite (sta : Nat) (v : Word)
  /-- Sends an opening notice for a job, or updates ERR only (R52). -/
  | jopenWrite (sta : Nat) (v : Word)
  /-- Sends a closing notice for a job to every station (R61). -/
  | jcloseWrite (sta : Nat) (v : Word)
  /-- Writing 1 to FULL clears FULL and NEXT, emptying the loss log (R49). -/
  | losscntClear (sta : Nat) (v : Word)
  /-- Writes a mirror entry at all four waystations (R35). -/
  | mirentWrite (sta n : Nat) (v : Word)
  /-- Clearing PLOST restores a module as primary (R39). -/
  | plostClear (sta n : Nat) (v : Word)
  /-- A write of 1 takes a free semaphore, with round-robin ties (R71). -/
  | hsemAcquire (mod n : Nat) (who : List Nat)
  /-- A write of 0 by the owner frees the semaphore (R71). -/
  | hsemRelease (mod n who : Nat)
  /-- Starts a function reset that stops contexts, ends plats and closes jobs (R74). -/
  | fnctlRst (mod f : Nat)
  /-- Every job of the function reads FREE and RST clears (R74). -/
  | functionResetComplete (mod f : Nat)
  /-- Finalises feature negotiation and locks FEATACC (R74). -/
  | fnctlGo (mod f : Nat)
  /-- Enables or disables the function (R74). -/
  | fnctlEn (mod f : Nat) (on : Bool)
  /-- Assigns the function's job range or sets JOBERR (R75). -/
  | fnjobsWrite (mod f : Nat) (v : Word)
  /-- Writes accepted features or sets FEATERR (R76). -/
  | feataccWrite (mod f hi : Nat) (v : Word)
  /-- Masks features of a VF from each context's next bank activation (R76). -/
  | featmaskWrite (mod f hi : Nat) (v : Word)
  /-- Sends MSI-X vector n of the function (R73). -/
  | fnnotifyWrite (mod f : Nat) (v : Word)
  /-- Zeroes the selected error counters (R77). -/
  | fnerrclrWrite (mod f : Nat) (v : Word)
  /-- Starts a signed attestation report over the nonce (R84). -/
  | attctlRequest (mod f : Nat)
  /-- The attestation report is written and marked ready (R84). -/
  | attestReportReady (mod f : Nat)
  /-- Writing 1 requests DEBUG for a context (R286). -/
  | dbgreqRequest (c : CtxId)
  /-- Writing 0 withdraws a pending DEBUG request (R286). -/
  | dbgreqWithdraw (c : CtxId)
  /-- A write to a register with no behaviour of its own, under the access rules (R4). -/
  | registerWrite (mod off : Nat) (v : Word) (mask : Word) (who : Nat)
  /-- A host write through BAR2 becomes visible in port order (R81). -/
  | hostBar2Write (mod f off : Nat) (data : List Byte)
  /-- A host read of module memory through BAR2, translated for a VF (R67). -/
  | hostBar2Read (mod f off n : Nat)
  /-- A host reads register space through BAR0 of a function (R67): the address, the width in bytes. -/
  | hostBar0Read (mod f off n : Nat)
  /-- A host writes register space through BAR0 of a function, a register write (R4, R67). -/
  | hostBar0Write (mod f off n : Nat) (v : Word)
  /-- A configuration request, answered with retry status until boot completes (R67). -/
  | hostConfigRequest (mod port : Nat)
  /-- A port's PF reset or link loss frees its semaphores (R71). -/
  | portReset (mod port : Nat)
  /-- The boot ROM starts management core 0 and the boot sequence (R82). -/
  | powerOn (mod : Nat)
  /-- The boot that POWER_ON begins reaches a step (R82): 1, no answer on an Ethernet port; 2, an address and an image name through one;
  5, the management cores of every die run. -/
  | bootStep (mod step port : Nat)
  /-- No DHCPv6 answer within 2 s, so DHCP is used (R82). -/
  | dhcpv6Timeout (mod : Nat)
  /-- A fetched image is checked and accepted or another server is tried (R82). -/
  | imageFetchComplete (mod : Nat) (keyHash imgHash : List Byte) (version : Word) (signed : Bool)
  /-- The management cores raise the fused minimum version (R85). -/
  | firmwareUpdate (mod : Nat) (version : Word)
  /-- The module is reset and locks and registers return to reset values (R4). -/
  | moduleReset (mod : Nat)
  /-- IEEE 1588 updates PTIME and disciplines the nominal frequency (R32). -/
  | ptimeSync (mod : Nat) (t : Word)
  /-- An MREPAIR that has had no answer within 65,536 clk completes with status 2 in rd (R354). -/
  | mrepairNoAnswer (s : StreamId) (id : Nat)
  /-- A host port finishes link training or leaves reset, so that its functions stop counting as disabled and take part again, including as the recipient of fault records (R66). -/
  | hostPortTrained (mod port : Nat)
deriving DecidableEq, Repr

/-- The row of the opcode table that an event is. -/
def Event.instr : Event → Instr
  | .blockFetch .. => .blockFetch
  | .stallEnd .. => .stallEnd
  | .resultLand .. => .resultLand
  | .interlockedResultArrival .. => .interlockedResultArrival
  | .granuleDataArrival .. => .granuleDataArrival
  | .twaitExpiry .. => .twaitExpiry
  | .waitmWake .. => .waitmWake
  | .qwaitComplete .. => .qwaitComplete
  | .barrierRelease .. => .barrierRelease
  | .combiningEntrySend .. => .combiningEntrySend
  | .combiningEntryInject .. => .combiningEntryInject
  | .slotInject .. => .slotInject
  | .slotHopArrival .. => .slotHopArrival
  | .hopAcknowledge .. => .hopAcknowledge
  | .hopRetransmit .. => .hopRetransmit
  | .retryExhausted .. => .retryExhausted
  | .hopRetrained .. => .hopRetrained
  | .returnedSlotReinject .. => .returnedSlotReinject
  | .timetabledSlotArrival .. => .timetabledSlotArrival
  | .landingBufferDrain .. => .landingBufferDrain
  | .trunkGroupArrival .. => .trunkGroupArrival
  | .linkOutOfLock .. => .linkOutOfLock
  | .laneFailure .. => .laneFailure
  | .linkBringUp .. => .linkBringUp
  | .podCycAlign .. => .linkBringUp
  | .mirrorAcceptance .. => .mirrorAcceptance
  | .resetNoticeArrival .. => .resetNoticeArrival
  | .activeMessageArrival .. => .activeMessageArrival
  | .postedWriteArrival .. => .postedWriteArrival
  | .remoteReadRequest .. => .remoteReadRequest
  | .remoteReadReply .. => .remoteReadReply
  | .remoteAtomicRequest .. => .remoteAtomicRequest
  | .remoteAtomicReply .. => .remoteAtomicReply
  | .migrationDataArrival .. => .migrationDataArrival
  | .lossNoticeArrival .. => .lossNoticeArrival
  | .creditReturn .. => .creditReturn
  | .moduleWaveBegin .. => .moduleWaveBegin
  | .podWaveBegin .. => .podWaveBegin
  | .podWavePart .. => .podWavePart
  | .musterSlotMerge .. => .musterSlotMerge
  | .musterRollReturn .. => .musterRollReturn
  | .jobOpenNotice .. => .jobOpenNotice
  | .jobCloseNotice .. => .jobCloseNotice
  | .jobFreeNotice .. => .jobFreeNotice
  | .stationReset .. => .stationReset
  | .mrepairArrival .. => .mrepairArrival
  | .signalArrival .. => .signalArrival
  | .invalidationMarkerArrival .. => .invalidationMarkerArrival
  | .tlbWalkComplete .. => .tlbWalkComplete
  | .pageFault .. => .pageFault
  | .fnfresRetry .. => .fnfresRetry
  | .fnfresRaisePerm .. => .fnfresRaisePerm
  | .fnfresEndPlat .. => .fnfresEndPlat
  | .fnfresAnswerNothing .. => .fnfresAnswerNothing
  | .bankSwitchComplete .. => .bankSwitchComplete
  | .trapDelivery .. => .trapDelivery
  | .trapCapture .. => .trapCapture
  | .handlerStart .. => .handlerStart
  | .rteResume .. => .rteResume
  | .latchReinject .. => .latchReinject
  | .timerMatch .. => .timerMatch
  | .promiseMiss .. => .promiseMiss
  | .engineCommandBegin .. => .engineCommandBegin
  | .engineMicroStep .. => .engineMicroStep
  | .engineCommandComplete .. => .engineCommandComplete
  | .eccFreezeBegin .. => .eccFreezeBegin
  | .eccFreezeEnd .. => .eccFreezeEnd
  | .selfTestEnd .. => .selfTestEnd
  | .uncorrectableErrorConsumed .. => .uncorrectableErrorConsumed
  | .memoryUncorrectableError .. => .memoryUncorrectableError
  | .pairSlotCompare .. => .pairSlotCompare
  | .pairCompareTimeout .. => .pairCompareTimeout
  | .periodicResurvey .. => .periodicResurvey
  | .resurveyEnd .. => .resurveyEnd
  | .surveyChangePost .. => .surveyChangePost
  | .thermalStop .. => .thermalStop
  | .thermalPowerOff .. => .thermalPowerOff
  | .readinessDeadline .. => .readinessDeadline
  | .readinessVerdict .. => .readinessVerdict
  | .verdictTimeout .. => .verdictTimeout
  | .platRelease .. => .platRelease
  | .priorityAging .. => .priorityAging
  | .runQuantumExpiry .. => .runQuantumExpiry
  | .forcedStop .. => .forcedStop
  | .platResume .. => .platResume
  | .loaderRequest .. => .loaderRequest
  | .templatePass .. => .templatePass
  | .profilePass .. => .profilePass
  | .manselWrite .. => .manselWrite
  | .jopenWrite .. => .jopenWrite
  | .jcloseWrite .. => .jcloseWrite
  | .losscntClear .. => .losscntClear
  | .mirentWrite .. => .mirentWrite
  | .plostClear .. => .plostClear
  | .hsemAcquire .. => .hsemAcquire
  | .hsemRelease .. => .hsemRelease
  | .fnctlRst .. => .fnctlRst
  | .functionResetComplete .. => .functionResetComplete
  | .fnctlGo .. => .fnctlGo
  | .fnctlEn .. => .fnctlEn
  | .fnjobsWrite .. => .fnjobsWrite
  | .feataccWrite .. => .feataccWrite
  | .featmaskWrite .. => .featmaskWrite
  | .fnnotifyWrite .. => .fnnotifyWrite
  | .fnerrclrWrite .. => .fnerrclrWrite
  | .attctlRequest .. => .attctlRequest
  | .attestReportReady .. => .attestReportReady
  | .dbgreqRequest .. => .dbgreqRequest
  | .dbgreqWithdraw .. => .dbgreqWithdraw
  | .registerWrite .. => .registerWrite
  | .hostBar2Write .. => .hostBar2Write
  | .hostBar2Read .. => .hostBar2Read
  | .hostBar0Read .. => .hostBar2Read
  | .hostBar0Write .. => .registerWrite
  | .hostConfigRequest .. => .hostConfigRequest
  | .portReset .. => .portReset
  | .powerOn .. => .powerOn
  | .bootStep .. => .powerOn
  | .dhcpv6Timeout .. => .dhcpv6Timeout
  | .imageFetchComplete .. => .imageFetchComplete
  | .firmwareUpdate .. => .firmwareUpdate
  | .moduleReset .. => .moduleReset
  | .ptimeSync .. => .ptimeSync
  | .mrepairNoAnswer .. => .mrepairNoAnswer
  | .hostPortTrained .. => .hostPortTrained

end Sys2Proof
end

