-- ==== Sys2Proof/Machine/Bits.lean ====
section
/-! DEFINITION. Bit fields, sign extension and byte order (00 R1, R2; 13 R316). -/

namespace Sys2Proof.Machine

/-- Bits [hi:lo] of a number, `len` of them from `lo` up (00 R1). -/
def fieldOf (w lo len : Nat) : Nat := (w >>> lo) % 2 ^ len

/-- The field of a 64-bit register as a number. -/
def wfield (w : Word) (lo len : Nat) : Nat := fieldOf w.toNat lo len

/-- Bit `i` of a 64-bit register. -/
def wbit (w : Word) (i : Nat) : Bool := w.getLsbD i

/-- `w` with its `len` bits from `lo` up replaced by those of `v`. -/
def withField (w : Word) (lo len v : Nat) : Word :=
  BitVec.ofNat 64 (w.toNat - (fieldOf w.toNat lo len) * 2 ^ lo + (v % 2 ^ len) * 2 ^ lo)

/-- `sext(x, n)` of 13 R316, as an integer. -/
def sextInt (n x : Nat) : Int :=
  let y := x % 2 ^ n
  if n = 0 then 0 else if y < 2 ^ (n - 1) then (y : Int) else (y : Int) - (2 ^ n : Nat)

/-- `sext(x, n)` widened to 64 bits (13 R316). -/
def sextW (n x : Nat) : Word := BitVec.ofInt 64 (sextInt n x)

/-- A Boolean as one bit. -/
def bit (b : Bool) : Nat := if b then 1 else 0

/-- The `n` bytes of a value, lowest first (00 R2). -/
def bytesLE : Nat → Nat → List Byte
  | 0, _ => []
  | n + 1, v => BitVec.ofNat 8 v :: bytesLE n (v / 256)

/-- The value of bytes that stand lowest first (00 R2). -/
def ofBytesLE : List Byte → Nat
  | [] => 0
  | b :: bs => b.toNat + 256 * ofBytesLE bs

/-- A list cut into pieces of `k`; `fuel` bounds the number of pieces. -/
def chunks {α : Type} (k : Nat) : Nat → List α → List (List α)
  | 0, _ => []
  | fuel + 1, xs => xs.take k :: chunks k fuel (xs.drop k)

/-- The little-endian values of `n` elements of `k` bytes each. -/
def elemsLE (k n : Nat) (bs : List Byte) : List Nat := (chunks k n bs).map ofBytesLE

end Sys2Proof.Machine
end

