-- ==== Sys2Proof/Machine/Num.lean ====
section
/-! DEFINITION. The number formats of the device and their exact arithmetic (10 R248 to R265, R268). An operand is taken to
an exact value, the operation is done on exact values, and the result is rounded once. -/

namespace Sys2Proof.Machine

/-- The rounding modes, in the codes of VSTAT.RM and DSTAT.RM (R250, 11 R274). -/
inductive RM where
  | rne | rtz | rup | rdn
deriving DecidableEq, Repr

/-- The mode of an RM field (R250). -/
def rmOf (n : Nat) : RM :=
  if n % 4 = 0 then .rne else if n % 4 = 1 then .rtz else if n % 4 = 2 then .rup else .rdn

/-- Sticky flags in the bit positions of VSTAT and DSTAT: NV 8, DZ 9, OF 10, UF 11, NX 12, RANGE or APPROX 13
(R250, 11 R274). -/
abbrev Flags := BitVec 16

def flNV : Flags := 0x100#16
def flDZ : Flags := 0x200#16
def flOF : Flags := 0x400#16
def flUF : Flags := 0x800#16
def flNX : Flags := 0x1000#16
/-- RANGE of VSTAT (R267); APPROX of DSTAT stands at the same bit (11 R274). -/
def flRange : Flags := 0x2000#16

/-- An exact value: a NaN, signalling or quiet, an infinity, or (-1)^neg * m * 2^e, where m = 0 is a signed zero. -/
inductive Val where
  | nan (sig : Bool)
  | inf (neg : Bool)
  | fin (neg : Bool) (m : Nat) (e : Int)
deriving DecidableEq, Repr

/-- The canonical quiet NaN (R249). -/
def canonNaN : Elem := 0x7FC00000#32

/-- The exact value of an FP32 pattern, subnormals included (R248). -/
def valOf (x : Elem) : Val :=
  let b := x.toNat
  let s := x.getLsbD 31
  let ex := fieldOf b 23 8
  let f := fieldOf b 0 23
  if ex = 255 then (if f = 0 then .inf s else .nan (decide (f < 2 ^ 22)))
  else if ex = 0 then .fin s f (-149) else .fin s (f + 2 ^ 23) ((ex : Int) - 150)

def Val.isNaN : Val → Bool
  | .nan _ => true
  | _ => false

def Val.isSig : Val → Bool
  | .nan s => s
  | _ => false

def Val.isInf : Val → Bool
  | .inf _ => true
  | _ => false

def Val.isZero : Val → Bool
  | .fin _ m _ => m == 0
  | _ => false

/-- The sign bit of an exact value. -/
def Val.sign : Val → Bool
  | .nan _ => false
  | .inf s => s
  | .fin s _ _ => s

/-- The value with its sign inverted. -/
def Val.neg : Val → Val
  | .nan s => .nan s
  | .inf s => .inf (!s)
  | .fin s m e => .fin (!s) m e

/-- The value times 2^k, exact. -/
def Val.scale (k : Int) : Val → Val
  | .nan s => .nan s
  | .inf s => .inf s
  | .fin s m e => .fin s m (e + k)

/-- A value from an integer, times 2^e; zero is positive. -/
def Val.ofInt (i : Int) (e : Int) : Val := .fin (decide (i < 0)) i.natAbs e

/-- The signed integer of a finite value in units of 2^e0, for e0 at or below its exponent; 0 for the others. -/
def Val.units (e0 : Int) : Val → Int
  | .fin s m e => let k : Int := (m * 2 ^ (e - e0).toNat : Nat); if s then -k else k
  | _ => 0

/-- The exponent of a finite value, or 0. -/
def Val.exp : Val → Int
  | .fin _ _ e => e
  | _ => 0

/-- Comparison of values that are not NaN: negative, zero or positive as `a` is below, equal to or above `b`; -0 equals +0. -/
def Val.compare (a b : Val) : Int :=
  match a, b with
  | .inf s, .inf t => if s = t then 0 else if s then -1 else 1
  | .inf s, _ => if s then -1 else 1
  | _, .inf t => if t then 1 else -1
  | _, _ => let e0 := Min.min a.exp b.exp; a.units e0 - b.units e0

/-- The exact product; infinity times zero is a NaN that is not signalling. -/
def Val.mul (a b : Val) : Val :=
  match a, b with
  | .nan s, .nan t => .nan (s || t)
  | .nan s, _ => .nan s
  | _, .nan t => .nan t
  | .inf s, .inf t => .inf (s != t)
  | .inf s, .fin t m _ => if m = 0 then .nan false else .inf (s != t)
  | .fin s m _, .inf t => if m = 0 then .nan false else .inf (s != t)
  | .fin s m e, .fin t n f => .fin (s != t) (m * n) (e + f)

/-- The exact sum, with the sign of an exact zero by R248; infinities of opposite sign make a NaN that is not signalling. -/
def Val.add (rm : RM) (a b : Val) : Val :=
  match a, b with
  | .nan s, .nan t => .nan (s || t)
  | .nan s, _ => .nan s
  | _, .nan t => .nan t
  | .inf s, .inf t => if s = t then .inf s else .nan false
  | .inf s, _ => .inf s
  | _, .inf t => .inf t
  | .fin s m e, .fin t n f =>
    let e0 := Min.min e f
    let z := (Val.fin s m e).units e0 + (Val.fin t n f).units e0
    if z = 0 then
      (if m = 0 ∧ n = 0 ∧ s = t then .fin s 0 0 else .fin (rm == .rdn) 0 0)
    else .fin (decide (z < 0)) z.natAbs e0

/-- Whether the result of a rounding moves away from zero, for the fraction r / d of the last place, m the integer below. -/
def roundsUp (rm : RM) (neg : Bool) (m r d : Nat) : Bool :=
  match rm with
  | .rne => decide (2 * r > d) || (decide (2 * r = d) && decide (m % 2 = 1))
  | .rtz => false
  | .rup => decide (r ≠ 0) && !neg
  | .rdn => decide (r ≠ 0) && neg

/-- floor(log2 (n / d)) of a positive rational. -/
def log2Q (n d : Nat) : Int :=
  let k : Int := (Nat.log2 n : Int) - (Nat.log2 d : Int)
  if (if 0 ≤ k then d * 2 ^ k.toNat ≤ n else d ≤ n * 2 ^ (-k).toNat) then k else k - 1

/-- n / d / 2^q as an integer, a remainder and its divisor. -/
def scaledQ (n d : Nat) (q : Int) : Nat × Nat × Nat :=
  let n' := n * 2 ^ (-q).toNat
  let d' := d * 2 ^ q.toNat
  (n' / d', n' % d', d')

/-- The magnitude pattern and the flags of a positive rational n / d, of sign `neg`, rounded to `p` significand bits with
the exponent range of binary32 (R268, `round_fp32` with p 24, `round_bf16` with p 8). The pattern has p - 1 fraction bits.
Tininess is detected after rounding, and UF is set only when the result is also inexact (R252). -/
def roundQ (p : Nat) (rm : RM) (neg : Bool) (n d : Nat) : Nat × Flags :=
  let e := log2Q n d
  let qmin : Int := -125 - (p : Int)
  let q := Max.max (e - (p : Int) + 1) qmin
  let (m, r, dd) := scaledQ n d q
  let m' := if roundsUp rm neg m r dd then m + 1 else m
  let pat := (q - qmin).toNat * 2 ^ (p - 1) + m'
  let top := 255 * 2 ^ (p - 1)
  if pat ≥ top then
    let toInf := match rm with
      | .rne => true
      | .rtz => false
      | .rup => !neg
      | .rdn => neg
    (if toInf then top else top - 1, flOF ||| flNX)
  else
    let inexact := r ≠ 0
    -- the rounding with an unbounded exponent reaches 2^-126 from below only from the binade of 2^-127
    let (mu, ru, du) := scaledQ n d (e - (p : Int) + 1)
    let reaches := e = -127 ∧ mu + 1 = 2 ^ p ∧ roundsUp rm neg mu ru du = true
    let tiny := e < -126 ∧ ¬ reaches
    (pat, if inexact then (if tiny then flNX ||| flUF else flNX) else 0)

/-- A sign and a magnitude pattern as FP32. -/
def packF (neg : Bool) (mag : Nat) : Elem := BitVec.ofNat 32 (if neg then mag + 2 ^ 31 else mag)

/-- `round_fp32` of a rational with a sign; n = 0 gives a zero of that sign (R268). -/
def roundRat (rm : RM) (neg : Bool) (n d : Nat) : Elem × Flags :=
  if n = 0 then (packF neg 0, 0) else let (m, f) := roundQ 24 rm neg n d; (packF neg m, f)

/-- `round_fp32` of an exact value (R268); a NaN gives the canonical NaN and no flag of its own. -/
def roundV (rm : RM) : Val → Elem × Flags
  | .nan _ => (canonNaN, 0)
  | .inf s => (packF s 0x7F800000, 0)
  | .fin s m e => roundRat rm s (m * 2 ^ e.toNat) (2 ^ (-e).toNat)

/-- `round_bf16` of an FP32 value, as its 16-bit pattern (R253, R268). -/
def roundBf16 (rm : RM) (x : Elem) : BitVec 16 × Flags :=
  match valOf x with
  | .nan s => (0x7FC0#16, if s then flNV else 0)
  | .inf s => (if s then 0xFF80#16 else 0x7F80#16, 0)
  | .fin s m e =>
    if m = 0 then (if s then 0x8000#16 else 0#16, 0)
    else let (mag, f) := roundQ 8 rm s (m * 2 ^ e.toNat) (2 ^ (-e).toNat)
      (BitVec.ofNat 16 (if s then mag + 2 ^ 15 else mag), f)

/-- A BF16 pattern widened to FP32 (R253). -/
def widenBf16 (h : BitVec 16) : Elem := h ++ 0#16

/-- The invalid flag of a list of operands: a signalling NaN among them (R249). -/
def sigFlags (vs : List Val) : Flags := if vs.any Val.isSig then flNV else 0

/-- A rounded result with the flags of its operands; a NaN made from operands that are not NaN is invalid (R249, R252). -/
def finish (rm : RM) (ops : List Val) (v : Val) : Elem × Flags :=
  if v.isNaN then (canonNaN, if ops.any Val.isNaN then sigFlags ops else flNV)
  else roundV rm v

/-- a + b rounded (18 R383). -/
def fAdd (rm : RM) (a b : Elem) : Elem × Flags :=
  finish rm [valOf a, valOf b] ((valOf a).add rm (valOf b))

/-- a - b rounded (18 R383). -/
def fSub (rm : RM) (a b : Elem) : Elem × Flags :=
  finish rm [valOf a, valOf b] ((valOf a).add rm (valOf b).neg)

/-- a * b rounded (18 R383). -/
def fMul (rm : RM) (a b : Elem) : Elem × Flags :=
  finish rm [valOf a, valOf b] ((valOf a).mul (valOf b))

/-- (-1)^np * a * b + (-1)^nc * c, rounded once; infinity times zero sets NV even when c is a quiet NaN (18 R384). -/
def fFma (np nc : Bool) (rm : RM) (a b c : Elem) : Elem × Flags :=
  let va := valOf a; let vb := valOf b; let vc := valOf c
  let p := va.mul vb
  let p := if np then p.neg else p
  let c' := if nc then vc.neg else vc
  if p.isNaN && !va.isNaN && !vb.isNaN then (canonNaN, flNV)
  else finish rm [va, vb, vc] (p.add rm c')

/-- Whether `a` stands below `b`, with -0 below +0; for values that are not NaN (18 R383). -/
def belowV (a b : Val) : Bool :=
  let c := a.compare b
  decide (c < 0) || (decide (c = 0) && a.sign && !b.sign)

/-- The smaller of two elements (18 R383). -/
def fMin (a b : Elem) : Elem × Flags :=
  let va := valOf a; let vb := valOf b
  if va.isNaN || vb.isNaN then (canonNaN, sigFlags [va, vb]) else (if belowV vb va then b else a, 0)

/-- The larger of two elements (18 R383). -/
def fMax (a b : Elem) : Elem × Flags :=
  let va := valOf a; let vb := valOf b
  if va.isNaN || vb.isNaN then (canonNaN, sigFlags [va, vb]) else (if belowV va vb then b else a, 0)

/-- The sign bit cleared; a NaN gives the canonical NaN with its sign cleared (18 R383). -/
def fAbs (a : Elem) : Elem := if (valOf a).isNaN then canonNaN else a &&& 0x7FFFFFFF#32

/-- The sign bit inverted; a NaN gives the canonical NaN with the inverse of its sign (18 R383). -/
def fNeg (a : Elem) : Elem :=
  if (valOf a).isNaN then (if a.getLsbD 31 then canonNaN else canonNaN ||| 0x80000000#32) else a ^^^ 0x80000000#32

/-- The integer nearest to an exact value under a mode, and whether it is inexact; 0 for a value that is not finite. -/
def roundToInt (rm : RM) : Val → Int × Bool
  | .fin s m e =>
    let (k, r, d) := scaledQ (m * 2 ^ e.toNat) (2 ^ (-e).toNat) 0
    let k' : Int := (if roundsUp rm s k r d then k + 1 else k : Nat)
    (if s then -k' else k', decide (r ≠ 0))
  | _ => (0, false)

/-- A value clamped between two bounds. -/
def clampInt (lo hi x : Int) : Int := if x < lo then lo else if hi < x then hi else x

/-- FP32 to INT32 under a mode, saturated; a NaN gives 0 (R252). -/
def fToI32 (rm : RM) (a : Elem) : Elem × Flags :=
  match valOf a with
  | .nan _ => (0, flNV)
  | .inf s => (if s then 0x80000000#32 else 0x7FFFFFFF#32, flNV)
  | v =>
    let (k, ix) := roundToInt rm v
    let c := clampInt (-2147483648) 2147483647 k
    (BitVec.ofInt 32 c, if c ≠ k then flNV else if ix then flNX else 0)

/-- INT32 to FP32 under a mode (18 R390). -/
def i32ToF (rm : RM) (a : Elem) : Elem × Flags := roundV rm (Val.ofInt a.toInt 0)

/-! The tapered formats (R254 to R257). -/

/-- A tapered format: n magnitude bits and w exponent bits. -/
structure Taper where
  n : Nat
  w : Nat
deriving DecidableEq, Repr

def t8 : Taper := ⟨7, 2⟩
def t6 : Taper := ⟨5, 1⟩

/-- The count of bits equal to `b` from bit `i - 1` downward. -/
def runLength (m : Nat) (b : Bool) : Nat → Nat
  | 0 => 0
  | i + 1 => if m.testBit i = b then runLength m b i + 1 else 0

/-- The magnitude of a nonzero tapered code m as s * 2^e, s an integer (R254). -/
def taperMag (t : Taper) (m : Nat) : Nat × Int :=
  let b := m.testBit (t.n - 1)
  let k := runLength m b t.n
  let r : Int := if b then (k : Int) - 1 else -(k : Int)
  let rest := if k < t.n then t.n - k - 1 else 0
  let ne := Min.min t.w rest
  let e := fieldOf m (rest - ne) ne * 2 ^ (t.w - ne)
  let nf := rest - ne
  let f := fieldOf m 0 nf
  (2 ^ nf + f, (2 ^ t.w : Nat) * r + (e : Int) - (nf : Int))

/-- `decode_tapered` (R254): the value of a code; NaR is a NaN. -/
def decodeTapered (t : Taper) (c : Nat) : Val :=
  let m := c % 2 ^ t.n
  let s := c.testBit t.n
  if m = 0 then (if s then .nan false else .fin false 0 0)
  else let (k, e) := taperMag t m; .fin s k e

/-- The value of a nonzero magnitude code. -/
def taperVal (t : Taper) (m : Nat) : Val := let (k, e) := taperMag t m; .fin false k e

/-- The largest code from `m` down to 1 whose value is at most `a`, or 1; values rise strictly with the code (R256). -/
def taperFind (t : Taper) (a : Val) : Nat → Nat
  | 0 => 1
  | 1 => 1
  | m + 1 => if (taperVal t (m + 1)).compare a ≤ 0 then m + 1 else taperFind t a m

/-- `encode_tapered` (R257), and the flags of the narrow rounding (R252). -/
def encodeTapered (t : Taper) (x : Val) : Nat × Flags :=
  let sgn (s : Bool) : Nat := if s then 2 ^ t.n else 0
  match x with
  | .nan _ => (2 ^ t.n, flNV)
  | .inf s => (sgn s + 2 ^ t.n - 1, flOF ||| flNX)
  | .fin s m e =>
    if m = 0 then (0, 0) else
    let a := Val.fin false m e
    let top := taperVal t (2 ^ t.n - 1)
    let bot := taperVal t 1
    if 0 ≤ a.compare top then
      (sgn s + 2 ^ t.n - 1, if a.compare top = 0 then 0 else flOF ||| flNX)
    else if a.compare bot ≤ 0 then
      (sgn s + 1, if a.compare bot = 0 then 0 else flUF ||| flNX)
    else
      let k := taperFind t a (2 ^ t.n - 1)
      let lo := taperVal t k; let hi := taperVal t (k + 1)
      let e0 := Min.min a.exp (Min.min lo.exp hi.exp)
      let below := a.units e0 - lo.units e0
      let above := hi.units e0 - a.units e0
      let c := if below < above then k else if above < below then k + 1 else if k % 2 = 0 then k else k + 1
      (sgn s + c, if below = 0 then 0 else flNX)

/-- `VRND` to a tapered format, as FP32 (R257). -/
def roundTapered (t : Taper) (x : Elem) : Elem × Flags :=
  let (c, f) := encodeTapered t (valOf x)
  ((roundV .rne (decodeTapered t c)).1, f)

/-- Narrowing to INT8 (R258): rounded RNE, saturated, a NaN gives 0. -/
def toInt8 (v : Val) : Byte :=
  match v with
  | .nan _ => 0
  | .inf s => if s then 0x80#8 else 0x7F#8
  | _ => BitVec.ofInt 8 (clampInt (-128) 127 (roundToInt .rne v).1)

/-- Narrowing of INT32 to INT8 (R258): saturated. -/
def int8OfInt32 (x : Elem) : Byte := BitVec.ofInt 8 (clampInt (-128) 127 x.toInt)

/-- The formats of elements, in the codes of FMT (08 R199). -/
inductive Fmt where
  | raw32 | bf16 | t8 | t6 | int8
deriving DecidableEq, Repr

/-- `decode_elem` (R259): the exact value of an element with a block scale byte; 0x80 makes it a NaN. BF16 takes no scale. -/
def decodeElem (f : Fmt) (bits : Nat) (scale : Byte) : Val :=
  let k := scale.toInt
  match f with
  | .raw32 => valOf (BitVec.ofNat 32 bits)
  | .bf16 => valOf (widenBf16 (BitVec.ofNat 16 bits))
  | .t8 => if scale = 0x80#8 then .nan false else (decodeTapered Machine.t8 (bits % 256)).scale k
  | .t6 => if scale = 0x80#8 then .nan false else (decodeTapered Machine.t6 (bits % 64)).scale k
  | .int8 => if scale = 0x80#8 then .nan false else (Val.ofInt (BitVec.ofNat 8 bits).toInt 0).scale k

/-- Bytes of one element in a format (08 R199). -/
def Fmt.bytes : Fmt → Nat
  | .raw32 => 4
  | .bf16 => 2
  | .t8 => 1
  | .t6 => 1
  | .int8 => 1

/-- Whether a format takes block scales (R259). -/
def Fmt.scaled : Fmt → Bool
  | .raw32 => false
  | .bf16 => false
  | .t8 => true
  | .t6 => true
  | .int8 => true

/-- An element that a load delivers as FP32 (R260): RAW32 bits unchanged, BF16 widened, the others decoded and rounded RNE. -/
def loadElem (f : Fmt) (bits : Nat) (scale : Byte) : Elem :=
  match f with
  | .raw32 => BitVec.ofNat 32 bits
  | .bf16 => widenBf16 (BitVec.ofNat 16 bits)
  | _ => (roundV .rne (decodeElem f bits scale)).1

/-- An element that a store narrows from FP32, with the scale of its block (R253, R257, R258, 15 R359). -/
def storeElem (f : Fmt) (x : Elem) (scale : Byte) : Nat :=
  let y := (valOf x).scale (-scale.toInt)
  match f with
  | .raw32 => x.toNat
  | .bf16 => (roundBf16 .rne x).1.toNat
  | .t8 => (encodeTapered Machine.t8 y).1
  | .t6 => (encodeTapered Machine.t6 y).1
  | .int8 => (toInt8 y).toNat

/-- The top binade t of a format (R261). -/
def Fmt.topBinade : Fmt → Int
  | .t8 => 3
  | .t6 => 1
  | .int8 => 6
  | _ => 0

/-- floor(log2) of the magnitude of a nonzero finite value. -/
def Val.log2 : Val → Int
  | .fin _ m e => (Nat.log2 m : Int) + e
  | _ => 0

/-- The block scale that the drain chooses (R261). -/
def drainScale (f : Fmt) (xs : List Elem) : Int :=
  let vs := (xs.map valOf).filter (fun v => !v.isNaN && !v.isInf && !v.isZero)
  match vs with
  | [] => 0
  | v :: rest =>
    let top := rest.foldl (fun k x => Max.max k x.log2) v.log2
    clampInt (-127) 127 (top - f.topBinade)

/-- `drain_block` (R261): the scale byte and the codes. -/
def drainBlock (f : Fmt) (xs : List Elem) : Byte × List Nat :=
  let k := drainScale f xs
  let sc : Byte := BitVec.ofInt 8 k
  (sc, xs.map (fun x => storeElem f x sc))

/-! The matrix path (R262 to R265). -/

/-- The exact sum of values, NaN where R264 says so; the sign of an exact zero is that of the mode (R248). -/
def sumUnder (rm : RM) : List Val → Val
  | [] => .fin false 0 0
  | v :: vs => vs.foldl (fun a x => a.add rm x) v

/-- The exact sum that is rounded under RNE. -/
def sumVals (vs : List Val) : Val := sumUnder .rne vs

/-- The group size of a format (R262). -/
def groupSize : Fmt → Nat
  | .t8 => 4
  | .int8 => 4
  | .t6 => 8
  | .bf16 => 1
  | .raw32 => 1

/-- One group: the exact sum of its products rounded once, then added to the accumulator with one rounding (R262). -/
def mmaGroup (c : Elem) (ps : List (Val × Val)) : Elem :=
  let p := (roundV .rne (sumVals (ps.map (fun ab => ab.1.mul ab.2)))).1
  (roundV .rne ((valOf c).add .rne (valOf p))).1

/-- `mma_element` over decoded operands (R262, R264). -/
def mmaElement (f : Fmt) (c : Elem) (ab : List (Val × Val)) : Elem :=
  ((chunks (groupSize f) ((ab.length + groupSize f - 1) / groupSize f) ab).foldl mmaGroup c)

/-- `mma_element` of INT8 on pages without block scales: INT32 accumulation (R263). -/
def mmaElementInt (c : Elem) (ab : List (Int × Int)) : Elem :=
  c + BitVec.ofInt 32 (ab.foldl (fun s p => s + p.1 * p.2) 0)

/-- One output of `hadamard` (R265): the signed exact sum times 2^-h, rounded RNE; `neg` holds the signs of a row of S. -/
def hadamardOut (h : Nat) (neg : List Bool) (xs : List Elem) : Elem :=
  let terms := (neg.zip xs).map (fun p => if p.1 then (valOf p.2).neg else valOf p.2)
  (roundV .rne ((sumVals terms).scale (-(h : Int)))).1

end Sys2Proof.Machine
end

