-- ==== Sys2Proof/Machine/Trans.lean ====
section
/-! DEFINITION. The correctly rounded transcendentals (10 R266, R267; 18 R403). A result that is not a number of the device
is enclosed between two rationals, with a precision that rises until both ends round to the same pattern and flags; that
pattern is then the correctly rounded one. -/

namespace Sys2Proof.Machine

/-- The integer square root of `n`, from a part `r` and the bits below `i` still to find. -/
def isqrtFrom (n : Nat) : Nat → Nat → Nat
  | 0, r => r
  | i + 1, r => isqrtFrom n i (if (r + 2 ^ i) * (r + 2 ^ i) ≤ n then r + 2 ^ i else r)

/-- floor(sqrt n). -/
def isqrt (n : Nat) : Nat := isqrtFrom n (Nat.log2 n / 2 + 1) 0

/-- A pattern of sign `neg` for the square root of n / d, n > 0 (exactly rounded: the integer root with a sticky half). -/
def sqrtQ (rm : RM) (n d : Nat) : Elem × Flags :=
  -- sqrt(n / d) = sqrt(n * d) / d, taken with 64 more bits
  let x := n * d * 2 ^ 128
  let r := isqrt x
  if r * r = x then roundRat rm false r (d * 2 ^ 64) else roundRat rm false (2 * r + 1) (2 * d * 2 ^ 64)

/-- A closed interval of rationals lo / den and hi / den. -/
structure Enc where
  lo : Int
  hi : Int
  den : Nat
deriving DecidableEq, Repr

/-- The rounding that both ends agree on, if they do. -/
def Enc.round (rm : RM) (e : Enc) : Option (Elem × Flags) :=
  if e.lo = 0 ∨ e.hi = 0 then none
  else
    let a := roundRat rm (decide (e.lo < 0)) e.lo.natAbs e.den
    let b := roundRat rm (decide (e.hi < 0)) e.hi.natAbs e.den
    if a = b then some a else none

/-- The first precision of the list whose enclosure decides the rounding; the last one's lower end otherwise (log 10). -/
def decideBy (rm : RM) (enc : Nat → Enc) : List Nat → Elem × Flags
  | [] => (canonNaN, 0)
  | [p] =>
    match (enc p).round rm with
    | some r => r
    | none => roundRat rm (decide ((enc p).lo < 0)) (enc p).lo.natAbs (enc p).den
  | p :: ps =>
    match (enc p).round rm with
    | some r => r
    | none => decideBy rm enc ps

/-- The precisions tried, in bits after the point. -/
def precisions : List Nat := [96, 192, 512, 2048]

/-- Terms of the series of exp from term `t` number `k` on, each floored: a lower bound of their sum, for y / 2^p in [0, 1). -/
def expLo (p y : Nat) : Nat → Nat → Nat → Nat
  | 0, _, _ => 0
  | f + 1, k, t => t + expLo p y f (k + 1) (t * y / (k * 2 ^ p))

/-- The same, each term rounded up: with 2 more an upper bound of the whole series once a term is below 2. -/
def expHi (p y : Nat) : Nat → Nat → Nat → Nat
  | 0, _, _ => 4
  | f + 1, k, t => t + expHi p y f (k + 1) (t * y / (k * 2 ^ p) + 1)

/-- The number of terms after which a term of exp is below 2^-p. -/
def expTerms (p : Nat) : Nat := p / 3 + 16

/-- exp of [ylo, yhi] / 2^p, within [0, 1], in units of 2^-p. -/
def expEnc (p ylo yhi : Nat) : Nat × Nat :=
  (expLo p ylo (expTerms p) 1 (2 ^ p), expHi p yhi (expTerms p) 1 (2 ^ p))

/-- Sum of z^(2k+1) / (2k+1) for k up to `fuel`, from the power `t` on, floored: atanh, all terms positive. -/
def atanhLo (p z2 : Nat) : Nat → Nat → Nat → Nat
  | 0, _, _ => 0
  | f + 1, k, t => t / k + atanhLo p z2 f (k + 2) (t * z2 / 2 ^ p)

/-- The same rounded up. -/
def atanhHi (p z2 : Nat) : Nat → Nat → Nat → Nat
  | 0, _, _ => 4
  | f + 1, k, t => (t / k + 1) + atanhHi p z2 f (k + 2) (t * z2 / 2 ^ p + 1)

/-- 2 atanh(n / d) in units of 2^-p, for n / d at most 1/3. -/
def twoAtanh (p n d : Nat) : Nat × Nat :=
  let zl := n * 2 ^ p / d
  let zh := zl + 1
  let f := p / 3 + 8
  (2 * atanhLo p (zl * zl / 2 ^ p) f 1 zl, 2 * atanhHi p (zh * zh / 2 ^ p + 1) f 1 zh)

/-- ln 2 in units of 2^-p. -/
def ln2Enc (p : Nat) : Nat × Nat := twoAtanh p 1 3

/-- Alternating sum of atan(1 / q): terms 1 / (k q^k), each floored; the error is below one unit for each term. -/
def atanInv (p q : Nat) : Nat → Nat → Nat → Bool → Int
  | 0, _, _, _ => 0
  | f + 1, k, t, neg => (if neg then -((t / k : Nat) : Int) else ((t / k : Nat) : Int)) + atanInv p q f (k + 2) (t / (q * q)) (!neg)

/-- pi in units of 2^-p, by Machin's formula, with an error bound. -/
def piEnc (p : Nat) : Int × Int :=
  let f := p / 4 + 8
  let a := atanInv p 5 f 1 (2 ^ p / 5) false
  let b := atanInv p 239 f 1 (2 ^ p / 239) false
  let x := 16 * a - 4 * b
  let err : Int := ((40 * (f + 2) : Nat) : Int)
  (x - err, x + err)

/-- Alternating Taylor sum: from term `t`, multiplied by y^2 / (k (k + 1)) each time, floored. -/
def altSum (p y2 : Nat) : Nat → Nat → Nat → Bool → Int
  | 0, _, _, _ => 0
  | f + 1, k, t, neg =>
    (if neg then -(t : Int) else (t : Int)) + altSum p y2 f (k + 2) (t * y2 / (2 ^ p * (k * (k + 1)))) (!neg)

/-- sin and cos of y / 2^p for y / 2^p in [0, 2], with an error of at most `trigErr p` units. -/
def sinAt (p y : Nat) : Int := altSum p (y * y / 2 ^ p) (expTerms p) 2 y false
def cosAt (p y : Nat) : Int := altSum p (y * y / 2 ^ p) (expTerms p) 1 (2 ^ p) false
def trigErr (p : Nat) : Int := ((8 * expTerms p : Nat) : Int)

/-- sin (or cos) of a nonzero rational n / d, |n / d| < 2^16, from the reduction by multiples of pi / 2 (R267). -/
def trigEnc (isCos : Bool) (neg : Bool) (n d : Nat) (p : Nat) : Enc :=
  let g := p + 64
  let (pl, ph) := piEnc g
  let x := n * 2 ^ g / d
  -- the number of quarter turns
  let k := ((2 * (x : Int)) / ph).toNat
  -- the rest, as units of 2^-g
  let ylo := (x : Int) - ((k : Int) * ph + 1) / 2 - 1
  let yhi := (x : Int) + 1 - ((k : Int) * pl) / 2 + 1
  let yl := ylo.toNat
  let yh := yhi.toNat
  let err := trigErr g
  let q := (if isCos then k + 1 else k) % 4
  -- q = 0: sin y, 1: cos y, 2: -sin y, 3: -cos y
  let (lo, hi) :=
    if q % 2 = 0 then (sinAt g yl - err, sinAt g yh + err) else (cosAt g yh - err, cosAt g yl + err)
  let (lo, hi) := if q ≥ 2 then (-hi, -lo) else (lo, hi)
  let (lo, hi) := if neg && !isCos then (-hi, -lo) else (lo, hi)
  ⟨lo, hi, 2 ^ g⟩

/-- 2^(n / d) for 0 ≤ n / d < 1, times 2^e, with e an integer. -/
def exp2Enc (n d : Nat) (e : Int) (p : Nat) : Enc :=
  let (ll, lh) := ln2Enc p
  let yl := n * ll / d
  let yh := n * lh / d + 1
  let (lo, hi) := expEnc p yl yh
  ⟨(lo * 2 ^ e.toNat : Nat), (hi * 2 ^ e.toNat : Nat), 2 ^ p * 2 ^ (-e).toNat⟩

/-- exp(n / d) for n / d > 0, by halving the power of 2: exp(x) = 2^k exp(r), r in [0, 1). In units of 2^-p, with k. -/
def expOf (n d p : Nat) : Nat × Nat × Nat :=
  let (ll, lh) := ln2Enc (p + 32)
  let g := p + 32
  let x := n * 2 ^ g / d
  let k := x / lh
  let rl := x - k * lh
  let rh := x + 1 - k * ll
  let (lo, hi) := expEnc g rl rh
  (k, lo, hi)

/-- tanh of n / d > 0: (exp(2x) - 1) / (exp(2x) + 1), increasing in exp(2x). -/
def tanhEnc (neg : Bool) (n d : Nat) (p : Nat) : Enc :=
  let g := p + 32
  let (k, lo, hi) := expOf (2 * n) d p
  let el := lo * 2 ^ k
  let eh := hi * 2 ^ k
  let one := 2 ^ g
  let a := (el - one) * 2 ^ g / (el + one)
  let b := (eh - one) * 2 ^ g / (eh + one) + 1
  if neg then ⟨-(b : Int), -(a : Int), 2 ^ g⟩ else ⟨(a : Int), (b : Int), 2 ^ g⟩

/-- 1 / (1 + exp(-x)) of x = n / d > 0, or of x = -n / d. -/
def sigmoidEnc (neg : Bool) (n d : Nat) (p : Nat) : Enc :=
  let g := p + 32
  let (k, lo, hi) := expOf n d p
  let el := lo * 2 ^ k
  let eh := hi * 2 ^ k
  let one := 2 ^ g
  -- for x > 0: e / (1 + e); for x < 0: 1 / (1 + e), e = exp |x|; 320 more bits keep the small values
  let w := 2 ^ (g + 320)
  if neg then ⟨(one * w / (eh + one) : Nat), (one * w / (el + one) + 1 : Nat), w⟩
  else ⟨(el * w / (el + one) : Nat), (eh * w / (eh + one) + 1 : Nat), w⟩

/-- log2 of m * 2^-23 times 2^e, m in [2^23, 2^24). -/
def log2Enc (m : Nat) (e : Int) (p : Nat) : Enc :=
  let g := p + 32
  let (ll, lh) := ln2Enc g
  let (ml, mh) := if m = 2 ^ 23 then (0, 0) else twoAtanh g (m - 2 ^ 23) (m + 2 ^ 23)
  let lo : Int := e * (2 ^ g : Nat) + (ml * 2 ^ g / lh : Nat)
  let hi : Int := e * (2 ^ g : Nat) + (mh * 2 ^ g / ll + 1 : Nat)
  ⟨lo, hi, 2 ^ g⟩

/-- A value just below or above x = n / d > 0 that is not a number of the device: x - x^3 / k as two rationals (an odd function
with the series x - c x^3 + ..., where 1 / k1 > c > 1 / k2, for a small x). -/
def nearEnc (neg : Bool) (n d k1 k2 : Nat) (_p : Nat) : Enc :=
  let den := d * d * d * k1 * k2
  let x := n * d * d * k1 * k2
  let a := x - n * n * n * k2
  let b := x - n * n * n * k1
  if neg then ⟨-(b : Int), -(a : Int), den⟩ else ⟨(a : Int), (b : Int), den⟩

/-- The magnitude of a finite value as a rational. -/
def ratOf (m : Nat) (e : Int) : Nat × Nat := (m * 2 ^ e.toNat, 2 ^ (-e).toNat)

/-- The result of an operand that is a NaN (R249). -/
def nanOp (sig : Bool) : Elem × Flags := (canonNaN, if sig then flNV else 0)

/-- VRCP (R266). -/
def fRcp (rm : RM) (x : Elem) : Elem × Flags :=
  match valOf x with
  | .nan s => nanOp s
  | .inf s => (packF s 0, 0)
  | .fin s m e =>
    if m = 0 then (packF s 0x7F800000, flDZ)
    else let (n, d) := ratOf m e; roundRat rm s d n

/-- VRSQ (R266). -/
def fRsq (rm : RM) (x : Elem) : Elem × Flags :=
  match valOf x with
  | .nan s => nanOp s
  | .inf s => if s then (canonNaN, flNV) else (packF false 0, 0)
  | .fin s m e =>
    if m = 0 then (packF s 0x7F800000, flDZ)
    else if s then (canonNaN, flNV)
    else let (n, d) := ratOf m e; sqrtQ rm d n

/-- VSQRT (R266). -/
def fSqrt (rm : RM) (x : Elem) : Elem × Flags :=
  match valOf x with
  | .nan s => nanOp s
  | .inf s => if s then (canonNaN, flNV) else (packF false 0x7F800000, 0)
  | .fin s m e =>
    if m = 0 then (packF s 0, 0)
    else if s then (canonNaN, flNV)
    else let (n, d) := ratOf m e; sqrtQ rm n d

/-- 2^x of a finite x = (-1)^s m 2^e (R266). Beyond 2^8 the result overflows, or is a positive value below every number. -/
def exp2Fin (rm : RM) (s : Bool) (m : Nat) (e : Int) : Elem × Flags :=
  if m = 0 then (0x3F800000#32, 0) else
  let (n, d) := ratOf m e
  if 256 * d ≤ n then
    (if s then roundRat rm false 1 (2 ^ 400) else roundRat rm false (2 ^ 400) 1)
  else
    let k : Int := if s then -((n + d - 1) / d : Nat) else ((n / d : Nat) : Int)
    let f := if s then (n + d - 1) / d * d - n else n % d
    if f = 0 then roundRat rm false (2 ^ k.toNat) (2 ^ (-k).toNat)
    else decideBy rm (exp2Enc f d k) precisions

/-- VEXP2 (R266). -/
def fExp2 (rm : RM) (x : Elem) : Elem × Flags :=
  match valOf x with
  | .nan s => nanOp s
  | .inf s => (packF false (if s then 0 else 0x7F800000), 0)
  | .fin s m e => exp2Fin rm s m e

/-- log2 of m * 2^e, m > 0, exact for a power of two (R266). -/
def log2Fin (rm : RM) (m : Nat) (e : Int) : Elem × Flags :=
  let k := Nat.log2 m
  let ex : Int := e + k
  if m = 2 ^ k then roundV rm (Val.ofInt ex 0)
  else decideBy rm (log2Enc (if k ≤ 23 then m * 2 ^ (23 - k) else m / 2 ^ (k - 23)) ex) precisions

/-- VLOG2 (R266). -/
def fLog2 (rm : RM) (x : Elem) : Elem × Flags :=
  match valOf x with
  | .nan s => nanOp s
  | .inf s => if s then (canonNaN, flNV) else (packF false 0x7F800000, 0)
  | .fin s m e =>
    if m = 0 then (packF true 0x7F800000, flDZ)
    else if s then (canonNaN, flNV)
    else log2Fin rm m e

/-- VSIN and VCOS (R266, R267). -/
def fTrig (isCos : Bool) (rm : RM) (x : Elem) : Elem × Flags :=
  match valOf x with
  | .nan s => nanOp s
  | .inf _ => (canonNaN, flNV)
  | .fin s m e =>
    if m = 0 then (if isCos then (0x3F800000#32, 0) else (packF s 0, 0))
    else
      let (n, d) := ratOf m e
      if 65536 * d ≤ n then (canonNaN, flRange)
      else if n * 2 ^ 20 < d then
        -- a small argument: sin x = x - x^3/6 + ..., cos x = 1 - x^2/2 + ...
        (if isCos then decideBy rm (fun _ => ⟨(4 * d * d - 2 * n * n : Nat), (4 * d * d - n * n : Nat), 4 * d * d⟩) [0]
         else decideBy rm (nearEnc s n d 6 7) [0])
      else decideBy rm (trigEnc isCos s n d) precisions

/-- tanh of a finite value (R266, 18 R403). -/
def tanhFin (rm : RM) (s : Bool) (m : Nat) (e : Int) : Elem × Flags :=
  if m = 0 then (packF s 0, 0) else
  let (n, d) := ratOf m e
  if 64 * d ≤ n then roundRat rm s (2 ^ 100 - 1) (2 ^ 100)
  else if n * 2 ^ 20 < d then decideBy rm (nearEnc s n d 3 4) [0]
  else decideBy rm (tanhEnc s n d) precisions

/-- VTANH (R266). -/
def fTanh (rm : RM) (x : Elem) : Elem × Flags :=
  match valOf x with
  | .nan s => nanOp s
  | .inf s => (packF s 0x3F800000, 0)
  | .fin s m e => tanhFin rm s m e

/-- The logistic sigmoid (18 R403): 1 / (1 + e^-v). -/
def fSigmoid (rm : RM) (x : Elem) : Elem × Flags :=
  match valOf x with
  | .nan s => nanOp s
  | .inf s => (packF false (if s then 0 else 0x3F800000), 0)
  | .fin s m e =>
    if m = 0 then (0x3F000000#32, 0) else
    let (n, d) := ratOf m e
    if 256 * d ≤ n then (if s then roundRat rm false 1 (2 ^ 300) else roundRat rm false (2 ^ 300 - 1) (2 ^ 300))
    else if n * 2 ^ 40 < d then
      -- 1/2 + x/4 - x^3/48 + ...: strictly between 1/2 + x/5 and 1/2 + x/3
      decideBy rm (fun _ => if s then ⟨(15 * d - 10 * n : Nat), (15 * d - 6 * n : Nat), 30 * d⟩
        else ⟨(15 * d + 6 * n : Nat), (15 * d + 10 * n : Nat), 30 * d⟩) [0]
    else decideBy rm (sigmoidEnc s n d) precisions

end Sys2Proof.Machine
end

