-- ==== Sys2Proof/Machine/Dist.lean ====
section
/-! DEFINITION. Distribution registers and their arithmetic (11 R269 to R280; 18 R401 to R406). -/

namespace Sys2Proof.Machine

/-- A lane: eight values and eight masses, in units of 2^-16 (R269). -/
structure Lane where
  v : List Elem
  m : List (BitVec 16)
deriving DecidableEq, Repr

/-- A distribution register: 64 lanes, a tag set and a lineage stamp (R269). -/
structure DReg where
  lanes : List Lane
  tag : BitVec 16
  lin : BitVec 16
deriving DecidableEq, Repr

/-- The lane at release: eight values +0, all masses 0 (R270). -/
def Lane.zero : Lane := ⟨List.replicate 8 0, List.replicate 8 0⟩

/-- The register at release (R270). -/
def DReg.zero : DReg := ⟨List.replicate 64 Lane.zero, 0, 0⟩

/-- The mass of a point of a point-mass lane. -/
def eighth : BitVec 16 := 8192#16

/-- A lane as every instruction reads it: eight masses of 0 read as 8,192 each (R270). -/
def Lane.read (l : Lane) : Lane := if l.m.all (fun x => x == 0) then ⟨l.v, List.replicate 8 eighth⟩ else l

/-- A register with its lanes as they read, so that no word writes a lane whose masses sum to anything but 65,536 (R270). -/
def DReg.read (d : DReg) : DReg := { d with lanes := d.lanes.map Lane.read }

/-- A point mass (R269). -/
def pointLane (x : Elem) : Lane := ⟨List.replicate 8 x, List.replicate 8 eighth⟩

/-- `nan_lane` (R276). -/
def nanLane : Lane := pointLane canonNaN

/-- The flags of a NaN lane made from operand points: NV unless one was a quiet NaN; a signalling NaN also sets it (R276). -/
def nanLaneFlags (ops : List Val) : Flags :=
  if ops.any Val.isSig then flNV else if ops.any Val.isNaN then 0 else flNV

/-- The sum of the masses. -/
def massSum (m : List (BitVec 16)) : Nat := m.foldl (fun s x => s + x.toNat) 0

/-- The index of the first greatest element. -/
def argMax : List Nat → Nat
  | [] => 0
  | x :: xs => (xs.foldl (fun (s : Nat × Nat × Nat) y => let (i, b, bv) := s; if y > bv then (i + 1, i + 1, y) else (i + 1, b, bv))
      (0, 0, x)).2.1

/-- `normalise` (R273). Where the rule gives one point the whole mass 65,536, which no mass of 16 bits holds, the lane is of one certain value
and held as R269 holds it (log 59). -/
def normalise (l : Lane) : Lane :=
  let s := massSum l.m
  if s = 0 then ⟨l.v, List.replicate 8 eighth⟩
  else
    match (l.v.zip l.m).filter (fun p => p.2 != 0) with
    | [p] => pointLane p.1
    | _ =>
      if s = 65536 then l
      else
        let q := l.m.map (fun x => x.toNat * 65536 / s)
        let rest := 65536 - q.foldl (fun a b => a + b) 0
        let j := argMax (l.m.map (fun x => x.toNat))
        if q.getD j 0 + rest = 65536 then pointLane (l.v.getD j 0)
        else ⟨l.v, (q.zipIdx).map (fun p => BitVec.ofNat 16 (if p.2 = j then p.1 + rest else p.1))⟩

/-- An item to condense: an exact value and a mass in units of 2^-32. The list order is the index order. -/
structure Item where
  x : Val
  w : Nat
deriving DecidableEq, Repr

/-- An item put behind the items not above it: a stable sort by value, -0 equal to +0 (R278). -/
def insertItem (i : Item) : List Item → List Item
  | [] => [i]
  | j :: js => if i.x.compare j.x < 0 then i :: j :: js else j :: insertItem i js

/-- Items by value ascending, equal values in their first order (R278). -/
def sortItems (is : List Item) : List Item := is.foldl (fun acc i => insertItem i acc) []

/-- A bin of the condensation: the exact sum, the infinities met, whether every value was -0 (R278). -/
structure Bin where
  acc : Val
  pinf : Bool
  ninf : Bool
  allNeg0 : Bool
deriving DecidableEq, Repr

/-- The mass that the span [lo, hi) puts into bin b. -/
def overlap (lo hi b : Nat) : Nat := Nat.min hi ((b + 1) * 2 ^ 29) - Nat.max lo (b * 2 ^ 29)

/-- One item, spanning [lo, lo + w) of the cumulative mass, put into bin b (R278). -/
def Bin.take (b : Nat) (s : Bin × Nat) (i : Item) : Bin × Nat :=
  let lo := s.2
  let hi := lo + i.w
  let o := overlap lo hi b
  if o = 0 then (s.1, hi)
  else
    let neg0 := i.x.isZero && i.x.sign
    match i.x with
    | .inf n => (⟨s.1.acc, s.1.pinf || !n, s.1.ninf || n, false⟩, hi)
    | x => (⟨s.1.acc.add .rne (x.mul (Val.ofInt (o : Int) 0)), s.1.pinf, s.1.ninf, s.1.allNeg0 && neg0⟩, hi)

/-- The value of bin b and its flags (R278). -/
def binValue (is : List Item) (b : Nat) : Elem × Flags :=
  let s := (is.foldl (Bin.take b) (⟨.fin false 0 0, false, false, true⟩, 0)).1
  if s.pinf && s.ninf then (canonNaN, flNV)
  else if s.pinf then (packF false 0x7F800000, 0)
  else if s.ninf then (packF true 0x7F800000, 0)
  else if s.acc.isZero then (packF s.allNeg0 0, 0)
  else roundV .rne (s.acc.scale (-29))

/-- `condense` (R278): eight points of mass 8,192. -/
def condense (items : List Item) : Lane × Flags :=
  let is := sortItems (items.filter (fun i => i.w ≠ 0))
  let bs := (List.range 8).map (binValue is)
  (⟨bs.map Prod.fst, List.replicate 8 eighth⟩, bs.foldl (fun f b => f ||| b.2) 0)

/-- The pairing words (R275). -/
inductive DOp where
  | add | sub | mul | mix
deriving DecidableEq, Repr

/-- The exact operation on two values. -/
def DOp.ex (op : DOp) (a b : Val) : Val :=
  match op with
  | .add => a.add .rne b
  | .sub => a.add .rne b.neg
  | .mul => a.mul b
  | .mix => (a.add .rne b).scale (-1)

/-- The cases of a pairing (R275). -/
inductive DCase where
  | independent | lockstep | conflicting
deriving DecidableEq, Repr

/-- The case that tags and stamps select (R275). -/
def dCase (a b : DReg) : DCase :=
  if a.tag &&& b.tag = 0 then .independent else if a.lin = b.lin then .lockstep else .conflicting

/-- A point of a lockstep pairing, rounded once (R276): the sum or product under RM, or half the sum for DMIX. -/
def lockPoint (op : DOp) (rm : RM) (a b : Elem) : Elem × Flags :=
  let va := valOf a; let vb := valOf b
  let r := match op with
    | .add => va.add rm vb
    | .sub => va.add rm vb.neg
    | .mul => va.mul vb
    | .mix => (va.add rm vb).scale (-1)
  roundV rm r

/-- `pair_lane` (R276). -/
def pairLane (op : DOp) (cs : DCase) (rm : RM) (a0 b0 : Lane) : Lane × Flags :=
  let a := a0.read
  let b := b0.read
  let pa := a.v.map valOf
  let pb := b.v.map valOf
  if (pa ++ pb).any Val.isNaN then (nanLane, nanLaneFlags (pa ++ pb))
  else if cs = .lockstep then
    let ps := (a.v.zip b.v).map (fun p => lockPoint op rm p.1 p.2)
    if ps.any (fun p => (valOf p.1).isNaN) then (nanLane, flNV)
    else (⟨ps.map Prod.fst, a.m⟩, ps.foldl (fun f p => f ||| p.2) 0)
  else
    let items := match op with
      | .mix => (pa.zip a.m).map (fun p => Item.mk p.1 (p.2.toNat * 32768)) ++
          (pb.zip b.m).map (fun p => Item.mk p.1 (p.2.toNat * 32768))
      | _ => ((pa.zip a.m).map (fun p => (pb.zip b.m).map
          (fun q => Item.mk (op.ex p.1 q.1) (p.2.toNat * q.2.toNat)))).flatten
    if items.any (fun i => i.x.isNaN) then (nanLane, flNV)
    else condense items

/-- A pairing of two registers with the stamp that a new result takes (R275): the register and the flags. -/
def pairRegs (op : DOp) (rm : RM) (stamp : BitVec 16) (a b : DReg) : DReg × Flags :=
  let cs := dCase a b
  let ls := (a.lanes.zip b.lanes).map (fun p => pairLane op cs rm p.1 p.2)
  (⟨ls.map Prod.fst, a.tag ||| b.tag, if cs = .lockstep then a.lin else stamp⟩,
    ls.foldl (fun f l => f ||| l.2) (if cs = .conflicting then flRange else 0))

/-- A unary word on each point of a lane (R277): a NaN at any point makes the lane a NaN lane, as `nan_lane` does; `extra`
holds the word's other operand of the lane. -/
def mapLane (f : Elem → Elem × Flags) (extra : List Val) (l0 : Lane) : Lane × Flags :=
  let l := l0.read
  let ps := l.v.map f
  let fl := ps.foldl (fun a p => a ||| p.2) 0
  if ps.any (fun p => (valOf p.1).isNaN) then (nanLane, nanLaneFlags (l.v.map valOf ++ extra))
  else (⟨ps.map Prod.fst, l.m⟩, fl &&& 0x1D00#16)

/-- A unary word whose second operand is one value for each lane (18 R403). -/
def mapReg (f : Elem → Elem → Elem × Flags) (d : DReg) (ss : List Elem) : DReg × Flags :=
  let ls := (d.lanes.zip ss).map (fun p => mapLane (fun x => f x p.2) [valOf p.2] p.1)
  (⟨ls.map Prod.fst, d.tag, d.lin⟩, ls.foldl (fun a l => a ||| l.2) 0)

/-- A unary word without a second operand (18 R403). -/
def mapReg1 (f : Elem → Elem × Flags) (d : DReg) : DReg × Flags :=
  let ls := d.lanes.map (mapLane f [])
  (⟨ls.map Prod.fst, d.tag, d.lin⟩, ls.foldl (fun a l => a ||| l.2) 0)

/-- `DPT` for one lane (18 R404). -/
def dptLane (x : Elem) : Lane × Flags :=
  if (valOf x).isNaN then (nanLane, sigFlags [valOf x]) else (pointLane x, 0)

/-- The numerators of z_k over 128 (18 R405). -/
def gaussZ : List Int := [-211, -115, -63, -20, 20, 63, 115, 211]

/-- `DGAUSS` for one lane (18 R405). -/
def gaussLane (rm : RM) (mu sg : Elem) : Lane × Flags :=
  let vm := valOf mu; let vs := valOf sg
  if vm.isNaN || vs.isNaN then (nanLane, nanLaneFlags [vm, vs])
  else if vs.isZero then (pointLane mu, 0)
  else if vs.sign then (nanLane, flNV)
  else
    let ps := gaussZ.map (fun z => let r := vm.add rm (vs.mul (Val.ofInt z (-7))); if r.isNaN then (canonNaN, flNV) else roundV rm r)
    if ps.any (fun p => (valOf p.1).isNaN) then (nanLane, flNV)
    else (⟨ps.map Prod.fst, List.replicate 8 eighth⟩, ps.foldl (fun f p => f ||| p.2) 0)

/-- The exact mean of points with their masses (R279), to be rounded under a mode (10 R248). -/
def meanVal (rm : RM) (ps : List (Val × Nat)) : Val :=
  (sumUnder rm (ps.map (fun p => p.1.mul (Val.ofInt (p.2 : Int) 0)))).scale (-16)

/-- The statistic k of a lane: 0 the mean, 1 to 3 the central moments M_2 to M_4 (R279). -/
def momentLane (rm : RM) (k : Nat) (l0 : Lane) : Elem × Flags :=
  let l := l0.read
  -- points of mass 0 take no part
  let ps := (((l.v.map valOf).zip l.m).filter (fun p => p.2 != 0)).map (fun p => (p.1, p.2.toNat))
  let all := ps.map Prod.fst
  if all.any Val.isNaN then (canonNaN, sigFlags all)
  else
    let infs := (ps.map Prod.fst).filter Val.isInf
    if !infs.isEmpty then
      if k = 0 then
        (if infs.all Val.sign then (packF true 0x7F800000, 0)
         else if infs.all (fun v => !v.sign) then (packF false 0x7F800000, 0) else (canonNaN, flNV))
      else (canonNaN, flNV)
    else
      let mu := meanVal rm ps
      if k = 0 then roundV rm mu
      else
        let term (p : Val × Nat) : Val :=
          let d := p.1.add .rne mu.neg
          let d2 := d.mul d
          let dk := if k = 1 then d2 else if k = 2 then d2.mul d else d2.mul d2
          dk.mul (Val.ofInt (p.2 : Int) 0)
        roundV rm ((sumUnder rm (ps.map term)).scale (-16))

/-- `quantile` of a lane at the probability p (R280). A comparison of p with a multiple of 2^-17 is exact. -/
def quantileLane (rm : RM) (l0 : Lane) (p : Elem) : Elem × Flags :=
  let l := l0.read
  let vp := valOf p
  let all := l.v.map valOf
  if vp.isNaN || all.any Val.isNaN then (canonNaN, sigFlags (vp :: all))
  else
    -- points by value, ties by number, with the masses carried as the items' weights
    let ys := sortItems ((all.zip l.m).map (fun q => Item.mk q.1 q.2.toNat))
    -- P[k] in units of 2^-17
    let ps := (ys.foldl (fun (s : List Nat × Nat) i => (s.1 ++ [2 * s.2 + i.w], s.2 + i.w)) ([], 0)).1
    let pv (k : Nat) : Val := Val.ofInt ((ps.getD k 0 : Nat) : Int) (-17)
    let y (k : Nat) : Val := (ys.getD k ⟨.fin false 0 0, 0⟩).x
    if vp.compare (pv 0) ≤ 0 then roundV rm (y 0)
    else if 0 ≤ vp.compare (pv 7) then roundV rm (y 7)
    else
      let k := (List.range 7).foldl (fun b i => if (pv i).compare vp ≤ 0 then i else b) 0
      let a := y k; let b := y (k + 1)
      if a.compare b = 0 then roundV rm a
      else
        match a, b with
        | .inf s, .inf t => if s = t then (packF s 0x7F800000, 0) else (canonNaN, flNV)
        | .inf s, _ => (packF s 0x7F800000, 0)
        | _, .inf t => (packF t 0x7F800000, 0)
        | _, _ =>
          -- y_k + (y_(k+1) - y_k) (p - P_k) / (P_(k+1) - P_k), over a power of two
          let e0 := Min.min (Min.min a.exp b.exp) (-149)
          let q0 := Min.min vp.exp (-17)
          let dP : Int := ((ps.getD (k + 1) 0 - ps.getD k 0 : Nat) : Int) * (2 ^ (-17 - q0).toNat : Nat)
          let dp := vp.units q0 - (pv k).units q0
          let num := a.units e0 * dP + (b.units e0 - a.units e0) * dp
          if num = 0 then roundV rm (if dp = 0 then a.add rm (.fin false 0 0) else .fin (rm == .rdn) 0 0)
          else roundRat rm (decide (num < 0)) num.natAbs (dP.natAbs * 2 ^ (-e0).toNat)

/-- A distribution row of twelve granules as a register without tag and stamp (R272). -/
def dregOfRow (gs : List (List Elem)) : List Lane :=
  (List.range 64).map (fun c =>
    let at' (g : Nat) : Elem := (gs.getD g []).getD c 0
    ⟨(List.range 8).map (fun k => at' k),
     (List.range 8).map (fun k => (at' (8 + k / 2)).extractLsb' (16 * (k % 2)) 16)⟩)

/-- A register as a distribution row: twelve granules of 64 elements (R272). -/
def rowOfLanes (ls : List Lane) : List (List Elem) :=
  (List.range 8).map (fun k => ls.map (fun l => l.v.getD k 0)) ++
  (List.range 4).map (fun g => ls.map (fun l => l.m.getD (2 * g + 1) 0 ++ l.m.getD (2 * g) 0))

end Sys2Proof.Machine
end

