-- ==== Sys2Proof/Machine/Sparse.lean ====
section
/-! DEFINITION. Tables with a default, held as plain data: a list of (key, value) pairs in one canonical form, keys
strictly rising and no entry equal to the default, so that equal tables are equal lists. Memory is the case of bytes. -/

namespace Sys2Proof.Machine

/-- A table from numbers to `α`; the default of its unlisted keys is given at each use. -/
abbrev Sp (α : Type) := List (Nat × α)

/-- The entry of a key, or the default. -/
def Sp.get {α : Type} (dflt : α) : Sp α → Nat → α
  | [], _ => dflt
  | (k, v) :: m, j => if k = j then v else Sp.get dflt m j

/-- The table without an entry for the key. -/
def Sp.erase {α : Type} : Sp α → Nat → Sp α
  | [], _ => []
  | (k, v) :: m, j => if k = j then Sp.erase m j else (k, v) :: Sp.erase m j

/-- An entry put in front of the first greater key. -/
def Sp.insert {α : Type} (j : Nat) (x : α) : Sp α → Sp α
  | [] => [(j, x)]
  | (k, v) :: m => if j < k then (j, x) :: (k, v) :: m else (k, v) :: Sp.insert j x m

/-- The table with `x` at `j`; writing the default removes the entry. -/
def Sp.set {α : Type} [DecidableEq α] (dflt : α) (m : Sp α) (j : Nat) (x : α) : Sp α :=
  if x = dflt then Sp.erase m j else Sp.insert j x (Sp.erase m j)

/-- The table with `x` at `j`, listed whatever it is: for parts of the state that are not compared with a default. -/
def Sp.put {α : Type} (m : Sp α) (j : Nat) (x : α) : Sp α := Sp.insert j x (Sp.erase m j)

/-- Several entries written one after another. -/
def Sp.setAll {α : Type} [DecidableEq α] (dflt : α) (m : Sp α) (es : List (Nat × α)) : Sp α :=
  es.foldl (fun t e => Sp.set dflt t e.1 e.2) m

/-- The table without the keys from `lo` up to `hi - 1`. -/
def Sp.clear {α : Type} (m : Sp α) (lo hi : Nat) : Sp α := m.filter (fun e => decide (e.1 < lo) || decide (hi ≤ e.1))

/-- The part of the table with keys from `lo` up to `hi - 1`. -/
def Sp.slice {α : Type} (m : Sp α) (lo hi : Nat) : Sp α := m.filter (fun e => decide (lo ≤ e.1) && decide (e.1 < hi))

/-- Keys strictly rise. -/
def Sp.rising {α : Type} : Sp α → Bool
  | [] => true
  | [_] => true
  | a :: b :: m => decide (a.1 < b.1) && Sp.rising (b :: m)

/-- The canonical form: keys strictly rising, and no entry equal to the default. -/
def Sp.wf {α : Type} [DecidableEq α] (dflt : α) (m : Sp α) : Bool :=
  Sp.rising m && m.all (fun e => decide (e.2 ≠ dflt))

/-- A memory: bytes at addresses. -/
abbrev Memory := List Host.Cell

/-- What a byte that nothing has written reads as. DESIGN CHOICE (log 4): the spec gives no contents at reset. -/
def Memory.unlisted : Byte := 0

/-- The canonical form of a memory. -/
def Memory.wf (m : Memory) : Bool := Sp.wf Memory.unlisted m

/-- One byte read. -/
def Memory.read (m : Memory) (a : Nat) : Byte := Sp.get Memory.unlisted m a

/-- One byte written. -/
def Memory.write (m : Memory) (a : Nat) (b : Byte) : Memory := Sp.set Memory.unlisted m a b

/-- `n` bytes from `a` up. -/
def Memory.readN (m : Memory) (a : Nat) : Nat → List Byte
  | 0 => []
  | n + 1 => Memory.read m a :: Memory.readN m (a + 1) n

/-- Bytes written from `a` up. -/
def Memory.writeN (m : Memory) (a : Nat) : List Byte → Memory
  | [] => m
  | b :: bs => Memory.writeN (Memory.write m a b) (a + 1) bs

/-- The value of `n` bytes, little-endian (00 R2). -/
def Memory.readLE (m : Memory) (a : Nat) : Nat → Nat
  | 0 => 0
  | n + 1 => (Memory.read m a).toNat + 256 * Memory.readLE m (a + 1) n

/-- A value written as `n` bytes, little-endian (00 R2). -/
def Memory.writeLE (m : Memory) (a : Nat) : Nat → Nat → Memory
  | 0, _ => m
  | n + 1, v => Memory.writeLE (Memory.write m a (BitVec.ofNat 8 v)) (a + 1) n (v / 256)

/-- The memory with the bytes from `lo` up to `hi - 1` as if nothing had written them. -/
def Memory.clear (m : Memory) (lo hi : Nat) : Memory := Sp.clear m lo hi

/-- The bytes of `src` from `a` up, `n` of them, placed in `dst` from `b` up. -/
def Memory.copy (src dst : Memory) (a b n : Nat) : Memory :=
  Sp.setAll Memory.unlisted (Memory.clear dst b (b + n)) ((Sp.slice src a (a + n)).map (fun e => (e.1 - a + b, e.2)))

end Sys2Proof.Machine
end

