-- ==== Sys2Proof/Machine/State.lean ====
section
/-! DEFINITION. The state of a pod: everything the spec gives the machine, as plain data, and the state after reset. Tables
from numbers to parts are lists of (key, value) pairs; an unlisted key stands for the part at its reset value. -/

namespace Sys2Proof.Machine

/-- Why the machine stops. -/
inductive Fault where
  /-- No step of the model raises it: an access to an address the spec says does not exist takes the exception, refusal or
  answer that the spec names. Safe: it would stop a run, never let one go on. -/
  | noSuchUnit
deriving DecidableEq, Repr

/-- Why an instruction has no meaning here. -/
inductive Refusal where
  /-- Raised by the dispatch of an instruction that is not modelled. Safe: the run stops. -/
  | notModelled (mnemonic : String)
deriving DecidableEq, Repr

/-! ## The streams -/

/-- A value for a register: a scalar or A register, a predicate of C or A, a mask of V, a vector, a distribution; or the start
of a V stage loop with its trip count and epilogue count (18 R400). -/
inductive RVal where
  | word (v : Word)
  | pred (b : Bool)
  | mask (m : Mask)
  | vec (v : List Elem)
  | dist (d : DReg)
  | loop (n : Word) (ec : BitVec 4)
deriving DecidableEq, Repr

/-- A result in flight (07 R180, R183; 12 R288). `reg` is the physical register in the codes of 12 R440: 0 to 31 scalar, A
or vector, 32 to 79 predicates, 88 to 103 distributions; 200 stands for the loop state that a V SLOOP writes. `land` is the clk at whose end a fixed-latency result is
written; an interlocked result (`inter`) is written when it arrives. `elems` are the elements a vector result writes
(18 R381). `fl` are the flags it raises, in DSTAT where `dst`. -/
structure Pend where
  id : Nat
  reg : Nat
  val : RVal
  land : Nat
  inter : Bool
  elems : Mask
  fl : Flags
  dst : Bool
deriving DecidableEq, Repr

/-- What a waiting word waits for, where an event ends the wait: a cycle (14 R338), a watched word (R339), a wave (R340), a
barrier phase (R336). After a TWAIT or a barrier wait, which have issued, the next word issues in the clk in which the wait ends. -/
inductive Hold where
  | no
  /-- A TWAIT until a clk, and then for the copy command of a tag where it has one (14 R338); `since` is the clk in which it issued. -/
  | cycle (target : Nat) (tag : Option Nat) (since : Nat)
  /-- A TWAIT past its cycle, for the copy command of a tag (07 R179). -/
  | promise (tag : Nat) (since : Nat)
  | memory (key : Nat)
  | quiet
  /-- A wait at the barrier unit of a scope and a BID (14 R336). -/
  | barrier (scope bid : Nat)
  /-- The wait of a QWAIT is over: the word completes (02 R56). -/
  | passed
deriving DecidableEq, Repr

/-- A record that EVAC or CKPT is writing (14 R351): its size, and the lines still to store, each with its virtual address; the FORMAT word
is the last of them. -/
structure RecWrite where
  len : Nat
  left : List (Nat × List Byte)
deriving DecidableEq, Repr

/-- The state of one stream (07 R162 to R166, R180 to R186). The rotating names of A and V read through `swin`. -/
structure StreamSt where
  /-- s0 to s31 or a0 to a31 by physical number; unlisted reads 0 (R162). -/
  regs : Sp Word
  /-- p0 to p47 of C or A by physical number; unlisted reads false; p0 reads true (R162). -/
  preds : Sp Bool
  /-- b0 to b7, halfword offsets (14 R331). -/
  br : Sp Half
  /-- The prepare clk of b0 to b7 (14 R331, R332). -/
  prep : Sp Nat
  /-- The branch register prepared last (12 R291). -/
  prepReg : Nat
  /-- TRIPC, TAILC, SWIN of A and V (15 R371). -/
  tripc : Word
  tailc : BitVec 4
  swin : BitVec 4
  /-- The halfword of the next word, or of the next header where `atHeader` (07 R165). -/
  pc : Nat
  /-- The halfword of the header of the block under way, its body length, and the repeats still to run (07 R165). -/
  blk : Nat
  len : Nat
  reps : Nat
  atHeader : Bool
  /-- The header of the block that the loop buffer holds (07 R166). -/
  loopBuf : Option Nat
  /-- Clk of a STALL still to run, and bubble clk still to run (07 R180, R166). -/
  stall : Nat
  bubble : Nat
  /-- The slip S (07 R186, 04 R112). -/
  slip : Nat
  /-- The wait under way (12 R285, R291 "waiting flag"), and what ends it. -/
  waiting : Bool
  hold : Hold
  /-- A BAR.aw whose arrival has been counted (14 R336), and other words that have done a first part once. -/
  begun : Bool
  /-- Results in flight, oldest first, and results held in latches (12 R288). -/
  pend : List Pend
  latch : List Pend
  /-- The issue clk of the last independent or conflicting pairing, V only (07 R181). -/
  lastPair : Option Nat
  /-- The identity of the last divide's result, C only (14 R333). -/
  divId : Option Nat
  /-- The stream has a text and has not ended (05 R142 IDLE otherwise). -/
  live : Bool
  /-- The remote bytes that the word at the position waits for: the group that asks for them, and the bytes by their keys in the pod's memory
  once they have come (09 R226, R227). -/
  fetch : Option (Nat × Option Memory)
  /-- The record that the word at the position is writing, C only (14 R351). -/
  writing : Option RecWrite
deriving DecidableEq, Repr

/-- A stream at reset. DESIGN CHOICE (log 3) where 05 R132 gives no value. -/
def StreamSt.reset : StreamSt :=
  { regs := [], preds := [], br := [], prep := [], prepReg := 0, tripc := 0, tailc := 0, swin := 0,
    pc := 0, blk := 0, len := 0, reps := 0, atHeader := true, loopBuf := none, stall := 0, bubble := 0,
    slip := 0, waiting := false, hold := .no, begun := false, pend := [], latch := [], lastPair := none, divId := none, live := false,
    fetch := none, writing := none }

/-- The V stream's register files and status registers (07 R162, 10 R250, 11 R274). -/
structure VFile where
  /-- v0 to v31 by physical number: 1,024 elements each, element 64 * row + column; unlisted reads zeros. -/
  vregs : Sp (List Elem)
  /-- p0 to p47 by physical number; unlisted reads all false. -/
  masks : Sp Mask
  /-- d0 to d15; unlisted reads the register at release. -/
  dregs : Sp DReg
  vstat : Word
  dstat : Word
  /-- DFLG clears and writes that take effect at the end of a clk: the clk, the flags to clear, the RM and DDE to write (18 R408). -/
  dflg : List (Nat × Flags × Option (BitVec 3))
deriving DecidableEq, Repr

def VFile.reset : VFile := { vregs := [], masks := [], dregs := [], vstat := 0, dstat := 0, dflg := [] }

/-! ## Queues, tokens and engines -/

/-- A scalar queue: elements with the first clk in which each can be read, and what was taken in the latest clk of a take,
whose room is usable from the next clk (07 R168, R169). -/
structure ScalarQ where
  items : List (Word × Nat)
  popClk : Nat
  popN : Nat
deriving DecidableEq, Repr

def ScalarQ.empty : ScalarQ := ⟨[], 0, 0⟩

/-- A granule of a data queue: its ticket, and its data with the first clk in which it can be read; none while it is only
reserved (07 R170). -/
structure Granule where
  ticket : Nat
  data : Option (List Elem)
  ready : Nat
deriving DecidableEq, Repr

/-- A data queue of 64 granules (07 R168, R170). -/
structure DataQ where
  items : List Granule
  popClk : Nat
  popN : Nat
deriving DecidableEq, Repr

def DataQ.empty : DataQ := ⟨[], 0, 0⟩

/-- A translation: a leaf with the combined translation of both stages (09 R223, R228, R231). -/
structure Leaf where
  big : Bool
  /-- Page number of the page at its home, in units of 64 KiB. -/
  pfn : Nat
  home : Nat
  hmod : Nat
  fmt : Nat
  geom : Nat
  ord : Nat
  bar : Bool
  mir : Bool
  x : Bool
  w : Bool
  r : Bool
  sv : Bool
  scb : Nat
  /-- X, W and R of the table's own entry: what the combined translation lacks beside them, the range entry refuses; and the guest-physical
  page number (09 R231). -/
  tab : Bool × Bool × Bool
  gpfn : Nat
deriving DecidableEq, Repr

/-- The check core's copy of a pushed command: the fields of the command word and the values of sa and sb (04 R105). -/
structure CmdCopy where
  cmd : Nat
  flags : BitVec 4
  sw : Bool
  sig : Nat
  wait : Nat
  va : Word
  vb : Word
deriving DecidableEq, Repr

/-- An engine command in a queue (07 R171, 13 R312): its fields, the operand values taken when it was pushed, its copy tag, the
clk in which it becomes eligible and its place in C program order (R176). -/
structure Command where
  cmd : Nat
  flags : BitVec 4
  sw : Bool
  sig : Nat
  wait : Nat
  va : Word
  vb : Word
  tag : Nat
  elig : Nat
  seq : Nat
  /-- The generation of the job in whose order the command stands: a marker behind it does not change its mapping (09 R236). -/
  gen : Nat
  /-- Of a copy command, the leaves of its pages at its push, by page number: its mapping once such a marker has come (21 R434). -/
  maps : List (Nat × Leaf)
  /-- What the check core has of it (04 R105). -/
  chk : CmdCopy
deriving DecidableEq, Repr

/-- An engine command in progress (07 R174, R176; 21 R423, R424, R432): its micro-PC, the clk it began, the steps it has in all, the
clk from which its next step may go, its promise, the error it meets and that error's address. `words` is the set that was live
when it began, `shape` the shape record it uses and `bpt` the buffer page table as it stood then (08 R198); `row0` and `col0` are those of
its tile and `esz` is the element size of its tensor. `done` is the clk at which its data are complete, once every step has gone. -/
structure Run where
  c : Command
  row0 : Nat
  col0 : Nat
  step : Nat
  steps : Nat
  begun : Nat
  due : Nat
  promise : Nat
  error : Nat
  errArg : Nat
  words : Sp Word
  shape : List Word
  bpt : Sp Word
  /-- The pages, 128 times the buffer plus the page, whose AV was 0 when it began (08 R198). -/
  gone : List Nat
  esz : Nat
  /-- FMT and GEOM of the tensor, once a byte of it has been located. -/
  fmt : Option (Nat × Nat)
  done : Option Nat
  /-- Markers still to arrive (09 R237), or chain slots that a member has written and the head has sent (02 R64). -/
  count : Nat
deriving DecidableEq, Repr

/-- An engine's setup sets, by word index (07 R172). -/
structure SetupSet where
  live : Sp Word
  shadow : Sp Word
deriving DecidableEq, Repr

/-- The engines of a context bank: queues q10 to q13, commands in progress, setup sets (07 R168, R171, R172). -/
structure Engines where
  loadQ : List Command
  storeQ : List Command
  matrixQ : List Command
  rowQ : List Command
  loadRun : Option Run
  storeRun : Option Run
  matrixRun : Option Run
  rowRun : Option Run
  copySet : SetupSet
  matrixSet : SetupSet
  rowSet : SetupSet
  /-- Copy and row commands whose steps have all been issued, so that their engine has gone on (21 R431, R435), oldest first; and the
  stretches of X that rows in flight write: first byte, length, and the clk at whose end they are written (21 R431). -/
  drain : List (EngQ × Run)
  rowsOut : List (Nat × Nat × Nat)
  /-- The error and address of the last error of each engine, 0 to 3 (21 R424; 12 R291). -/
  errs : Sp Word
  /-- The count of copy commands pushed, for tags (R178), and the place of the next PUSH or POP in C program order (R176). -/
  tags : Nat
  order : Nat
  /-- The reserved injections that chain slots of the context have taken: the clk, and the place of the path among those of its plat (21
  R420). -/
  resvOut : List (Nat × Nat)
  /-- The queues from which no more commands are issued, after a comparison that failed (04 R106). -/
  blocked : List EngQ
deriving DecidableEq, Repr

def Engines.empty : Engines :=
  { loadQ := [], storeQ := [], matrixQ := [], rowQ := [], loadRun := none, storeRun := none, matrixRun := none, rowRun := none,
    copySet := ⟨[], []⟩, matrixSet := ⟨[], []⟩, rowSet := ⟨[], []⟩, drain := [], rowsOut := [], errs := [], tags := 0, order := 0,
    resvOut := [], blocked := [] }

/-! ## Contexts -/

/-- Where a context stands (12 R282 to R297; 14 R350; 09 R233; 05 R136). -/
inductive Phase where
  /-- Its streams issue while its bank is active. -/
  | running
  /-- A trap, forced stop or page fault entered at t_e; its results go on landing (12 R288). -/
  | stopping (te : Nat)
  /-- Captured at t_c; the handler's first word issues at t_c + 24 (12 R288). -/
  | entering (te tc : Nat)
  /-- RTE has issued; the context resumes at t_r (12 R293). -/
  | returning (tr : Nat)
  /-- Stopped at a waypoint (14 R350). -/
  | atWaypoint
  /-- Stopped by a page fault, or by a forced stop, with its frame saved (09 R233, 05 R136). -/
  | faulted
  | forced
  /-- Answered or to be resumed, and waiting for its bank to be active (09 R234). -/
  | ready
deriving DecidableEq, Repr

/-- What a stop that is under way is for (12 R288, R296). -/
inductive StopKind where
  | handler
  | hypervisor
  | endPlat
  | forcedStop
  | pageFault
deriving DecidableEq, Repr

/-- The trap entry under way: the cause and its TVAL, the stream of a precise cause (3 otherwise), the stop point of TRAPC.WORD,
merged occurrences, and what the stop is for (12 R288 to R291). -/
structure Entry where
  cause : Nat
  tval : Word
  strm : Nat
  word : Nat
  mrg : Bool
  kind : StopKind
deriving DecidableEq, Repr

/-- The saved position of a stream in a frame (12 R291): what RTE restores. -/
structure StreamRec where
  pc : Nat
  blk : Nat
  len : Nat
  reps : Nat
  atHeader : Bool
  stall : Nat
  slip : Nat
  prepReg : Nat
  prepDist : Nat
  begun : Bool
  latch : List Pend
deriving DecidableEq, Repr

/-- A fault record that waits for its answer or for its slot (09 R232): the record's SEQ, the request, its kind, its level,
its guest-physical address and its cycle. -/
structure FaultRec where
  seq : Nat
  req : WalkReq
  kind : Nat
  level : Nat
  gpa : Nat
  /-- CYC at the fault. -/
  at_ : Word
deriving DecidableEq, Repr

/-- A context bank (07 R188). -/
structure Ctx where
  /-- The bank holds a context. -/
  resident : Bool
  job : BitVec 12
  /-- The plat by its PLATID, the parcel's index, and the dispatch core and bank whose LAUNCH took it (05 R132, R127). -/
  plat : Word
  parcel : Nat
  /-- The waypoint recorded last, and the evacuated mark with its waypoint id (14 R350, 05 R133). -/
  waypoint : Option (BitVec 12)
  evacuated : Option (BitVec 12)
  /-- The pod cycle that its timetable counts from, moved by resumptions (05 R123, R137), and the timetable cycle of the waypoint
  recorded last (06 R158). -/
  origin : Nat
  wayCyc : Nat
  /-- Waiting in WAYPT or CKPT at an id with the plat's other parcels (04 R114, 14 R352). -/
  atWay : Option (BitVec 12)
  atCkpt : Option (BitVec 12)
  /-- Its record of the checkpoint under way is written (14 R352). -/
  ckptDone : Bool
  /-- Waypoints reached since release, this one counted, and the one at which a stop or the end of its plat is taken (05 R135; 04 R113,
  R114). -/
  ways : Nat
  stopNo : Nat
  /-- The A and V streams stay stopped after an EVAC until the C stream issues a word other than RETIRE (14 R351); the RESUME blocks at
  which they stop, by stream, A 1 and V 2 (06 R157). -/
  avHold : Bool
  avAt : List (Nat × Nat)
  /-- CODE was taken at the waypoint recorded last, where the context stopped in guarded timing or was stopped at E (04 R114, R115; 14 R351). -/
  staleAt : Bool
  phase : Phase
  entry : Option Entry
  /-- The main frame's saved C position and mode, and the C position of the handler frame (12 R291, R297). -/
  saved : Option StreamRec
  savedTe : Nat
  handlerSaved : Option StreamRec
  c : StreamSt
  a : StreamSt
  v : StreamSt
  vf : VFile
  /-- Effective features, as FEAT reads them (03 R76). -/
  feat : Word
  edCode : BitVec 32
  timecmp : Word
  trapc : Word
  tval : Word
  tvec : Word
  fssel : Word
  /-- Pending causes by code, with the TVAL of the first occurrence and whether a further one merged (12 R285). -/
  pending : Sp (Word × Bool)
  /-- Loss notices since the last delivery of LOSS (12 R281). -/
  lossCount : BitVec 32
  /-- A TRAP word that has issued, to be delivered in the next clk (12 R284): its code, with the halfword and the repeats where it stood, at
  which it runs again where another cause comes first (12 R287). -/
  sysTrap : Option (Word × Nat × Nat)
  /-- A precise PERM to be raised by the faulting word at resumption (09 R234), by stream: C 0, A 1. -/
  permAt : Option (Nat × Word × Bool)
  /-- A page fault taken in a trap entry or handler (12 R294), and the SEQ of the record unanswered. -/
  secondary : Option (BitVec 64)
  /-- The walk of the C stream that was under way when the handler started: its fault is no fault of the handler (12 R294). -/
  heldWalk : Option WalkReq
  faultSlot : Option (Nat × Nat)
  fault : Option FaultRec
  guarded : Bool
  /-- Guarded timing that begins as the context goes on from its main frame: of a fault answered in an entry or a handler (09 R234; 12 R289). -/
  guardLater : Bool
  /-- Freezes that have ended in this waypoint interval (07 R187). -/
  freezes : Nat
  q0 : ScalarQ
  q1 : ScalarQ
  q2 : ScalarQ
  q3 : ScalarQ
  q4 : DataQ
  q5 : DataQ
  q6 : DataQ
  q7 : DataQ
  q8 : DataQ
  q9 : DataQ
  q14 : ScalarQ
  q15 : ScalarQ
  tickets : Nat
  /-- Tokens of L to M, M to S, S to L, M to L, by code 1 to 4 (07 R175). -/
  tokens : Sp Nat
  eng : Engines
  bptsel : Word
  /-- The buffer page table by buffer * 128 + page; unlisted entries stand at their release value (08 R197). -/
  bpt : Sp Word
  win : Sp Word
  allow : Sp Word
  stsel : Sp Word
  stcnt : Sp Word
  /-- STCNT0 to STCNT7 as they stood at the start of the clk, which MFS reads (14 R334). -/
  stcntAt : Sp Word
  /-- TOKCNT, ENGSTEP, DSTAT.NEXTL and ALLOW0 to ALLOW15 as they stood at the start of the clk, which MFS reads (14 R334). -/
  tokcntAt : Word
  engstepAt : Word
  nextlAt : BitVec 16
  allowAt : Sp Word
  /-- The inbox entry of the open handler, and the inbox entries in use (02 R45, R47). -/
  handler : Option Nat
  inbox : List Nat
  spillC : Memory
  spillA : Memory
  spillV : Memory
  frame : Memory
  dbgreq : Bool
  /-- The displaced copy of X, Z, W, the slots and the sign store (08 R204); empty when not displaced. -/
  displaced : Bool
  dispW : Memory
  dispX : Memory
  dispZ : Memory
  dispSlots : Memory
  dispSign : Memory
  dispPoison : List Nat
  /-- Stop at the next waypoint requested (05 R135, 01 R11). -/
  stopReq : Bool
  /-- Parties of barriers: for each configured unit, the phase last arrived in and whether a wait for it is still owed
  (14 R336). -/
  parties : List (BarUnit × Nat × Bool)
deriving DecidableEq, Repr

/-- An empty context bank. DESIGN CHOICE (log 3) where the spec gives no value at module reset. -/
def Ctx.reset : Ctx :=
  { resident := false, job := 0, plat := 0, parcel := 0, waypoint := none, evacuated := none, origin := 0, wayCyc := 0, atWay := none, atCkpt := none, ckptDone := false,
    ways := 0, stopNo := 0, avHold := false, avAt := [], staleAt := false,
    phase := .running, entry := none, saved := none, savedTe := 0, handlerSaved := none,
    c := StreamSt.reset, a := StreamSt.reset, v := StreamSt.reset, vf := VFile.reset, feat := 0, edCode := 0, timecmp := 0,
    trapc := 0, tval := 0, tvec := 0, fssel := 0, pending := [], lossCount := 0, sysTrap := none, permAt := none,
    secondary := none, heldWalk := none, faultSlot := none, fault := none, guarded := false, guardLater := false, freezes := 0,
    q0 := .empty, q1 := .empty, q2 := .empty, q3 := .empty, q4 := .empty, q5 := .empty, q6 := .empty, q7 := .empty,
    q8 := .empty, q9 := .empty, q14 := .empty, q15 := .empty, tickets := 0, tokens := [], eng := Engines.empty,
    bptsel := 0, bpt := [], win := [], allow := [], stsel := [], stcnt := [], stcntAt := [], tokcntAt := 0, engstepAt := 0, nextlAt := 0, allowAt := [], handler := none, inbox := [],
    spillC := [], spillA := [], spillV := [], frame := [], dbgreq := false, displaced := false,
    dispW := [], dispX := [], dispZ := [], dispSlots := [], dispSign := [], dispPoison := [], stopReq := false, parties := [] }

/-! ## Cores -/

/-- An operand slot (08 R191, R203; 14 R345): the page format it records, who holds it (a bank) and the job of the last holder.
Its 64 KiB and its 4 KiB of scales stand in the core's `slotMem`, slot n at 0x1_1000 * n, the scales from 0x1_0000. -/
structure SlotInfo where
  fmt : Nat
  geom : Nat
  holder : Option Nat
  last : Option (BitVec 12)
deriving DecidableEq, Repr

def SlotInfo.reset : SlotInfo := ⟨0, 0, none, none⟩

/-- A TLB entry: job, generation, virtual page base in units of 64 KiB, the leaf (09 R228, R236). -/
structure TlbEntry where
  job : BitVec 12
  gen : Nat
  vpn : Nat
  leaf : Leaf
deriving DecidableEq, Repr

/-- A line of a combining entry: its address at the destination, a mask of its 64 bytes, and the bytes (08 R212). -/
structure CombLine where
  addr : Nat
  mask : BitVec 64
  bytes : List Byte
deriving DecidableEq, Repr

/-- Where posted lines go: through a window to a peer core, or to a global home (08 R212, 09 R226). -/
inductive Dest where
  | window (n : Nat) (mod sta core : Nat)
  | global (mod sta : Nat)
deriving DecidableEq, Repr

/-- A combining entry (08 R212, R213): `sent` holds the clk in which it was sent; it then waits for injection. `mir` is 1 for the
copy of a mirrored store that goes to its home and 2 for the copy that goes to the mirror (01 R36). -/
structure CombEntry where
  id : Nat
  bank : Nat
  dest : Dest
  ord : Nat
  job : BitVec 12
  opened : Nat
  sent : Option Nat
  mir : Nat
  lines : List CombLine
  /-- The streams whose stores it holds, those that a FENCE holds until it is performed (14 R330), and the messages that are released
  after it (14 R346). -/
  by_ : List Stream
  fenced : List Stream
  before : List Nat
deriving DecidableEq, Repr

/-- A posted-write slot that has been sent and the lines of it whose credits have not returned (08 R214, 14 R327); `eng` names the
engine that built it and its command by the place in C program order (21 R419). -/
structure Owed where
  bank : Nat
  eng : Option (EngQ × Nat)
  tag : Nat
  dest : Dest
  ord : Nat
  lines : Nat
  /-- The addresses of its lines at the destination. -/
  at_ : List Nat
  by_ : List Stream
  fenced : List Stream
  before : List Nat
deriving DecidableEq, Repr

/-- What remote data of the core is for (01 R20, 02 R44): a register of a stream, a granule of a data queue, an atomic without
result, a part of a copy command written at an offset of a space (0 W, 1 X, 3 operand slots, 4 to 6 the C, A and V scratchpads),
or a part of one that only had to be performed, with the address of its first byte: the command by its place in C program order. -/
inductive Want where
  | reg (s : StreamId) (id : Nat) (bytes : Nat) (signed : Bool)
  /-- Lanes with the offset of their bytes among those that came, and the exponent of their scale; none for NaR. -/
  | granule (c : CtxId) (q ticket fmt : Nat) (lanes : List (Nat × Nat × Option Int))
  | atomic (c : CtxId)
  | place (c : CtxId) (q : EngQ) (seq ea space off : Nat)
  | done (c : CtxId) (q : EngQ) (seq ea : Nat)
  /-- Bytes that a word needs before it issues (14 R339). -/
  | word (i : StreamId)
  /-- Scale bytes that a row of a vector access word needs (15 R359): the word. -/
  | scales (id : Nat)
deriving DecidableEq, Repr

/-- Remote data awaited: by whom, for what, how many replies are still to come, and the bytes that have come, by offset. -/
structure Group where
  id : Nat
  bank : Nat
  stream : Stream
  acq : Bool
  /-- Of an access of ORD SO (09 R242). -/
  so : Bool
  want : Want
  left : Nat
  got : Memory
deriving DecidableEq, Repr

/-- A remote request outstanding, by the TAG of its slot: the group it is of, where its reply's bytes go in the group, and the
request, kept so that it can be sent again to a mirror (01 R38). -/
structure Request where
  tag : Nat
  group : Nat
  at_ : Nat
  len : Nat
  /-- A load of a mirrored page. -/
  mir : Bool
  slot : Slot
deriving DecidableEq, Repr

/-- Where a resolved access goes. -/
inductive Place where
  | buf (b off : Nat)
  | win (dest : Dest) (peer ord : Nat)
  | mem (l : Leaf) (mod pa : Nat)
  | regs (off : Nat)
deriving DecidableEq, Repr

/-- A stretch of bytes that a vector access reaches: its address and length, the granule it belongs to, and where its bytes stand
among those of the granule. -/
structure Piece where
  ea : Nat
  len : Nat
  g : Nat
  off : Nat
deriving DecidableEq, Repr

/-- A piece that lies under one page: where, and the attributes of the page (08 R197, 09 R223). -/
structure Spot where
  p : Piece
  place : Place
  fmt : Nat
  geom : Nat
  ord : Nat
deriving DecidableEq, Repr

/-- What a vector access word does with its granules (15 R362 to R366). -/
inductive ApKind where
  | load (q : Nat)
  | store
  | atomic (mx : Bool)
deriving DecidableEq, Repr

/-- What the access processor starts in one clk (15 R361, R364): a row, or of a granule of a gather or scatter what lies in buffers, or one line
of global memory, by its place among the granule's lines. -/
structure ApUnit where
  g : Nat
  line : Option Nat
  spots : List Spot
  /-- The lines of a store that has started and waits for allowance (15 R363). -/
  todo : Option (List (Place × CombLine))
deriving DecidableEq, Repr

/-- A vector access word in the request order of the access processor (15 R361). -/
structure ApWord where
  id : Nat
  ctx : CtxId
  kind : ApKind
  fmt : Nat
  /-- The strongest kind of its pages or windows (08 R200; 15 R360). -/
  ord : Nat
  /-- What is still to be started. -/
  units : List ApUnit
  /-- The granules that a store or an atomic has taken; of a load, the ticket of the first that it has reserved. -/
  data : List (List Elem)
  ticket : Nat
  /-- The scale bytes asked for, by lines of the pod's memory, the group that asks, and the bytes once they have come (15 R359). -/
  fetch : Option (List Nat × Nat × Option Memory)
  /-- The granule under way, with the exponents of its elements by their offsets: as they stood when it started (15 R359). -/
  exps : Option (Nat × List (Nat × Option Int))
  /-- The group that the granule under way awaits, and those of all granules. -/
  part : Option Nat
  groups : List Nat
  /-- The clk in which the last started is over. -/
  fin : Nat
  /-- A FENCE holds the stream's later accesses for it (14 R330). -/
  fenced : Bool
deriving DecidableEq, Repr

/-- Where a load reads in the clk after its issue: a buffer, or an entry of the combining entries and the address in it (16 R375; 08 R215). -/
inductive NearSrc where
  | buf (b off : Nat)
  | entry (id addr : Nat)
deriving DecidableEq, Repr

/-- A load that reads in the next clk: the result that it is for, where, how many bytes, and whether they are sign-extended. -/
structure NearLoad where
  strm : StreamId
  id : Nat
  src : NearSrc
  n : Nat
  signed : Bool
deriving DecidableEq, Repr

/-- A message that waits in the egress of its core, as a store-release, for accesses before it: the posted writes that name it, and the
groups of loads (14 R346, R327). -/
structure HeldSend where
  id : Nat
  slot : Slot
  groups : List Nat
deriving DecidableEq, Repr

/-- An arrival at a barrier unit that is counted when its release has been performed, of the posted writes that name it and of the groups of
loads (14 R336, R337); `pair` names the redundant pair it is of. -/
structure HeldArrival where
  id : Nat
  ctx : CtxId
  unit : BarUnit
  pair : Option CtxId
  groups : List Nat
deriving DecidableEq, Repr

/-- A loaded region of a scratchpad, halfwords `lo` to `hi` (05 R130), or one that is being loaded or has been overwritten; of a plat not released yet, `bank` is 2 more than its PLATID. -/
structure Region where
  bank : Nat
  st : Stream
  lo : Nat
  hi : Nat
  overwritten : Bool
deriving DecidableEq, Repr

/-- A write of an engine port, which takes effect at the end of its clk (08 R193): that clk, 0 for the one under way; the port, 2 copy, 3 row,
4 matrix; the space, 0 W, 1 X, 2 Z, 3 slot memory; the offset, the bytes, and whether they are poisoned. A row of the row engine is written
some clk after it issues (21 R431). -/
structure PortWrite where
  due : Nat
  port : Nat
  space : Nat
  off : Nat
  bytes : List Byte
  poison : Bool
deriving DecidableEq, Repr

/-- A core (07 R188, 08 R191). -/
structure CoreSt where
  active : Nat
  /-- A bank switch under way: the bank it activates, and its clk still to run (05 R138). -/
  switching : Option Nat
  switchEnd : Nat
  memW : Memory
  memX : Memory
  /-- Z, and from byte 0x20_0000 on the kind of each of its elements: 1 where a product of INT8 has left INT32 in it (10 R263). -/
  memZ : Memory
  slotMem : Memory
  slots : Sp SlotInfo
  /-- The sign store: bit i of row j of order 16, 64 and 256 at byte offsets 0, 0x20 and 0x220; 0 means +1 (21 R427). -/
  sign : Memory
  padC : Memory
  padA : Memory
  padV : Memory
  regions : List Region
  /-- TLB entries, most recently used first (09 R228). -/
  tlb : List TlbEntry
  /-- Generations of jobs (09 R236). -/
  gens : Sp Nat
  /-- Walks under way (09 R229). -/
  walks : List WalkReq
  /-- Translations of words that have issued, oldest first, of which a stream's first is under way in `walks`: with the generation of the
  job and the leaf that the walk gives (09 R228). -/
  walkLeaf : List (WalkReq × Nat × Leaf)
  comb : List CombEntry
  combId : Nat
  owed : List Owed
  reqs : List Request
  groups : List Group
  reqTag : Nat
  /-- Lines of X, by offset / 64, that hold poisoned data (01 R30). -/
  poison : List Nat
  /-- Retained mirror copies: the sequence number of the copy and its slot (08 R219, 01 R36). -/
  mirrors : List (Nat × Slot)
  landing : List Slot
  /-- Slots accepted for the core whose turn to be performed has not come: posted writes into X, which the copy port carries, and requests behind
  them (08 R193, R216; 05 R140). -/
  inbound : List Slot
  /-- The end of a freeze under way (07 R185). -/
  freeze : Option Nat
  /-- Slots returned to the egress, with the clk in which they may be injected again (01 R28). -/
  returned : List Slot
  returnClk : Nat
  /-- First slots of a redundant pair that wait for the second (04 R103). -/
  pairWait : List (Nat × Slot)
  /-- The clk from which the access processor is free for a further row, and its request order: the vector words not yet performed, oldest first
  (15 R361). -/
  apFree : Nat
  ap : List ApWord
  /-- The clk from which the matrix engine may begin a command: every Z element of the last is written (21 R429). -/
  matrixFree : Nat
  /-- Consecutive grants of the copy engine's classes, and the clk from which it may grant again (05 R140). -/
  grantClass : Nat
  grantRun : Nat
  grantFrom : Nat
  /-- Loads that have issued and read in the next clk (16 R375; 08 R215). -/
  near : List NearLoad
  /-- Messages that wait in the egress, oldest first (14 R346). -/
  sends : List HeldSend
  /-- Arrivals at barriers that are still to be counted (14 R337). -/
  arrivals : List HeldArrival
  /-- The engine ports' writes of this clk (08 R193). -/
  portW : List PortWrite
  /-- The bank whose command each engine has taken last, by its number (05 R139). -/
  owner : Sp Nat
  /-- The clk in which a context of the core could last issue (05 R138). -/
  busyAt : Nat
  /-- The clk up to which a foreground logic test of the core runs: its streams stop (04 R98, R99). -/
  test : Nat
  /-- Copies of the state of stopped contexts (08 R204): the bank, whether it comes back, and the beats still to be granted. -/
  moves : List (Nat × Bool × Nat)
deriving DecidableEq, Repr

def CoreSt.reset : CoreSt :=
  { active := 0, switching := none, switchEnd := 0, memW := [], memX := [], memZ := [], slotMem := [], slots := [], sign := [],
    padC := [], padA := [], padV := [], regions := [], tlb := [], gens := [], walks := [], walkLeaf := [], comb := [], combId := 0, owed := [],
    reqs := [], groups := [], reqTag := 0, poison := [], mirrors := [], landing := [], inbound := [], freeze := none, returned := [], returnClk := 0,
    pairWait := [], apFree := 0, ap := [], matrixFree := 0, grantClass := 0, grantRun := 0, grantFrom := 0, near := [], sends := [], arrivals := [],
    portW := [], owner := [], busyAt := 0, test := 0, moves := [] }

/-! ## Dies (04, 05) -/

/-- A path entry of a survey (04 R90). -/
structure PathEntry where
  pkind : Nat
  frm : Nat
  dst : Nat
  lat : Nat
  lanes : Nat
  unlock : Bool
deriving DecidableEq, Repr

/-- An edition-history entry (04 R91): the edition, KIND, INDEX and bits [15:0]. `fell` and `unlocks` tell of a link's change what the bits
do not: that it took lanes out of service, and that it set UNLOCK (R93). -/
structure HistEntry where
  edition : Nat
  kind : Nat
  index : Nat
  low : Nat
  fell : Bool
  unlocks : Bool
deriving DecidableEq, Repr

/-- The survey of a die (04 R86 to R92). `units` holds 4 * STATUS + CLASS by 256 * KIND + INDEX; unlisted is 0, working and of
class A; `initial` holds the same as the initial survey found it. `areas` holds the two record areas by their offset in the management
block. -/
structure Survey where
  edition : Nat
  area : Bool
  units : Sp Nat
  initial : Sp Nat
  paths : List PathEntry
  history : List HistEntry
  areas : Memory
  running : Bool
deriving DecidableEq, Repr

def Survey.reset : Survey :=
  { edition := 0, area := false, units := [], initial := [], paths := [], history := [], areas := [], running := false }

/-- A region of an instruction scratchpad in a parcel entry (05 R120): OFF, LEN in units of 128 halfwords, ENTRY. -/
structure PadReg where
  off : Nat
  len : Nat
  entry : Nat
deriving DecidableEq, Repr

/-- A parcel entry (05 R120) with its index. -/
structure Parcel where
  index : Nat
  mod : Nat
  die : Nat
  core : Nat
  partner : Option Nat
  pparam : Word
  csrc : Word
  asrc : Word
  vsrc : Word
  creg : PadReg
  areg : PadReg
  vreg : PadReg
deriving DecidableEq, Repr

/-- A reservation entry (05 R122). -/
structure Resv where
  trunk : Bool
  ccw : Bool
  trk : Nat
  pos : Nat
  offset : Nat
  ssta : Nat
  smod : Nat
  dsta : Nat
  dmod : Nat
deriving DecidableEq, Repr

/-- A region that waits to be loaded (05 R130): its core and stream, the clk from which beats of its overlay may be granted once that has begun,
and the beats granted so far. -/
structure Load where
  core : Nat
  st : Stream
  from_ : Option Nat
  beat : Nat
deriving DecidableEq, Repr

/-- A plat in a launch table (05 R119, R126 to R136). `code` and `detail` stand as in its status record; `since` is the cycle
from which it waits, or from which it runs; `k` counts the candidate release cycles; `asked` is the cycle of a pre-emption
request, and `forced` whether a forced stop has been taken. -/
structure PlatRec where
  plat : Word
  bank : Nat
  core : Nat
  va : Nat
  job : BitVec 12
  prio : Nat
  ckpt : Bool
  frame : Nat
  start : Nat
  params : List Word
  preds : List Word
  ckptVa : Word
  parcels : List Parcel
  edits : List (Nat × Nat × Nat)
  res : List Resv
  code : Nat
  detail : Nat
  k : Nat
  since : Nat
  age : Nat
  asked : Option Nat
  /-- Verdicts that have come: die, k, and 0 failed, 1 ready, 2 neither (R128, R129; log 32). -/
  verdicts : List (Nat × Nat × Nat)
  /-- Parcels of this die that have retired, with the mark of each (R133). -/
  ended : List (Nat × Option (BitVec 12))
  /-- The waypoint and cycle of a stop (R135, R137). -/
  stopped : Option (BitVec 12 × Nat)
  /-- Ends at its next common waypoint without evacuation (04 R113), or at once for a cause. -/
  late : Bool
  /-- The checkpoint waypoint (04 R107) and whether the interval is recoverable (R108). -/
  ckptAt : Option (BitVec 12)
  recoverable : Bool
  /-- WPMAX (R119). -/
  wpmax : Nat
  /-- Banks kept for its release (R128), and the regions that wait to be loaded (R130). -/
  banks : List CtxId
  loads : List Load
deriving DecidableEq, Repr

/-- An entry of a checkpoint log (04 R108): the plat and the controller whose 16 MiB it stands in, at 128 times the number of entries
before it, and its 128 bytes: the old value of the line, its physical address, zeros. -/
structure LogLine where
  plat : Word
  ctl : Nat
  record : List Byte
deriving DecidableEq, Repr

/-- A die: survey, scheduler, skew of its CYC (01 R33), checkpoint logs of its controllers. -/
structure DieSt where
  skew : Nat
  survey : Survey
  plats : List PlatRec
  /-- PLATIDs of the last 256 plats all of whose parcels here have retired (05 R131), newest first. -/
  gone : List Word
  /-- PLATIDs of plats that have had a parcel here (R131). -/
  seen : List Word
  /-- Units with a lasting fault, by KIND and INDEX: the survey does not record why a unit is struck (04 R112). -/
  faulty : List (Nat × Nat)
  log : List LogLine
  /-- Evacuation records that the scheduler keeps of pre-empted contexts: the context as it stood (05 R137). -/
  kept : List (Word × Nat × Ctx)
deriving DecidableEq, Repr

def DieSt.reset : DieSt := { skew := 0, survey := Survey.reset, plats := [], gone := [], seen := [], faulty := [], log := [], kept := [] }

/-! ## Stations (01, 02) -/

/-- The state of a job at a station (02 R61). -/
inductive JobState where
  | free
  | opened
  | closing
deriving DecidableEq, Repr

/-- An entry of the loss log (02 R49). -/
structure LossEntry where
  header : BitVec 128
  cyc : Word
  cause : Nat
deriving DecidableEq, Repr

/-- A QWAIT registered at a station (02 R54, R56, R57). -/
structure QReg where
  ctx : CtxId
  pod : Bool
  since : Nat
  job : BitVec 12
deriving DecidableEq, Repr

/-- One hop's sender (01 R29, 02 R48): its retry buffer of slots with their sequence numbers, its next number, its attempts
and when they began, and whether it retrains. -/
structure Hop where
  kept : List Slot
  next : BitVec 16
  tries : Nat
  since : Nat
  down : Bool
  /-- Sequence numbers whose slots its receiver has given up (02 R48 step 2). -/
  dead : List (BitVec 16)
deriving DecidableEq, Repr

def Hop.reset : Hop := { kept := [], next := 0, tries := 0, since := 0, down := false, dead := [] }

/-- One side of a waystation: its trunk link to the next module clockwise or counter-clockwise (01 R18, R19, R32, R34; 04 R90): the
one-way latency, the lanes that it transmits on, out of lock, the groups in a row that came over it with a difference beyond 2 clk, and
the difference measured last. -/
structure LinkSt where
  lat : Nat
  lanes : Nat
  unlock : Bool
  bad : Nat
  diff : Int
deriving DecidableEq, Repr

def LinkSt.reset : LinkSt := { lat := 0, lanes := 0, unlock := false, bad := 0, diff := 0 }

/-- A ring station (01, 02). -/
structure Station where
  inj : Sp Nat
  con : Sp Nat
  los : Sp Nat
  /-- Unlisted jobs are FREE, but job 0, which is OPEN from reset (02 R61). -/
  jobs : Sp JobState
  unrepaired : Bool
  /-- MANSEL.JOB and the snapshot of its counters (02 R50). -/
  manJob : BitVec 12
  manInj : Nat
  manCon : Nat
  manLos : Nat
  jopen : BitVec 12
  jopenErr : Bool
  jclose : BitVec 12
  losslog : List LossEntry
  lossTotal : Nat
  lossFull : Bool
  linkErr : Nat
  jroot : Sp Word
  qregs : List QReg
  /-- Slots that wait for injection, in order, each with the clk from which it can be on the ring. -/
  outq : List (Nat × Slot)
  hopCw : Hop
  hopCcw : Hop
  trunkCw : Hop
  trunkCcw : Hop
  linkCw : LinkSt
  linkCcw : LinkSt
  /-- Slots refused here that have not come again, in the order of their refusals (01 R28). -/
  refusing : List Slot
deriving DecidableEq, Repr

def Station.reset : Station :=
  { inj := [], con := [], los := [], jobs := [], unrepaired := false, manJob := 0, manInj := 0, manCon := 0, manLos := 0,
    jopen := 0, jopenErr := false, jclose := 0, losslog := [], lossTotal := 0, lossFull := false, linkErr := 0, jroot := [],
    qregs := [], outq := [], hopCw := Hop.reset, hopCcw := Hop.reset, trunkCw := Hop.reset, trunkCcw := Hop.reset,
    linkCw := LinkSt.reset, linkCcw := LinkSt.reset, refusing := [] }

/-! ## Modules (03) -/

/-- A function block (03 R73 to R79, R84; 09 R230, R232). -/
structure FnSt where
  rst : Bool
  go : Bool
  en : Bool
  jobErr : Bool
  featErr : Bool
  accLo : Word
  accHi : Word
  /-- FEATACC0 and FEATACC1 are locked; only a module reset unlocks them (00 R4; 03 R73, R74). -/
  accLock : Bool
  maskLo : Word
  maskHi : Word
  base : BitVec 12
  cnt : BitVec 12
  hvec : Word
  apbase : Word
  errs : Sp Nat
  nonce : Memory
  /-- The nonce of the attestation request under way (03 R84). -/
  asked : List Byte
  pending : Bool
  ready : Bool
  report : List Byte
  /-- RTBn, RTLn, RTOn at 3n, 3n + 1, 3n + 2. -/
  ranges : Sp Word
  area : Word
  res : Word
  seq : Nat
  unanswered : List FaultRec
  waitingSlot : List FaultRec
  /-- MSI-X vectors sent, newest first. -/
  msix : List Nat
deriving DecidableEq, Repr

def FnSt.reset : FnSt :=
  { rst := false, go := false, en := false, jobErr := false, featErr := false, accLo := 0, accHi := 0, accLock := false, maskLo := 0, maskHi := 0,
    base := 0, cnt := 0, hvec := 0, apbase := 0, errs := [], nonce := [], asked := [], pending := false, ready := false, report := [],
    ranges := [], area := 0, res := 0, seq := 1, unanswered := [], waitingSlot := [], msix := [] }

/-- What a module reports to its host ports or to its management cores (01 R11, R37; 02 R57). -/
inductive Note where
  | thermalStop
  | moduleLost (n : Nat)
  | noWaveRing
  | lossNotice (slot : Slot)
  | platEnded (plat : Word) (cause : Nat)
  | bar2Read (f off : Nat) (data : Option (List Byte))
  | bar0Read (f off : Nat) (v : Option Word)
  | config (port : Nat) (retry : Bool)
deriving DecidableEq, Repr

/-- A module (01, 03). -/
structure ModuleSt where
  /-- CYC of the module timebase less the pod cycle (01 R31). -/
  cycOff : Word
  /-- PTIME at a clk (01 R32). -/
  ptime : Word
  ptimeAt : Nat
  /-- HSEMn: the owner, and the requester that won its last tie (03 R70, R71). -/
  hsem : Sp Nat
  hsemTie : Sp Nat
  fns : Sp FnSt
  /-- MIRENTn, the same at all four waystations (01 R35). -/
  mirent : Sp Word
  /-- BOOTSTAT (03 R83), failed fetches, whether DHCP is used, the running image's version and its SHA-512, and the
  fused minimum version (R82, R84, R85). -/
  stage : Nat
  ready : Bool
  fail : Bool
  tries : Nat
  dhcp : Bool
  /-- The Ethernet port in use, and the dies whose management cores have been started (R82). -/
  eth : Nat
  mgmt : List Nat
  version : Word
  image : List Byte
  minVersion : Word
  /-- Versions of images that have passed the checks (R82, R85). -/
  passed : List Word
  /-- Core rails powered (01 R11), and plats stopped for a junction reading (R11; log 28). -/
  powered : Bool
  hot : Bool
  /-- Host ports trained and not in reset (03 R66). -/
  port0 : Bool
  port1 : Bool
  /-- Reservations booked, with their plats (05 R122). -/
  booked : List (Word × Resv)
  /-- Free slots on the local ring: direction, track and the cell of its rotation (01 R13, R14). -/
  ring : List (Bool × Nat × Nat)
  /-- Free slots on the trunk links its waystations transmit on: waystation, direction, group, position (01 R16). -/
  groups : List (Nat × Bool × Nat × Nat)
  /-- The job that the last module wave took last (02 R54). -/
  waveJob : Nat
  notes : List Note
  /-- The code objects that the translation passes have written and the loaders bound: the memory of each, by home module, physical address and
  length (06 R148; log 71). -/
  objects : List (List (Nat × Nat × Nat))
deriving DecidableEq, Repr

def ModuleSt.reset : ModuleSt :=
  { cycOff := 0, ptime := 0, ptimeAt := 0, hsem := [], hsemTie := [], fns := [], mirent := [], stage := 0, ready := false,
    fail := false, tries := 0, dhcp := false, eth := 0, mgmt := [], version := 0, image := [], minVersion := 0, passed := [], powered := true, hot := false,
    port0 := false, port1 := false, booked := [], ring := [], groups := [], waveJob := 0, notes := [], objects := [] }

/-- A muster wave under way (02 R53 to R57, R441): bits of the roll, the jobs taken, the sums of the two passes by place among
the taken jobs, what it declares, and whether it declares nothing. -/
structure Wave where
  id : WaveId
  roll : List Nat
  taken : List Nat
  inj1 : Sp Nat
  con1 : Sp Nat
  los1 : Sp Nat
  inj2 : Sp Nat
  con2 : Sp Nat
  los2 : Sp Nat
  quiet : List Nat
  void : Bool
  gone : Bool
deriving DecidableEq, Repr

/-- The pod: its modules in ring order, its waves, the trunk ring of the pod wave with the bound D of R441, and the job the last
pod wave took last. -/
structure PodSt where
  mods : List Nat
  ring : Option Nat
  bound : Nat
  waves : List Wave
  waveJob : Nat
deriving DecidableEq, Repr

def PodSt.reset : PodSt := { mods := [0], ring := none, bound := 0, waves := [], waveJob := 0 }

/-! ## The pod -/

/-- What a clk still has to visit: the check of a context for a cause to deliver, and the issue of a stream (log 7). -/
inductive Turn where
  | probe (c : CtxId)
  | issue (s : StreamId)
deriving DecidableEq, Repr

/-- A barrier unit in use (05 R118, 14 R336): its parties, the arrivals of the current phase, the number of the current phase, and
the clk at which the parties of the phase before leave. -/
structure BarState where
  nparty : Nat
  count : Nat
  phase : Nat
  leave : Nat
  /-- The redundant pairs of which one member has arrived in the phase (05 R118). -/
  halves : List CtxId
deriving DecidableEq, Repr

/-- The state of a pod. -/
structure State where
  /-- The pod cycle (01 R31): the clk that the machine is in. -/
  clk : Nat
  /-- The model's counter of free values (log 1). -/
  fresh : Nat
  /-- Events due, with their clk, in order (log 7). -/
  agenda : List (Nat × Event)
  /-- What is left of this clk (log 7). -/
  turn : List Turn
  /-- The stream whose word is run (log 7). -/
  foc : StreamId
  /-- The event under way, with its operands (log 7). -/
  cur : Option Event
  /-- Context banks, by 2 * core + bank. -/
  ctxs : Sp Ctx
  cores : Sp CoreSt
  dies : Sp DieSt
  stations : Sp Station
  modules : Sp ModuleSt
  /-- HBM4E and LPDDR-6 of the modules: module * 2^52 + physical address (03 R68, 09 R226). -/
  mem : Memory
  bars : List (BarUnit × BarState)
  pod : PodSt
deriving DecidableEq, Repr

/-- The machine right after reset. Where the spec gives no value, DESIGN CHOICE (logs 1 to 4, 7). -/
def State.reset : State :=
  { clk := 0, fresh := 0, agenda := [], turn := [], foc := ⟨⟨0, 0⟩, .c⟩, cur := none, ctxs := [], cores := [], dies := [],
    stations := [], modules := [], mem := [], bars := [], pod := PodSt.reset }

end Sys2Proof.Machine
end

