-- ==== Sys2Proof/WellFormed.lean ====
section
/-! DEFINITION. The well-formed instructions of a stream on a kind of core: the limits that the entries of the spec set on the
operand fields, beyond their widths (12 R298, 13 R300 to R313). A word that violates one raises ILLEGAL. An event of the
device is no word of a stream. -/

namespace Sys2Proof

/-- The control-only cores (07 R190). -/
def CoreKind.ctl : CoreKind → Bool
  | .compute => false
  | .dispatch => true
  | .management => true

/-- The majors 0x00 to 0x0E of C and A (13 R308). -/
def inCA : Stream → Bool
  | .c => true
  | .a => true
  | .v => false

/-- The words of every stream, V on compute cores only (07 R190, 13 R311). -/
def inAll (k : CoreKind) : Stream → Bool
  | .c => true
  | .a => true
  | .v => !k.ctl

/-- The words of the C stream (13 R309). -/
def inC (st : Stream) : Bool := st == .c

/-- The words of the A stream (13 R310). -/
def inA (st : Stream) : Bool := st == .a

/-- The words of the V stream (13 R311). -/
def inV (k : CoreKind) (st : Stream) : Bool := st == .v && !k.ctl

/-- A predicate field: 48 to 63 raise ILLEGAL (13 R300). -/
def okP (p : BitVec 6) : Bool := decide (p.toNat < 48)

/-- A guard field (12 R298). -/
def okG (g : Guard) : Bool := okP g.p

/-- A field that names a distribution register, d0 to d15 (13 R311). -/
def okD (d : BitVec 5) : Bool := decide (d.toNat < 16)

/-- The queues a word of C or A may pop (07 R168, R190). -/
def okPop (k : CoreKind) (st : Stream) (q : BitVec 5) : Bool :=
  match st with
  | .c => q == 2 || q == 14 || q == 15 || (q == 3 && !k.ctl)
  | .a => q == 0
  | .v => false

/-- The queues a word of C or A may push (07 R168, R190). -/
def okPush (k : CoreKind) (st : Stream) (q : BitVec 5) : Bool :=
  match st with
  | .c => q == 0 || (q == 1 && !k.ctl)
  | .a => q == 2
  | .v => false

/-- A token FIFO of a core by its code: 1 LM, 2 MS, 3 SL, 4 ML; control-only cores have LM and SL (07 R175, R190). -/
def okFifo (k : CoreKind) (t : Nat) : Bool :=
  t == 1 || t == 3 || (!k.ctl && (t == 2 || t == 4))

/-- A wait or signal field: 0 names none (07 R175). -/
def okTok (k : CoreKind) (t : BitVec 3) : Bool := t == 0 || okFifo k t.toNat

/-- The wait and signal fields of an engine command (13 R312). -/
def okE (k : CoreKind) (e : EngArgs) : Bool := okTok k e.wait && okTok k e.sig

/-- A data queue that A loads fill (07 R168). -/
def okLoadQ (q : Nat) : Bool := decide (4 ≤ q) && decide (q ≤ 7)

/-- A data queue that A stores empty, also the index queues (07 R168, 15 R358). -/
def okStoreQ (q : Nat) : Bool := q == 8 || q == 9

/-- The special registers, and whether a control-only core lacks them (13 R313, 07 R190, 08 R220). -/
def srPresent (k : CoreKind) (n : Nat) : Bool :=
  decide (n ≤ 6) || (decide (0x18 ≤ n) && decide (n ≤ 0x1C)) || (decide (0x20 ≤ n) && decide (n ≤ 0x22)) ||
  (decide (0x30 ≤ n) && decide (n ≤ 0x33)) || (decide (0x40 ≤ n) && decide (n ≤ 0x4F)) ||
  (!k.ctl && (n == 0x10 || n == 0x11 || (decide (0x24 ≤ n) && decide (n ≤ 0x26)) ||
    (decide (0x100 ≤ n) && decide (n ≤ 0x11F))))

/-- The operand limits of every word on a stream of a kind of core. -/
def Instr.wf (kd : CoreKind) (st : Stream) : Instr → Bool
  | .add g _ _ _ => inCA st && okG g
  | .sub g _ _ _ => inCA st && okG g
  | .and g _ _ _ => inCA st && okG g
  | .or g _ _ _ => inCA st && okG g
  | .xor g _ _ _ => inCA st && okG g
  | .andn g _ _ _ => inCA st && okG g
  | .shl g _ _ _ => inCA st && okG g
  | .shr g _ _ _ => inCA st && okG g
  | .sar g _ _ _ => inCA st && okG g
  | .rol g _ _ _ => inCA st && okG g
  | .min g _ _ _ => inCA st && okG g
  | .max g _ _ _ => inCA st && okG g
  | .minu g _ _ _ => inCA st && okG g
  | .maxu g _ _ _ => inCA st && okG g
  | .mul g _ _ _ => inCA st && okG g
  | .mulhu g _ _ _ => inCA st && okG g
  | .addi _ _ _ => inCA st
  | .andi _ _ _ => inCA st
  | .ori _ _ _ => inCA st
  | .xori _ _ _ => inCA st
  | .shli _ _ _ => inCA st
  | .shri _ _ _ => inCA st
  | .sari _ _ _ => inCA st
  | .muli _ _ _ => inCA st
  | .lui _ _ => inCA st
  | .auib _ _ => inCA st
  | .bext g _ _ _ => inCA st && okG g
  | .bexts g _ _ _ => inCA st && okG g
  | .bins g _ _ _ => inCA st && okG g
  | .clz g _ _ => inCA st && okG g
  | .ctz g _ _ => inCA st && okG g
  | .popc g _ _ => inCA st && okG g
  | .bexti _ _ _ _ => inCA st
  | .binsi _ _ _ _ => inCA st
  | .cmpEq _ _ _ p => inCA st && okP p
  | .cmpNe _ _ _ p => inCA st && okP p
  | .cmpLt _ _ _ p => inCA st && okP p
  | .cmpGe _ _ _ p => inCA st && okP p
  | .cmpLtu _ _ _ p => inCA st && okP p
  | .cmpGeu _ _ _ p => inCA st && okP p
  | .cmpiEq _ _ _ p => inCA st && okP p
  | .cmpiNe _ _ _ p => inCA st && okP p
  | .cmpiLt _ _ _ p => inCA st && okP p
  | .cmpiGe _ _ _ p => inCA st && okP p
  | .cmpiLtu _ _ _ p => inCA st && okP p
  | .cmpiGeu _ _ _ p => inCA st && okP p
  | .pand _ _ _ p => inAll kd st && okP p
  | .por _ _ _ p => inAll kd st && okP p
  | .pxor _ _ _ p => inAll kd st && okP p
  | .pandn _ _ _ p => inAll kd st && okP p
  | .pmov _ _ p => inAll kd st && okP p
  | .pnot _ _ p => inAll kd st && okP p
  | .movqPop g q _ => inCA st && okG g && okPop kd st q
  | .movqPush g _ q => inCA st && okG g && okPush kd st q
  | .trypopQueue g _ q _ => inCA st && okG g && okPop kd st q
  | .ldB _ _ _ => inCA st
  | .ldH _ _ _ => inCA st
  | .ldW _ _ _ => inCA st
  | .ld _ _ _ => inCA st
  | .ldSb _ _ _ => inCA st
  | .ldSh _ _ _ => inCA st
  | .ldSw _ _ _ => inCA st
  | .ldAcq s _ _ _ => inCA st && decide (s.toNat ≤ 4)
  | .stB _ _ _ => inCA st
  | .stH _ _ _ => inCA st
  | .stW _ _ _ => inCA st
  | .st _ _ _ => inCA st
  | .stRel s _ _ _ => inCA st && decide (s.toNat ≤ 4)
  | .amoAdd g _ _ _ => inCA st && okG g
  | .amoAnd g _ _ _ => inCA st && okG g
  | .amoOr g _ _ _ => inCA st && okG g
  | .amoXor g _ _ _ => inCA st && okG g
  | .amoMin g _ _ _ => inCA st && okG g
  | .amoMax g _ _ _ => inCA st && okG g
  | .amoMinu g _ _ _ => inCA st && okG g
  | .amoMaxu g _ _ _ => inCA st && okG g
  | .amoSwap g _ _ _ => inCA st && okG g
  | .cas g _ _ _ => inCA st && okG g
  | .ldlB _ _ => inCA st
  | .ldlH _ _ => inCA st
  | .ldlW _ _ => inCA st
  | .ldl _ _ => inCA st
  | .ldlSb _ _ => inCA st
  | .ldlSh _ _ => inCA st
  | .ldlSw _ _ => inCA st
  | .stlB _ _ => inCA st
  | .stlH _ _ => inCA st
  | .stlW _ _ => inCA st
  | .stl _ _ => inCA st
  | .fence _ s => inCA st && decide (s.toNat ≤ 4)
  | .pbr _ _ => inAll kd st
  | .pbrx _ g _ => inCA st && okG g
  | .br g _ => inAll kd st && okG g
  | .brl g _ => inAll kd st && okG g
  | .sloop _ _ => inA st
  | .snext _ => (inA st || inV kd st)
  | .div g _ _ _ => inC st && okG g
  | .divu g _ _ _ => inC st && okG g
  | .rem g _ _ _ => inC st && okG g
  | .remu g _ _ _ => inC st && okG g
  | .mfs s _ => inC st && srPresent kd s.toNat
  | .mts s _ => inC st && srPresent kd s.toNat
  | .barArrive s _ => inC st && decide (1 ≤ s.toNat) && decide (s.toNat ≤ 4)
  | .barWait s _ => inC st && decide (1 ≤ s.toNat) && decide (s.toNat ≤ 4)
  | .barAw s _ => inC st && decide (1 ≤ s.toNat) && decide (s.toNat ≤ 4)
  | .twait _ _ => inC st
  | .waitm _ _ => inC st
  | .qwait s => inC st && (s == 3 || s == 4)
  | .signal _ => inC st
  | .push g _ => inC st && okG g
  | .pop g t => inC st && okG g && okFifo kd t.toNat
  | .trypopToken g _ t => inC st && okG g && okFifo kd t.toNat
  | .setup g _ _ => inC st && okG g
  | .oclaim _ _ => inC st
  | .orelease _ => inC st
  | .send g _ _ => inC st && okG g
  | .hret g => inC st && okG g
  | .trap _ => inC st
  | .rte => inC st
  | .rteSkip => inC st
  | .waypt _ => inC st
  | .evac _ _ => inC st
  | .retire => inC st
  | .mrepair _ _ => inC st
  | .launch g _ _ _ => inC st && okG g
  | .ckpt _ => inC st
  | .cld e => inC st && okE kd e
  | .cst e => inC st && okE kd e
  | .csta e => inC st && okE kd e
  | .cchn e _ _ => inC st && okE kd e && !kd.ctl
  | .cslc e => inC st && okE kd e && !kd.ctl
  | .covl e => inC st && okE kd e && !kd.ctl
  | .cmig e _ => inC st && okE kd e && !kd.ctl
  | .cinv e _ => inC st && okE kd e
  | .mma e _ _ => inC st && okE kd e && !kd.ctl
  | .mmas e _ _ => inC st && okE kd e && !kd.ctl
  | .mrot e => inC st && okE kd e && !kd.ctl
  | .mdrn e => inC st && okE kd e && !kd.ctl
  | .mclr e => inC st && okE kd e && !kd.ctl
  | .msgn e => inC st && okE kd e && !kd.ctl
  | .wmax e => inC st && okE kd e && !kd.ctl
  | .wexs e => inC st && okE kd e && !kd.ctl
  | .wscl e => inC st && okE kd e && !kd.ctl
  | .wmom e => inC st && okE kd e && !kd.ctl
  | .wapl e => inC st && okE kd e && !kd.ctl
  | .ldv _ _ _ q => inA st && !kd.ctl && okLoadQ q.toNat
  | .stv _ _ _ q => inA st && !kd.ctl && okStoreQ q.toNat
  | .ldg _ r _ q => inA st && !kd.ctl && okLoadQ q.toNat && okStoreQ r.toNat
  | .stsc _ r _ q => inA st && !kd.ctl && okStoreQ q.toNat && okStoreQ r.toNat && r != q
  | .amovAdd _ r _ q => inA st && !kd.ctl && okStoreQ q.toNat && okStoreQ r.toNat && r != q
  | .amovMax _ r _ q => inA st && !kd.ctl && okStoreQ q.toNat && okStoreQ r.toNat && r != q
  | .pref _ _ => inA st
  | .tlbp _ _ => inA st
  | .vadd g _ _ _ => inV kd st && okG g
  | .vsub g _ _ _ => inV kd st && okG g
  | .vmul g _ _ _ => inV kd st && okG g
  | .vmin g _ _ _ => inV kd st && okG g
  | .vmax g _ _ _ => inV kd st && okG g
  | .vabs g _ _ => inV kd st && okG g
  | .vneg g _ _ => inV kd st && okG g
  | .vmov g _ _ => inV kd st && okG g
  | .vfma _ _ _ _ _ => inV kd st
  | .vfms _ _ _ _ _ => inV kd st
  | .vfnma _ _ _ _ _ => inV kd st
  | .vfnms _ _ _ _ _ => inV kd st
  | .vrcp g _ _ => inV kd st && okG g
  | .vrsq g _ _ => inV kd st && okG g
  | .vsqrt g _ _ => inV kd st && okG g
  | .vexp2 g _ _ => inV kd st && okG g
  | .vlog2 g _ _ => inV kd st && okG g
  | .vsin g _ _ => inV kd st && okG g
  | .vcos g _ _ => inV kd st && okG g
  | .vtanh g _ _ => inV kd st && okG g
  | .viadd g _ _ _ => inV kd st && okG g
  | .visub g _ _ _ => inV kd st && okG g
  | .vimul g _ _ _ => inV kd st && okG g
  | .vand g _ _ _ => inV kd st && okG g
  | .vor g _ _ _ => inV kd st && okG g
  | .vxor g _ _ _ => inV kd st && okG g
  | .vshl g _ _ _ => inV kd st && okG g
  | .vshr g _ _ _ => inV kd st && okG g
  | .vsar g _ _ _ => inV kd st && okG g
  | .vimin g _ _ _ => inV kd st && okG g
  | .vimax g _ _ _ => inV kd st && okG g
  | .vcmpEq _ _ _ p => inV kd st && okP p
  | .vcmpNe _ _ _ p => inV kd st && okP p
  | .vcmpLt _ _ _ p => inV kd st && okP p
  | .vcmpLe _ _ _ p => inV kd st && okP p
  | .vcmpGt _ _ _ p => inV kd st && okP p
  | .vcmpGe _ _ _ p => inV kd st && okP p
  | .vcmpOrd _ _ _ p => inV kd st && okP p
  | .vcmpUno _ _ _ p => inV kd st && okP p
  | .vcmpIeq _ _ _ p => inV kd st && okP p
  | .vcmpIlt _ _ _ p => inV kd st && okP p
  | .vcmpIltu _ _ _ p => inV kd st && okP p
  | .vsel k2 _ _ _ => inV kd st && okG k2
  | .vcvtI32 g _ _ => inV kd st && okG g
  | .vcvtF32 g _ _ => inV kd st && okG g
  | .vrndBf16 g _ _ => inV kd st && okG g
  | .vrndT8 g _ _ => inV kd st && okG g
  | .vrndT6 g _ _ => inV kd st && okG g
  | .vrotr _ _ _ => inV kd st
  | .vrotc _ _ _ => inV kd st
  | .vbcr _ _ _ => inV kd st
  | .vbcc _ _ _ => inV kd st
  | .vtrn16 _ _ => inV kd st
  | .vredrSum _ _ => inV kd st
  | .vredrMax _ _ => inV kd st
  | .vredrMin _ _ => inV kd st
  | .vredcSum _ _ => inV kd st
  | .vredcMax _ _ => inV kd st
  | .vredcMin _ _ => inV kd st
  | .vli _ _ => inV kd st
  | .vpop c r q _ => inV kd st && okLoadQ q.toNat && decide (r.toNat + c.toNat + 1 ≤ 16)
  | .vpush c r q _ => inV kd st && okStoreQ q.toNat && decide (r.toNat + c.toNat + 1 ≤ 16)
  | .vtos _ _ _ => inV kd st
  | .vfrs _ _ => inV kd st
  | .vldl _ _ => inV kd st
  | .vstl _ _ => inV kd st
  | .vSloop _ => inV kd st
  | .dadd b a d => inV kd st && okD b && okD a && okD d
  | .dsub b a d => inV kd st && okD b && okD a && okD d
  | .dmul b a d => inV kd st && okD b && okD a && okD d
  | .dmix b a d => inV kd st && okD b && okD a && okD d
  | .dmuls _ a d => inV kd st && okD a && okD d
  | .dadds _ a d => inV kd st && okD a && okD d
  | .dmaxs _ a d => inV kd st && okD a && okD d
  | .dmapExp2 a d => inV kd st && okD a && okD d
  | .dmapLog2 a d => inV kd st && okD a && okD d
  | .dmapTanh a d => inV kd st && okD a && okD d
  | .dmapSigmoid a d => inV kd st && okD a && okD d
  | .dpt _ _ d => inV kd st && okD d
  | .dgauss r _ d => inV kd st && decide (r.toNat ≤ 14) && okD d
  | .dpop q d => inV kd st && okLoadQ q.toNat && okD d
  | .dpush q a => inV kd st && okStoreQ q.toNat && okD a
  | .dmom _ _ a _ => inV kd st && okD a
  | .dqnt _ a _ => inV kd st && okD a
  | .dtag _ d => inV kd st && okD d
  | .dlin _ d => inV kd st && okD d
  | .dflg i => inV kd st && i &&& 0x42F8#16 == 0
  | .dflgRd i => inV kd st && i &&& 0x42F8#16 == 0
  | .stall _ => inAll kd st
  | .mvh _ _ => inAll kd st
  | .addih _ _ => inCA st
  | .brh g _ => inAll kd st && okG g
  | .blockFetch => false
  | .stallEnd => false
  | .resultLand => false
  | .interlockedResultArrival => false
  | .granuleDataArrival => false
  | .twaitExpiry => false
  | .waitmWake => false
  | .qwaitComplete => false
  | .barrierRelease => false
  | .combiningEntrySend => false
  | .combiningEntryInject => false
  | .slotInject => false
  | .slotHopArrival => false
  | .hopAcknowledge => false
  | .hopRetransmit => false
  | .retryExhausted => false
  | .hopRetrained => false
  | .returnedSlotReinject => false
  | .timetabledSlotArrival => false
  | .landingBufferDrain => false
  | .trunkGroupArrival => false
  | .linkOutOfLock => false
  | .laneFailure => false
  | .linkBringUp => false
  | .mirrorAcceptance => false
  | .resetNoticeArrival => false
  | .activeMessageArrival => false
  | .postedWriteArrival => false
  | .remoteReadRequest => false
  | .remoteReadReply => false
  | .remoteAtomicRequest => false
  | .remoteAtomicReply => false
  | .migrationDataArrival => false
  | .lossNoticeArrival => false
  | .creditReturn => false
  | .moduleWaveBegin => false
  | .podWaveBegin => false
  | .podWavePart => false
  | .musterSlotMerge => false
  | .musterRollReturn => false
  | .jobOpenNotice => false
  | .jobCloseNotice => false
  | .jobFreeNotice => false
  | .stationReset => false
  | .mrepairArrival => false
  | .signalArrival => false
  | .invalidationMarkerArrival => false
  | .tlbWalkComplete => false
  | .pageFault => false
  | .fnfresRetry => false
  | .fnfresRaisePerm => false
  | .fnfresEndPlat => false
  | .fnfresAnswerNothing => false
  | .bankSwitchComplete => false
  | .trapDelivery => false
  | .trapCapture => false
  | .handlerStart => false
  | .rteResume => false
  | .latchReinject => false
  | .timerMatch => false
  | .promiseMiss => false
  | .engineCommandBegin => false
  | .engineMicroStep => false
  | .engineCommandComplete => false
  | .eccFreezeBegin => false
  | .eccFreezeEnd => false
  | .selfTestEnd => false
  | .uncorrectableErrorConsumed => false
  | .memoryUncorrectableError => false
  | .pairSlotCompare => false
  | .pairCompareTimeout => false
  | .periodicResurvey => false
  | .resurveyEnd => false
  | .surveyChangePost => false
  | .thermalStop => false
  | .thermalPowerOff => false
  | .readinessDeadline => false
  | .readinessVerdict => false
  | .verdictTimeout => false
  | .platRelease => false
  | .priorityAging => false
  | .runQuantumExpiry => false
  | .forcedStop => false
  | .platResume => false
  | .loaderRequest => false
  | .templatePass => false
  | .profilePass => false
  | .manselWrite => false
  | .jopenWrite => false
  | .jcloseWrite => false
  | .losscntClear => false
  | .mirentWrite => false
  | .plostClear => false
  | .hsemAcquire => false
  | .hsemRelease => false
  | .fnctlRst => false
  | .functionResetComplete => false
  | .fnctlGo => false
  | .fnctlEn => false
  | .fnjobsWrite => false
  | .feataccWrite => false
  | .featmaskWrite => false
  | .fnnotifyWrite => false
  | .fnerrclrWrite => false
  | .attctlRequest => false
  | .attestReportReady => false
  | .dbgreqRequest => false
  | .dbgreqWithdraw => false
  | .registerWrite => false
  | .hostBar2Write => false
  | .hostBar2Read => false
  | .hostConfigRequest => false
  | .portReset => false
  | .powerOn => false
  | .dhcpv6Timeout => false
  | .imageFetchComplete => false
  | .firmwareUpdate => false
  | .moduleReset => false
  | .ptimeSync => false
  | .mrepairNoAnswer => false
  | .hostPortTrained => false

end Sys2Proof
end

