-- ==== Sys2Proof/Machine/Ops.lean ====
section
/-! DEFINITION. The named operations over the state: parts and registers, time and the agenda, the charge of stall counters
(05 R142, R143), the position of a stream (07 R165, R166), the raising of a cause and the entry of a trap (12 R284 to R289). -/

namespace Sys2Proof.Machine

/-! ## Parts -/

/-- A context bank. -/
def State.ctx (s : State) (c : CtxId) : Ctx := Sp.get Ctx.reset s.ctxs (2 * c.core + c.bank)

def State.putCtx (s : State) (c : CtxId) (x : Ctx) : State := { s with ctxs := Sp.put s.ctxs (2 * c.core + c.bank) x }

def State.modCtx (s : State) (c : CtxId) (f : Ctx → Ctx) : State := s.putCtx c (f (s.ctx c))

/-- A core. -/
def State.core (s : State) (k : Nat) : CoreSt := Sp.get CoreSt.reset s.cores k

def State.putCore (s : State) (k : Nat) (x : CoreSt) : State := { s with cores := Sp.put s.cores k x }

def State.modCore (s : State) (k : Nat) (f : CoreSt → CoreSt) : State := s.putCore k (f (s.core k))

/-- A stream of a context. -/
def Ctx.strm (x : Ctx) : Stream → StreamSt
  | .c => x.c
  | .a => x.a
  | .v => x.v

def Ctx.putStrm (x : Ctx) (st : Stream) (y : StreamSt) : Ctx :=
  match st with
  | .c => { x with c := y }
  | .a => { x with a := y }
  | .v => { x with v := y }

def State.strm (s : State) (i : StreamId) : StreamSt := (s.ctx i.ctx).strm i.st

def State.putStrm (s : State) (i : StreamId) (y : StreamSt) : State := s.modCtx i.ctx (fun x => x.putStrm i.st y)

def State.modStrm (s : State) (i : StreamId) (f : StreamSt → StreamSt) : State := s.putStrm i (f (s.strm i))

/-- The context, the core and the stream of the word that runs. -/
def State.fctx (s : State) : Ctx := s.ctx s.foc.ctx
def State.fcore (s : State) : CoreSt := s.core s.foc.ctx.core
def State.fstrm (s : State) : StreamSt := s.strm s.foc
def State.modF (s : State) (f : Ctx → Ctx) : State := s.modCtx s.foc.ctx f
def State.modFcore (s : State) (f : CoreSt → CoreSt) : State := s.modCore s.foc.ctx.core f
def State.modFs (s : State) (f : StreamSt → StreamSt) : State := s.modStrm s.foc f

def State.die (s : State) (d : Nat) : DieSt := Sp.get DieSt.reset s.dies d
def State.modDie (s : State) (d : Nat) (f : DieSt → DieSt) : State := { s with dies := Sp.put s.dies d (f (s.die d)) }
def State.sta (s : State) (t : Nat) : Station := Sp.get Station.reset s.stations t
def State.modSta (s : State) (t : Nat) (f : Station → Station) : State :=
  { s with stations := Sp.put s.stations t (f (s.sta t)) }
def State.modu (s : State) (m : Nat) : ModuleSt := Sp.get ModuleSt.reset s.modules m
def State.modMod (s : State) (m : Nat) (f : ModuleSt → ModuleSt) : State :=
  { s with modules := Sp.put s.modules m (f (s.modu m)) }

/-- The module, die and kind of a core by its number. -/
def modOf (core : Nat) : Nat := core / 128
def dieOf (core : Nat) : Nat := core / 16
def scoreOf (core : Nat) : Nat := core % 16
def stationOf (core : Nat) : Nat := 16 * (core / 128) + core / 16 % 8
def kindOf (core : Nat) : CoreKind :=
  if core % 16 < 8 then .compute else if core % 16 = 8 then .dispatch else .management

/-- Whether a core is frozen in this clk (07 R185). -/
def State.frozen (s : State) (core : Nat) : Bool :=
  match (s.core core).freeze with
  | some e => decide (s.clk < e)
  | none => false

/-- The first clk, from this one on, in which a core is not frozen. -/
def State.thaw (s : State) (core : Nat) : Nat := Nat.max s.clk ((s.core core).freeze.getD 0)

/-! ## Survey questions (04 R89, R95, R100) -/

/-- STATUS and CLASS of a unit. -/
def DieSt.unit (d : DieSt) (kind index : Nat) : Nat × Nat :=
  let v := Sp.get 0 d.survey.units (256 * kind + index)
  (v / 4, v % 4)

/-- STATUS and CLASS of a unit as they stood at an edition (04 R91): after the newest change up to it, or as the initial survey found them. -/
def DieSt.unitAt (d : DieSt) (edition kind index : Nat) : Nat × Nat :=
  let hs := d.survey.history.filter (fun h => h.kind == kind && h.index == index)
  if hs.all (fun h => decide (h.edition ≤ edition)) then d.unit kind index
  else match hs.find? (fun h => decide (h.edition ≤ edition)) with
    | some h => (h.low / 2 ^ 14, h.low / 2 ^ 12 % 4)
    | none => let v := Sp.get 0 d.survey.initial (256 * kind + index); (v / 4, v % 4)

def DieSt.struck (d : DieSt) (kind index : Nat) : Bool := (d.unit kind index).1 == 2

/-- The edition whose classes the units run at for a context: the newest in guarded timing, else the one its code runs under (04 R95, R112); 0
is none. -/
def State.editionFor (s : State) (c : CtxId) : Nat :=
  if (s.ctx c).guarded || (s.ctx c).edCode == 0 then (s.die (dieOf c.core)).survey.edition else (s.ctx c).edCode.toNat

/-! ## Free values, time, the agenda -/

/-- A free value, and the state with the next count (log 1). -/
def State.free (s : State) : Word × State := (Config.freeWord s.fresh, { s with fresh := s.fresh + 1 })

/-- A free time of an access whose time the spec does not fix (log 1). -/
def State.freeTime (s : State) : Nat × State := (Config.freeDelay s.fresh, { s with fresh := s.fresh + 1 })

/-- CYC as a core's die reads it (01 R31, R33). -/
def State.cyc (s : State) (core : Nat) : Word :=
  BitVec.ofNat 64 (s.clk + (s.die (dieOf core)).skew) + (s.modu (modOf core)).cycOff

/-- An event put behind those due no later. -/
def insertDue (e : Nat × Event) : List (Nat × Event) → List (Nat × Event)
  | [] => [e]
  | x :: xs => if x.1 ≤ e.1 then x :: insertDue e xs else e :: x :: xs

/-- An event due at a clk. -/
def State.post (s : State) (due : Nat) (e : Event) : State := { s with agenda := insertDue (due, e) s.agenda }

/-- An event due in this clk. -/
def State.postNow (s : State) (e : Event) : State := s.post s.clk e

/-- A foreground logic test of a compute core and its check core begins (04 R98): it ends within 2 ms, and what it finds is free (log 1). The
core's streams stop for it. -/
def State.logicTest (s : State) (core : Nat) : State :=
  let (d, s) := s.freeTime
  let (a, s) := s.freeTime
  let (b, s) := s.freeTime
  let e := s.clk + 1 + d % 2100000
  let s := s.modCore core (fun k => { k with test := e })
  (s.post e (.selfTestEnd (dieOf core) ⟨0x01, scoreOf core⟩ (a % 2 == 0))).post e (.selfTestEnd (dieOf core) ⟨0x02, scoreOf core⟩ (b % 2 == 0))

/-! ## Queues of commands, and commands in progress (07 R168, R171, R174) -/

def Engines.queue (g : Engines) : EngQ → List Command
  | .load => g.loadQ
  | .store => g.storeQ
  | .matrix => g.matrixQ
  | .row => g.rowQ

def Engines.putQueue (g : Engines) (e : EngQ) (q : List Command) : Engines :=
  match e with
  | .load => { g with loadQ := q }
  | .store => { g with storeQ := q }
  | .matrix => { g with matrixQ := q }
  | .row => { g with rowQ := q }

def Engines.run (g : Engines) : EngQ → Option Run
  | .load => g.loadRun
  | .store => g.storeRun
  | .matrix => g.matrixRun
  | .row => g.rowRun

def Engines.putRun (g : Engines) (e : EngQ) (r : Option Run) : Engines :=
  match e with
  | .load => { g with loadRun := r }
  | .store => { g with storeRun := r }
  | .matrix => { g with matrixRun := r }
  | .row => { g with rowRun := r }

/-- The commands of an engine that are in progress, oldest first. -/
def Engines.live (g : Engines) (e : EngQ) : List Run :=
  ((g.drain.filter (fun d => d.1 == e)).map Prod.snd) ++ (g.run e).toList

/-- The command in progress with a place in C program order. -/
def Engines.find (g : Engines) (e : EngQ) (seq : Nat) : Option Run := (g.live e).find? (fun r => r.c.seq == seq)

/-- A change of that command. -/
def Engines.modSeq (g : Engines) (e : EngQ) (seq : Nat) (f : Run → Run) : Engines :=
  let on (r : Run) : Run := if r.c.seq == seq then f r else r
  { g.putRun e ((g.run e).map on) with drain := g.drain.map (fun d => if d.1 == e then (d.1, on d.2) else d) }

/-- That command taken out: it is complete. -/
def Engines.dropSeq (g : Engines) (e : EngQ) (seq : Nat) : Engines :=
  { g.putRun e ((g.run e).filter (fun r => r.c.seq != seq)) with drain := g.drain.filter (fun d => d.1 != e || d.2.c.seq != seq) }

/-- An event due at a clk, once. -/
def State.postOnce (s : State) (due : Nat) (e : Event) : State :=
  if s.agenda.any (fun (a : Nat × Event) => a.1 == due && a.2 == e) then s else s.post due e

/-- The compare of TIMECMP that is still to come (12 R286). -/
def State.postTimer (s : State) (c : CtxId) : State :=
  let v := (s.ctx c).timecmp
  if v != 0 && (s.cyc c.core).ult v then s.postOnce (s.clk + (v - s.cyc c.core).toNat) (.timerMatch c) else s

/-- The command of an engine that its micro-PC counts: the one that issues steps, or the oldest whose steps have all been issued (07 R174). -/
def Engines.now (g : Engines) (e : EngQ) : Option Run := (g.run e).or (g.live e).head?

/-- TOKCNT (07 R177). -/
def Ctx.tokcnt (x : Ctx) : Word :=
  BitVec.ofNat 64 (Sp.get 0 x.tokens 1 + 16 * Sp.get 0 x.tokens 2 + 256 * Sp.get 0 x.tokens 3 + 4096 * Sp.get 0 x.tokens 4)

/-- The micro-PC of a command in progress (07 R174). -/
def runStep (r : Option Run) : Nat := match r with | some r => r.step | none => 0

/-- ENGSTEP (07 R174). -/
def Ctx.engstep (x : Ctx) : Word :=
  BitVec.ofNat 64 (runStep (x.eng.now .load) % 65536 * 2 ^ 48 + runStep (x.eng.now .store) % 65536 * 2 ^ 32 +
    runStep (x.eng.now .matrix) % 65536 * 2 ^ 16 + runStep (x.eng.now .row) % 65536)

/-- What MFS reads as it stood at the start of the clk (14 R334). -/
def Ctx.countsAt (x : Ctx) : Ctx :=
  { x with stcntAt := x.stcnt, tokcntAt := x.tokcnt, engstepAt := x.engstep, nextlAt := BitVec.ofNat 16 (wfield x.vf.dstat 32 16), allowAt := x.allow }

/-- No command is queued and none is in progress. -/
def Engines.idle (g : Engines) : Bool := [EngQ.load, .store, .matrix, .row].all (fun e => (g.queue e).isEmpty && (g.live e).isEmpty)

/-! ## Registers -/

/-- The physical number of a predicate name under a window (07 R163). -/
def physP (swin n : Nat) : Nat := if n < 32 then n else 32 + (n - 32 + 16 - swin % 16) % 16

/-- The physical number of a vector name under a window (07 R163). -/
def physV (swin n : Nat) : Nat := if n < 16 then n else 16 + (n - 16 + 16 - swin % 16) % 16

/-- Register codes as words name them (12 R440). -/
def codeP (p : Nat) : Nat := 32 + p
def codeB (b : Nat) : Nat := 80 + b
def codeD (d : Nat) : Nat := 88 + d

/-- The physical register of a code on a stream (07 R163): only A and V rotate. -/
def physCode (st : Stream) (swin code : Nat) : Nat :=
  if code < 32 then (if st = .v then physV swin code else code)
  else if code < 80 then (if st = .c then code else 32 + physP swin (code - 32))
  else code

/-- A scalar or A register; number 0 reads 0 (07 R162). -/
def StreamSt.reg (y : StreamSt) (n : Nat) : Word := if n = 0 then 0 else Sp.get 0 y.regs n

/-- A write of a scalar or A register; a write of number 0 is discarded (07 R162). -/
def StreamSt.setReg (y : StreamSt) (n : Nat) (v : Word) : StreamSt :=
  if n = 0 then y else { y with regs := Sp.set 0 y.regs n v }

/-- A predicate of C or A by its name; p0 reads true (07 R162). -/
def StreamSt.pred (st : Stream) (y : StreamSt) (n : Nat) : Bool :=
  if n = 0 then true else Sp.get false y.preds (physCode st y.swin.toNat (codeP n) - 32)

/-- A write of a predicate of C or A by its physical number; p0 is discarded (07 R162). -/
def StreamSt.setPhysPred (y : StreamSt) (n : Nat) (b : Bool) : StreamSt :=
  if n = 0 then y else { y with preds := Sp.set false y.preds n b }

def StreamSt.branch (y : StreamSt) (b : Nat) : Half := Sp.get 0 y.br b
def StreamSt.prepClk (y : StreamSt) (b : Nat) : Nat := Sp.get 0 y.prep b
def StreamSt.setBranch (y : StreamSt) (b : Nat) (v : Half) (clk : Nat) : StreamSt :=
  { y with br := Sp.set 0 y.br b v, prep := Sp.set 0 y.prep b clk, prepReg := b }

/-- A vector register of zeros. -/
def vzero : List Elem := List.replicate 1024 0

/-- The all-true mask. -/
def maskAll : Mask := BitVec.allOnes 1024

def Ctx.vreg (x : Ctx) (n : Nat) : List Elem := Sp.get vzero x.vf.vregs (physV x.v.swin.toNat n)
def Ctx.setPhysV (x : Ctx) (n : Nat) (v : List Elem) : Ctx := { x with vf := { x.vf with vregs := Sp.put x.vf.vregs n v } }
def Ctx.vmask (x : Ctx) (n : Nat) : Mask :=
  if n = 0 then maskAll else Sp.get 0 x.vf.masks (physP x.v.swin.toNat n)
def Ctx.setPhysMask (x : Ctx) (n : Nat) (m : Mask) : Ctx :=
  if n = 0 then x else { x with vf := { x.vf with masks := Sp.set 0 x.vf.masks n m } }
def Ctx.dreg (x : Ctx) (n : Nat) : DReg := Sp.get DReg.zero x.vf.dregs n
def Ctx.setDreg (x : Ctx) (n : Nat) (d : DReg) : Ctx := { x with vf := { x.vf with dregs := Sp.put x.vf.dregs n d } }

/-- Elements of a new vector where the mask is true, of the old one elsewhere (18 R381). -/
def blend (m : Mask) (old new : List Elem) : List Elem :=
  (old.zip new).zipIdx.map (fun p => if m.getLsbD p.2 then p.1.2 else p.1.1)

/-- Flags raised in a status register whose other bits stay (10 R250, 11 R274). -/
def raiseFlags (w : Word) (f : Flags) : Word := w ||| (f.setWidth 64 &&& 0x3F00)

/-- The start of a stage loop (15 R372): TRIPC, TAILC and SWIN, for a trip count and an epilogue count. -/
def StreamSt.loopStart (y : StreamSt) (n : Word) (ec : BitVec 4) : StreamSt :=
  { y with swin := 0, tripc := if n = 0 then 0 else n - 1, tailc := if n = 0 then 0 else ec }

/-- The stage predicates of C-like predicates at the start of a loop: p32 by the trip count, p33 to p47 false (15 R372). -/
def StreamSt.loopPreds (y : StreamSt) (n : Word) : StreamSt :=
  (List.range 16).foldl (fun t i => t.setPhysPred (32 + i) (decide (i = 0) && n != 0)) y

/-- The same for the masks of V (18 R400). -/
def Ctx.loopMasks (x : Ctx) (n : Word) : Ctx :=
  (List.range 16).foldl (fun t i => t.setPhysMask (32 + i) (if i = 0 && n != 0 then maskAll else 0)) x

/-- A result written to its physical register with its flags (07 R180; 18 R382). -/
def Ctx.land (x : Ctx) (st : Stream) (p : Pend) : Ctx :=
  let x := match p.val with
    | .word v => x.putStrm st ((x.strm st).setReg p.reg v)
    | .pred b => x.putStrm st ((x.strm st).setPhysPred (p.reg - 32) b)
    | .mask m => x.setPhysMask (p.reg - 32) m
    | .vec v =>
      if p.elems = maskAll then x.setPhysV p.reg v
      else x.setPhysV p.reg (blend p.elems (Sp.get vzero x.vf.vregs p.reg) v)
    | .dist d => x.setDreg (p.reg - 88) d
    | .loop n ec => ({ x with v := x.v.loopStart n ec }).loopMasks n
  if p.fl = 0 then x
  else if p.dst then { x with vf := { x.vf with dstat := raiseFlags x.vf.dstat p.fl } }
  else { x with vf := { x.vf with vstat := raiseFlags x.vf.vstat p.fl } }

/-! ## Modes and status fields -/

/-- TRAPC.MODE (12 R282, R290): 0 normal, 1 handler, 2 privileged handler. -/
def Ctx.mode (x : Ctx) : Nat := wfield x.trapc 44 2

def Ctx.normal (x : Ctx) : Bool := x.mode == 0

/-- Catch-up: a slip outside guarded timing, and not in a handler (07 R186, 12 R289). -/
def Ctx.catchUp (x : Ctx) (st : Stream) : Bool := decide (0 < (x.strm st).slip) && !x.guarded && x.normal

/-- Whether the streams of a context run behind their timetable when their core pauses: not those of a stopped one, nor in a handler, whose
return adds all the clk since t_e (07 R186; 12 R289, R293). -/
def Ctx.onTime (x : Ctx) : Bool := x.resident && x.phase == .running && x.normal

/-- Whether an EVAC holds A or V at the header where it stands: that of its RESUME block, any where the map names none (14 R351; 06 R157). -/
def Ctx.avHeld (x : Ctx) (st : Stream) : Bool :=
  x.avHold && (match x.avAt.find? (fun (t : Nat × Nat) => t.1 == (match st with | .c => 0 | .a => 1 | .v => 2)) with
    | some t => (x.strm st).pc == t.2
    | none => true)

/-- A feature of the effective set (03 R76). -/
def Ctx.hasFeature (x : Ctx) (n : Nat) : Bool := wbit x.feat n

/-! ## Stall counters -/

/-- The codes that count (05 R142). -/
def chargeCode (code : Nat) : Bool :=
  decide (code ≤ 3) || (decide (0x10 ≤ code) && decide (code ≤ 0x33)) || (decide (0x38 ≤ code) && decide (code ≤ 0x3B)) ||
  (decide (0x3F ≤ code) && decide (code ≤ 0x44))

/-- One clk of a stream charged with an event code (05 R142, R143). -/
def Ctx.charge (x : Ctx) (st : Stream) (code : Nat) : Ctx :=
  let sn := match st with | .c => 0 | .a => 1 | .v => 2
  let hit (i : Nat) : Bool :=
    let sel := Sp.get 0 x.stsel i
    wbit sel 10 && wfield sel 8 2 == sn && wfield sel 0 8 == code && chargeCode code
  let bump (t : Sp Word) (i : Nat) : Sp Word :=
    if hit i then Sp.set 0 t i (BitVec.ofNat 64 (((Sp.get 0 x.stcnt i).toNat + 1) % 2 ^ 48)) else t
  if x.stsel.isEmpty then x else { x with stcnt := (List.range 8).foldl bump x.stcnt }

def State.charge (s : State) (i : StreamId) (code : Nat) : State := s.modCtx i.ctx (fun x => x.charge i.st code)

/-! ## The position of a stream -/

/-- The scratchpad of a stream. -/
def CoreSt.pad (k : CoreSt) : Stream → Memory
  | .c => k.padC
  | .a => k.padA
  | .v => k.padV

/-- A halfword of a scratchpad (07 R165). -/
def CoreSt.half (k : CoreSt) (st : Stream) (h : Nat) : Half := BitVec.ofNat 16 (Memory.readLE (k.pad st) (2 * (h % 65536)) 2)

/-- The first halfword of the word at the stream's position (12 R281). -/
def State.firstHalf (s : State) : Half := s.fcore.half s.foc.st s.fstrm.pc

/-- The position after a word of `n` halfwords: in the body, at the start of its next pass (with 6 bubble clk for a body above
256 halfwords), or at the header after it (07 R165, R166). -/
def StreamSt.advance (y : StreamSt) (n : Nat) : StreamSt :=
  let y := { y with waiting := false, hold := .no, begun := false, fetch := none, writing := none }
  let p := y.pc + n
  if p < y.blk + 4 + y.len then { y with pc := p }
  else if 0 < y.reps then
    { y with pc := y.blk + 4, reps := y.reps - 1, bubble := if 256 < y.len then 6 else 0 }
  else { y with pc := (y.blk + 4 + y.len) % 65536, atHeader := true }

/-- The position at a branch target, with bubble clk to run (14 R332). -/
def StreamSt.jump (y : StreamSt) (target bubble : Nat) : StreamSt :=
  { y with waiting := false, hold := .no, begun := false, pc := target, atHeader := true, bubble := bubble }

/-- The word has issued: ISSUED is charged and the position moves (07 R167). -/
def State.issued (s : State) (halves : Nat) : State :=
  (s.charge s.foc 0).modFs (fun y => y.advance halves)

/-- The word waits in this clk, charged with a code; a wait in guarded timing is charged GUARDED where `beyond` (05 R142). -/
def State.waits (s : State) (code : Nat) : State :=
  (s.charge s.foc code).modFs (fun y => { y with waiting := true })

/-- A wait on a fixed-latency result in catch-up or guarded timing: S rises by 1 (07 R186, 04 R112). -/
def State.waitsSlip (s : State) : State :=
  ((s.charge s.foc (if s.fctx.guarded then 0x42 else 0x03)).modFs
    (fun y => { y with waiting := true, slip := y.slip + 1 }))

/-! ## Traps -/

/-- The code of a stream in TRAPC.STREAM (12 R290). -/
def streamCode : Stream → Nat
  | .c => 0
  | .a => 1
  | .v => 2

/-- A TRAP word that is not delivered runs again (12 R287): C stands at it. -/
def Ctx.retrap (x : Ctx) : Ctx :=
  match x.sysTrap with
  | some (_, pc, reps) => { x with sysTrap := none, c := { x.c with pc := pc, reps := reps, atHeader := false, bubble := 0 } }
  | none => x

/-- Stop every stream of a context at t_e (12 R288). A word that waits is taken up again from the start, with its BAR.aw mark
kept (14 R336), and so is a TRAP that another cause precedes (R287). The capture follows at t_c. -/
def State.stopAt (s : State) (c : CtxId) (te : Nat) (e : Entry) : State :=
  let quiet (y : StreamSt) : StreamSt := { y with hold := .no, waiting := y.waiting }
  ((s.modCtx c (fun x =>
      let x := if e.cause = 0x0C then x else x.retrap
      { x with phase := .stopping te, entry := some e, c := quiet x.c, a := quiet x.a, v := quiet x.v })).post
    te (.trapCapture c))

/-- Where a precise cause goes (12 R289, R295; 03 R79): MASKED_FEATURE enters privileged handler mode; in a handler mode every
cause ends the plat, and so does a cause without a handler. -/
def stopKindOf (x : Ctx) (cause : Nat) : StopKind :=
  if !x.normal then .endPlat
  else if cause = 2 then .hypervisor
  else if wbit x.tvec 63 then .handler else .endPlat

/-- A precise cause raised by the word in focus: it does not issue, and the trap is entered at this clk (12 R284, R288). -/
def State.raise (s : State) (cause : Nat) (tval : Word) : State :=
  let x := s.fctx
  s.stopAt s.foc.ctx s.clk
    { cause := cause, tval := tval, strm := streamCode s.foc.st, word := s.fstrm.pc, mrg := false, kind := stopKindOf x cause }

/-- A pending cause of a context: a further occurrence merges into the one that is pending (12 R285). -/
def Ctx.pend (x : Ctx) (cause : Nat) (tval : Word) : Ctx :=
  { x with pending := (match x.pending.find? (fun p => p.1 == cause) with
      | some p => Sp.put x.pending cause (p.2.1, true)
      | none => Sp.put x.pending cause (tval, false)) }

/-- An asynchronous cause or interrupt that arises (12 R285). -/
def State.pend (s : State) (c : CtxId) (cause : Nat) (tval : Word) : State :=
  s.modCtx c (fun x => if !x.resident then x else x.pend cause tval)

/-- The causes (12 R281). -/
def cILLEGAL : Nat := 0x01
def cMASKED : Nat := 0x02
def cPRIV : Nat := 0x03
def cSCHED : Nat := 0x04
def cSTALE : Nat := 0x05
def cABSENT : Nat := 0x06
def cALIGN : Nat := 0x07
def cPERM : Nat := 0x08
def cSLOT : Nat := 0x09
def cBARRIER : Nat := 0x0A
def cLEAK : Nat := 0x0B
def cTRAP : Nat := 0x0C
def cCHECK : Nat := 0x20
def cOVERRUN : Nat := 0x21
def cSURVEY : Nat := 0x22
def cPOISON : Nat := 0x23
def cENGERR : Nat := 0x24
def cPROMISE : Nat := 0x25
def cLOSS : Nat := 0x26
def cDISTDEP : Nat := 0x27
def cDEBUG : Nat := 0x30
def cTIMER : Nat := 0x31
def cSIGNAL : Nat := 0x32

/-! ## Results -/

/-- A result put in flight with its landing event (07 R180): its write stands at the end of clk `land`, before clk land + 1. -/
def State.fly (s : State) (i : StreamId) (p : Pend) : State :=
  (s.modStrm i (fun y => { y with pend := y.pend ++ [p] })).post (p.land + 1)
    (if p.inter then .interlockedResultArrival i p.id else .resultLand i p.id)

/-- The identity of the next result in flight: the model's counter. -/
def State.nextId (s : State) : Nat × State := (s.fresh, { s with fresh := s.fresh + 1 })

/-- Whether a value is for a register that discards writes (07 R162). -/
def discarded (reg : Nat) (v : RVal) : Bool :=
  match v with
  | .word _ => reg == 0
  | .pred _ => reg == 32
  | .mask _ => reg == 32
  | _ => false

/-- A fixed-latency result of the word in focus, for a register by its name (07 R180, R162): latency 1 lands in this clk. -/
def State.result (s : State) (code lat : Nat) (v : RVal) (elems : Mask) (fl : Flags) (dst : Bool) : State :=
  let st := s.foc.st
  let reg := physCode st s.fstrm.swin.toNat code
  if discarded reg v && fl == 0 then s
  else if lat ≤ 1 then s.modF (fun x => x.land st ⟨0, reg, v, s.clk, false, elems, fl, dst⟩)
  else
    let (id, s) := s.nextId
    s.fly s.foc ⟨id, reg, v, s.clk + lat - 1, false, elems, fl, dst⟩

/-- A scalar result. -/
def State.resWord (s : State) (rd lat : Nat) (v : Word) : State := s.result rd lat (.word v) maskAll 0 false

/-- A predicate result of C or A, latency 1. -/
def State.resPred (s : State) (p : Nat) (b : Bool) : State := s.result (codeP p) 1 (.pred b) maskAll 0 false

/-- An interlocked result whose value is known and whose time is `land` (07 R183). A result for s0 or a0 is discarded when it
arrives (14 R325). -/
def State.interlocked (s : State) (rd land : Nat) (v : Word) : State :=
  let reg := physCode s.foc.st s.fstrm.swin.toNat rd
  let (id, s) := s.nextId
  s.fly s.foc ⟨id, reg, .word v, land, true, maskAll, 0, false⟩

/-- An interlocked result that a later event brings: the identity by which that event names it. -/
def State.awaited (s : State) (rd : Nat) : Nat × State :=
  let reg := physCode s.foc.st s.fstrm.swin.toNat rd
  let (id, s) := s.nextId
  (id, s.modFs (fun y => { y with pend := y.pend ++ [⟨id, reg, .word 0, 0, true, maskAll, 0, false⟩] }))

/-- The value of an awaited result, due at the end of clk `land`; it may stand in a latch by then (12 R288). -/
def State.arrive (s : State) (i : StreamId) (id land : Nat) (v : RVal) : State :=
  let f (p : Pend) : Pend := if p.id = id then { p with val := v, land := land } else p
  let s := s.modStrm i (fun y => { y with pend := y.pend.map f, latch := y.latch.map f })
  let s := s.modCtx i.ctx (fun x =>
    { x with saved := x.saved.map (fun r => if i.st = .c then { r with latch := r.latch.map f } else r)
             handlerSaved := x.handlerSaved.map (fun r => if i.st = .c then { r with latch := r.latch.map f } else r) })
  s.post (land + 1) (.interlockedResultArrival i id)

end Sys2Proof.Machine
end

