-- ==== Sys2Proof/Machine/Operands.lean ====
section
/-! DEFINITION. What a word needs before it issues, and the one way in which every word of a stream runs: the checks of 12 R284 in
their order, the guard (07 R167, 13 R304), the interlocks (07 R183), SCHED (07 R181), then the word's own effect. -/

namespace Sys2Proof.Machine

/-- What a word reads and writes, and what it may be refused for. Registers stand as the word names them, in the codes of
12 R440. `dsts` are the registers of fixed-latency results with their latencies, `outs` those of interlocked results. -/
structure Need where
  feature : Option Nat := none
  priv : Bool := false
  guard : Guard := ⟨false, 0⟩
  srcs : List Nat := []
  dsts : List (Nat × Nat) := []
  outs : List Nat := []
  pairing : Bool := false
deriving DecidableEq, Repr

/-- What the checks before a word's own effect say. -/
inductive Gate where
  | trap (cause : Nat) (tval : Word)
  | wait
  | waitSlip
  | skip
  | go
deriving DecidableEq, Repr

/-- How a word's own effect ends: issued and done, issued with the position already set, a wait in this clk charged with a
code, or a precise cause. -/
inductive Res where
  | done (s : State)
  | jumped (s : State)
  | wait (code : Nat) (s : State)
  /-- It has issued, with ISSUED charged and the position moved. -/
  | whole (s : State)
  | trap (cause : Nat) (tval : Word)
deriving DecidableEq, Repr

/-- The mask that `guard()` gives in V (13 R304, R316). -/
def Ctx.guardMask (x : Ctx) (g : Guard) : Mask := if g.neg then ~~~(x.vmask g.p.toNat) else x.vmask g.p.toNat

/-- Whether a guard lets a word take effect: a predicate of C or A, or any element of a mask of V (13 R304). -/
def State.guardHolds (s : State) (g : Guard) : Bool :=
  match s.foc.st with
  | .v => s.fctx.guardMask g != 0
  | st => (s.fstrm.pred st g.p.toNat) != g.neg

/-- The latest landing of a fixed-latency result in flight for a physical register. -/
def StreamSt.landing (y : StreamSt) (reg : Nat) : Option Nat :=
  (y.pend.filter (fun p => p.reg == reg && !p.inter)).foldl
    (fun m p => match m with | none => some p.land | some l => some (Nat.max l p.land)) none

/-- Whether an interlocked result for a physical register is outstanding; the loop state of a V SLOOP covers p32 to p47. -/
def StreamSt.interBusy (y : StreamSt) (reg : Nat) : Bool :=
  y.pend.any (fun p => p.inter && (p.reg == reg || (p.reg == 200 && decide (64 ≤ reg) && decide (reg < 80))))

/-- A register that reads as a constant: s0, a0, p0 (07 R162). -/
def constReg (st : Stream) (code : Nat) : Bool := (code == 0 && st != .v) || code == 32

/-- The TVAL of SCHED (12 R440). -/
def schedTval (interval : Bool) (code cycle : Nat) : Word :=
  BitVec.ofNat 64 (cycle % 2 ^ 48 * 2 ^ 16 + bit interval * 2 ^ 15 + code % 2 ^ 15)

/-- A hazard of R181: the register as named and the landing clk. -/
def readHazard (st : Stream) (y : StreamSt) (t : Nat) (code : Nat) : Option (Nat × Nat) :=
  if constReg st code then none
  else match y.landing (physCode st y.swin.toNat code) with
    | some l => if t ≤ l then some (code, l) else none
    | none => none

def writeHazard (st : Stream) (y : StreamSt) (t : Nat) (d : Nat × Nat) : Option (Nat × Nat) :=
  if constReg st d.1 then none
  else match y.landing (physCode st y.swin.toNat d.1) with
    | some l => if t + d.2 ≤ l + 1 then some (d.1, l) else none
    | none => none

/-- The first hazard of a list. -/
def firstSome {α β : Type} (f : α → Option β) : List α → Option β
  | [] => none
  | x :: xs => match f x with
    | some b => some b
    | none => firstSome f xs

/-- The interlocks of R183: a source or a destination that waits for an interlocked result, an interlocked word whose register
awaits a fixed-latency result (log 11), or 8 interlocked results outstanding. -/
def interlockWait (st : Stream) (y : StreamSt) (n : Need) : Bool :=
  let ph (c : Nat) : Nat := physCode st y.swin.toNat c
  n.srcs.any (fun c => !constReg st c && y.interBusy (ph c)) ||
  n.dsts.any (fun d => !constReg st d.1 && y.interBusy (ph d.1)) ||
  n.outs.any (fun c => !constReg st c && (y.interBusy (ph c) || (y.landing (ph c)).isSome)) ||
  (!n.outs.isEmpty && decide (8 ≤ (y.pend.filter (fun p => p.inter)).length))

/-- Whether the wait of an interlocked word is one on a fixed-latency result (07 R186). -/
def fixedWait (st : Stream) (y : StreamSt) (n : Need) : Bool :=
  n.outs.any (fun c => !constReg st c && (y.landing (physCode st y.swin.toNat c)).isSome)

/-- The hazard of R181 for a word whose guard holds. -/
def hazard (st : Stream) (y : StreamSt) (t : Nat) (n : Need) : Option (Bool × Nat × Nat) :=
  match firstSome (readHazard st y t) n.srcs with
  | some h => some (false, h.1, h.2)
  | none =>
    match firstSome (writeHazard st y t) n.dsts with
    | some h => some (false, h.1, h.2)
    | none =>
      if n.pairing then
        match y.lastPair with
        | some l => if t < l + 4 then some (true, (n.dsts.map Prod.fst).headD 0, l + 4) else none
        | none => none
      else none

/-- The checks of R284 numbers 3 to 5, with the guard. -/
def gate (n : Need) (s : State) : Gate :=
  let x := s.fctx
  let st := s.foc.st
  let y := s.fstrm
  let lenient := x.guarded || x.catchUp st
  match n.feature.filter (fun f => !x.hasFeature f) with
  | some f => .trap cMASKED (BitVec.ofNat 64 f)
  | none =>
    if n.priv then .trap cPRIV (s.firstHalf.setWidth 64)
    else
      match readHazard st y s.clk (codeP n.guard.p.toNat) with
      | some h => if lenient then .waitSlip else .trap cSCHED (schedTval false h.1 h.2)
      | none =>
        if y.interBusy (physCode st y.swin.toNat (codeP n.guard.p.toNat)) then (if x.guarded then .waitSlip else .wait)
        else if !s.guardHolds n.guard then .skip
        else if interlockWait st y n then (if x.guarded || (lenient && fixedWait st y n) then .waitSlip else .wait)
        else
          match hazard st y s.clk n with
          | some h => if lenient then .waitSlip else .trap cSCHED (schedTval h.1 h.2.1 h.2.2)
          | none => .go

/-- A faulting word whose fault was answered with VERDICT 1 raises PERM on its own stream (09 R234). -/
def State.verdictPerm (s : State) : Option Word :=
  match s.fctx.permAt with
  | some (k, va, handler) => if k = streamCode s.foc.st && s.fctx.normal == !handler then some va else none
  | none => none

/-- A word of `halves` halfwords runs: its checks, then its own effect. -/
def runWord (halves : Nat) (n : Need) (body : State → Res) (s : State) : State :=
  match gate n s with
  | .trap c t => s.raise c t
  | .wait => s.waits 0x03
  | .waitSlip => s.waitsSlip
  | .skip => s.issued halves
  | .go =>
    match s.verdictPerm with
    | some va => (s.modF (fun x => { x with permAt := none })).raise cPERM va
    | none =>
      match body s with
      | .done s' => s'.issued halves
      | .jumped s' => s'.charge s'.foc 0
      | .wait code s' => s'.waits code
      | .whole s' => s'
      | .trap c t => s.raise c t

/-- A 32-bit word. -/
def word32 (n : Need) (body : State → Res) (s : State) : Host.Outcome State Fault Refusal := .next (runWord 2 n body s)

/-- A 16-bit word (13 R307). -/
def word16 (n : Need) (body : State → Res) (s : State) : Host.Outcome State Fault Refusal := .next (runWord 1 n body s)

/-- A scalar register of the stream in focus, by a register field. -/
def State.rd (s : State) (r : BitVec 5) : Word := s.fstrm.reg r.toNat

/-- A predicate of the stream in focus, by a 5-bit source field (13 R304). -/
def State.rdP (s : State) (p : BitVec 5) : Bool := s.fstrm.pred s.foc.st p.toNat

/-- The vector lane groups of a core that are struck (04 R89, R100). -/
def State.struckGroups (s : State) (core : Nat) : List Nat :=
  (List.range 8).filter (fun g => (s.die (dieOf core)).struck 0x04 (8 * scoreOf core + g))

/-- The lane groups struck for a lasting fault, whose values nothing assures (04 R112). -/
def State.faultyGroups (s : State) (core : Nat) : List Nat :=
  (s.struckGroups core).filter (fun g => (s.die (dieOf core)).faulty.contains (0x04, 8 * scoreOf core + g))

/-- What the class of the core's V stream adds to a float latency (04 R95, 07 R184): the slowest of its lane groups in service, as
the edition for the context has them; with a struck group, class C and 2 clk more (04 R112). -/
def State.floatAdd (s : State) : Nat :=
  let core := s.foc.ctx.core
  let us := (List.range 8).map (fun g => (s.die (dieOf core)).unitAt (s.editionFor s.foc.ctx) 0x04 (8 * scoreOf core + g))
  if us.any (fun u => u.1 == 2) then 4 else us.foldl (fun m u => Nat.max m u.2) 0

/-- A float latency of a class A figure (07 R184). -/
def State.lat (s : State) (base : Nat) : Nat := base + s.floatAdd

end Sys2Proof.Machine
end

