-- ==== Sys2Proof/Machine/Mmu.lean ====
section
/-! DEFINITION. Addresses of the access processor (08 R195, R196), buffer page entries (08 R197 to R202), the owner of a job
(03 R75), the table walk with its second stage and the TLB (09 R221 to R236). -/

namespace Sys2Proof.Machine

/-! ## Bank groups (04 R89, R100) -/

/-- The bank group of a buffer page: kind and index (04 R89). Buffers: 0 W, 1 X, 2 Z. -/
def bankGroup (core buf page : Nat) : Nat × Nat :=
  let c := scoreOf core
  match buf with
  | 0 => (0x05, 8 * c + page / 12)
  | 1 => (0x06, 8 * c + page / 6)
  | _ => (0x07, 8 * c + page / 4)

/-- BPTENT.AV (08 R197). -/
def State.pageAvail (s : State) (core buf page : Nat) : Bool :=
  let g := bankGroup core buf page
  !(s.die (dieOf core)).struck g.1 g.2

/-! ## Buffers and their pages -/

/-- The size of a buffer (08 R191). -/
def bufSize (buf : Nat) : Nat := match buf with | 0 => 0x600000 | 1 => 0x300000 | _ => 0x200000

/-- The pages of a buffer. -/
def bufPages (buf : Nat) : Nat := bufSize buf / 65536

/-- The release value of BPTENT but for AV (08 R197): V 1, ORD 1. -/
def bptRelease : Word := 0x80004000

/-- A buffer page entry as MFS reads it (08 R197). -/
def State.bptEntry (s : State) (c : CtxId) (buf page : Nat) : Word :=
  let w := Sp.get bptRelease (s.ctx c).bpt (128 * buf + page)
  withField w 30 1 (bit (s.pageAvail c.core buf page))

def entFmt (w : Word) : Nat := wfield w 8 4
def entGeom (w : Word) : Nat := wfield w 12 2
def entOrd (w : Word) : Nat := wfield w 14 2
def entV (w : Word) : Bool := wbit w 31
def entAv (w : Word) : Bool := wbit w 30

/-- The inboxes (08 R196). -/
def inInbox (buf off : Nat) : Bool := buf == 1 && decide (0x2FC000 ≤ off) && decide (off < 0x300000)

/-- The entry that governs a byte of a buffer; the inboxes read as RAW32, none, RC (08 R196). -/
def State.entryAt (s : State) (c : CtxId) (buf off : Nat) : Word :=
  if inInbox buf off then 0xC0004000 else s.bptEntry c buf (off / 65536)

/-- The memory of a buffer. -/
def CoreSt.buf (k : CoreSt) (buf : Nat) : Memory := match buf with | 0 => k.memW | 1 => k.memX | _ => k.memZ

def CoreSt.putBuf (k : CoreSt) (buf : Nat) (m : Memory) : CoreSt :=
  match buf with
  | 0 => { k with memW := m }
  | 1 => { k with memX := m }
  | _ => { k with memZ := m }

/-- Where the kinds of Z's elements stand in its memory. -/
def zKindAt : Nat := 0x200000

/-- A write of bytes into a buffer; lines of X that it covers whole are no longer poisoned, and elements of Z no longer the INT32 of a product
(10 R263). -/
def CoreSt.writeBuf (k : CoreSt) (buf off : Nat) (bs : List Byte) : CoreSt :=
  let k := k.putBuf buf (Memory.writeN (k.buf buf) off bs)
  if buf = 2 && decide (off < zKindAt) && k.memZ.getLast?.any (fun e => decide (zKindAt ≤ e.1)) then
    { k with memZ := Memory.clear k.memZ (zKindAt + off / 4) (zKindAt + (off + bs.length + 3) / 4) }
  else if buf = 1 then
    { k with poison := k.poison.filter (fun l => decide (64 * l < off) || decide (off + bs.length < 64 * l + 64)) }
  else k

/-- Bytes written into a space: 0 W, 1 X, 2 Z, 3 slot memory, 4 to 6 the C, A and V scratchpads. -/
def CoreSt.writeSpace (k : CoreSt) (space off : Nat) (bs : List Byte) : CoreSt :=
  match space with
  | 3 => { k with slotMem := Memory.writeN k.slotMem off bs }
  | 4 => { k with padC := Memory.writeN k.padC off bs }
  | 5 => { k with padA := Memory.writeN k.padA off bs }
  | 6 => { k with padV := Memory.writeN k.padV off bs }
  | b => k.writeBuf b off bs

/-- A write through an engine port: it takes effect at the end of the clk, and every read of the clk finds what stood there before
(08 R193). -/
def CoreSt.portWrite (k : CoreSt) (port space off : Nat) (bs : List Byte) (poison : Bool := false) (due : Nat := 0) : CoreSt :=
  { k with portW := k.portW ++ [⟨due, port, space, off, bs, poison⟩] }

/-- A port's write taking effect; the lines of X that it poisons are marked. -/
def CoreSt.portLand (k : CoreSt) (w : PortWrite) : CoreSt :=
  let k := k.writeSpace w.space w.off w.bytes
  if w.poison then { k with poison := k.poison ++ (List.range ((w.bytes.length + 63) / 64)).map (fun i => w.off / 64 + i) } else k

/-- The engine ports' writes of the clk before `clk` take effect, after the access processor's: copy, row, matrix (08 R193). -/
def CoreSt.settle (k : CoreSt) (clk : Nat) : CoreSt :=
  let k' := [2, 3, 4].foldl (fun t p => (k.portW.filter (fun w => w.port == p && decide (w.due < clk))).foldl CoreSt.portLand t) k
  { k' with portW := k.portW.filter (fun w => decide (clk ≤ w.due)) }

/-- Every write of the engine ports taking effect, those of rows in flight among them: steps already issued land (21 R432). -/
def CoreSt.settleAll (k : CoreSt) : CoreSt := k.settle (k.portW.foldl (fun m w => Nat.max m (w.due + 1)) 1)

/-- Whether bytes of X are poisoned (01 R30). -/
def CoreSt.poisoned (k : CoreSt) (buf off n : Nat) : Bool :=
  buf == 1 && k.poison.any (fun l => decide (off < 64 * l + 64) && decide (64 * l < off + n))

/-! ## Effective addresses -/

/-- Where an address lies (08 R195). -/
inductive Addr where
  | glob (va : Nat)
  | buf (b off : Nat)
  | win (n off : Nat)
  | bad
deriving DecidableEq, Repr

/-- The decoding of an effective address of `n` bytes (08 R195, R208, R220). -/
def decodeEa (k : CoreKind) (ea : Word) (n : Nat) : Addr :=
  let sel := wfield ea 56 8
  let off := wfield ea 0 24
  if sel = 0 then .glob (wfield ea 0 56)
  else if wfield ea 24 32 ≠ 0 then .bad
  else if k.ctl then
    if sel = 0xF1 && decide (0x2F0000 ≤ off) && decide (off + n ≤ 0x300000) then .buf 1 off else .bad
  else if sel = 0xF0 then (if off + n ≤ bufSize 0 then .buf 0 off else .bad)
  else if sel = 0xF1 then
    if off + n ≤ bufSize 1 then .buf 1 off
    else if 0x400000 ≤ off && decide (off + n ≤ 0x800000) then .win ((off - 0x400000) / 0x40000) ((off - 0x400000) % 0x40000)
    else .bad
  else if sel = 0xF2 then (if off + n ≤ bufSize 2 then .buf 2 off else .bad)
  else .bad

/-! ## Owners of jobs -/

def ModuleSt.fn (m : ModuleSt) (f : Nat) : FnSt := Sp.get FnSt.reset m.fns f
def ModuleSt.modFn (m : ModuleSt) (f : Nat) (g : FnSt → FnSt) : ModuleSt := { m with fns := Sp.put m.fns f (g (m.fn f)) }

/-- Whether a function's range holds a job (03 R75). -/
def FnSt.owns (f : FnSt) (job : Nat) : Bool := decide (f.base.toNat ≤ job) && decide (job < f.base.toNat + f.cnt.toNat)

/-- The function that owns a job (03 R75). -/
def ModuleSt.owner (m : ModuleSt) (job : Nat) : Option Nat :=
  if job = 0 then none else (m.fns.find? (fun f => f.2.owns job)).map Prod.fst

/-- The offered features (03 R76; log 6). -/
def featOffered : Word := 0x3FF

/-- The effective feature set of a function (03 R76). -/
def ModuleSt.effective (m : ModuleSt) (f : Nat) : Word :=
  if f % 64 = 0 then featOffered &&& (m.fn f).accLo
  else featOffered &&& (m.fn f).accLo &&& (m.fn (f - f % 64)).accLo &&& ~~~(m.fn f).maskLo

/-- The effective feature set of a job's contexts (03 R76). -/
def ModuleSt.features (m : ModuleSt) (job : Nat) : Word :=
  match m.owner job with
  | some f => m.effective f
  | none => featOffered

/-! ## Error counters (03 R77, R78) -/

/-- An error counter of a function plus 1; it stops at its greatest value. -/
def FnSt.bumpErr (f : FnSt) (n : Nat) : FnSt := { f with errs := Sp.set 0 f.errs n (Nat.min (Sp.get 0 f.errs n + 1) 0xFFFFFFFF) }

/-- An error attributed to the function of a job and to its PF, or to both PFs (03 R78). -/
def State.countErr (s : State) (mod job n : Nat) : State :=
  s.modMod mod (fun m =>
    match m.owner job with
    | some f =>
      let m := m.modFn f (fun x => x.bumpErr n)
      if f % 64 = 0 then m else m.modFn (f - f % 64) (fun x => x.bumpErr n)
    | none => (m.modFn 0 (fun x => x.bumpErr n)).modFn 64 (fun x => x.bumpErr n))

/-- The counter of a cause (03 R77). -/
def errCounter (cause : Nat) : Option Nat :=
  match cause with
  | 0x20 => some 2 | 0x21 => some 5 | 0x22 => some 7 | 0x23 => some 1 | 0x25 => some 3 | 0x26 => some 4 | _ => none

/-- An asynchronous cause arises in a context: pending, and counted. -/
def State.raiseAsync (s : State) (c : CtxId) (cause : Nat) (tval : Word) : State :=
  if !(s.ctx c).resident then s
  else
    let s := s.pend c cause tval
    match errCounter cause with
    | some n => s.countErr (modOf c.core) (s.ctx c).job.toNat n
    | none => s

/-! ## Physical memory (03 R68, 09 R226) -/

/-- The key of a physical address of a module in the pod's memory. -/
def memKey (mod pa : Nat) : Nat := mod * 2 ^ 52 + pa % 2 ^ 52

def isHbm (pa : Nat) : Bool := decide (pa < 0xC000000000)
def isLpddr (pa : Nat) : Bool := decide (0x1000000000000 ≤ pa) && decide (pa < 0x1020000000000)
def isRegs (pa : Nat) : Bool := decide (0xF000000000000 ≤ pa) && decide (pa < 0xF000002000000)

/-- The station of the die that attaches a physical address (01 R8, 09 R226). -/
def homeStation (pa : Nat) : Nat :=
  if pa < 0x1000000000000 then pa / 0xC00000000 / 2 else (pa - 0x1000000000000) / 0x4000000000

/-! ## The walk -/

/-- What a translation gives: a leaf for the page, or a fault with kind, level and guest-physical address (09 R232). -/
inductive WalkRes where
  | ok (l : Leaf)
  | fault (kind level gpa : Nat)
deriving DecidableEq, Repr

/-- The second stage (09 R231): the module address and the permissions X, W, R of the matching entry, or none. -/
def rangeMatch (f : FnSt) (g : Nat) : List Nat → Option Nat
  | [] => none
  | n :: ns =>
    let b := Sp.get 0 f.ranges (3 * n)
    let l := Sp.get 0 f.ranges (3 * n + 1)
    if wbit b 3 && decide (wfield b 24 36 ≤ g) && decide (g ≤ wfield l 0 36) then some n else rangeMatch f g ns

/-- The permissions that an access needs: X, W, R (09 R225). -/
def accessNeeds : Access → Bool × Bool × Bool
  | .read => (false, false, true)
  | .write => (false, true, false)
  | .atomic => (false, true, true)
  | .overlay => (true, false, false)
  | .prefetch => (false, false, true)
  | .probe => (false, false, false)

/-- An address through a VF's range table: the module address with the entry's X, W, R, or a fault kind (09 R231). -/
def stage2 (f : FnSt) (need : Bool × Bool × Bool) (gpa : Nat) : Nat ⊕ (Nat × Bool × Bool × Bool) :=
  match rangeMatch f (gpa / 65536) (List.range 48) with
  | none => .inl 4
  | some n =>
    let b := Sp.get 0 f.ranges (3 * n)
    let pa := (gpa + 65536 * wfield (Sp.get 0 f.ranges (3 * n + 2)) 0 36) % 2 ^ 52
    let x := wbit b 2
    let w := wbit b 1
    let r := wbit b 0
    if (need.1 && !x) || (need.2.1 && !w) || (need.2.2 && !r) || isRegs pa || !(isHbm pa || isLpddr pa) then .inl 5
    else .inr (pa, x, w, r)

/-- A physical address formed for a job: guest-physical for a VF's job, else the module's own (09 R231). -/
def ModuleSt.formed (m : ModuleSt) (job : Nat) (need : Bool × Bool × Bool) (pa : Nat) : Nat ⊕ (Nat × Bool × Bool × Bool) :=
  match m.owner job with
  | some f => if f % 64 = 0 then .inr (pa, true, true, true) else stage2 (m.fn f) need pa
  | none => .inr (pa, true, true, true)

/-- Whether a job is a VF's. -/
def ModuleSt.vfJob (m : ModuleSt) (job : Nat) : Bool :=
  match m.owner job with
  | some f => f % 64 != 0
  | none => false

/-- The 16 bytes of a table entry as a number. -/
def State.entry128 (s : State) (mod pa : Nat) : Nat := Memory.readLE s.mem (memKey mod pa) 16

/-- The fault kind of a leaf by its own fields (09 R224), for its level. -/
def leafFault (s : State) (vf : Bool) (level e : Nat) : Option Nat :=
  let f (lo len : Nat) := fieldOf e lo len
  let pfn := f 24 36
  let pa := pfn * 65536
  let fmt := f 12 4
  let geom := f 10 2
  let home := f 16 2
  if level < 2 then some 3
  else if level = 2 && pfn % 4096 != 0 then some 3
  else if f 8 2 = 3 || decide (4 < fmt) then some 3
  else if geom != 0 && decide (fmt < 2) then some 3
  else if f 124 4 != 0 || f 65 15 != 0 || f 60 4 != 0 || f 2 1 != 0 then some 3
  else if home = 0 && !vf && !isHbm pa then some 3
  else if home = 1 && !vf && !isLpddr pa then some 3
  else if home = 2 && decide (s.pod.mods.length ≤ f 18 6) then some 3
  else if home = 3 && (level = 2 || !isRegs pa || fmt != 0 || geom != 0 || f 7 1 != 0 || f 6 1 != 0) then some 3
  else none

/-- Blocks of a 64 KiB page by GEOM (08 R201). -/
def blocksPerPage (geom : Nat) : Nat := match geom with | 1 => 2048 | 2 => 4096 | 3 => 1024 | _ => 0

/-- The leaf of a table entry for a page, with both stages (09 R223, R231). `va` chooses the 64 KiB page when a big page is not
wholly in one range entry. -/
def leafOf (s : State) (mod job : Nat) (acc : Access) (level e va : Nat) : WalkRes :=
  let m := s.modu mod
  let f (lo len : Nat) := fieldOf e lo len
  let vf := m.vfJob job
  match leafFault s vf level e with
  | some k => .fault k level 0
  | none =>
    let need := accessNeeds acc
    let x := f 5 1 = 1
    let w := f 4 1 = 1
    let r := f 3 1 = 1
    let home := f 16 2
    -- a tier is judged by the module address (R224), before the permission
    let tier := vf && decide (home < 2) && (match m.formed job (false, false, false) (f 24 36 * 65536 + (if level = 2 then va / 65536 % 4096 * 65536 else 0)) with
      | .inr (pa, _) => (home == 0 && !isHbm pa) || (home == 1 && !isLpddr pa)
      | .inl _ => false)
    if tier then .fault 3 level 0
    else if (need.1 && !x) || (need.2.1 && !w) || (need.2.2 && !r) then .fault 2 level 0
    -- a page of register space has no home that the range table reaches: an access by a VF's job raises PERM (03 R69)
    else if vf && home = 3 then
      .ok { big := false, pfn := f 24 36, home := 3, hmod := f 18 6, fmt := 0, geom := 0, ord := f 8 2, bar := false, mir := false, x := x, w := w,
            r := r, sv := false, scb := 0, tab := (x, w, r), gpfn := f 24 36 }
    else
      let small := f 24 36 + (if level = 2 then va / 65536 % 4096 else 0)
      -- whether the whole page lies in one entry
      let whole := level = 2 && (match m.owner job with
        | some o => !vf || (let t := m.fn o
            match rangeMatch t (f 24 36) (List.range 48) with
            | some n => rangeMatch t small (List.range 48) == some n && decide (f 24 36 + 4095 ≤ wfield (Sp.get 0 t.ranges (3 * n + 1)) 0 36)
            | none => false)
        | none => true)
      let base := if whole then f 24 36 else small
      -- the page that is accessed is judged (R231), also of a big page that is cached whole
      match m.formed job need (small * 65536), m.formed job need (base * 65536) with
      | .inl k, _ => .fault k 4 (small * 65536 + va % 65536)
      | _, .inl k => .fault k 4 (small * 65536 + va % 65536)
      | .inr _, .inr (pa, px, pw, pr) =>
          -- blocks are counted from the start of the page of the table
          let skip := if level = 2 && !whole then va / 65536 % 4096 * blocksPerPage (f 10 2) else 0
          let scbG := f 80 44 * 256 + skip
          match (if f 64 1 = 1 then m.formed job (false, false, true) scbG else .inr (0, true, true, true)) with
          | .inl k => .fault k 4 scbG
          | .inr (scb, _) =>
            .ok { big := whole, pfn := pa / 65536, home := home, hmod := f 18 6, fmt := f 12 4, geom := f 10 2, ord := f 8 2,
                  bar := f 7 1 = 1, mir := f 6 1 = 1, x := x && px, w := w && pw, r := r && pr, sv := f 64 1 = 1, scb := scb,
                  tab := (x, w, r), gpfn := base }

/-- The levels: number, lowest index bit, index bits (09 R221). -/
def walkLevels : List (Nat × Nat × Nat) := [(0, 52, 4), (1, 40, 12), (2, 28, 12), (3, 16, 12)]

/-- The walk from a table's address on (09 R224). -/
def walkFrom (s : State) (mod job : Nat) (acc : Access) (va : Nat) : List (Nat × Nat × Nat) → Nat → WalkRes
  | [], _ => .fault 3 3 0
  | (lv, lo, len) :: rest, table =>
    let gpa := table + 16 * fieldOf va lo len
    match (s.modu mod).formed job (false, false, true) gpa with
    | .inl k => .fault k 4 gpa
    | .inr (pa, _) =>
      let e := s.entry128 mod pa
      if fieldOf e 0 1 = 0 then .fault 1 lv 0
      else if fieldOf e 1 1 = 1 then leafOf s mod job acc lv e va
      else if lv = 3 then .fault 3 lv 0
      else walkFrom s mod job acc va rest (fieldOf e 24 36 * 65536)

/-- The walk of a virtual address in a job's space, at the station of a core's die (09 R222, R224). -/
def State.walk (s : State) (core job : Nat) (acc : Access) (va : Nat) : WalkRes :=
  let root := Sp.get 0 (s.sta (stationOf core)).jroot job
  if !wbit root 0 then .fault 1 0 0
  else walkFrom s (modOf core) job acc va walkLevels (wfield root 8 44 * 256)

/-! ## The TLB (09 R228, R236) -/

/-- Whether an entry holds the translation of an address. -/
def TlbEntry.hits (e : TlbEntry) (job : BitVec 12) (gen va : Nat) : Bool :=
  e.job == job && e.gen == gen && (if e.leaf.big then e.vpn / 4096 == va / 2 ^ 28 else e.vpn == va / 65536)

def CoreSt.gen (k : CoreSt) (job : BitVec 12) : Nat := Sp.get 0 k.gens job.toNat

/-- The leaf that the TLB holds for an address. -/
def CoreSt.tlbHit (k : CoreSt) (job : BitVec 12) (va : Nat) : Option Leaf :=
  (k.tlb.find? (fun e => e.hits job (k.gen job) va)).map TlbEntry.leaf

/-- The TLB after a use of an address: its entry is the most recently used. -/
def CoreSt.tlbUse (k : CoreSt) (job : BitVec 12) (va : Nat) : CoreSt :=
  match k.tlb.find? (fun e => e.hits job (k.gen job) va) with
  | some e => { k with tlb := e :: k.tlb.filter (fun x => !x.hits job (k.gen job) va) }
  | none => k

/-- The TLB with a new entry; of 512, the least recently used goes (09 R228). -/
def CoreSt.tlbFill (k : CoreSt) (job : BitVec 12) (va : Nat) (l : Leaf) : CoreSt :=
  { k with tlb := ⟨job, k.gen job, va / 65536, l⟩ :: (k.tlb.filter (fun x => !x.hits job (k.gen job) va)).take 511 }

/-- The guest-physical address of a byte of a page (09 R231). -/
def Leaf.gpa (l : Leaf) (va : Nat) : Nat := l.gpfn * 65536 + (if l.big then va % 2 ^ 28 else va % 65536)

/-- The home module of a page as one module sees it (09 R223, R226). -/
def Leaf.homeMod (l : Leaf) (mod : Nat) : Nat := if l.home = 2 then l.hmod else mod

/-- The physical address of a byte of a page (09 R221). -/
def Leaf.pa (l : Leaf) (va : Nat) : Nat := l.pfn * 65536 + (if l.big then va % 2 ^ 28 else va % 65536)

/-- Whether permissions lack one that an access needs. -/
def lacking (acc : Access) (p : Bool × Bool × Bool) : Bool :=
  let n := accessNeeds acc
  (n.1 && !p.1) || (n.2.1 && !p.2.1) || (n.2.2 && !p.2.2)

/-- Whether the module address of a byte that a VF's page gives lies in no memory: a part of a big page that its range entry carries out of it
(09 R231). -/
def State.outOfMemory (s : State) (core : Nat) (job : BitVec 12) (l : Leaf) (va : Nat) : Bool :=
  l.home != 3 && l.big && (s.modu (modOf core)).vfJob job.toNat && !isHbm (l.pa va) && !isLpddr (l.pa va)

/-- The kind and level of the fault of an access by a leaf that the TLB holds: 2 where the table's entry lacks a permission, 5 where the range entry
that a VF's page goes through does, or carries the byte out of memory (09 R224, R231). -/
def State.leafFaults (s : State) (core : Nat) (job : BitVec 12) (l : Leaf) (acc : Access) (va : Nat) : Option (Nat × Nat) :=
  if lacking acc l.tab then some (2, if l.big then 2 else 3)
  else if s.outOfMemory core job l va || lacking acc (l.x, l.w, l.r) then some (5, 4)
  else none

/-- What the access processor finds for an address: a leaf, a walk that it must wait for, or a fault (09 R228, R229, R232). -/
inductive Trans where
  | leaf (l : Leaf) (s : State)
  | wait (s : State)
  | fault (kind level : Nat)
deriving DecidableEq, Repr

/-- Whether the walker of a core's die has no room for a further walk (09 R229). -/
def State.walkerFull (s : State) (core : Nat) : Bool :=
  decide (16 ≤ (s.cores.filter (fun (e : Nat × CoreSt) => e.1 / 16 == dieOf core)).foldl (fun n e => n + e.2.walks.length) 0)

/-- A walk begun. -/
def State.beginWalk (s : State) (core : Nat) (r : WalkReq) : State :=
  let (d, s) := s.freeTime
  (s.modCore core (fun k => { k with walks := k.walks ++ [r] })).post (s.clk + 1 + d) (.tlbWalkComplete core r)

/-- The walks of the pages that a word has missed, one after another in the order of its requests; the word does not wait for them
(09 R228; log 49). -/
def State.walkPages (s : State) (core : Nat) (rs : List (WalkReq × Nat × Leaf)) : State :=
  match rs with
  | [] => s
  | (r, _) :: _ => (s.modCore core (fun k => { k with walkLeaf := k.walkLeaf ++ rs })).beginWalk core r

/-- Whether a walk of a stream holds its later accesses (09 R228); a PREF holds none (15 R369). -/
def CoreSt.walking (k : CoreSt) (c : CtxId) (src : Nat) : Bool :=
  k.walkLeaf.any (fun w => w.1.ctx == c && w.1.src == src && w.1.acc != .prefetch)

/-- The first walk of a PREF that waits for the walker of a die, begun where it has room (15 R369). -/
def State.beginWaiting (s : State) (die : Nat) : State :=
  let of (e : Nat × CoreSt) : Option (Nat × WalkReq) :=
    (e.2.walkLeaf.find? (fun w => w.1.acc == .prefetch && !e.2.walks.contains w.1)).map (fun w => (e.1, w.1))
  match s.cores.findSome? (fun e => if e.1 / 16 = die then of e else none) with
  | some (core, r) => if s.walkerFull core then s else s.beginWalk core r
  | none => s

/-- The translation of an address for a stream (0 C, 1 A) or the copy engine (2 and up). A miss starts a walk, if the die's walker has
room (09 R229). A word of a stream whose walk gives a leaf goes on, and the stream's later accesses are held until the walk's end; one
whose walk faults waits for it, and so does a micro-step. -/
def State.translate (s : State) (c : CtxId) (src : Nat) (acc : Access) (va : Nat) : Trans :=
  let x := s.ctx c
  let k := s.core c.core
  match k.tlbHit x.job va with
  | some l =>
    match s.leafFaults c.core x.job l acc va with
    | some (kind, level) => .fault kind level
    | none => .leaf l (s.modCore c.core (fun k => k.tlbUse x.job va))
  | none =>
    let r : WalkReq := ⟨c, x.job, va, acc, src⟩
    let page (w : WalkReq) : Bool := w.job == r.job && w.va / 65536 == va / 65536
    -- the copy engine waits behind any walk of the entry that it needs, a word behind its own (R228)
    let same (w : WalkReq) : Bool := page w && (decide (2 ≤ src) || (w.acc == acc && w.src == src && w.ctx == c))
    if k.walks.any same || (decide (2 ≤ src) && k.walkLeaf.any (fun w => page w.1)) then .wait s
    else if s.walkerFull c.core then
      -- a PREF's walk begins when the walker has room (15 R369)
      match acc, s.walk c.core x.job.toNat acc va with
      | .prefetch, .ok l => .leaf l (s.modCore c.core (fun k => { k with walkLeaf := k.walkLeaf ++ [(r, k.gen x.job, l)] }))
      | _, _ => .wait s
    else if 2 ≤ src then .wait (s.beginWalk c.core r)
    else
      match s.walk c.core x.job.toNat acc va with
      | .ok l => .leaf l (s.walkPages c.core [(r, k.gen x.job, l)])
      | .fault .. => .wait (s.beginWalk c.core r)

end Sys2Proof.Machine
end

