-- ==== Sys2Proof/Machine/Egress.lean ====
section
/-! DEFINITION. The egress of a core: counted messages (02 R40 to R43), combining entries (08 R212 to R216), remote requests (09 R226),
the mirror entries (01 R35, R36), and writes of memory with what watches them (04 R108, 14 R339). -/

namespace Sys2Proof.Machine

/-! ## Plats and their contexts -/

/-- The record of a plat on a die. -/
def DieSt.plat (d : DieSt) (plat : Word) : Option PlatRec := d.plats.find? (fun p => p.plat == plat)

/-- The record of a context's plat on its core's die. -/
def State.platRec (s : State) (c : CtxId) : Option PlatRec := (s.die (dieOf c.core)).plat (s.ctx c).plat

/-- The resident contexts. -/
def State.residents (s : State) : List CtxId :=
  (s.ctxs.filter (fun e => e.2.resident)).map (fun e => ⟨e.1 / 2, e.1 % 2⟩)

/-- The resident contexts of a plat; PLATID 0 names none. -/
def State.ctxsOf (s : State) (plat : Word) : List CtxId := s.residents.filter (fun c => (s.ctx c).plat == plat && plat != 0)

/-- The parcel that a context runs (05 R120). -/
def State.ownParcel (s : State) (c : CtxId) : Option Parcel :=
  match s.platRec c with
  | some p => p.parcels.find? (fun q => q.index == (s.ctx c).parcel && 8 * q.mod + q.die == dieOf c.core)
  | none => none

/-- The other member of a context's redundant pair (04 R101, R102). -/
def State.partner (s : State) (c : CtxId) : Option CtxId :=
  match s.ownParcel c with
  | some q =>
    match q.partner with
    | some k =>
      let other := if q.core = scoreOf c.core then k else q.core
      (s.ctxsOf (s.ctx c).plat).find? (fun d => dieOf d.core == dieOf c.core && scoreOf d.core == other)
    | none => none
  | none => none

/-- The core at which a context is a party of barriers: of a redundant pair, the CORE of its parcel (05 R118, R120; log 79). -/
def State.partyCore (s : State) (c : CtxId) : Nat :=
  match s.ownParcel c with
  | some q => 16 * dieOf c.core + q.core
  | none => c.core

/-- Whether a copy command with a tag is still queued or in progress (14 R338). -/
def Ctx.copyPending (x : Ctx) (tag : Nat) : Bool :=
  x.eng.loadQ.any (fun q => q.tag == tag) || x.eng.storeQ.any (fun q => q.tag == tag) ||
  (x.eng.live .load).any (fun r => r.c.tag == tag) || (x.eng.live .store).any (fun r => r.c.tag == tag)

/-- The end of the wait of a TWAIT that issued in the clk `since`: the next word issues in this clk. At least 1 clk of waiting sets the slip to
0 (07 R186; 14 R338). -/
def StreamSt.waitOver (y : StreamSt) (since clk : Nat) : StreamSt :=
  { y.advance 2 with slip := if since + 1 < clk then 0 else y.slip }

/-- Whether the C stream of a context waits on for no command: a TWAIT past its cycle whose command is complete, or no TWAIT at all. -/
def Ctx.waitedFor (x : Ctx) : Bool :=
  match x.c.hold with
  | .promise tag _ => !x.copyPending tag
  | .cycle _ _ _ => false
  | _ => true

/-- The wait of a TWAIT past its cycle ends where its command is complete: the next word issues in this clk (07 R179; 14 R338). The
members of a redundant pair go on together (04 R102). -/
def State.promiseDone (s : State) (c : CtxId) : State :=
  let cs := c :: (s.partner c).toList
  if cs.all (fun d => (s.ctx d).waitedFor) then
    cs.foldl (fun t d => t.modStrm ⟨d, .c⟩ (fun y => match y.hold with | .promise _ since => y.waitOver since s.clk | _ => y)) s
  else s

/-- The member of a redundant pair that runs a job on a core, with the other member, and whether it is the second named (04 R101). -/
def State.pairOf (s : State) (core : Nat) (job : BitVec 12) : Option (CtxId × Bool) :=
  match [0, 1].find? (fun b => (s.ctx ⟨core, b⟩).resident && (s.ctx ⟨core, b⟩).job == job) with
  | some b =>
    match s.platRec ⟨core, b⟩, s.partner ⟨core, b⟩ with
    | some p, some d => some (d, p.parcels.any (fun q => q.index == (s.ctx ⟨core, b⟩).parcel && q.core != scoreOf core &&
        8 * q.mod + q.die == dieOf core))
    | _, _ => none
  | none => none

/-- Whether a plat ends at its next common waypoint (04 R113). -/
def State.platLate (s : State) (plat : Word) : Bool := s.dies.any (fun d => d.2.plats.any (fun p => p.plat == plat && p.late))

/-- The next waypoint of a plat that no context of it has passed is the one at which it stops or ends (05 R135; 04 R113), unless one is
named already. -/
def State.nameStop (s : State) (plat : Word) : State :=
  let cs := s.ctxsOf plat
  if s.platLate plat || cs.any (fun c => (s.ctx c).stopReq) then s
  else
    let passed (x : Ctx) : Nat := if x.atWay.isSome then x.ways - 1 else x.ways
    let n := 1 + cs.foldl (fun m c => Nat.max m (passed (s.ctx c))) 0
    cs.foldl (fun t c => t.modCtx c (fun x => { x with stopNo := n })) s

/-- TIMETABLE_OVERRUN in every context of a plat, those that a scheduler keeps pre-empted among them; the plat ends at its next common
waypoint (04 R113). -/
def State.overrunPlat (s : State) (plat : Word) (tval : Nat) : State :=
  let s := s.nameStop plat
  let s : State := { s with dies := s.dies.map (fun (d : Nat × DieSt) => (d.1, { d.2 with
    plats := d.2.plats.map (fun p => if p.plat = plat then { p with late := true } else p)
    kept := d.2.kept.map (fun k => if k.1 = plat then (k.1, k.2.1, k.2.2.pend cOVERRUN (BitVec.ofNat 64 tval)) else k) })) }
  (s.ctxsOf plat).foldl (fun t d => t.raiseAsync d cOVERRUN (BitVec.ofNat 64 tval)) s

/-- TIMETABLE_OVERRUN in every context of the plat of a context (04 R113). A context without a plat is alone. -/
def State.overrun (s : State) (c : CtxId) (tval : Nat) : State :=
  if (s.ctx c).plat = 0 then s.raiseAsync c cOVERRUN (BitVec.ofNat 64 tval) else s.overrunPlat (s.ctx c).plat tval

/-! ## Counters of a station (02 R40, R42) -/

def State.jobState (s : State) (sta : Nat) (job : BitVec 12) : JobState :=
  if job = 0 then .opened else Sp.get .free (s.sta sta).jobs job.toNat

/-- A counter plus 1, modulo 2^48. -/
def bump48 (t : Sp Nat) (job : BitVec 12) : Sp Nat := Sp.set 0 t job.toNat ((Sp.get 0 t job.toNat + 1) % 2 ^ 48)

def State.countInj (s : State) (sta : Nat) (job : BitVec 12) : State := s.modSta sta (fun t => { t with inj := bump48 t.inj job })
def State.countCon (s : State) (sta : Nat) (job : BitVec 12) : State := s.modSta sta (fun t => { t with con := bump48 t.con job })
def State.countLos (s : State) (sta : Nat) (job : BitVec 12) : State := s.modSta sta (fun t => { t with los := bump48 t.los job })

/-- The kinds that are counted (02 R41). -/
def countedKind (kind : Nat) : Bool := decide (2 ≤ kind) && decide (kind ≤ 8)

/-! ## Slots -/

/-- A free slot of a core (01 R20); its hop part is made at each hop. -/
def slotFrom (core kind : Nat) (job : BitVec 12) (dmod dsta dcore nfl tag arg : Nat) (data : List Byte) : Slot :=
  { kind := BitVec.ofNat 4 kind, job := job, dmod := BitVec.ofNat 6 dmod, dsta := BitVec.ofNat 4 dsta,
    dcore := BitVec.ofNat 4 dcore, smod := BitVec.ofNat 6 (modOf core), ssta := BitVec.ofNat 4 (stationOf core % 16),
    score := BitVec.ofNat 4 (scoreOf core), nfl := BitVec.ofNat 2 nfl, rfs := false, rtn := false, mir := false,
    tag := BitVec.ofNat 14 tag, arg := BitVec.ofNat 16 arg, seq := 0, trk := 0, poison := false, data := data }

/-- A slot handed to a station from a clk on: it is on the ring after the 4 clk of injection, once it has a track (01 R13, R14). -/
def State.enqueue (s : State) (sta : Nat) (slot : Slot) (due : Nat) : State :=
  (s.modSta sta (fun t => { t with outq := t.outq ++ [(due + 4, slot)] })).post (due + 4) (.slotInject sta)

/-- A slot that a core sends. Slots of a redundant pair are held for their comparison (04 R103). -/
def State.egress (s : State) (core : Nat) (slot : Slot) (due : Nat) : State :=
  match s.pairOf core slot.job with
  | some _ => s.post due (.pairSlotCompare core slot none)
  | none => s.enqueue (stationOf core) slot due

/-- Whether a core runs a job as the second named member of a redundant pair: what both members do counts once, for the first (04 R103). -/
def State.isSecond (s : State) (core : Nat) (job : BitVec 12) : Bool :=
  match s.pairOf core job with
  | some (_, second) => second
  | none => false

/-- A message of a core counted injected (02 R42). -/
def State.countSent (s : State) (core : Nat) (job : BitVec 12) : State :=
  if s.isSecond core job then s else s.countInj (stationOf core) job

/-- A message of a core counted consumed where the core takes it (02 R42, R47). -/
def State.countTaken (s : State) (core : Nat) (job : BitVec 12) : State :=
  if s.isSecond core job then s else s.countCon (stationOf core) job

/-- A counted message accepted into a core's egress (02 R42); of a CLOSING job it is discarded and counted nowhere (02 R61). -/
def State.sendCounted (s : State) (core : Nat) (slot : Slot) (due : Nat) : State :=
  if s.jobState (stationOf core) slot.job = .closing then s else (s.countSent core slot.job).egress core slot due

/-- A management slot (KIND 12) with a code in ARG and 64-bit values as its payload: the spec gives these slots no layout (log 13). -/
def mgmtSlot (core : Nat) (job : BitVec 12) (dmod dsta dcore code : Nat) (ws : List Nat) : Slot :=
  slotFrom core 12 job dmod dsta dcore 0 0 code (ws.flatMap (bytesLE 8))

/-! ## Memory that something watches -/

/-- The context of a job on a core, and its plat. -/
def State.platOf (s : State) (core : Nat) (job : BitVec 12) : Word :=
  let hit (b : Nat) : Bool := (s.ctx ⟨core, b⟩).resident && (s.ctx ⟨core, b⟩).job == job
  if hit 0 then (s.ctx ⟨core, 0⟩).plat else if hit 1 then (s.ctx ⟨core, 1⟩).plat else 0

/-- The lines of 64 bytes that n bytes from `a` touch. -/
def linesOf (a n : Nat) : List Nat := if n = 0 then [] else (List.range ((a + n - 1) / 64 - a / 64 + 1)).map (fun i => a / 64 + i)

/-- The controller of a physical address: 0 and 1 the HBM4E stacks of its die, 2 its LPDDR-6 slice (01 R8). -/
def controllerOf (pa : Nat) : Nat := if isHbm pa then pa / 0xC00000000 % 2 else 2

/-- An entry of a checkpoint log, 128 bytes: the old value of a line in bytes 0 to 63, its physical address in bytes 64 to 71, and zeros
(04 R108). -/
def logRecord (old : List Byte) (pa : Nat) : List Byte := old ++ bytesLE 8 pa ++ List.replicate 56 0

/-- The line of an entry and its old value. -/
def LogLine.pa (l : LogLine) : Nat := ofBytesLE ((l.record.drop 64).take 8)
def LogLine.old (l : LogLine) : List Byte := l.record.take 64

/-- The entries that a checkpoint log holds for one controller and plat (04 R108). -/
def logCount (d : DieSt) (plat : Word) (ctl : Nat) : Nat := (d.log.filter (fun l => l.plat == plat && l.ctl == ctl)).length

/-- Whether a plat has an open checkpoint interval (04 R107). -/
def State.inInterval (s : State) (plat : Word) : Bool :=
  s.dies.any (fun d => d.2.plats.any (fun p => p.plat == plat && p.ckptAt.isSome))

/-- The old value of a line logged before its first write in an interval (04 R108). The log stands beside memory: R108 gives its 16 MiB no address
(log 82). -/
def State.logLine (s : State) (plat : Word) (mod line : Nat) : State :=
  let pa := 64 * line
  let die := 8 * mod + homeStation pa
  let d := s.die die
  if d.log.any (fun l => l.plat == plat && l.pa == pa) then s
  else if 131072 ≤ logCount d plat (controllerOf pa) then
    { s with dies := s.dies.map (fun e => (e.1,
        { e.2 with plats := e.2.plats.map (fun p => if p.plat = plat then { p with recoverable := false } else p) })) }
  else
    s.modDie die (fun d => { d with
      log := ⟨plat, controllerOf pa, logRecord (Memory.readN s.mem (memKey mod pa) 64) pa⟩ :: d.log })

/-- The streams that wait on a word of memory that bytes touch. -/
def State.watchers (s : State) (key n : Nat) : List StreamId :=
  s.ctxs.flatMap (fun e =>
    let one (st : Stream) : List StreamId :=
      match (e.2.strm st).hold with
      | .memory k => if key < k + 8 ∧ k < key + n then [⟨⟨e.1 / 2, e.1 % 2⟩, st⟩] else []
      | _ => []
    one .c)

/-- Bytes written in a module's memory by a plat (0: none): the log of its interval, the bytes, and the wakes of WAITM, at most
64 clk later (14 R339). -/
def State.writeMem (s : State) (plat : Word) (mod pa : Nat) (bs : List Byte) : State :=
  let s := if s.inInterval plat then (linesOf pa bs.length).foldl (fun t l => t.logLine plat mod l) s else s
  let s := { s with mem := Memory.writeN s.mem (memKey mod pa) bs }
  (s.watchers (memKey mod pa) bs.length).foldl (fun t i =>
    let (d, t) := t.freeTime
    t.post (t.clk + d % 65) (.waitmWake i)) s

/-! ## Combining entries (08 R212, R213) -/

def CombEntry.isOpen (e : CombEntry) : Bool := e.sent.isNone

/-- The entries that `p` names and every earlier open one, sent in this clk: entries go in the order in which they opened. -/
def State.sendEntries (s : State) (core : Nat) (p : CombEntry → Bool) : State :=
  let es := (s.core core).comb
  let last := (es.zipIdx.filter (fun q => q.1.isOpen && p q.1)).foldl (fun m q => Nat.max m (q.2 + 1)) 0
  let goes (q : CombEntry × Nat) : Bool := q.1.isOpen && decide (q.2 < last)
  let ids := (es.zipIdx.filter goes).map (fun q => q.1.id)
  let s := s.modCore core (fun k =>
    { k with comb := k.comb.map (fun e => if ids.contains e.id then { e with sent := some s.clk } else e) })
  ids.foldl (fun t id => t.post (t.clk + 3) (.combiningEntryInject core id)) s

/-- Every open entry of a context sent (08 R213). -/
def State.flush (s : State) (c : CtxId) : State := s.sendEntries c.core (fun e => e.bank == c.bank)

/-- The bytes of a line put over those of another. -/
def CombLine.over (l m : CombLine) : CombLine :=
  { m with mask := m.mask ||| l.mask, bytes := m.bytes.zipIdx.map (fun p => if l.mask.getLsbD p.2 then (l.bytes[p.2]?).getD p.1 else p.1) }

def emptyLine (addr : Nat) : CombLine := ⟨addr, 0, List.replicate 64 0⟩

/-- The line of bytes that stand in it from an address on. -/
def lineOf (addr : Nat) (bs : List Byte) : CombLine :=
  let off := addr % 64
  { emptyLine (addr / 64 * 64) with
    mask := (List.range bs.length).foldl (fun m i => m ||| BitVec.twoPow 64 (off + i)) 0
    bytes := (List.replicate off 0 ++ bs ++ List.replicate (64 - off - bs.length) 0).take 64 }

/-- The masked bytes of a line as runs: where each begins, and its bytes. -/
def CombLine.runs (l : CombLine) : List (Nat × List Byte) :=
  let here (i : Nat) : Bool := l.mask.getLsbD i
  ((List.range 64).filter (fun i => here i && (i == 0 || !here (i - 1)))).map (fun i =>
    (i, (l.bytes.drop i).take (((List.range (64 - i)).find? (fun n => !here (i + n))).getD (64 - i))))

/-- The allowance of a window (08 R210). -/
def Ctx.allowCur (x : Ctx) (n : Nat) : Nat := wfield (Sp.get 0 x.allow n) 8 8
def Ctx.setCur (x : Ctx) (n v : Nat) : Ctx := { x with allow := Sp.set 0 x.allow n (withField (Sp.get 0 x.allow n) 8 8 v) }

/-- One line placed by a posted store of a stream (08 R212); none while it waits for allowance (R210). A store of a CLOSING
job is discarded (02 R61). `names` are the identities of what waits until it is performed. -/
def State.placeLine (s : State) (i : StreamId) (names : List Nat) (dest : Dest) (ord mir : Nat) (line : CombLine) : Option State :=
  let c := i.ctx
  let core := c.core
  let job := (s.ctx c).job
  if s.jobState (stationOf core) job = .closing then some s
  else
    let mine (e : CombEntry) : Bool := e.isOpen && e.bank == c.bank && e.dest == dest && e.ord == ord && e.mir == mir && ord != 0
    let es := (s.core core).comb
    let join (id : Nat) (ls : List CombLine → List CombLine) (s : State) : State :=
      s.modCore core (fun k => { k with comb := k.comb.map (fun x =>
        if x.id = id then { x with lines := ls x.lines, by_ := (i.st :: x.by_).eraseDups, before := (names ++ x.before).eraseDups } else x) })
    match es.find? (fun e => mine e && e.lines.any (fun l => l.addr == line.addr)) with
    | some e => some (join e.id (fun ls => ls.map (fun l => if l.addr = line.addr then line.over l else l)) s)
    | none =>
      -- a new line takes 1 of the window's allowance
      let paid : Option State := match dest with
        | .window n _ _ _ =>
          let cur := (s.ctx c).allowCur n
          if cur = 0 then none else some (s.modCtx c (fun x => x.setCur n (cur - 1)))
        | .global _ _ => some s
      match paid with
      | none => none
      | some s =>
        match es.find? (fun e => mine e && decide (e.lines.length < 3)) with
        | some e => some (join e.id (fun ls => ls ++ [line]) s)
        | none =>
          let s := if 8 ≤ (es.filter CombEntry.isOpen).length then
              match es.find? CombEntry.isOpen with
              | some o => s.sendEntries core (fun e => e.id == o.id)
              | none => s
            else s
          let id := (s.core core).combId
          let s := (s.countSent core job).modCore core (fun k =>
            { k with combId := k.combId + 1,
                     comb := k.comb ++ [⟨id, c.bank, dest, ord, job, s.clk, none, mir, [line], [i.st], [], names⟩] })
          if ord = 0 then some (s.sendEntries core (fun e => e.id == id))
          else some (s.post (s.clk + 32) (.combiningEntrySend core id))

/-- A destination without the number of its window: what a load compares (08 R215). -/
def Dest.sameHome (a b : Dest) : Bool :=
  match a, b with
  | .window _ m t k, .window _ m' t' k' => m == m' && t == t' && k == k'
  | .global m t, .global m' t' => m == m' && t == t'
  | _, _ => false

/-- The bytes from an address on, where an entry holds all of them. -/
def CombEntry.bytesAt (e : CombEntry) (addr n : Nat) : Option (List Byte) :=
  (List.range n).foldr (fun i acc =>
    match acc, e.lines.find? (fun l => l.addr == (addr + i) / 64 * 64) with
    | some bs, some l => if l.mask.getLsbD ((addr + i) % 64) then some ((l.bytes[(addr + i) % 64]?).getD 0 :: bs) else none
    | _, _ => none) (some [])

/-- The bytes of a load that one open entry holds (08 R215). -/
def CombEntry.forward (e : CombEntry) (dest : Dest) (addr n : Nat) : Option (List Byte) :=
  if !e.isOpen || !e.dest.sameHome dest then none else e.bytesAt addr n

/-- The case of R215 for a load or an atomic of n bytes. -/
inductive Fwd where
  | taken (bs : List Byte)
  | wait
  | go
deriving DecidableEq, Repr

def State.forwardCase (s : State) (core : Nat) (dest : Dest) (addr n : Nat) : Fwd :=
  let es := (s.core core).comb.filter CombEntry.isOpen
  match es.filterMap (fun e => e.forward dest addr n) with
  | bs :: _ => .taken bs
  | [] => if es.any (fun e => e.dest.sameHome dest && e.lines.any (fun l =>
      decide (l.addr < addr + n) && decide (addr / 64 * 64 ≤ l.addr))) then .wait else .go

/-! ## Windows (08 R208, R209) -/

structure Window where
  v : Bool
  ord : Nat
  mod : Nat
  die : Nat
  core : Nat
  base : Nat
deriving DecidableEq, Repr

def windowOf (w : Word) : Window :=
  ⟨wbit w 63, wfield w 61 2, wfield w 22 6, wfield w 19 3, wfield w 16 3, wfield w 0 6⟩

def Ctx.window (x : Ctx) (n : Nat) : Window := windowOf (Sp.get 0 x.win n)

/-- The peer X offset of a window offset, where it may be reached (08 R209). -/
def Window.peer (w : Window) (off n : Nat) : Option Nat :=
  let a := 0x10000 * w.base + off
  if w.v && decide (a + n ≤ 0x2FC000) then some a else none

def Window.dest (w : Window) (n : Nat) : Dest := .window n w.mod w.die w.core

/-! ## Requests -/

/-- A group of remote data awaited. -/
def State.newGroup (s : State) (c : CtxId) (st : Stream) (acq : Bool) (want : Want) (got : Memory) (so : Bool := false) : Nat × State :=
  let (id, s) := s.nextId
  (id, s.modCore c.core (fun k => { k with groups := k.groups ++ [⟨id, c.bank, st, acq, so, want, 0, got⟩] }))

/-- The station that a destination lies at. -/
def Dest.station : Dest → Nat × Nat
  | .window _ m t _ => (m, t)
  | .global m t => (m, t)

/-- The first clk from which a request of a core to a station goes behind the entries for it that have been sent and wait for their
injection (08 R213, R215, R216). -/
def CoreSt.behind (k : CoreSt) (dmod dsta : Nat) (due : Nat) : Nat :=
  (k.comb.filter (fun e => e.dest.station == (dmod, dsta))).foldl (fun d e => match e.sent with
    | some t => Nat.max d (t + 4)
    | none => d) due

/-- A request slot of a group: KIND 4 or 6, counted (02 R41). Of a CLOSING job it is discarded (R61), and its reservation completes with
job-closed, as every pending one does (R62). -/
def State.request (s : State) (c : CtxId) (group at_ len kind dmod dsta dcore arg : Nat) (data : List Byte) (mir : Bool := false) : State :=
  let k := s.core c.core
  let tag := k.reqTag % 16384
  let slot := slotFrom c.core kind (s.ctx c).job dmod dsta dcore ((data.length - 1) / 64) tag arg data
  let s := s.modCore c.core (fun k =>
    { k with reqTag := (k.reqTag + 1) % 16384, reqs := k.reqs ++ [⟨tag, group, at_, len, mir, slot⟩],
             groups := k.groups.map (fun g => if g.id = group then { g with left := g.left + 1 } else g) })
  if s.jobState (stationOf c.core) slot.job = .closing then s.postNow (.jobCloseNotice (stationOf c.core) slot.job)
  else s.sendCounted c.core slot (k.behind dmod dsta (s.clk + 1))

/-- A remote read of bytes: the address and length as payload; ARG 0 an X offset, 1 a physical address (log 13). -/
def State.readRemote (s : State) (c : CtxId) (group at_ : Nat) (dest : Dest) (addr n : Nat) (mir : Bool := false) : State :=
  match dest with
  | .window _ m t k => s.request c group at_ n 6 m t k 0 (bytesLE 8 addr ++ bytesLE 8 n)
  | .global m t => s.request c group at_ n 6 m t 0 1 (bytesLE 8 addr ++ bytesLE 8 n) mir

/-- A word of a stream asks for remote bytes that it needs before it issues: module, address, length, and whether the page is mirrored, each
with the module that answers (09 R226). -/
def State.beginFetch (s : State) (i : StreamId) (ls : List (Nat × Nat × Nat × Bool × Nat)) : State :=
  let (g, s) := s.newGroup i.ctx i.st false (.word i) []
  let s := s.modStrm i (fun y => { y with fetch := some (g, none) })
  ls.foldl (fun t l => t.readRemote i.ctx g (memKey l.1 l.2.1) (.global l.2.2.2.2 (homeStation l.2.1)) l.2.1 l.2.2.1 l.2.2.2.1) s

/-- The remote bytes that have come for the word of a stream. -/
def StreamSt.fetched (y : StreamSt) : Option Memory :=
  match y.fetch with
  | some (_, m) => m
  | none => none

/-! ## Posted writes -/

/-- A posted-write slot built of lines (01 R21; 08 R212; 09 R226): flit 0 holds the entries, then the lines. ARG is 0 for X offsets, 1
for physical addresses. Its credits are owed; the copy for a mirror is retained (01 R36). -/
def State.postSlot (s : State) (core bank : Nat) (job : BitVec 12) (dest : Dest) (ord : Nat) (eng : Option (EngQ × Nat)) (mir : Nat)
    (by_ fenced : List Stream) (before : List Nat) (lines : List CombLine) (due : Nat) : State :=
  let k := s.core core
  let tag := k.reqTag % 16384
  let entries := lines.flatMap (fun l => bytesLE 8 l.addr ++ bytesLE 8 l.mask.toNat)
  let data := entries ++ List.replicate (64 - entries.length) 0 ++ lines.flatMap (fun l => l.bytes)
  let (m, t, c, arg) : Nat × Nat × Nat × Nat := match dest with
    | .window _ m t c => (m, t, c, 0)
    | .global m t => (m, t, 0, 1)
  let slot := { slotFrom core 3 job m t c lines.length tag arg data with mir := mir != 0 }
  (s.modCore core (fun k =>
    { k with reqTag := (k.reqTag + 1) % 16384, owed := k.owed ++ [⟨bank, eng, tag, dest, ord, lines.length, lines.map CombLine.addr, by_, fenced, before⟩],
             mirrors := if mir = 2 then k.mirrors ++ [(tag, slot)] else k.mirrors })).egress core slot due

/-- A posted-write slot that an engine hands to the egress (21 R419): counted there, or discarded for a CLOSING job (02 R61). -/
def State.enginePost (s : State) (c : CtxId) (eng : EngQ) (seq : Nat) (dest : Dest) (ord mir : Nat) (lines : List CombLine) : State :=
  let sta := stationOf c.core
  let job := (s.ctx c).job
  if s.jobState sta job = .closing then s
  else (s.countSent c.core job).postSlot c.core c.bank job dest ord (some (eng, seq)) mir [] [] [] lines (s.clk + 1)

/-! ## Performed accesses (14 R327) -/

/-- Whether a destination lies in a scope counted from a core; a global line lies in every scope (13 R306, 14 R327). -/
def destInScope (core scope : Nat) (d : Dest) : Bool :=
  match d with
  | .global _ _ => true
  | .window _ m t k =>
    match scope with
    | 0 => m == modOf core && t == stationOf core % 16 && k == scoreOf core
    | 1 => m == modOf core && t == stationOf core % 16 && k / 4 == scoreOf core / 4
    | 2 => m == modOf core && t == stationOf core % 16
    | 3 => m == modOf core
    | _ => true

/-- Whether a group is of a word of a stream, and none of a copy command. -/
def Group.ofWord (g : Group) (i : StreamId) : Bool :=
  g.bank == i.ctx.bank && g.stream == i.st && (match g.want with | .place .. => false | .done .. => false | _ => true)

/-- Whether what an identity names, and groups, have been performed. -/
def CoreSt.cleared (k : CoreSt) (id : Nat) (groups : List Nat) : Bool :=
  !k.comb.any (fun e => e.before.contains id) && !k.owed.any (fun o => o.before.contains id) && !k.groups.any (fun g => groups.contains g.id)

/-- Whether every part of a vector access word has been started and is over (15 R361). -/
def ApWord.over (w : ApWord) (clk : Nat) : Bool := w.units.isEmpty && decide (w.fin ≤ clk)

/-- Whether a vector access word has been performed: its posted writes' credits and its remote data have come (15 R361; 14 R327). -/
def CoreSt.apDone (k : CoreSt) (clk : Nat) (w : ApWord) : Bool := w.over clk && k.cleared w.id w.groups

/-- Whether words of the request order are still to be started for a stream, of the kinds that a release or a fence orders. -/
def CoreSt.apLeft (k : CoreSt) (i : StreamId) (clk : Nat) (uo : Bool) : Bool :=
  i.st == .a && k.ap.any (fun w => w.ctx == i.ctx && (uo || w.ord != 2) && !w.over clk)

/-- Whether every earlier SO and RC access of a stream has been performed at a scope; with `uo`, of every kind (14 R327, R330). -/
def State.performed (s : State) (i : StreamId) (scope : Nat) (uo : Bool) : Bool :=
  let k := s.core i.ctx.core
  let counts (d : Dest) (ord : Nat) : Bool := destInScope i.ctx.core scope d && (uo || ord != 2)
  !k.apLeft i s.clk uo && !k.comb.any (fun e => e.bank == i.ctx.bank && counts e.dest e.ord) &&
  !k.owed.any (fun o => o.bank == i.ctx.bank && o.eng.isNone && counts o.dest o.ord) &&
  !k.groups.any (fun g => g.ofWord i)

/-- Whether an SO access of a stream waits for an earlier SO access that is under way: one that is not performed and went elsewhere, so that
the order of acceptance (08 R216) does not order the two (09 R242). `tgt` is the station that the access goes to; none where it is performed
here. -/
def State.soFlight (s : State) (i : StreamId) (tgt : Option (Nat × Nat)) : Bool :=
  let k := s.core i.ctx.core
  k.comb.any (fun e => e.bank == i.ctx.bank && e.ord == 0 && e.by_.contains i.st && tgt != some e.dest.station) ||
  k.owed.any (fun o => o.bank == i.ctx.bank && o.eng.isNone && o.ord == 0 && o.by_.contains i.st && tgt != some o.dest.station) ||
  k.groups.any (fun g => g.so && g.ofWord i &&
    k.reqs.any (fun r => r.group == g.id && tgt != some (r.slot.dmod.toNat, r.slot.dsta.toNat)))

/-- The same, with the vector access words whose turn in the request order is still to come. -/
def State.soBlocked (s : State) (i : StreamId) (tgt : Option (Nat × Nat)) : Bool :=
  s.soFlight i tgt || (i.st == .a && (s.core i.ctx.core).ap.any (fun w => w.ctx == i.ctx && w.ord == 0 && !w.units.isEmpty))

/-- Whether a destination is a window that names the core itself. -/
def Dest.isOwn (core : Nat) (d : Dest) : Bool :=
  match d with
  | .window .. => destInScope core 0 d
  | .global .. => false

/-- Whether posted writes of a stream that satisfy `p` are still to be performed; `uo` counts those of ORD UO too. -/
def CoreSt.postedLeft (k : CoreSt) (i : StreamId) (uo : Bool) (p : Dest → Bool) : Bool :=
  k.comb.any (fun e => e.bank == i.ctx.bank && e.by_.contains i.st && p e.dest && (uo || e.ord != 2)) ||
  k.owed.any (fun o => o.bank == i.ctx.bank && o.eng.isNone && o.by_.contains i.st && p o.dest && (uo || o.ord != 2))

/-- Whether stores of a stream are still to be performed in what a command of its core reads at once: its own X, reached through a window
(08 R209), and its own module's memory, behind a mirrored page (01 R36). A pushed command waits for them (09 R245). -/
def State.ownPending (s : State) (i : StreamId) : Bool :=
  (s.core i.ctx.core).postedLeft i true (fun d => d.isOwn i.ctx.core || (match d with | .global m _ => m == modOf i.ctx.core | .window .. => false))

/-- Whether a push into a queue waits, as a store-release at the scope of the core, for accesses of its stream (09 R244; 14 R327). -/
def State.unreleased (s : State) (i : StreamId) : Bool :=
  let k := s.core i.ctx.core
  k.postedLeft i false (destInScope i.ctx.core 0) || k.groups.any (fun g => g.ofWord i) || k.apLeft i s.clk false

/-- Whether bytes of a core's X are reached by posted writes of a stream through a window that names the core, still to be performed (08 R209;
09 R241). -/
def CoreSt.ownWrites (k : CoreSt) (i : StreamId) (off n : Nat) : Bool :=
  let hit (a : Nat) : Bool := decide (a < off + n) && decide (off < a + 64)
  k.comb.any (fun e => e.bank == i.ctx.bank && e.by_.contains i.st && e.dest.isOwn i.ctx.core && e.lines.any (fun l => hit l.addr)) ||
  k.owed.any (fun o => o.bank == i.ctx.bank && o.eng.isNone && o.by_.contains i.st && o.dest.isOwn i.ctx.core && o.at_.any hit)

/-- Whether a remote read of a stream through such a window is still to read bytes of X. -/
def CoreSt.ownReads (k : CoreSt) (i : StreamId) (off n : Nat) : Bool :=
  k.reqs.any (fun r => r.slot.kind == 6 && r.slot.arg == 0 && 128 * r.slot.dmod.toNat + 16 * r.slot.dsta.toNat + r.slot.dcore.toNat == i.ctx.core &&
    k.groups.any (fun g => g.id == r.group && g.ofWord i) &&
    (let a := ofBytesLE (r.slot.data.take 8)
     decide (a < off + n) && decide (off < a + ofBytesLE ((r.slot.data.drop 8).take 8))))

/-- What a release of a stream at a scope waits for named: the context's posted writes that count, by an identity, and the stream's groups of
loads (14 R327). -/
def CoreSt.nameBefore (k : CoreSt) (i : StreamId) (scope id : Nat) : CoreSt :=
  let counts (d : Dest) (ord : Nat) : Bool := destInScope i.ctx.core scope d && ord != 2
  { k with
    comb := k.comb.map (fun e => if e.bank == i.ctx.bank && counts e.dest e.ord then { e with before := id :: e.before } else e)
    owed := k.owed.map (fun o =>
      if o.bank == i.ctx.bank && o.eng.isNone && counts o.dest o.ord then { o with before := id :: o.before } else o) }

/-- The groups of a stream's words that are still awaited. -/
def CoreSt.groupsOf (k : CoreSt) (i : StreamId) : List Nat := (k.groups.filter (fun g => g.ofWord i)).map (fun g => g.id)

/-- A message handed to the egress (14 R346): counted injected, or discarded for a CLOSING job (02 R61). It goes on at once where it is
the only unsent one and everything of the context before it is performed; else it waits there, named by what is before it. -/
def State.sendMessage (s : State) (i : StreamId) (slot : Slot) : State :=
  let core := i.ctx.core
  if s.performed i 4 false && (s.core core).sends.isEmpty then s.sendCounted core slot (s.clk + 1)
  else if s.jobState (stationOf core) slot.job = .closing then s
  else
    let (id, s) := (s.countSent core slot.job).nextId
    s.modCore core (fun k => { k.nameBefore i 4 id with sends := k.sends ++ [⟨id, slot, k.groupsOf i⟩] })

/-- Whether everything before a waiting message is performed. -/
def CoreSt.sendFree (k : CoreSt) (h : HeldSend) : Bool := k.cleared h.id h.groups

/-- The messages that go on, oldest first. -/
def State.releaseSends : State → Nat → List HeldSend → State
  | s, _, [] => s
  | s, core, h :: rest =>
    if (s.core core).sendFree h then
      ((s.modCore core (fun k => { k with sends := rest })).egress core h.slot s.clk).releaseSends core rest
    else s

/-- The waiting messages of every core looked at, as a clk begins. -/
def State.sendsTick (s : State) : State :=
  (s.cores.filter (fun (e : Nat × CoreSt) => !e.2.sends.isEmpty)).foldl (fun t e => t.releaseSends e.1 e.2.sends) s

/-- Whether a stream waits for what it acquires: a load-acquire that has still to return (09 R243), or the accesses that a FENCE orders before
its later ones (14 R330). -/
def State.acquirePending (s : State) (i : StreamId) : Bool :=
  let k := s.core i.ctx.core
  k.groups.any (fun g => g.bank == i.ctx.bank && g.stream == i.st && g.acq) ||
  k.comb.any (fun e => e.bank == i.ctx.bank && e.fenced.contains i.st) ||
  k.owed.any (fun o => o.bank == i.ctx.bank && o.eng.isNone && o.fenced.contains i.st) ||
  (i.st == .a && k.ap.any (fun w => w.ctx == i.ctx && w.fenced && !k.apDone s.clk w))

/-- Whether a line of a vector store waits for allowance, and with it every later access of A (15 R363). -/
def CoreSt.apStuck (k : CoreSt) (i : StreamId) : Bool :=
  i.st == .a && k.ap.any (fun w => w.ctx == i.ctx && (match w.units with | u :: _ => u.todo.isSome | [] => false))

/-- Whether later accesses of a stream wait: for what it acquires, for a walk (09 R228), or behind a vector store. -/
def State.acquiring (s : State) (i : StreamId) : Bool :=
  let k := s.core i.ctx.core
  s.acquirePending i || k.walking i.ctx (match i.st with | .a => 1 | _ => 0) || k.apStuck i

/-- The accesses of a stream that are still to be performed at a scope marked: later accesses of the stream wait for them, and for
no other stream's (14 R330). -/
def State.fenceOf (s : State) (i : StreamId) (scope : Nat) (uo : Bool) : State :=
  let counts (d : Dest) (ord : Nat) : Bool := destInScope i.ctx.core scope d && (uo || ord != 2)
  s.modCore i.ctx.core (fun k =>
    { k with
      comb := k.comb.map (fun e =>
        if e.bank == i.ctx.bank && e.by_.contains i.st && counts e.dest e.ord then { e with fenced := i.st :: e.fenced } else e)
      owed := k.owed.map (fun o =>
        if o.bank == i.ctx.bank && o.by_.contains i.st && counts o.dest o.ord then { o with fenced := i.st :: o.fenced } else o)
      groups := k.groups.map (fun g => if g.ofWord i then { g with acq := true } else g)
      ap := k.ap.map (fun w => if i.st == .a && w.ctx == i.ctx && (uo || w.ord != 2) && !w.over s.clk then { w with fenced := true } else w) })

/-! ## Mirrors (01 R35 to R38) -/

/-- Whether copies for a mirror are still to be accepted: retained, or on their way to their injection (01 R36, R38). -/
def CoreSt.mirrorPending (k : CoreSt) (m : Nat) : Bool :=
  k.mirrors.any (fun p => p.2.dmod.toNat == m) || k.comb.any (fun e => e.mir == 2 && e.dest.station.1 == m)

/-- The mirror of a home module: V, PLOST, MIRMOD. -/
def State.mirror (s : State) (mod home : Nat) : Bool × Bool × Nat :=
  let w := Sp.get 0 (s.modu mod).mirent home
  (wbit w 15, wbit w 14, wfield w 0 6)

/-- The module that a mirrored load goes to, or none while it waits for acceptances (01 R38). -/
def State.mirrorSource (s : State) (core home : Nat) : Option Nat :=
  let (_, lost, m) := s.mirror (modOf core) home
  if !lost then some home
  else if (s.core core).mirrorPending m then none else some m

/-- Whether a core reads a byte of a module by a remote read: of another module, and of a mirrored page in its own behind posted writes that it
has sent there (01 R36; 08 R216; 09 R241). -/
def State.byRing (s : State) (core : Nat) (mir : Bool) (mod pa : Nat) : Bool :=
  let k := s.core core
  let there (d : Dest) : Bool := d == .global mod (homeStation pa)
  mod != modOf core || (mir && (k.comb.any (fun e => e.sent.isSome && there e.dest) || k.owed.any (fun o => there o.dest)))

end Sys2Proof.Machine
end

