-- ==== Sys2Proof/Machine/Regs.lean ====
section
/-! DEFINITION. Register space (03 R68, R69): what a read of each register gives, and which event a write of it is (02 R49 to R52;
03 R70 to R84; 04 R86; 09 R222, R230, R232; 12 R286). -/

namespace Sys2Proof.Machine

/-- PTIME of a module in a clk (01 R32): nanoseconds of a clk of 1.05 GHz since it was last set. -/
def ModuleSt.ptimeNow (m : ModuleSt) (clk : Nat) : Word := m.ptime + BitVec.ofNat 64 ((clk - m.ptimeAt) * 20 / 21)

/-- The 64-bit word at an offset of a list of bytes; zeros beyond it. -/
def wordAt (bs : List Byte) (off : Nat) : Word := BitVec.ofNat 64 (ofBytesLE ((bs.drop off).take 8))

/-- The code of a job's state in MANSEL (02 R50). -/
def jobCode : JobState → Nat
  | .free => 0
  | .opened => 1
  | .closing => 2

/-- The words of a loss-log entry (02 R49). -/
def LossEntry.word (e : LossEntry) (n : Nat) : Word :=
  match n with
  | 0 => e.header.setWidth 64
  | 1 => (e.header >>> 64).setWidth 64
  | 2 => e.cyc
  | _ => BitVec.ofNat 64 e.cause

/-- LOSSCNT (02 R49). -/
def Station.losscnt (t : Station) : Word :=
  BitVec.ofNat 64 (t.lossTotal % 2 ^ 32 * 2 ^ 32 + bit t.lossFull * 128 + t.losslog.length)

/-- A register of a station's management block (02 R51). LOSSLOG entries beyond NEXT read 0, as an offset that no register has (log 70). -/
def State.mgmtRead (s : State) (mod sta off : Nat) : Word :=
  let t := s.sta (16 * mod + sta)
  if off = 0 then BitVec.ofNat 64 (bit t.unrepaired * 2 ^ 14 + jobCode (s.jobState (16 * mod + sta) t.manJob) * 2 ^ 12 + t.manJob.toNat)
  else if off = 0x8 then BitVec.ofNat 64 t.manInj
  else if off = 0x10 then BitVec.ofNat 64 t.manCon
  else if off = 0x18 then BitVec.ofNat 64 t.manLos
  else if off = 0x20 then BitVec.ofNat 64 (bit t.jopenErr * 2 ^ 12 + t.jopen.toNat)
  else if off = 0x28 then t.jclose.setWidth 64
  else if off = 0x30 then t.losscnt
  else if 0x100 ≤ off ∧ off < 0x900 then
    match t.losslog[(off - 0x100) / 32]? with
    | some e => e.word ((off - 0x100) / 8 % 4)
    | none => 0
  else if 0x1000 ≤ off ∧ off < 0x1100 then
    (if 8 ≤ sta then Sp.get 0 (s.modu mod).mirent ((off - 0x1000) / 8) else 0)
  else if 0x40000 ≤ off ∧ off < 0x48000 then Sp.get 0 t.jroot ((off - 0x40000) / 8)
  else if sta < 8 then
    let d := s.die (8 * mod + sta)
    if 0x7F000 ≤ off ∧ off < 0x7F100 then
      let n := (off - 0x7F000) / 8
      if n % 16 ≤ 10 then BitVec.ofNat 64 (bit (s.ctx ⟨128 * mod + 16 * sta + n % 16, n / 16⟩).dbgreq) else 0
    else if off = 0x7FFF8 then BitVec.ofNat 64 (d.survey.edition * 2 ^ 32 + bit d.survey.area)
    else if 0x80000 ≤ off ∧ off < 0xA0000 then BitVec.ofNat 64 (Memory.readLE d.survey.areas (off / 8 * 8) 8)
    else 0
  else 0

/-- Whether a port of a module takes part: trained and not in reset (03 R66). -/
def ModuleSt.port (m : ModuleSt) (p : Nat) : Bool := if p = 0 then m.port0 else m.port1

/-- FNSTAT.READY (03 R74); a function of a port that takes no part counts as disabled (R66). -/
def ModuleSt.isReady (m : ModuleSt) (f : Nat) : Bool := (m.fn f).en && (m.fn f).go && !(m.fn f).rst && m.port (f / 64)

/-- A register of a function block (03 R73; 09 R230, R232). -/
def State.fnRead (s : State) (mod fn off : Nat) : Word :=
  let f := (s.modu mod).fn fn
  let pf := fn % 64 == 0
  if off = 0 then BitVec.ofNat 64 (bit f.rst * 4 + bit f.go * 2 + bit f.en)
  else if off = 0x8 then BitVec.ofNat 64 (bit f.jobErr * 8 + bit f.featErr * 4 + bit ((s.modu mod).isReady fn))
  else if off = 0x10 then featOffered
  else if off = 0x20 then f.accLo
  else if off = 0x28 then f.accHi
  else if off = 0x30 then (if pf then 0 else f.maskLo)
  else if off = 0x38 then (if pf then 0 else f.maskHi)
  else if off = 0x40 then BitVec.ofNat 64 (f.cnt.toNat * 2 ^ 16 + f.base.toNat)
  else if off = 0x48 then f.hvec
  else if off = 0x58 then (if pf then f.apbase else 0)
  else if off = 0x60 then (if pf then f.area else 0)
  else if off = 0x68 then (if pf then f.res else 0)
  else if 0x80 ≤ off ∧ off < 0xC0 then BitVec.ofNat 64 (Sp.get 0 f.errs ((off - 0x80) / 8))
  else if 0x100 ≤ off ∧ off < 0x140 then BitVec.ofNat 64 (Memory.readLE f.nonce (off - 0x100) 8)
  else if off = 0x140 then BitVec.ofNat 64 (bit f.ready * 2)
  else if 0x400 ≤ off ∧ off < 0x880 then (if pf then 0 else Sp.get 0 f.ranges ((off - 0x400) / 8))
  else if 0x1000 ≤ off ∧ off < 0x2000 then wordAt f.report (off - 0x1000)
  else 0

/-- BOOTSTAT (03 R83). -/
def ModuleSt.bootstat (m : ModuleSt) : Word :=
  BitVec.ofNat 64 (m.version.toNat % 2 ^ 32 * 2 ^ 32 + m.stage % 16 * 16 + bit m.fail * 2 + bit m.ready)

/-- HSEMn (03 R70). -/
def ModuleSt.hsemWord (m : ModuleSt) (n : Nat) : Word :=
  let o := Sp.get 0 m.hsem n
  BitVec.ofNat 64 (o * 2 + bit (o != 0))

/-- A 64-bit register of a module's register space (03 R68). An offset that no block names reads 0 and takes no write (log 70). -/
def State.regRead (s : State) (mod off : Nat) : Word :=
  if off < 0xC00000 then s.mgmtRead mod (off / 0x100000) (off % 0x100000)
  else if off < 0xD00000 then
    let o := off - 0xC00000
    if o < 0x200 then (s.modu mod).hsemWord (o / 8)
    else if o = 0x400 then (s.modu mod).bootstat
    else if 0x1000 ≤ o ∧ o < 0x2000 then
      BitVec.ofNat 64 (ofBytesLE ((List.range 8).map (fun i => Config.certByte mod (o - 0x1000 + i))))
    else 0
  else if 0x1000000 ≤ off ∧ off < 0x1800000 then s.fnRead mod ((off - 0x1000000) / 0x10000) (off % 0x10000)
  else 0

/-- The requester that a core's write stands for (03 R70): 1 port 0, 2 port 1, 3 the management cores. A compute context of no plat, which
no dispatch bank has launched, stands for port 0 (log 70). -/
def State.requester (s : State) (c : CtxId) : Nat :=
  match kindOf c.core with
  | .management => 3
  | .dispatch => c.bank + 1
  | .compute =>
    match (s.die (dieOf c.core)).plats.find? (fun p => p.plat == (s.ctx c).plat) with
    | some p => p.bank + 1
    | none => 1

/-- Whether a requester writes what in a function's block only the PF of the same port writes, where the function is a VF (03 R73); of a PF's
block, every requester that reaches it. -/
def pfWrites (f who : Nat) : Bool := if f % 64 = 0 then decide (who < 64) else who == f / 64 + 1

/-- The events of a write of `v` under a mask of the bits written (03 R67, R73; 00 R4). `who` is a requester of R70, or 64 + f for the
VF f. Of a 4-byte write of a register whose field spans bit 32, `v` holds the kept part too. -/
def regEvents (mod off : Nat) (v mask : Word) (who : Nat) : List Event :=
  let low := wbit mask 0
  if off < 0xC00000 then
    let sta := 16 * mod + off / 0x100000
    let o := off % 0x100000
    if o = 0 then (if low then [.manselWrite sta v] else [])
    else if o = 0x20 then (if low then [.jopenWrite sta v] else [])
    else if o = 0x28 then (if low then [.jcloseWrite sta v] else [])
    else if o = 0x30 then (if low && wbit v 7 then [.losscntClear sta v] else [])
    else if 0x1000 ≤ o ∧ o < 0x1100 then
      (if low && decide (8 ≤ sta % 16) then
        .mirentWrite sta ((o - 0x1000) / 8) v :: (if wbit v 14 then [.plostClear sta ((o - 0x1000) / 8) v] else [])
      else [])
    else if 0x7F000 ≤ o ∧ o < 0x7F100 ∧ sta % 16 < 8 then
      let n := (o - 0x7F000) / 8
      let c : CtxId := ⟨128 * mod + 16 * (sta % 16) + n % 16, n / 16⟩
      if low && decide (n % 16 ≤ 10) then (if wbit v 0 then [.dbgreqRequest c] else [.dbgreqWithdraw c]) else []
    else [.registerWrite mod off v mask who]
  else if off < 0xC00200 then
    let n := (off - 0xC00000) / 8
    if low then (if wbit v 0 then [.hsemAcquire mod n [who]] else [.hsemRelease mod n who]) else []
  else if 0x1000000 ≤ off ∧ off < 0x1800000 then
    let f := (off - 0x1000000) / 0x10000
    let o := off % 0x10000
    let vf := decide (64 ≤ who)
    -- some registers of a VF's block are written by the PF of the same port only (R73)
    let pf := pfWrites f who
    if vf && f != who - 64 then []
    else if o = 0 then
      (if !low then []
      else if wbit v 2 then [.fnctlRst mod f]
      else (if wbit v 1 then [.fnctlGo mod f] else []) ++ (if pf then [.fnctlEn mod f (wbit v 0)] else []))
    else if o = 0x20 then [.feataccWrite mod f 0 v]
    else if o = 0x28 then [.feataccWrite mod f 1 v]
    else if o = 0x30 then (if pf then [.featmaskWrite mod f 0 v] else [])
    else if o = 0x38 then (if pf then [.featmaskWrite mod f 1 v] else [])
    else if o = 0x40 then (if pf && low then [.fnjobsWrite mod f v] else [])
    else if o = 0x50 then (if low then [.fnnotifyWrite mod f v] else [])
    else if o = 0x68 then
      (if low && f % 64 == 0 then
        let slot := BitVec.ofNat 6 (wfield v 0 6)
        match wfield v 6 2 with
        | 0 => [.fnfresRetry mod (f / 64) slot]
        | 1 => [.fnfresRaisePerm mod (f / 64) slot]
        | 2 => [.fnfresEndPlat mod (f / 64) slot]
        | _ => [.fnfresAnswerNothing mod (f / 64) slot]
      else [])
    else if o = 0xC0 then (if low then [.fnerrclrWrite mod f v] else [])
    else if o = 0x140 then (if low && wbit v 0 then [.attctlRequest mod f] else [])
    else [.registerWrite mod off v mask who]
  else [.registerWrite mod off v mask who]

/-- The event of a register write. The acquires of a semaphore in one clk are one event, at its end (03 R71). -/
def State.postReg (s : State) (e : Event) : State :=
  match e with
  | .hsemAcquire m n who =>
    let due := s.clk + 1
    let old := s.agenda.find? (fun (a : Nat × Event) => a.1 == due && isAcquire m n a.2)
    (match old with
    | some (_, .hsemAcquire _ _ ws) =>
      let s : State := { s with agenda := s.agenda.filter (fun (a : Nat × Event) => !(a.1 == due && isAcquire m n a.2)) }
      s.post due (.hsemAcquire m n (ws ++ who))
    | _ => s.post due e)
  | e => s.postNow e
where
  isAcquire (m n : Nat) : Event → Bool
    | .hsemAcquire i j _ => i == m && j == n
    | _ => false

/-- A write of register space by a requester of R70, or by the VF f as 64 + f. -/
def State.writeReg (s : State) (mod off : Nat) (v mask : Word) (who : Nat) : State :=
  (regEvents mod off v mask who).foldl (fun t e => t.postReg e) s

/-- A write from a core: strongly ordered, performed before anything later (03 R69; log 14). -/
def State.regWrite (s : State) (c : CtxId) (off : Nat) (v : Word) : State :=
  s.writeReg (modOf c.core) off v (BitVec.allOnes 64) (s.requester c)

end Sys2Proof.Machine
end

