-- ==== Sys2Proof/Machine/LoadStore.lean ====
section
/-! DEFINITION. Scalar accesses of the C and A streams: loads, stores, acquire and release, atomics, spill memory, FENCE
(14 R325 to R330; 15 R356; 08 R192, R195, R200, R209 to R217; 09 R225, R226). -/

namespace Sys2Proof.Machine

inductive Resolve where
  | at (p : Place) (s : State)
  | stop (r : Res)
deriving DecidableEq, Repr

/-- The source code of a stream in a fault record (09 R232). -/
def srcCode : Stream → Nat
  | .a => 1
  | _ => 0

/-- A page fault of the word in focus: it does not take effect (09 R233). -/
def State.pageFaults (s : State) (acc : Access) (va kind level : Nat) : Res :=
  .wait 0x03 (s.postNow (.pageFault ⟨s.foc.ctx, s.fctx.job, va, acc, srcCode s.foc.st⟩ kind level))

/-- A leaf without asking for permissions. -/
def State.leafAt (s : State) (va : Nat) : Option Leaf :=
  match s.walk s.foc.ctx.core s.fctx.job.toNat .probe va with
  | .ok l => some l
  | .fault .. => none

/-- A page on another module that lies in no memory: an access raises PERM (03 R68). -/
def Leaf.unmapped (l : Leaf) : Bool := l.home == 2 && !isHbm (l.pfn * 65536) && !isLpddr (l.pfn * 65536)

/-- What forbids an access to a page whatever its permissions (08 R217, R219; 03 R68, R69): PERM. -/
def Leaf.forbids (l : Leaf) (acc : Access) (job : BitVec 12) : Bool :=
  (l.bar && (acc == .write || acc == .atomic)) || (l.mir && acc == .atomic) || (l.home == 3 && (job != 0 || acc == .atomic)) || l.unmapped

/-- A scalar access of `n` bytes at an aligned address (08 R195; 14 R326, R328). -/
def State.resolve (s : State) (acc : Access) (n : Nat) (ea : Word) : Resolve :=
  let c := s.foc.ctx
  let x := s.fctx
  match decodeEa (kindOf c.core) ea n with
  | .bad => .stop (.trap cPERM ea)
  | .buf b off =>
    let e := s.entryAt c b off
    if !entV e || !entAv e || acc == .atomic || (acc == .write && (b == 0 || inInbox b off)) then .stop (.trap cPERM ea)
    else .at (.buf b off) s
  | .win k off =>
    if acc == .atomic then .stop (.trap cPERM ea)
    else
      match (x.window k).peer off n with
      | none => .stop (.trap cPERM ea)
      | some a => .at (.win ((x.window k).dest k) a (x.window k).ord) s
  | .glob va =>
    match s.translate c (srcCode s.foc.st) acc va with
    | .wait s' => .stop (.wait 0x03 s')
    | .fault kind level =>
      match (if kind = 2 then s.leafAt va else none) with
      | some l =>
        if l.home = 3 && n != 8 then .stop (.trap cALIGN ea)
        else if l.mir && !x.hasFeature 5 then .stop (.trap cMASKED 5)
        else if l.forbids acc x.job || acc == .atomic then .stop (.trap cPERM ea) else .stop (s.pageFaults acc va kind level)
      | none => .stop (s.pageFaults acc va kind level)
    | .leaf l s' =>
      if l.home = 3 && n != 8 then .stop (.trap cALIGN ea)
      else if l.mir && !x.hasFeature 5 then .stop (.trap cMASKED 5)
      else if l.forbids acc x.job then .stop (.trap cPERM ea)
      else if l.home = 3 then .at (.regs (l.pa va - 0xF000000000000)) s'
      else .at (.mem l (l.homeMod (modOf c.core)) (l.pa va)) s'

/-- The bytes of a loaded value, extended (14 R325). -/
def extendTo (n : Nat) (signed : Bool) (v : Nat) : Word := if signed then sextW (8 * n) v else BitVec.ofNat 64 (v % 2 ^ (8 * n))

/-! ## What an access waits for (09 R241, R242) -/

/-- The kind of an access: that of its buffer page, window or page (08 R197, R208; 09 R242). -/
def State.ordAt (s : State) (c : CtxId) : Place → Nat
  | .buf b off => entOrd (s.entryAt c b off)
  | .win _ _ ord => ord
  | .mem l _ _ => l.ord
  | .regs _ => 0

/-- The station that an access to a place goes to; none where it is performed here, or goes to two homes. -/
def Place.station (mod : Nat) : Place → Option (Nat × Nat)
  | .win d _ _ => some d.station
  | .mem l m pa => if l.mir || m == mod then none else some (m, homeStation pa)
  | _ => none

/-- A place of a core by the bytes that it names: a window that names the core itself reaches its X (08 R209). -/
def Place.bytesOf (core : Nat) : Place → Place
  | .win d peer ord => if d.isOwn core then .buf 1 peer else .win d peer ord
  | p => p

/-- Whether `n` bytes of one place and `m` of another have one in common. -/
def Place.meets (core : Nat) (p : Place) (n : Nat) (q : Place) (m : Nat) : Bool :=
  let both (a b : Nat) : Bool := decide (a < b + m) && decide (b < a + n)
  match p.bytesOf core, q.bytesOf core with
  | .buf b off, .buf b' off' => b == b' && both off off'
  | .win d a _, .win d' a' _ => d.sameHome d' && both a a'
  | .mem _ m pa, .mem _ m' pa' => m == m' && both pa pa'
  | _, _ => false

/-- Whether an access of A meets bytes of a vector word before it whose turn is still to come: of a store or an atomic, and for a store of a load
too (09 R241; 15 R367). -/
def CoreSt.apMeets (k : CoreSt) (i : StreamId) (store : Bool) (p : Place) (n : Nat) : Bool :=
  i.st == .a && k.ap.any (fun w => w.ctx == i.ctx && (store || (match w.kind with | .load _ => false | _ => true)) &&
    w.units.any (fun u => u.spots.any (fun x => p.meets i.ctx.core n x.place x.p.len)))

/-- Whether bytes of X wait for accesses of the stream through a window that names its own core (08 R209; 09 R241). -/
def CoreSt.ownMeets (k : CoreSt) (i : StreamId) (store : Bool) : Place → Nat → Bool
  | .buf 1 off, n => k.ownWrites i off n || (store && k.ownReads i off n)
  | _, _ => false

/-- Whether an access of a stream waits for earlier ones of the stream: to the same bytes, or both of ORD SO (09 R241, R242). -/
def State.placeHeld (s : State) (i : StreamId) (store : Bool) (p : Place) (n : Nat) : Bool :=
  let k := s.core i.ctx.core
  (s.ordAt i.ctx p == 0 && s.soBlocked i (p.station (modOf i.ctx.core))) || k.apMeets i store p n || k.ownMeets i store p n

/-- A remote read for a register. -/
def State.loadRemote (s : State) (rd n : Nat) (signed acq : Bool) (dest : Dest) (addr : Nat) (mir so : Bool := false) : Res :=
  let i := s.foc
  let (id, s) := s.awaited rd
  let (g, s) := s.newGroup i.ctx i.st acq (.reg i id n signed) [] so
  .done (s.readRemote i.ctx g 0 dest addr n mir)

/-- A load that reads a buffer or a combining entry in the next clk and lands at the end of clk t + 3 (08 R215; 16 R375). -/
def State.loadNear (s : State) (rd n : Nat) (signed : Bool) (src : NearSrc) : State :=
  (s.interlocked rd (s.clk + 3) 0).modFcore (fun k => { k with near := k.near ++ [⟨s.foc, s.fresh, src, n, signed⟩] })

/-- The bytes that a near load reads. -/
def CoreSt.nearBytes (k : CoreSt) (l : NearLoad) : List Byte :=
  match l.src with
  | .buf b off => Memory.readN (k.buf b) off l.n
  | .entry e a => ((k.comb.find? (fun c => c.id == e)).bind (fun c => c.bytesAt a l.n)).getD []

/-- Whether a near load reads poisoned lines (01 R30). -/
def CoreSt.nearPoison (k : CoreSt) (l : NearLoad) : Option Nat :=
  match l.src with
  | .buf b off => if k.poisoned b off l.n then some off else none
  | .entry _ _ => none

/-- A near load reads: its result takes the bytes as they stand at the start of the clk (08 R193), and poisoned ones raise POISON. -/
def State.nearRead (s : State) (core : Nat) (l : NearLoad) : State :=
  let k := s.core core
  let v := extendTo l.n l.signed (ofBytesLE (k.nearBytes l))
  let s := s.modStrm l.strm (fun y => { y with pend := y.pend.map (fun p => if p.id = l.id then { p with val := .word v } else p) })
  match k.nearPoison l with
  | some off => s.raiseAsync l.strm.ctx cPOISON (BitVec.ofNat 64 off)
  | none => s

/-- The near loads of a core read. -/
def State.nearDone (s : State) (core : Nat) : State :=
  (s.core core).near.foldl (fun t l => t.nearRead core l) (s.modCore core (fun k => { k with near := [] }))

/-- The near loads of the cores that are not frozen read, as a clk begins (07 R185). -/
def State.nearTick (s : State) : State :=
  (s.cores.filter (fun (e : Nat × CoreSt) => !e.2.near.isEmpty && !s.frozen e.1)).foldl (fun t e => t.nearDone e.1) s

/-- The combining entry that a load is served from (08 R215). -/
def CoreSt.holder (k : CoreSt) (dest : Dest) (addr n : Nat) : Nat :=
  ((k.comb.find? (fun e => (e.forward dest addr n).isSome)).map CombEntry.id).getD 0

/-- The effect of a load that waits for nothing (14 R326). -/
def loadAt (n : Nat) (signed acq : Bool) (rd : Nat) (p : Place) (s : State) : Res :=
  let c := s.foc.ctx
  match p with
  | .buf b off => .done (s.loadNear rd n signed (.buf b off))
  | .win dest peer ord =>
    (match s.forwardCase c.core dest peer n with
    | .taken _ => .done (s.loadNear rd n signed (.entry ((s.core c.core).holder dest peer n) peer))
    | .wait => .wait 0x03 s
    | .go => s.loadRemote rd n signed acq dest peer false (ord == 0))
  | .regs off =>
    let (d, s) := s.freeTime
    .done (s.interlocked rd (s.clk + d) (s.regRead (modOf c.core) off))
  | .mem l mod pa =>
    match (if l.mir then s.mirrorSource c.core mod else some mod) with
    | none => .wait 0x03 s
    | some m =>
      let dest : Dest := .global m (homeStation pa)
      match s.forwardCase c.core dest pa n with
      | .taken _ => .done (s.loadNear rd n signed (.entry ((s.core c.core).holder dest pa n) pa))
      | .wait => .wait 0x03 s
      | .go =>
        if s.byRing c.core l.mir m pa then s.loadRemote rd n signed acq dest pa l.mir (l.ord == 0)
        else
          let (d, s) := s.freeTime
          .done (s.interlocked rd (s.clk + d) (extendTo n signed (Memory.readLE s.mem (memKey m pa) n)))

/-- The effect of a load (14 R326). -/
def loadBody (n : Nat) (signed acq : Bool) (ea : Word) (rd : Nat) (s : State) : Res :=
  if ea.toNat % n ≠ 0 then .trap cALIGN ea
  else if s.acquiring s.foc then .wait 0x03 s
  else
    match s.resolve .read n ea with
    | .stop r => r
    | .at p s => if s.placeHeld s.foc false p n then .wait 0x03 s else loadAt n signed acq rd p s

/-- One line stored at a home (14 R326; 01 R36): none while the store waits. -/
def State.storeLine (s : State) (i : StreamId) (names : List Nat) (l : Leaf) (mod : Nat) (line : CombLine) : Option State :=
  let c := i.ctx
  let here := modOf c.core
  let dest (m : Nat) : Dest := .global m (homeStation line.addr)
  if l.mir then
    let (_, lost, m) := s.mirror here mod
    if 64 ≤ (s.core c.core).mirrors.length + ((s.core c.core).comb.filter (fun e => e.mir == 2)).length then none
    else
      match (if lost then some s else s.placeLine i names (dest mod) l.ord 1 line) with
      | none => none
      | some s => s.placeLine i names (dest m) l.ord 2 line
  else if mod = here then some (line.runs.foldl (fun t r => t.writeMem (s.ctx c).plat mod (line.addr + r.1) r.2) s)
  else s.placeLine i names (dest mod) l.ord 0 line

/-- Bytes of one line stored at a home. -/
def State.storeHome (s : State) (i : StreamId) (l : Leaf) (mod pa : Nat) (bs : List Byte) : Option State :=
  if !l.mir && mod == modOf i.ctx.core then some (s.writeMem (s.ctx i.ctx).plat mod pa bs)
  else s.storeLine i [] l mod (lineOf pa bs)

/-- The effect of a store that waits for nothing but room (14 R326). -/
def storeAt (ea v : Word) (bs : List Byte) (p : Place) (s : State) : Res :=
  let c := s.foc.ctx
  match p with
  | .buf b off => .done (s.modCore c.core (fun k => k.writeBuf b off bs))
  | .win dest peer ord =>
    (match s.placeLine s.foc [] dest ord 0 (lineOf peer bs) with
    | none => .wait 0x03 s
    | some s => .done s)
  | .regs off => .done (s.regWrite c off v)
  | .mem l mod pa =>
    if l.mir && !(s.mirror (modOf c.core) mod).1 then .trap cPERM ea
    else
      match s.storeHome s.foc l mod pa bs with
      | none => .wait 0x03 s
      | some s => .done s

/-- The effect of a store; with `rel`, the scope of a store-release (14 R326, R327). -/
def storeBody (n : Nat) (rel : Option Nat) (ea : Word) (v : Word) (s : State) : Res :=
  if ea.toNat % n ≠ 0 then .trap cALIGN ea
  else if s.acquiring s.foc then .wait 0x03 s
  else
    match s.resolve .write n ea with
    | .stop r => r
    | .at p s =>
      let s := if rel.isSome then s.flush s.foc.ctx else s
      if (match rel with | some sc => !s.performed s.foc sc false | none => false) || s.placeHeld s.foc true p n then .wait 0x03 s
      else storeAt ea v (bytesLE n v.toNat) p s

/-- An effective address base + sext(imm12) (14 R325). -/
def State.ea (s : State) (b : BitVec 5) (i : BitVec 12) : Word := s.rd b + i.signExtend 64

/-- A load word (14 R325). -/
def loadWord (n : Nat) (signed acq : Bool) (i : BitVec 12) (b r : BitVec 5) (s : State) : Host.Outcome State Fault Refusal :=
  word32 { srcs := [b.toNat], outs := [r.toNat] } (fun s => loadBody n signed acq (s.ea b i) r.toNat s) s

/-- A store word (14 R325). -/
def storeWord (n : Nat) (rel : Option Nat) (i : BitVec 12) (b r : BitVec 5) (s : State) : Host.Outcome State Fault Refusal :=
  word32 { srcs := [b.toNat, r.toNat] } (fun s => storeBody n rel (s.ea b i) (s.rd r) s) s

/-- The atomic operations of R328, with their codes in a request (log 13). -/
inductive Amo where
  | add | and | or | xor | min | max | minu | maxu | swap | cas
deriving DecidableEq, Repr

def Amo.code : Amo → Nat
  | .add => 0 | .and => 1 | .or => 2 | .xor => 3 | .min => 4 | .max => 5 | .minu => 6 | .maxu => 7 | .swap => 8 | .cas => 9

def Amo.ofCode (n : Nat) : Amo :=
  match n with
  | 0 => .add | 1 => .and | 2 => .or | 3 => .xor | 4 => .min | 5 => .max | 6 => .minu | 7 => .maxu | 8 => .swap | _ => .cas

/-- The new value (14 R328). -/
def Amo.apply (o : Amo) (old b expected : Word) : Word :=
  match o with
  | .add => old + b
  | .and => old &&& b
  | .or => old ||| b
  | .xor => old ^^^ b
  | .min => if b.slt old then b else old
  | .max => if old.slt b then b else old
  | .minu => if b.ult old then b else old
  | .maxu => if old.ult b then b else old
  | .swap => b
  | .cas => if old = expected then b else old

/-- The effect of AMO and CAS (14 R328). -/
def amoBody (o : Amo) (ea b expected : Word) (rd : Nat) (s : State) : Res :=
  let i := s.foc
  let c := i.ctx
  if ea.toNat % 8 ≠ 0 then .trap cALIGN ea
  else if s.acquiring i then .wait 0x03 s
  else
    match s.resolve .atomic 8 ea with
    | .stop r => r
    | .at (.mem l mod pa) s =>
      let dest : Dest := .global mod (homeStation pa)
      if (match s.forwardCase c.core dest pa 8 with | .go => false | _ => true) || s.placeHeld i true (.mem l mod pa) 8 then .wait 0x03 s
      else if mod = modOf c.core then
        let old := BitVec.ofNat 64 (Memory.readLE s.mem (memKey mod pa) 8)
        let (d, s) := s.freeTime
        .done ((s.writeMem (s.ctx c).plat mod pa (bytesLE 8 (o.apply old b expected).toNat)).interlocked rd (s.clk + d) old)
      else
        let (id, s) := s.awaited rd
        let (g, s) := s.newGroup c i.st false (.reg i id 8 false) [] (l.ord == 0)
        .done (s.request c g 0 8 4 mod (homeStation pa) 0 o.code
          (bytesLE 8 pa ++ bytesLE 8 b.toNat ++ bytesLE 8 expected.toNat))
    | .at _ _ => .trap cPERM ea

def amoWord (o : Amo) (g : Guard) (b a d : BitVec 5) (s : State) : Host.Outcome State Fault Refusal :=
  word32 { guard := g, srcs := [a.toNat, b.toNat] ++ (if o = .cas then [d.toNat] else []), outs := [d.toNat] }
    (fun s => amoBody o (s.rd a) (s.rd b) (s.rd d) d.toNat s) s

/-! ## Spill memory (14 R329) -/

def Ctx.spill (x : Ctx) : Stream → Memory
  | .c => x.spillC
  | .a => x.spillA
  | .v => x.spillV

def Ctx.putSpill (x : Ctx) (st : Stream) (m : Memory) : Ctx :=
  match st with
  | .c => { x with spillC := m }
  | .a => { x with spillA := m }
  | .v => { x with spillV := m }

def ldlWord (n : Nat) (signed : Bool) (i : BitVec 12) (r : BitVec 5) (s : State) : Host.Outcome State Fault Refusal :=
  word32 { outs := [r.toNat] }
    (fun s =>
      let off := i.toNat * n
      if 8192 < off + n then .trap cPERM (BitVec.ofNat 64 off)
      else .done (s.interlocked r.toNat (s.clk + 2) (extendTo n signed (Memory.readLE (s.fctx.spill s.foc.st) off n)))) s

def stlWord (n : Nat) (i : BitVec 12) (r : BitVec 5) (s : State) : Host.Outcome State Fault Refusal :=
  word32 { srcs := [r.toNat] }
    (fun s =>
      let off := i.toNat * n
      if 8192 < off + n then .trap cPERM (BitVec.ofNat 64 off)
      else .done (s.modF (fun x => x.putSpill s.foc.st (Memory.writeN (x.spill s.foc.st) off (bytesLE n (s.rd r).toNat))))) s

/-! ## The words -/

/-- LD of 1 bytes (14 R325). -/
def execLdB (i : BitVec 12) (b r : BitVec 5) (s : State) : Host.Outcome State Fault Refusal :=
  loadWord 1 false false i b r s

/-- LD of 2 bytes (14 R325). -/
def execLdH (i : BitVec 12) (b r : BitVec 5) (s : State) : Host.Outcome State Fault Refusal :=
  loadWord 2 false false i b r s

/-- LD of 4 bytes (14 R325). -/
def execLdW (i : BitVec 12) (b r : BitVec 5) (s : State) : Host.Outcome State Fault Refusal :=
  loadWord 4 false false i b r s

/-- LD of 8 bytes (14 R325). -/
def execLd (i : BitVec 12) (b r : BitVec 5) (s : State) : Host.Outcome State Fault Refusal :=
  loadWord 8 false false i b r s

/-- LD of 1 bytes, sign-extended (14 R325). -/
def execLdSb (i : BitVec 12) (b r : BitVec 5) (s : State) : Host.Outcome State Fault Refusal :=
  loadWord 1 true false i b r s

/-- LD of 2 bytes, sign-extended (14 R325). -/
def execLdSh (i : BitVec 12) (b r : BitVec 5) (s : State) : Host.Outcome State Fault Refusal :=
  loadWord 2 true false i b r s

/-- LD of 4 bytes, sign-extended (14 R325). -/
def execLdSw (i : BitVec 12) (b r : BitVec 5) (s : State) : Host.Outcome State Fault Refusal :=
  loadWord 4 true false i b r s

/-- LD.acq (14 R327): the order it makes is the same at every scope here (log 15). -/
def execLdAcq (_sc : BitVec 3) (i : BitVec 12) (b r : BitVec 5) (s : State) : Host.Outcome State Fault Refusal :=
  loadWord 8 false true i b r s

/-- ST of 1 bytes (14 R325). -/
def execStB (i : BitVec 12) (b r : BitVec 5) (s : State) : Host.Outcome State Fault Refusal :=
  storeWord 1 none i b r s

/-- ST of 2 bytes (14 R325). -/
def execStH (i : BitVec 12) (b r : BitVec 5) (s : State) : Host.Outcome State Fault Refusal :=
  storeWord 2 none i b r s

/-- ST of 4 bytes (14 R325). -/
def execStW (i : BitVec 12) (b r : BitVec 5) (s : State) : Host.Outcome State Fault Refusal :=
  storeWord 4 none i b r s

/-- ST of 8 bytes (14 R325). -/
def execSt (i : BitVec 12) (b r : BitVec 5) (s : State) : Host.Outcome State Fault Refusal :=
  storeWord 8 none i b r s

/-- ST.rel (14 R327). -/
def execStRel (sc : BitVec 3) (i : BitVec 12) (b r : BitVec 5) (s : State) : Host.Outcome State Fault Refusal :=
  storeWord 8 (some sc.toNat) i b r s

/-- AMO.add (14 R328). -/
def execAmoAdd (g : Guard) (b a d : BitVec 5) (s : State) : Host.Outcome State Fault Refusal :=
  amoWord .add g b a d s

/-- AMO.and (14 R328). -/
def execAmoAnd (g : Guard) (b a d : BitVec 5) (s : State) : Host.Outcome State Fault Refusal :=
  amoWord .and g b a d s

/-- AMO.or (14 R328). -/
def execAmoOr (g : Guard) (b a d : BitVec 5) (s : State) : Host.Outcome State Fault Refusal :=
  amoWord .or g b a d s

/-- AMO.xor (14 R328). -/
def execAmoXor (g : Guard) (b a d : BitVec 5) (s : State) : Host.Outcome State Fault Refusal :=
  amoWord .xor g b a d s

/-- AMO.min (14 R328). -/
def execAmoMin (g : Guard) (b a d : BitVec 5) (s : State) : Host.Outcome State Fault Refusal :=
  amoWord .min g b a d s

/-- AMO.max (14 R328). -/
def execAmoMax (g : Guard) (b a d : BitVec 5) (s : State) : Host.Outcome State Fault Refusal :=
  amoWord .max g b a d s

/-- AMO.minu (14 R328). -/
def execAmoMinu (g : Guard) (b a d : BitVec 5) (s : State) : Host.Outcome State Fault Refusal :=
  amoWord .minu g b a d s

/-- AMO.maxu (14 R328). -/
def execAmoMaxu (g : Guard) (b a d : BitVec 5) (s : State) : Host.Outcome State Fault Refusal :=
  amoWord .maxu g b a d s

/-- AMO.swap (14 R328). -/
def execAmoSwap (g : Guard) (b a d : BitVec 5) (s : State) : Host.Outcome State Fault Refusal :=
  amoWord .swap g b a d s

/-- CAS (14 R328). -/
def execCas (g : Guard) (b a d : BitVec 5) (s : State) : Host.Outcome State Fault Refusal :=
  amoWord .cas g b a d s

/-- LDL of 1 bytes (14 R329). -/
def execLdlB (i : BitVec 12) (r : BitVec 5) (s : State) : Host.Outcome State Fault Refusal :=
  ldlWord 1 false i r s

/-- LDL of 2 bytes (14 R329). -/
def execLdlH (i : BitVec 12) (r : BitVec 5) (s : State) : Host.Outcome State Fault Refusal :=
  ldlWord 2 false i r s

/-- LDL of 4 bytes (14 R329). -/
def execLdlW (i : BitVec 12) (r : BitVec 5) (s : State) : Host.Outcome State Fault Refusal :=
  ldlWord 4 false i r s

/-- LDL of 8 bytes (14 R329). -/
def execLdl (i : BitVec 12) (r : BitVec 5) (s : State) : Host.Outcome State Fault Refusal :=
  ldlWord 8 false i r s

/-- LDL of 1 bytes, sign-extended (14 R329). -/
def execLdlSb (i : BitVec 12) (r : BitVec 5) (s : State) : Host.Outcome State Fault Refusal :=
  ldlWord 1 true i r s

/-- LDL of 2 bytes, sign-extended (14 R329). -/
def execLdlSh (i : BitVec 12) (r : BitVec 5) (s : State) : Host.Outcome State Fault Refusal :=
  ldlWord 2 true i r s

/-- LDL of 4 bytes, sign-extended (14 R329). -/
def execLdlSw (i : BitVec 12) (r : BitVec 5) (s : State) : Host.Outcome State Fault Refusal :=
  ldlWord 4 true i r s

/-- STL of 1 bytes (14 R329). -/
def execStlB (i : BitVec 12) (r : BitVec 5) (s : State) : Host.Outcome State Fault Refusal :=
  stlWord 1 i r s

/-- STL of 2 bytes (14 R329). -/
def execStlH (i : BitVec 12) (r : BitVec 5) (s : State) : Host.Outcome State Fault Refusal :=
  stlWord 2 i r s

/-- STL of 4 bytes (14 R329). -/
def execStlW (i : BitVec 12) (r : BitVec 5) (s : State) : Host.Outcome State Fault Refusal :=
  stlWord 4 i r s

/-- STL of 8 bytes (14 R329). -/
def execStl (i : BitVec 12) (r : BitVec 5) (s : State) : Host.Outcome State Fault Refusal :=
  stlWord 8 i r s

/-- FENCE (14 R330): it sends the context's open combining entries and issues; the stream's later accesses wait. -/
def execFence (u : Bool) (sc : BitVec 3) (s : State) : Host.Outcome State Fault Refusal :=
  word32 {} (fun s =>
    .done ((s.flush s.foc.ctx).fenceOf s.foc sc.toNat u)) s

end Sys2Proof.Machine
end

