-- ==== Sys2Proof/Machine/Flags.lean ====
section
/-! DEFINITION. The conditions of compares and the fields of the status registers (14 R322; 18 R387; 10 R250; 11 R274). -/

namespace Sys2Proof.Machine

/-- The conditions of CMP and CMPI (14 R322). -/
inductive Cond where
  | eq | ne | lt | ge | ltu | geu
deriving DecidableEq, Repr

/-- A condition on two 64-bit patterns. -/
def Cond.holds (c : Cond) (a b : Word) : Bool :=
  match c with
  | .eq => a == b
  | .ne => a != b
  | .lt => a.slt b
  | .ge => !(a.slt b)
  | .ltu => a.ult b
  | .geu => !(a.ult b)

/-- The conditions of VCMP (18 R387). -/
inductive VCond where
  | eq | ne | lt | le | gt | ge | ord | uno | ieq | ilt | iltu
deriving DecidableEq, Repr

/-- Whether a condition is of floats. -/
def VCond.float : VCond → Bool
  | .ieq => false
  | .ilt => false
  | .iltu => false
  | _ => true

/-- A condition on two elements, and its flags (18 R387). -/
def VCond.holds (c : VCond) (a b : Elem) : Bool × Flags :=
  let va := valOf a; let vb := valOf b
  let nan := va.isNaN || vb.isNaN
  let sig := sigFlags [va, vb]
  let any := if nan then flNV else 0
  match c with
  | .eq => (!nan && decide (va.compare vb = 0), sig)
  | .ne => (nan || decide (va.compare vb ≠ 0), sig)
  | .lt => (!nan && decide (va.compare vb < 0), any)
  | .le => (!nan && decide (va.compare vb ≤ 0), any)
  | .gt => (!nan && decide (0 < va.compare vb), any)
  | .ge => (!nan && decide (0 ≤ va.compare vb), any)
  | .ord => (!nan, sig)
  | .uno => (nan, sig)
  | .ieq => (a == b, 0)
  | .ilt => (a.slt b, 0)
  | .iltu => (a.ult b, 0)

/-- VSTAT.RM (10 R250). -/
def Ctx.rm (x : Ctx) : RM := rmOf (wfield x.vf.vstat 0 2)

/-- DSTAT.RM (11 R274). -/
def Ctx.drm (x : Ctx) : RM := rmOf (wfield x.vf.dstat 0 2)

/-- DSTAT.NEXTL after a fresh stamp, which is the stamp (11 R274). -/
def freshStamp (dstat : Word) : BitVec 16 := BitVec.ofNat 16 (wfield dstat 32 16 % 65535 + 1)

/-- A fresh stamp taken (11 R274). -/
def Ctx.takeStamp (x : Ctx) : BitVec 16 × Ctx :=
  let l := freshStamp x.vf.dstat
  (l, { x with vf := { x.vf with dstat := withField x.vf.dstat 32 16 l.toNat } })

/-- A write of a W1C flag register: flags written 1 are cleared, RM takes the value (00 R4; 10 R250). -/
def writeVstat (old v : Word) : Word :=
  let cleared := old &&& ~~~(v &&& 0x3F00)
  withField cleared 0 2 (wfield v 0 2)

/-- A write of DSTAT by MTS (11 R274): flags W1C; RM, DDE and NEXTL RW. -/
def writeDstat (old v : Word) : Word :=
  let cleared := old &&& ~~~(v &&& 0x3D00)
  withField (withField (withField cleared 0 2 (wfield v 0 2)) 16 1 (wfield v 16 1)) 32 16 (wfield v 32 16)

end Sys2Proof.Machine
end

