-- ==== Sys2Proof/Machine/Scalar.lean ====
section
/-! DEFINITION. The scalar words of the C and A streams: arithmetic, bit fields, compares, predicate logic, divide, the scalar
queues, and the 16-bit words (13 R307; 14 R318 to R324, R333; 15 R356; mask logic in V, 18 R388). -/

namespace Sys2Proof.Machine

/-! ## Operations on 64-bit patterns (14 R318, R321, R333) -/

def opShl (a b : Word) : Word := a <<< (b.toNat % 64)
def opShr (a b : Word) : Word := a >>> (b.toNat % 64)
def opSar (a b : Word) : Word := a.sshiftRight (b.toNat % 64)
def opRol (a b : Word) : Word := a.rotateLeft (b.toNat % 64)
def opMin (a b : Word) : Word := if b.slt a then b else a
def opMax (a b : Word) : Word := if a.slt b then b else a
def opMinu (a b : Word) : Word := if b.ult a then b else a
def opMaxu (a b : Word) : Word := if a.ult b then b else a
def opMulhu (a b : Word) : Word := BitVec.ofNat 64 (a.toNat * b.toNat / 2 ^ 64)

/-- The width after the cut at bit 63 (14 R321). -/
def fieldWidth (o wd : Nat) : Nat := Nat.min wd (64 - o)

/-- The width of the W3 forms: 65 to 127 read as 64 (14 R321). -/
def rbWidth (b : Word) : Nat := Nat.min (wfield b 0 7) 64
def rbOffset (b : Word) : Nat := wfield b 8 6

/-- The width of the immediate forms: 0 means 64 (14 R321). -/
def immWidth (w : BitVec 6) : Nat := if w = 0 then 64 else w.toNat

def opBext (a : Word) (o wd : Nat) : Word := BitVec.ofNat 64 (wfield a o (fieldWidth o wd))
def opBexts (a : Word) (o wd : Nat) : Word := sextW (fieldWidth o wd) (wfield a o (fieldWidth o wd))
def opBins (d a : Word) (o wd : Nat) : Word := withField d o (fieldWidth o wd) a.toNat

/-- Leading zeros of the low `n` bits. -/
def leadZeros (a : Word) : Nat → Nat
  | 0 => 0
  | n + 1 => if a.getLsbD n then 0 else leadZeros a n + 1

/-- Trailing zeros from bit `i` on, at most `n`. -/
def trailZeros (a : Word) : Nat → Nat → Nat
  | 0, _ => 0
  | n + 1, i => if a.getLsbD i then 0 else trailZeros a n (i + 1) + 1

/-- One bits among the low `n`. -/
def oneBits (a : Word) : Nat → Nat
  | 0 => 0
  | n + 1 => bit (a.getLsbD n) + oneBits a n

/-- Bits of a magnitude. -/
def bitLen (n : Nat) : Nat := if n = 0 then 0 else Nat.log2 n + 1

/-- The four divides: the result, and the magnitude of the quotient (14 R333). -/
def divS (a b : Word) : Word × Nat :=
  if b = 0 then (BitVec.allOnes 64, 0) else let q := a.toInt.tdiv b.toInt; (BitVec.ofInt 64 q, q.natAbs)
def divU (a b : Word) : Word × Nat :=
  if b = 0 then (BitVec.allOnes 64, 0) else let q := a.toNat / b.toNat; (BitVec.ofNat 64 q, q)
def remS (a b : Word) : Word × Nat :=
  if b = 0 then (a, 0)
  else let q := a.toInt.tdiv b.toInt; (BitVec.ofInt 64 (a.toInt - b.toInt * q), q.natAbs)
def remU (a b : Word) : Word × Nat :=
  if b = 0 then (a, 0) else (BitVec.ofNat 64 (a.toNat % b.toNat), a.toNat / b.toNat)

/-- The clk of a divide: 6 + ceil(k / 2) for a quotient of k bits (14 R333). -/
def divClk (q : Nat) : Nat := 6 + (bitLen q + 1) / 2

/-! ## Shapes of words -/

/-- rd := op(ra, rb) under a guard, W3. -/
def alu3 (lat : Nat) (op : Word → Word → Word) (g : Guard) (b a d : BitVec 5) (s : State) : Host.Outcome State Fault Refusal :=
  word32 { guard := g, srcs := [a.toNat, b.toNat], dsts := [(d.toNat, lat)] }
    (fun s => .done (s.resWord d.toNat lat (op (s.rd a) (s.rd b)))) s

/-- rd := op(ra, imm), WI; the immediate is given as the 64-bit operand. -/
def aluI (lat : Nat) (op : Word → Word → Word) (imm : Word) (a d : BitVec 5) (s : State) : Host.Outcome State Fault Refusal :=
  word32 { srcs := [a.toNat], dsts := [(d.toNat, lat)] } (fun s => .done (s.resWord d.toNat lat (op (s.rd a) imm))) s

/-- rd := op(ra) under a guard. -/
def alu1 (op : Word → Word) (g : Guard) (a d : BitVec 5) (s : State) : Host.Outcome State Fault Refusal :=
  word32 { guard := g, srcs := [a.toNat], dsts := [(d.toNat, 1)] } (fun s => .done (s.resWord d.toNat 1 (op (s.rd a)))) s

/-- pd := cond(ra, rb) xor negate (14 R322). -/
def cmp3 (c : Cond) (n : Bool) (b a : BitVec 5) (p : BitVec 6) (s : State) : Host.Outcome State Fault Refusal :=
  word32 { srcs := [a.toNat, b.toNat], dsts := [(codeP p.toNat, 1)] }
    (fun s => .done (s.resPred p.toNat (c.holds (s.rd a) (s.rd b) != n))) s

/-- pd := cond(ra, sext(imm11)) xor negate (14 R322). -/
def cmpI (c : Cond) (n : Bool) (i : BitVec 11) (a : BitVec 5) (p : BitVec 6) (s : State) : Host.Outcome State Fault Refusal :=
  word32 { srcs := [a.toNat], dsts := [(codeP p.toNat, 1)] }
    (fun s => .done (s.resPred p.toNat (c.holds (s.rd a) (i.signExtend 64) != n))) s

/-- A mask of V by a 5-bit source field. -/
def State.rdM (s : State) (p : BitVec 5) : Mask := s.fctx.vmask p.toNat

/-- Predicate logic: one predicate in C and A with latency 1, 1,024 in V with latency 2 (14 R323, 18 R388). -/
def plogic (f : Bool → Bool → Bool) (fm : Mask → Mask → Mask) (n : Bool) (srcs : List Nat) (b a : BitVec 5) (p : BitVec 6)
    (s : State) : Host.Outcome State Fault Refusal :=
  if s.foc.st = .v then
    word32 { srcs := srcs, dsts := [(codeP p.toNat, 2)] }
      (fun s =>
        let m := fm (s.rdM a) (s.rdM b)
        .done (s.result (codeP p.toNat) 2 (.mask (if n then ~~~m else m)) maskAll 0 false)) s
  else
    word32 { srcs := srcs, dsts := [(codeP p.toNat, 1)] }
      (fun s => .done (s.resPred p.toNat (f (s.rdP a) (s.rdP b) != n))) s

/-- A divide (14 R333): it waits for the stream's previous divide. -/
def divWord (op : Word → Word → Word × Nat) (g : Guard) (b a d : BitVec 5) (s : State) : Host.Outcome State Fault Refusal :=
  word32 { guard := g, srcs := [a.toNat, b.toNat], outs := [d.toNat] }
    (fun s =>
      if s.fstrm.pend.any (fun p => s.fstrm.divId == some p.id) then .wait 0x03 s
      else
        let r := op (s.rd a) (s.rd b)
        let id := s.fresh
        let s1 := s.interlocked d.toNat (s.clk + divClk r.2 - 1) r.1
        .done (s1.modFs (fun y => { y with divId := some id }))) s

/-- ADD (14 R318). -/
def execAdd (g : Guard) (b a d : BitVec 5) (s : State) : Host.Outcome State Fault Refusal :=
  alu3 1 (fun x y => x + y) g b a d s

/-- SUB (14 R318). -/
def execSub (g : Guard) (b a d : BitVec 5) (s : State) : Host.Outcome State Fault Refusal :=
  alu3 1 (fun x y => x - y) g b a d s

/-- AND (14 R318). -/
def execAnd (g : Guard) (b a d : BitVec 5) (s : State) : Host.Outcome State Fault Refusal :=
  alu3 1 (fun x y => x &&& y) g b a d s

/-- OR (14 R318). -/
def execOr (g : Guard) (b a d : BitVec 5) (s : State) : Host.Outcome State Fault Refusal :=
  alu3 1 (fun x y => x ||| y) g b a d s

/-- XOR (14 R318). -/
def execXor (g : Guard) (b a d : BitVec 5) (s : State) : Host.Outcome State Fault Refusal :=
  alu3 1 (fun x y => x ^^^ y) g b a d s

/-- ANDN (14 R318). -/
def execAndn (g : Guard) (b a d : BitVec 5) (s : State) : Host.Outcome State Fault Refusal :=
  alu3 1 (fun x y => x &&& ~~~y) g b a d s

/-- SHL (14 R318). -/
def execShl (g : Guard) (b a d : BitVec 5) (s : State) : Host.Outcome State Fault Refusal :=
  alu3 1 (opShl) g b a d s

/-- SHR (14 R318). -/
def execShr (g : Guard) (b a d : BitVec 5) (s : State) : Host.Outcome State Fault Refusal :=
  alu3 1 (opShr) g b a d s

/-- SAR (14 R318). -/
def execSar (g : Guard) (b a d : BitVec 5) (s : State) : Host.Outcome State Fault Refusal :=
  alu3 1 (opSar) g b a d s

/-- ROL (14 R318). -/
def execRol (g : Guard) (b a d : BitVec 5) (s : State) : Host.Outcome State Fault Refusal :=
  alu3 1 (opRol) g b a d s

/-- MIN (14 R318). -/
def execMin (g : Guard) (b a d : BitVec 5) (s : State) : Host.Outcome State Fault Refusal :=
  alu3 1 (opMin) g b a d s

/-- MAX (14 R318). -/
def execMax (g : Guard) (b a d : BitVec 5) (s : State) : Host.Outcome State Fault Refusal :=
  alu3 1 (opMax) g b a d s

/-- MINU (14 R318). -/
def execMinu (g : Guard) (b a d : BitVec 5) (s : State) : Host.Outcome State Fault Refusal :=
  alu3 1 (opMinu) g b a d s

/-- MAXU (14 R318). -/
def execMaxu (g : Guard) (b a d : BitVec 5) (s : State) : Host.Outcome State Fault Refusal :=
  alu3 1 (opMaxu) g b a d s

/-- MUL (14 R318). -/
def execMul (g : Guard) (b a d : BitVec 5) (s : State) : Host.Outcome State Fault Refusal :=
  alu3 3 (fun x y => x * y) g b a d s

/-- MULHU (14 R318). -/
def execMulhu (g : Guard) (b a d : BitVec 5) (s : State) : Host.Outcome State Fault Refusal :=
  alu3 3 (opMulhu) g b a d s

/-- ADDI (14 R319). -/
def execAddi (i : BitVec 12) (a d : BitVec 5) (s : State) : Host.Outcome State Fault Refusal :=
  aluI 1 (fun x y => x + y) (i.signExtend 64) a d s

/-- ANDI (14 R319). -/
def execAndi (i : BitVec 12) (a d : BitVec 5) (s : State) : Host.Outcome State Fault Refusal :=
  aluI 1 (fun x y => x &&& y) (i.signExtend 64) a d s

/-- ORI (14 R319). -/
def execOri (i : BitVec 12) (a d : BitVec 5) (s : State) : Host.Outcome State Fault Refusal :=
  aluI 1 (fun x y => x ||| y) (i.signExtend 64) a d s

/-- XORI (14 R319). -/
def execXori (i : BitVec 12) (a d : BitVec 5) (s : State) : Host.Outcome State Fault Refusal :=
  aluI 1 (fun x y => x ^^^ y) (i.signExtend 64) a d s

/-- MULI (14 R319). -/
def execMuli (i : BitVec 12) (a d : BitVec 5) (s : State) : Host.Outcome State Fault Refusal :=
  aluI 3 (fun x y => x * y) (i.signExtend 64) a d s

/-- SHLI (14 R319). -/
def execShli (i : BitVec 6) (a d : BitVec 5) (s : State) : Host.Outcome State Fault Refusal :=
  aluI 1 opShl (i.setWidth 64) a d s

/-- SHRI (14 R319). -/
def execShri (i : BitVec 6) (a d : BitVec 5) (s : State) : Host.Outcome State Fault Refusal :=
  aluI 1 opShr (i.setWidth 64) a d s

/-- SARI (14 R319). -/
def execSari (i : BitVec 6) (a d : BitVec 5) (s : State) : Host.Outcome State Fault Refusal :=
  aluI 1 opSar (i.setWidth 64) a d s

/-- LUI (14 R320). -/
def execLui (i : BitVec 20) (d : BitVec 5) (s : State) : Host.Outcome State Fault Refusal :=
  word32 { dsts := [(d.toNat, 1)] } (fun s => .done (s.resWord d.toNat 1 (i.signExtend 64 <<< 12))) s

/-- AUIB: from the halfword offset of the header of the block that holds the word (14 R320). -/
def execAuib (i : BitVec 20) (d : BitVec 5) (s : State) : Host.Outcome State Fault Refusal :=
  word32 { dsts := [(d.toNat, 1)] }
    (fun s => .done (s.resWord d.toNat 1 (BitVec.ofNat 64 s.fstrm.blk + i.signExtend 64 <<< 12))) s

/-- BEXT (14 R321). -/
def execBext (g : Guard) (b a d : BitVec 5) (s : State) : Host.Outcome State Fault Refusal :=
  alu3 1 (fun x y => opBext x (rbOffset y) (rbWidth y)) g b a d s

/-- BEXTS (14 R321). -/
def execBexts (g : Guard) (b a d : BitVec 5) (s : State) : Host.Outcome State Fault Refusal :=
  alu3 1 (fun x y => opBexts x (rbOffset y) (rbWidth y)) g b a d s

/-- BINS reads rd as well as writes it (14 R321). -/
def execBins (g : Guard) (b a d : BitVec 5) (s : State) : Host.Outcome State Fault Refusal :=
  word32 { guard := g, srcs := [a.toNat, b.toNat, d.toNat], dsts := [(d.toNat, 1)] }
    (fun s => .done (s.resWord d.toNat 1 (opBins (s.rd d) (s.rd a) (rbOffset (s.rd b)) (rbWidth (s.rd b))))) s

/-- CLZ (14 R321). -/
def execClz (g : Guard) (a d : BitVec 5) (s : State) : Host.Outcome State Fault Refusal :=
  alu1 (fun x => BitVec.ofNat 64 (leadZeros x 64)) g a d s

/-- CTZ (14 R321). -/
def execCtz (g : Guard) (a d : BitVec 5) (s : State) : Host.Outcome State Fault Refusal :=
  alu1 (fun x => BitVec.ofNat 64 (trailZeros x 64 0)) g a d s

/-- POPC (14 R321). -/
def execPopc (g : Guard) (a d : BitVec 5) (s : State) : Host.Outcome State Fault Refusal :=
  alu1 (fun x => BitVec.ofNat 64 (oneBits x 64)) g a d s

/-- BEXTI (14 R321). -/
def execBexti (w o : BitVec 6) (a d : BitVec 5) (s : State) : Host.Outcome State Fault Refusal :=
  aluI 1 (fun x _ => opBext x o.toNat (immWidth w)) 0 a d s

/-- BINSI reads rd as well as writes it (14 R321). -/
def execBinsi (w o : BitVec 6) (a d : BitVec 5) (s : State) : Host.Outcome State Fault Refusal :=
  word32 { srcs := [a.toNat, d.toNat], dsts := [(d.toNat, 1)] }
    (fun s => .done (s.resWord d.toNat 1 (opBins (s.rd d) (s.rd a) o.toNat (immWidth w)))) s

/-- CMP.eq (14 R322). -/
def execCmpEq (n : Bool) (b a : BitVec 5) (p : BitVec 6) (s : State) : Host.Outcome State Fault Refusal :=
  cmp3 .eq n b a p s

/-- CMPI.eq (14 R322). -/
def execCmpiEq (n : Bool) (i : BitVec 11) (a : BitVec 5) (p : BitVec 6) (s : State) : Host.Outcome State Fault Refusal :=
  cmpI .eq n i a p s

/-- CMP.ne (14 R322). -/
def execCmpNe (n : Bool) (b a : BitVec 5) (p : BitVec 6) (s : State) : Host.Outcome State Fault Refusal :=
  cmp3 .ne n b a p s

/-- CMPI.ne (14 R322). -/
def execCmpiNe (n : Bool) (i : BitVec 11) (a : BitVec 5) (p : BitVec 6) (s : State) : Host.Outcome State Fault Refusal :=
  cmpI .ne n i a p s

/-- CMP.lt (14 R322). -/
def execCmpLt (n : Bool) (b a : BitVec 5) (p : BitVec 6) (s : State) : Host.Outcome State Fault Refusal :=
  cmp3 .lt n b a p s

/-- CMPI.lt (14 R322). -/
def execCmpiLt (n : Bool) (i : BitVec 11) (a : BitVec 5) (p : BitVec 6) (s : State) : Host.Outcome State Fault Refusal :=
  cmpI .lt n i a p s

/-- CMP.ge (14 R322). -/
def execCmpGe (n : Bool) (b a : BitVec 5) (p : BitVec 6) (s : State) : Host.Outcome State Fault Refusal :=
  cmp3 .ge n b a p s

/-- CMPI.ge (14 R322). -/
def execCmpiGe (n : Bool) (i : BitVec 11) (a : BitVec 5) (p : BitVec 6) (s : State) : Host.Outcome State Fault Refusal :=
  cmpI .ge n i a p s

/-- CMP.ltu (14 R322). -/
def execCmpLtu (n : Bool) (b a : BitVec 5) (p : BitVec 6) (s : State) : Host.Outcome State Fault Refusal :=
  cmp3 .ltu n b a p s

/-- CMPI.ltu (14 R322). -/
def execCmpiLtu (n : Bool) (i : BitVec 11) (a : BitVec 5) (p : BitVec 6) (s : State) : Host.Outcome State Fault Refusal :=
  cmpI .ltu n i a p s

/-- CMP.geu (14 R322). -/
def execCmpGeu (n : Bool) (b a : BitVec 5) (p : BitVec 6) (s : State) : Host.Outcome State Fault Refusal :=
  cmp3 .geu n b a p s

/-- CMPI.geu (14 R322). -/
def execCmpiGeu (n : Bool) (i : BitVec 11) (a : BitVec 5) (p : BitVec 6) (s : State) : Host.Outcome State Fault Refusal :=
  cmpI .geu n i a p s

/-- PAND (14 R323, 18 R388). -/
def execPand (n : Bool) (b a : BitVec 5) (p : BitVec 6) (s : State) : Host.Outcome State Fault Refusal :=
  plogic (fun x y => x && y) (fun x y => x &&& y) n [codeP a.toNat, codeP b.toNat] b a p s

/-- POR (14 R323, 18 R388). -/
def execPor (n : Bool) (b a : BitVec 5) (p : BitVec 6) (s : State) : Host.Outcome State Fault Refusal :=
  plogic (fun x y => x || y) (fun x y => x ||| y) n [codeP a.toNat, codeP b.toNat] b a p s

/-- PXOR (14 R323, 18 R388). -/
def execPxor (n : Bool) (b a : BitVec 5) (p : BitVec 6) (s : State) : Host.Outcome State Fault Refusal :=
  plogic (fun x y => x != y) (fun x y => x ^^^ y) n [codeP a.toNat, codeP b.toNat] b a p s

/-- PANDN (14 R323, 18 R388). -/
def execPandn (n : Bool) (b a : BitVec 5) (p : BitVec 6) (s : State) : Host.Outcome State Fault Refusal :=
  plogic (fun x y => x && !y) (fun x y => x &&& ~~~y) n [codeP a.toNat, codeP b.toNat] b a p s

/-- PMOV (14 R323, 18 R388). -/
def execPmov (n : Bool) (a : BitVec 5) (p : BitVec 6) (s : State) : Host.Outcome State Fault Refusal :=
  plogic (fun x _ => x) (fun x _ => x) n [codeP a.toNat] a a p s

/-- PNOT (14 R323, 18 R388). -/
def execPnot (n : Bool) (a : BitVec 5) (p : BitVec 6) (s : State) : Host.Outcome State Fault Refusal :=
  plogic (fun x _ => !x) (fun x _ => ~~~x) n [codeP a.toNat] a a p s

/-- DIV (14 R333). -/
def execDiv (g : Guard) (b a d : BitVec 5) (s : State) : Host.Outcome State Fault Refusal :=
  divWord divS g b a d s

/-- DIVU (14 R333). -/
def execDivu (g : Guard) (b a d : BitVec 5) (s : State) : Host.Outcome State Fault Refusal :=
  divWord divU g b a d s

/-- REM (14 R333). -/
def execRem (g : Guard) (b a d : BitVec 5) (s : State) : Host.Outcome State Fault Refusal :=
  divWord remS g b a d s

/-- REMU (14 R333). -/
def execRemu (g : Guard) (b a d : BitVec 5) (s : State) : Host.Outcome State Fault Refusal :=
  divWord remU g b a d s

/-! ## Scalar queues (07 R168, R169; 14 R324) -/

/-- Scalar queues by number: 0 to 3, 14, 15. -/
def Ctx.sq (x : Ctx) (n : Nat) : ScalarQ :=
  if n = 0 then x.q0 else if n = 1 then x.q1 else if n = 2 then x.q2 else if n = 3 then x.q3
  else if n = 14 then x.q14 else x.q15

def Ctx.putSq (x : Ctx) (n : Nat) (q : ScalarQ) : Ctx :=
  if n = 0 then { x with q0 := q } else if n = 1 then { x with q1 := q } else if n = 2 then { x with q2 := q }
  else if n = 3 then { x with q3 := q } else if n = 14 then { x with q14 := q } else { x with q15 := q }

/-- Depths (07 R168). -/
def sqDepth (n : Nat) : Nat := if n < 4 then 8 else 32

/-- The oldest element, if it can be read in this clk. -/
def ScalarQ.head (q : ScalarQ) (clk : Nat) : Option Word :=
  match q.items with
  | [] => none
  | (v, t) :: _ => if t ≤ clk then some v else none

/-- The queue without its oldest element, taken in a clk. -/
def ScalarQ.take (q : ScalarQ) (clk : Nat) : ScalarQ :=
  ⟨q.items.drop 1, clk, (if q.popClk = clk then q.popN else 0) + 1⟩

/-- Whether a depth is reached, counting elements taken in this clk, whose room is usable from the next (07 R169). -/
def ScalarQ.full (q : ScalarQ) (depth clk : Nat) : Bool :=
  decide (depth ≤ q.items.length + (if q.popClk = clk then q.popN else 0))

/-- An element appended, readable from a clk. -/
def ScalarQ.add (q : ScalarQ) (v : Word) (ready : Nat) : ScalarQ := { q with items := q.items ++ [(v, ready)] }

/-- A pop of q15 opens the handler of the message whose descriptor it takes (02 R47). -/
def Ctx.openHandler (x : Ctx) (n : Nat) (e : Word) : Ctx := if n = 15 then { x with handler := some (wfield e 0 5) } else x

/-- MOVQ rd, qn (14 R324); PRIV in a handler mode (12 R283). -/
def execMovqPop (g : Guard) (q d : BitVec 5) (s : State) : Host.Outcome State Fault Refusal :=
  word32 { priv := !s.fctx.normal, guard := g, dsts := [(d.toNat, 1)] }
    (fun s =>
      let x := s.fctx
      match (x.sq q.toNat).head s.clk with
      | none => .wait (0x10 + q.toNat) s
      | some e =>
        if q = 15 && x.handler.isSome then .trap cLEAK 0
        else
          let s1 := s.modF (fun x => (x.putSq q.toNat ((x.sq q.toNat).take s.clk)).openHandler q.toNat e)
          .done (s1.resWord d.toNat 1 e)) s

/-- MOVQ qn, ra: readable from t + 2 (07 R169, 14 R324). -/
def execMovqPush (g : Guard) (a q : BitVec 5) (s : State) : Host.Outcome State Fault Refusal :=
  word32 { priv := !s.fctx.normal, guard := g, srcs := [a.toNat] }
    (fun s =>
      let qq := s.fctx.sq q.toNat
      if qq.full (sqDepth q.toNat) s.clk then .wait (0x20 + q.toNat) s
      else
        -- a store-release at .core (09 R244): the open entries are sent (08 R213), and the push waits for what it releases (14 R327)
        let s := s.flush s.foc.ctx
        if s.unreleased s.foc then .wait 0x03 s
        else .done (s.modF (fun x => x.putSq q.toNat ((x.sq q.toNat).add (s.rd a) (s.clk + 2))))) s

/-- TRYPOP rd, qn, pb (14 R324). rd is not written where the queue is empty. -/
def execTrypopQueue (g : Guard) (p q d : BitVec 5) (s : State) : Host.Outcome State Fault Refusal :=
  word32 { priv := !s.fctx.normal, guard := g, dsts := [(d.toNat, 1), (codeP p.toNat, 1)] }
    (fun s =>
      let x := s.fctx
      match (x.sq q.toNat).head s.clk with
      | none => .done (s.resPred p.toNat false)
      | some e =>
        if q = 15 && x.handler.isSome then .trap cLEAK 0
        else
          let s1 := s.modF (fun x => (x.putSq q.toNat ((x.sq q.toNat).take s.clk)).openHandler q.toNat e)
          .done ((s1.resWord d.toNat 1 e).resPred p.toNat true)) s

/-! ## Sixteen-bit words (13 R307) -/

/-- The clk of a STALL n with a slip: max(1, n - S), and S falls by the difference (07 R186, 04 R112). -/
def stallClk (n slip : Nat) : Nat := Nat.max 1 (n - slip)

/-- STALL n: its first clk is its issue (07 R180). The stream stays at the word while clk remain (12 R285, R288); STALL_END moves on. -/
def execStall (n : BitVec 11) (s : State) : Host.Outcome State Fault Refusal :=
  word16 {}
    (fun s =>
      let k := n.toNat + 1
      let t := stallClk k s.fstrm.slip
      let s := s.modFs (fun y => { y with stall := t - 1, waiting := false, slip := y.slip - (k - t) })
      if t = 1 then .done s else .jumped s) s

/-- MVH: a scalar or A register with latency 1, a vector register with latency 2 (13 R307, 18 R399). -/
def execMvh (a d : BitVec 5) (s : State) : Host.Outcome State Fault Refusal :=
  if s.foc.st = .v then
    word16 { srcs := [a.toNat], dsts := [(d.toNat, 2)] }
      (fun s => .done (s.result d.toNat 2 (.vec (s.fctx.vreg a.toNat)) maskAll 0 false)) s
  else word16 { srcs := [a.toNat], dsts := [(d.toNat, 1)] } (fun s => .done (s.resWord d.toNat 1 (s.rd a))) s

/-- ADDIH (13 R307). -/
def execAddih (i : BitVec 6) (d : BitVec 5) (s : State) : Host.Outcome State Fault Refusal :=
  word16 { srcs := [d.toNat], dsts := [(d.toNat, 1)] } (fun s => .done (s.resWord d.toNat 1 (s.rd d + i.signExtend 64))) s

end Sys2Proof.Machine
end

