-- ==== Sys2Proof/Machine/Queues.lean ====
section
/-! DEFINITION. Data queues (07 R168 to R170) and the elements of memory in their formats (08 R199 to R202). -/

namespace Sys2Proof.Machine

/-- A data queue by its number. -/
def Ctx.dq (x : Ctx) (n : Nat) : DataQ :=
  match n with | 4 => x.q4 | 5 => x.q5 | 6 => x.q6 | 7 => x.q7 | 8 => x.q8 | _ => x.q9

def Ctx.putDq (x : Ctx) (n : Nat) (q : DataQ) : Ctx :=
  match n with
  | 4 => { x with q4 := q } | 5 => { x with q5 := q } | 6 => { x with q6 := q } | 7 => { x with q7 := q }
  | 8 => { x with q8 := q } | _ => { x with q9 := q }

/-- The first `n` granules, if each has its data in this clk (07 R169, R170). -/
def DataQ.heads (q : DataQ) (n clk : Nat) : Option (List (List Elem)) :=
  let gs := q.items.take n
  if gs.length = n && gs.all (fun g => g.data.isSome && decide (g.ready ≤ clk)) then some (gs.map (fun g => g.data.getD []))
  else none

/-- The queue without its first `n` granules, taken in a clk; their room is usable from the next (07 R169). -/
def DataQ.take (q : DataQ) (n clk : Nat) : DataQ :=
  ⟨q.items.drop n, clk, (if q.popClk = clk then q.popN else 0) + n⟩

/-- Whether `n` granules have room (07 R169, R170). -/
def DataQ.room (q : DataQ) (n clk : Nat) : Bool :=
  decide (q.items.length + (if q.popClk = clk then q.popN else 0) + n ≤ 64)

/-- A granule appended. -/
def DataQ.add (q : DataQ) (g : Granule) : DataQ := { q with items := q.items ++ [g] }

/-- Granules appended with their data, readable from a clk. -/
def DataQ.push (q : DataQ) (gs : List (List Elem)) (ready : Nat) : DataQ :=
  { q with items := q.items ++ gs.map (fun g => ⟨0, some g, ready⟩) }

/-- The data of a reserved granule. -/
def DataQ.fill (q : DataQ) (ticket : Nat) (d : List Elem) (ready : Nat) : DataQ :=
  { q with items := q.items.map (fun g => if g.ticket = ticket && g.data.isNone then { g with data := some d, ready := ready } else g) }

/-! ## Elements in memory -/

/-- The format of a code (08 R199); a reserved code stands in no entry. -/
def fmtOf (n : Nat) : Fmt :=
  match n with | 1 => .bf16 | 2 => .t8 | 3 => .t6 | 4 => .int8 | _ => .raw32

/-- The block of a byte of a page, by GEOM (08 R201). -/
def blockOf (geom off : Nat) : Nat :=
  match geom with
  | 1 => off / 32
  | 2 => off / 16
  | _ => 32 * (off / 2048) + off % 256 / 8

/-- A scale byte as the exponent of its block: none for 0x80 (08 R202). -/
def scaleOf (b : Byte) : Option Int := if b = 0x80 then none else some b.toInt

/-- The byte of an exponent. -/
def scaleByte (k : Option Int) : Byte := match k with | some k => BitVec.ofInt 8 k | none => 0x80

/-- A granule from bytes: lanes with the offset of their bytes and their scale; other lanes are zeros (15 R359, R364). -/
def granuleOf (fmt : Nat) (lanes : List (Nat × Nat × Option Int)) (got : Memory) : List Elem :=
  let f := fmtOf fmt
  (List.range 64).map (fun i =>
    match lanes.find? (fun l => l.1 == i) with
    | some (_, off, k) => loadElem f (Memory.readLE got off f.bytes) (scaleByte k)
    | none => 0)

end Sys2Proof.Machine
end

