-- ==== Sys2Proof/Machine/Access.lean ====
section
/-! DEFINITION. The vector access words of the A stream, PREF and TLBP (15 R358 to R370; 08 R192 to R202; 09 R225, R228). -/

namespace Sys2Proof.Machine

/-- What locating a piece gives (15 R360). -/
inductive Found where
  | spot (x : Spot)
  | perm (ea : Nat)
  | masked
  | align (ea : Nat)
  | fault (va kind level : Nat)
  /-- A page that the TLB lacks and a walk gives. -/
  | miss (va : Nat) (l : Leaf) (x : Spot)
deriving DecidableEq, Repr

/-- A piece located; `win` says whether window offsets are allowed (15 R360, R366). -/
def State.findPiece (s : State) (acc : Access) (win : Bool) (p : Piece) : Found :=
  let c := s.foc.ctx
  let x := s.fctx
  let k := s.fcore
  match decodeEa (kindOf c.core) (BitVec.ofNat 64 p.ea) p.len with
  | .bad => .perm p.ea
  | .buf b off =>
    let e := s.entryAt c b off
    if !entV e || !entAv e || acc == .atomic || (acc == .write && (b == 0 || inInbox b off || inInbox b (off + p.len - 1))) then .perm p.ea
    else .spot ⟨p, .buf b off, entFmt e, entGeom e, entOrd e⟩
  | .win n off =>
    if !win then .perm p.ea
    else match (x.window n).peer off p.len with
      | none => .perm p.ea
      | some a => .spot ⟨p, .win ((x.window n).dest n) a (x.window n).ord, 0, 0, (x.window n).ord⟩
  | .glob va =>
    let refused (l : Leaf) : Option Found :=
      if l.home = 3 then some (.align p.ea)
      else if l.mir && !x.hasFeature 5 then some .masked
      else if l.forbids acc x.job || (acc == .atomic && l.fmt != 0) ||
        (acc == .write && l.mir && !(s.mirror (modOf c.core) (l.homeMod (modOf c.core))).1) then some (.perm p.ea)
      else none
    let place (l : Leaf) : Spot := ⟨p, .mem l (l.homeMod (modOf c.core)) (l.pa va), l.fmt, l.geom, l.ord⟩
    match k.tlbHit x.job va with
    | some l => (refused l).getD (match s.leafFaults c.core x.job l acc va with
      | some (kind, level) => .fault va kind level
      | none => .spot (place l))
    | none =>
      match s.walk c.core x.job.toNat acc va with
      | .ok l => (refused l).getD (.miss va l (place l))
      | .fault kind level _ =>
        if kind = 2 then
          match s.leafAt va with
          | some l => (refused l).getD (.fault va kind level)
          | none => .fault va kind level
        else .fault va kind level

/-- The format that governs a byte, as far as its address gives one (15 R359). -/
def State.fmtAt (s : State) (ea : Nat) : Option Nat :=
  let c := s.foc.ctx
  match decodeEa (kindOf c.core) (BitVec.ofNat 64 ea) 1 with
  | .bad => none
  | .buf b off => some (entFmt (s.entryAt c b off))
  | .win _ _ => some 0
  | .glob va =>
    match s.fcore.tlbHit s.fctx.job va with
    | some l => some l.fmt
    | none => (s.leafAt va).map Leaf.fmt

/-- The element size of a format code (15 R359). -/
def elemSize (fmt : Nat) : Nat := (fmtOf fmt).bytes

/-- A stretch of bytes cut at the boundaries of 64 KiB, and where the inboxes begin, which no entry of page 47 governs (08 R196). -/
def cutPages (ea len g off : Nat) : List Piece :=
  let room := if ea / 65536 = 0xF1000000002F && decide (ea % 65536 < 0xC000) then 0xC000 - ea % 65536 else 65536 - ea % 65536
  let first := Nat.min len room
  if first = len then [⟨ea, len, g, off⟩] else [⟨ea, first, g, off⟩, ⟨(ea + first) % 2 ^ 64, len - first, g, off + first⟩]

/-- A buffer of a context: of a displaced one, its copy (08 R204). -/
def State.bufIn (s : State) (c : CtxId) (b : Nat) : Memory :=
  let x := s.ctx c
  if x.displaced then (match b with | 0 => x.dispW | 1 => x.dispX | _ => x.dispZ) else (s.core c.core).buf b

/-- Bytes written there by the access processor. -/
def State.writeBufIn (s : State) (c : CtxId) (b off : Nat) (bs : List Byte) : State :=
  if (s.ctx c).displaced then
    s.modCtx c (fun x => match b with
      | 1 => { x with dispX := Memory.writeN x.dispX off bs }
      | 2 => { x with dispZ := Memory.writeN x.dispZ off bs }
      | _ => x)
  else s.modCore c.core (fun k => k.writeBuf b off bs)

/-- Where the scale of the block of a byte stands: a byte of a buffer or of a home; none where k is 0 (08 R201). -/
inductive ScaleAt where
  | zero
  | buf (b off : Nat)
  | home (mod pa : Nat)
  | perm
deriving DecidableEq, Repr

/-- The scale of byte `i` of a piece (08 R201; 15 R359). -/
def State.scaleAt (s : State) (x : Spot) (i : Nat) : ScaleAt :=
  if x.geom = 0 then .zero
  else match x.place with
    | .buf b off =>
      let e := s.entryAt s.foc.ctx b off
      if !wbit e 23 then .zero
      else
        let scl := wfield e 16 7
        let pe := s.bptEntry s.foc.ctx b scl
        if !entV pe || !entAv pe then .perm
        else .buf b (65536 * scl + 1024 * wfield e 24 6 + blockOf x.geom ((off + i) % 65536))
    | .mem l mod _ =>
      let pa := l.scb + blockOf x.geom ((x.p.ea + i) % (if l.big then 2 ^ 28 else 65536))
      if !l.sv then .zero
      else if !isHbm pa && !isLpddr pa then .perm
      else .home mod pa
    | _ => .zero

/-- The scale bytes of the pieces of a granule that a core reads at their homes: module, address, and whether the page is mirrored (09 R227). -/
def State.homeScales (s : State) (xs : List Spot) : List (Nat × Nat × Bool) :=
  (xs.flatMap (fun x => (List.range x.p.len).filterMap (fun i => match s.scaleAt x i, x.place with
    | .home mod pa, .mem l _ _ => some (mod, pa, l.mir)
    | _, _ => none))).eraseDups

/-- The exponents of the elements of the pieces of a granule by their offsets in it, none for NaR (08 R202): a scale of a page that is read by the
ring stands in the bytes that have come, by lines. -/
def State.expsOf (s : State) (e : Nat) (asked : List Nat) (got : Memory) (xs : List Spot) : List (Nat × Option Int) :=
  let core := s.foc.ctx.core
  xs.flatMap (fun x => if x.geom = 0 then [] else (List.range (x.p.len / e)).map (fun i =>
    (x.p.off + i * e, match s.scaleAt x (i * e), x.place with
      | .buf b off, _ => scaleOf (Memory.read (s.bufIn s.foc.ctx b) off)
      | .home mod pa, .mem l _ _ =>
        if asked.contains (memKey mod pa / 64) then scaleOf (Memory.read got (memKey mod pa))
        else scaleOf (Memory.read s.mem (memKey (if l.mir then (s.mirrorSource core mod).getD mod else mod) pa))
      | _, _ => some 0)))

/-- The exponent of an element by its offset in its granule. -/
def expAt (es : List (Nat × Option Int)) (off : Nat) : Option Int := ((es.find? (fun p => p.1 == off)).map Prod.snd).getD (some 0)

/-- Whether a place is behind a window. -/
def Place.isWin : Place → Bool
  | .win .. => true
  | _ => false

/-- What the location of all pieces of a word gives. -/
inductive Located where
  | at (xs : List Spot) (s : State)
  | stop (r : Res)
deriving DecidableEq, Repr

/-- The pages that a word has missed, each once, in the order of its pieces, with the walks that they need. -/
def missed (c : CtxId) (job : BitVec 12) (gen : Nat) (acc : Access) (fs : List Found) : List (WalkReq × Nat × Leaf) :=
  fs.foldl (fun ws f => match f with
    | .miss va l _ =>
      if ws.any (fun w => if l.big then w.1.va / 2 ^ 28 == va / 2 ^ 28 else w.1.va / 65536 == va / 65536) then ws
      else ws ++ [(⟨c, job, va, acc, 1⟩, gen, l)]
    | _ => ws) []

/-- The pieces of one vector access word located as one access (15 R360): the checks in the order of 12 R284, the fault of the lowest
address, and the walks of the pages that the TLB lacks, for whose first the die's walker must have room (09 R228, R229). -/
def State.locate (s : State) (acc : Access) (win : Bool) (base : Word) (ps : List Piece) : Located :=
  let fs := ps.map (s.findPiece acc win)
  let xs := fs.filterMap (fun f => match f with | .spot x => some x | .miss _ _ x => some x | _ => none)
  let mixed := match xs with
    | [] => false
    | y :: _ => xs.any (fun x => x.fmt != y.fmt || x.geom != y.geom || x.place.isWin != y.place.isWin)
  if fs.any (fun f => f == .masked) then .stop (.trap cMASKED 5)
  else match firstSome (fun f => match f with | .align a => some a | _ => none) fs with
  | some a => .stop (.trap cALIGN (BitVec.ofNat 64 a))
  | none =>
    match firstSome (fun f => match f with | .perm a => some a | _ => none) fs with
    | some a => .stop (.trap cPERM (BitVec.ofNat 64 a))
    | none =>
      if mixed || xs.any (fun x => s.scaleAt x 0 == .perm || s.scaleAt x (x.p.len - 1) == .perm) then .stop (.trap cPERM base)
      else
        let low := fs.foldl (fun m f => match f, m with
          | .fault va k l, some (v, k', l') => if va < v then some (va, k, l) else some (v, k', l')
          | .fault va k l, none => some (va, k, l)
          | _, m => m) none
        match low with
        | some (va, k, l) => .stop (s.pageFaults acc va k l)
        | none =>
          let ws := missed s.foc.ctx s.fctx.job (s.fcore.gen s.fctx.job) acc fs
          if !ws.isEmpty && s.walkerFull s.foc.ctx.core then .stop (.wait 0x03 s)
          else
            let pages := (fs.filterMap (fun f => match f with
              | .spot x => (match x.place with | .mem .. => some (x.p.ea / 65536) | _ => none)
              | _ => none)).eraseDups
            .at xs ((s.modFcore (fun k => pages.foldl (fun k n => k.tlbUse s.fctx.job (65536 * n)) k)).walkPages s.foc.ctx.core ws)

/-! ## The request order of the access processor (15 R361) -/

/-- The strongest kind of the pieces (08 R200; 15 R360). -/
def strongest (xs : List Spot) : Nat := xs.foldl (fun m x => Nat.min m x.ord) 2

/-- The clk that an access of a buffer takes: the most distinct 4-byte words in one bank (08 R194). -/
def bankClk (xs : List Spot) : Nat :=
  let ws := (xs.flatMap (fun x => match x.place with
    | .buf _ off => (List.range ((x.p.len + off % 4 + 3) / 4)).map (fun i => off / 4 + i)
    | _ => [])).eraseDups
  let most := ws.foldl (fun m w => Nat.max m (ws.filter (fun v => v % 64 == w % 64)).length) 1
  most

/-- The line of global memory that a lane reaches: its home and its address; none in a buffer. -/
def Spot.line (x : Spot) : Option (Nat × Nat) :=
  match x.place with
  | .mem _ mod pa => some (mod, pa / 64)
  | _ => none

/-- The parts of a word of `n` rows (15 R361). -/
def rowUnits (n : Nat) (xs : List Spot) : List ApUnit := (List.range n).map (fun g => ⟨g, none, xs.filter (fun x => x.p.g == g), none⟩)

/-- The parts of a gather, scatter or atomic of `n` granules: of each, what lies in buffers, and then line by line what does not (15 R364,
R365). -/
def laneUnits (n : Nat) (xs : List Spot) : List ApUnit :=
  (List.range n).flatMap (fun g =>
    let ys := xs.filter (fun x => x.p.g == g)
    let near := ys.filter (fun x => x.line.isNone)
    let lines := (ys.filterMap Spot.line).eraseDups
    (if near.isEmpty && !lines.isEmpty then [] else [⟨g, none, near, none⟩]) ++
      lines.zipIdx.map (fun l => ⟨g, some l.2, ys.filter (fun x => x.line == some l.1), none⟩))

/-- A word of the request order changed. -/
def CoreSt.modAp (k : CoreSt) (id : Nat) (f : ApWord → ApWord) : CoreSt := { k with ap := k.ap.map (fun w => if w.id = id then f w else w) }

/-- Whether a part is the last of its granule. -/
def lastOf (u : ApUnit) (rest : List ApUnit) : Bool := rest.all (fun v => v.g != u.g)

/-- A part started, which takes some clk: the next may start after them. -/
def State.apNext (s : State) (w : ApWord) (u : ApUnit) (rest : List ApUnit) (cost : Nat) (f : ApWord → ApWord) : State :=
  s.modCore w.ctx.core (fun k => { k.modAp w.id (fun v =>
    f { v with units := rest, fin := s.clk + cost, exps := if lastOf u rest then none else v.exps }) with apFree := s.clk + cost })

/-! ## Loads -/

/-- Where the bytes of a piece come from (08 R215, 15 R362). -/
inductive Source where
  | known (bs : List Byte)
  | home (bs : List Byte)
  | remote (d : Dest) (addr : Nat)
  | wait
deriving DecidableEq, Repr

def State.source (s : State) (x : Spot) : Source :=
  let core := s.foc.ctx.core
  let n := x.p.len
  match x.place with
  | .buf b off => if (s.core core).ownMeets s.foc false x.place n then .wait else .known (Memory.readN (s.bufIn s.foc.ctx b) off n)
  | .win dest peer _ =>
    match s.forwardCase core dest peer n with
    | .taken bs => .known bs
    | .wait => .wait
    | .go => .remote dest peer
  | .mem l mod pa =>
    match (if l.mir then s.mirrorSource core mod else some mod) with
    | none => .wait
    | some m =>
      match s.forwardCase core (.global m (homeStation pa)) pa n with
      | .taken bs => .known bs
      | .wait => .wait
      | .go =>
        if s.byRing core l.mir m pa then .remote (.global m (homeStation pa)) pa else .home (Memory.readN s.mem (memKey m pa) n)
  | .regs _ => .wait

/-- Poisoned lines of X that a load reads raise POISON (01 R30). -/
def State.poisonCheck (s : State) (xs : List Spot) : State :=
  xs.foldl (fun t x => match x.place with
    | .buf b off =>
      if !(t.ctx t.foc.ctx).displaced && t.fcore.poisoned b off x.p.len then t.raiseAsync t.foc.ctx cPOISON (BitVec.ofNat 64 off) else t
    | _ => t) s

/-- Whether a place is of a mirrored page. -/
def Place.mirrored : Place → Bool
  | .mem l _ _ => l.mir
  | _ => false

/-- A row's sources as R215 gives them row by row: one waits where only a part is forwarded (15 R362). -/
def rowWaits (ps : List (Spot × Source)) : Bool :=
  let moved := ps.filter (fun p => match p.1.place with | .buf _ _ => false | _ => true)
  let taken (p : Spot × Source) : Bool := match p.2 with | .known _ => true | _ => false
  moved.any taken && !moved.all taken

/-- Where the bytes of element `i` of a piece stand among those of its granule: of a line, at 64 bytes for each (15 R364). -/
def elemAt (e : Nat) (line : Option Nat) (x : Spot) (i : Nat) : Nat :=
  match line, x.place with
  | some j, .mem _ _ pa => 4096 + 64 * j + (pa + i * e) % 64
  | _, _ => x.p.off + i * e

/-- The lanes of some parts of a granule: the lane, where its bytes stand, and its exponent. -/
def lanesOf (e : Nat) (es : List (Nat × Option Int)) (us : List ApUnit) : List (Nat × Nat × Option Int) :=
  us.flatMap (fun u => u.spots.flatMap (fun x => (List.range (x.p.len / e)).map (fun i =>
    (x.p.off / e + i, elemAt e u.line x i, expAt es (x.p.off + i * e)))))

/-- What a part of a load finds at once, by its place in the granule. -/
def knownBytes (e : Nat) (line : Option Nat) (parts : List (Spot × Source)) : Memory :=
  parts.foldl (fun m p => match p.2 with
    | .known bs => Memory.writeN m (elemAt e line p.1 0) bs
    | .home bs => Memory.writeN m (elemAt e line p.1 0) bs
    | _ => m) []

/-- The remote reads of a part: one for each piece of a row, one for a line (15 R364). -/
def State.askFor (s : State) (g : Nat) (line : Option Nat) (parts : List (Spot × Source)) : State :=
  let c := s.foc.ctx
  match line with
  | some j =>
    (match parts.find? (fun p => match p.2 with | .remote .. => true | _ => false) with
    | some (x, .remote d a) => s.readRemote c g (4096 + 64 * j) d (a / 64 * 64) 64 x.place.mirrored
    | _ => s)
  | none => parts.foldl (fun t p => match p.2 with
      | .remote d a => t.readRemote c g p.1.p.off d a p.1.p.len p.1.place.mirrored
      | _ => t) s

/-- The group of a granule whose last part has been started and whose data are all there: the granule comes. -/
def State.partsCome (s : State) (core g : Nat) : State :=
  match (s.core core).groups.find? (fun x => x.id == g && x.left == 0) with
  | some x =>
    (match x.want with
    | .granule c q ticket fmt lanes =>
      let (d, s) := (s.modCore core (fun k => { k with groups := k.groups.filter (fun y => y.id != g) })).freeTime
      s.post (s.clk + 1 + d) (.granuleDataArrival c q ticket (granuleOf fmt lanes x.got))
    | _ => s)
  | none => s

/-- A part of a load started (15 R361, R362, R364). A granule that lies in one part, all of it in buffers or forwarded, is readable 6 clk after the
part's start and its conflict clk; another is awaited by a group, which counts the parts that are still to be started. -/
def State.apLoad (s : State) (w : ApWord) (u : ApUnit) (rest : List ApUnit) (q : Nat) (es : List (Nat × Option Int)) : State :=
  let c := w.ctx
  let e := elemSize w.fmt
  let parts := u.spots.map (fun x => (x, s.source x))
  if parts.any (fun p => p.2 == .wait) || (u.line.isNone && rowWaits parts) then s
  else
    let cost := bankClk u.spots
    let s := s.poisonCheck u.spots
    let ticket := w.ticket + u.g
    let last := lastOf u rest
    let known := knownBytes e u.line parts
    if w.part.isNone && last && parts.all (fun p => match p.2 with | .known _ => true | _ => false) then
      (s.modCtx c (fun x => x.putDq q ((x.dq q).fill ticket (granuleOf w.fmt (lanesOf e es [u]) known) (s.clk + 6 + (cost - 1))))).apNext w u rest cost id
    else
      let (g, s) : Nat × State := match w.part with
        | some g => (g, s)
        | none =>
          let us := u :: rest.filter (fun v => v.g == u.g)
          let (g, s) := s.newGroup c .a false (.granule c q ticket w.fmt (lanesOf e es us)) [] (w.ord == 0)
          (g, s.modCore c.core (fun k => { k with groups := k.groups.map (fun x => if x.id = g then { x with left := us.length } else x) }))
      -- a group whose job has closed meanwhile is gone, and its granule is filled (02 R62)
      let s := if (s.core c.core).groups.any (fun x => x.id == g) then
          ((s.askFor g u.line parts).modCore c.core (fun k => { k with groups := k.groups.map (fun x => if x.id = g then
            { x with left := x.left - 1, got := Sp.setAll Memory.unlisted x.got known } else x) })).partsCome c.core g
        else s
      s.apNext w u rest cost (fun v => { v with part := if last then none else some g, groups := (g :: v.groups).eraseDups })

/-! ## Stores -/

/-- A located piece cut into lines of 64 bytes where it is not in a buffer. -/
def Spot.lines (x : Spot) : List Spot :=
  match x.place with
  | .buf _ _ => [x]
  | _ =>
    (List.range ((x.p.ea % 64 + x.p.len + 63) / 64)).map (fun i =>
      let lo := if i = 0 then 0 else 64 * i - x.p.ea % 64
      let hi := Nat.min x.p.len (64 * (i + 1) - x.p.ea % 64)
      { x with p := ⟨x.p.ea + lo, hi - lo, x.p.g, x.p.off + lo⟩,
               place := match x.place with
                 | .win d a o => .win d (a + lo) o
                 | .mem l m pa => .mem l m (pa + lo)
                 | p => p })

/-- The bytes that a piece takes from its granule (15 R359). -/
def pieceBytes (fmt : Nat) (es : List (Nat × Option Int)) (gran : List Elem) (x : Spot) : List Byte :=
  let e := elemSize fmt
  (List.range (x.p.len / e)).flatMap (fun i =>
    bytesLE e (storeElem (fmtOf fmt) ((gran[x.p.off / e + i]?).getD 0) (scaleByte (match expAt es (x.p.off + i * e) with
      | some k => some k
      | none => some 0))))

/-- The address of a place at its destination. -/
def Place.addr : Place → Nat
  | .buf _ off => off
  | .win _ peer _ => peer
  | .mem _ _ pa => pa
  | .regs off => off

/-- The lines of a part of a store outside the buffers, each with its place (15 R363): of lanes that share a line, those of higher numbers stand
over the others (15 R365). -/
def storeLines (fmt : Nat) (es : List (Nat × Option Int)) (gran : List Elem) (u : ApUnit) : List (Place × CombLine) :=
  let one (x : Spot) : Place × CombLine := (x.place, lineOf x.place.addr (pieceBytes fmt es gran x))
  let xs := (u.spots.filter (fun x => match x.place with | .buf _ _ => false | _ => true)).flatMap Spot.lines
  match u.line, xs with
  | some _, x :: more => [(x.place, more.foldl (fun m y => (one y).2.over m) (one x).2)]
  | _, _ => xs.map one

/-- One line of a store placed or written; none while it waits (15 R363). -/
def State.storePlace (s : State) (id ord : Nat) (p : Place × CombLine) : Option State :=
  match p.1 with
  | .win dest _ _ => s.placeLine s.foc [id] dest ord 0 p.2
  | .mem l mod _ => s.storeLine s.foc [id] { l with ord := ord } mod p.2
  | _ => some s

/-- Lines stored in order, as far as they need not wait; those that are left. -/
def State.storeAll : State → Nat → Nat → List (Place × CombLine) → State × List (Place × CombLine)
  | s, _, _, [] => (s, [])
  | s, id, ord, p :: ps =>
    match s.storePlace id ord p with
    | some s => s.storeAll id ord ps
    | none => (s, p :: ps)

/-- A part of a store started, or gone on with after a wait for allowance (15 R363, R365). -/
def State.apStore (s : State) (w : ApWord) (u : ApUnit) (rest : List ApUnit) (es : List (Nat × Option Int)) : State :=
  let c := w.ctx
  let gran := (w.data[u.g]?).getD []
  if u.todo.isNone && u.spots.any (fun x => (s.core c.core).ownMeets s.foc true x.place x.p.len) then s
  else
    let (s, todo) : State × List (Place × CombLine) := match u.todo with
      | some ls => (s, ls)
      | none =>
        (u.spots.foldl (fun t x => match x.place with
          | .buf b off => t.writeBufIn c b off (pieceBytes w.fmt es gran x)
          | _ => t) s, storeLines w.fmt es gran u)
    match s.storeAll w.id w.ord todo with
    | (s, []) => s.apNext w u rest (bankClk u.spots) id
    | (s, left) => s.modCore c.core (fun k => k.modAp w.id (fun v => { v with units := { u with todo := some left } :: rest }))

/-! ## Vector atomics -/

/-- The new element of AMOV (15 R366). -/
def amovApply (mx : Bool) (old x : Elem) : Elem := if mx then (fMax old x).1 else (fAdd .rne old x).1

/-- The lanes of one line at a remote home (15 R366): the line's address, then for each lane its offset and element. -/
def State.amovRemote (s : State) (mx : Bool) (d : Dest) (line : Nat) (ls : List (Nat × Elem)) (so : Bool) : Nat × State :=
  let c := s.foc.ctx
  let (id, s) := s.newGroup c .a false (.atomic c) [] so
  match d with
  | .global m t => (id, s.request c id 0 0 4 m t 0 (16 + bit mx) (bytesLE 8 (64 * line) ++ ls.flatMap (fun p => bytesLE 4 p.1 ++ bytesLE 4 p.2.toNat)))
  | .window .. => (id, s)

/-- A part of AMOV: the lanes of one line, at the own module's home at once, in order; elsewhere by one request (15 R366). -/
def State.apAtomic (s : State) (w : ApWord) (u : ApUnit) (rest : List ApUnit) (mx : Bool) : State :=
  let here := modOf w.ctx.core
  let gran := (w.data[u.g]?).getD []
  let el (x : Spot) : Elem := (gran[x.p.off / 4]?).getD 0
  let lanes := u.spots.filterMap (fun x => match x.place with | .mem _ mod pa => some (mod, pa, el x) | _ => none)
  match lanes with
  | [] => s.apNext w u rest 1 id
  | (mod, pa, _) :: _ =>
    match s.forwardCase w.ctx.core (.global mod (homeStation pa)) (pa / 64 * 64) 64 with
    | .go =>
      if mod = here then
        (lanes.foldl (fun t l =>
          let old := BitVec.ofNat 32 (Memory.readLE t.mem (memKey mod l.2.1) 4)
          t.writeMem (t.ctx w.ctx).plat mod l.2.1 (bytesLE 4 (amovApply mx old l.2.2).toNat)) s).apNext w u rest 1 id
      else
        let (g, s) := s.amovRemote mx (.global mod (homeStation pa)) (pa / 64) (lanes.map (fun l => (l.2.1 % 64, l.2.2))) (w.ord == 0)
        s.apNext w u rest 1 (fun v => { v with groups := g :: v.groups })
    | _ => s

/-! ## The start of a part -/

/-- What the scales of a granule need before it starts (15 R359): nothing, a wait, or bytes that a remote read is sent for. -/
inductive Scales where
  | known (es : List (Nat × Option Int)) (s : State)
  | wait (s : State)
deriving DecidableEq, Repr

/-- The exponents of the granule under way, as the access processor reads them when it starts the row or granule (15 R359): a scale byte that is
read by the ring is asked for behind the stores of the core that it may come from (08 R215, R216; 09 R226, R227). -/
def State.scalesOf (s : State) (w : ApWord) (u : ApUnit) : Scales :=
  let core := w.ctx.core
  let e := elemSize w.fmt
  let xs := (w.units.filter (fun v => v.g == u.g)).flatMap ApUnit.spots
  let keep (es : List (Nat × Option Int)) : Scales :=
    .known es (s.modCore core (fun k => k.modAp w.id (fun v => { v with exps := some (u.g, es), fetch := none })))
  match w.exps with
  | some (g, es) => if g = u.g then .known es s else keep (s.expsOf e [] [] xs)
  | none =>
    if xs.all (fun x => x.geom == 0) then .known [] s
    else match w.fetch with
    | some (_, _, none) => .wait s
    | some (asked, _, some got) => keep (s.expsOf e asked got xs)
    | none =>
      let src (b : Nat × Nat × Bool) : Option Nat := if b.2.2 then s.mirrorSource core b.1 else some b.1
      let bs := s.homeScales xs
      if bs.any (fun b => match src b with
          | some m => (match s.forwardCase core (.global m (homeStation b.2.1)) b.2.1 1 with | .go => false | _ => true)
          | none => true) then .wait s
      else
        let far := bs.filter (fun b => s.byRing core b.2.2 ((src b).getD b.1) b.2.1)
        if far.isEmpty then keep (s.expsOf e [] [] xs)
        else
          let lines := (far.map (fun b => (b.1, b.2.1 / 64 * 64, b.2.2, (src b).getD b.1))).eraseDups
          let (g, s) := s.newGroup w.ctx .a false (.scales w.id) []
          let s := lines.foldl (fun t l => t.readRemote w.ctx g (memKey l.1 l.2.1) (.global l.2.2.2 (homeStation l.2.1)) l.2.1 64 l.2.2.1) s
          .wait (s.modCore core (fun k => k.modAp w.id (fun v => { v with fetch := some (lines.map (fun l => memKey l.1 l.2.1 / 64), g, none) })))

/-- The head of the request order started, where nothing holds it: its scales, and on an SO page the SO accesses before it (09 R242; 15 R362). -/
def State.apStart (s : State) (w : ApWord) (u : ApUnit) (rest : List ApUnit) : State :=
  match s.scalesOf w u with
  | .wait s => s
  | .known es s =>
    if w.ord = 0 && u.todo.isNone && u.spots.any (fun x => s.soFlight s.foc (x.place.station (modOf w.ctx.core))) then s
    else match w.kind with
    | .load q => s.apLoad w u rest q es
    | .store => s.apStore w u rest es
    | .atomic mx => s.apAtomic w u rest mx

/-- The access processor of a core starts a part of the first word that has one left, if it is free in this clk (15 R361). -/
def State.apStep (s : State) (core : Nat) : State :=
  if s.clk < (s.core core).apFree then s
  else match (s.core core).ap.find? (fun w => !w.units.isEmpty) with
  | none => s
  | some w => match w.units with
    | [] => s
    | u :: rest => { ({ s with foc := ⟨w.ctx, .a⟩ }.apStart w u rest) with foc := s.foc }

/-- The access processors in a clk; a frozen core's stand still (07 R185). -/
def State.apTick (s : State) : State :=
  (s.cores.filter (fun (e : Nat × CoreSt) => !e.2.ap.isEmpty && !s.frozen e.1)).foldl (fun t e => t.apStep e.1) s

/-- A word entered into the request order, of which the first part starts in this clk where the order is empty (15 R361). -/
def State.apEnter (s : State) (kind : ApKind) (fmt ticket : Nat) (xs : List Spot) (us : List ApUnit) (data : List (List Elem)) : State :=
  let c := s.foc.ctx
  let (id, s) := s.nextId
  let w : ApWord := { id := id, ctx := c, kind := kind, fmt := fmt, ord := strongest xs, units := us, data := data, ticket := ticket, fetch := none,
                      exps := none, part := none, groups := [], fin := s.clk, fenced := false }
  (s.modCore c.core (fun k => { k with ap := k.ap.filter (fun v => !k.apDone s.clk v) ++ [w] })).apStep c.core

/-! ## The words -/

/-- Whether a further vector word finds the request order full, or its stream's accesses held (15 R361; 09 R228, R243). -/
def State.orderFull (s : State) : Bool :=
  decide (16 ≤ (s.fcore.ap.filter (fun w => !s.fcore.apDone s.clk w)).length) || s.acquiring s.foc

/-- Granules reserved in a data queue, in order, under the next tickets (07 R170). -/
def State.reserve (s : State) (q n : Nat) : State :=
  s.modF (fun x => { (x.putDq q ((List.range n).foldl (fun d i => d.add ⟨x.tickets + i, none, 0⟩) (x.dq q))) with tickets := x.tickets + n })

/-- A load word issued: its granules are reserved, and it enters the request order (15 R361, R362, R364). -/
def State.vectorLoad (s : State) (q fmt n : Nat) (xs : List Spot) (us : List ApUnit) : State :=
  (s.reserve q n).apEnter (.load q) fmt s.fctx.tickets xs us []

/-- The rows of LDV and STV (15 R362). -/
def rowStarts (base stride : Word) (n : Nat) : List Nat := (List.range n).map (fun i => (base + BitVec.ofNat 64 i * stride).toNat)

/-- LDV and STV after their queue waits: e, the stride, ALIGN, and the pieces located (15 R359, R360, R362). -/
def State.locateRows (s : State) (acc : Access) (b r : BitVec 5) (n : Nat) : Nat × Located :=
  let base := s.rd b
  let fmt := (s.fmtAt base.toNat).getD 2
  let e := elemSize fmt
  let stride : Word := if r = 0 then BitVec.ofNat 64 (64 * e) else s.rd r
  let rows := rowStarts base stride n
  match rows.find? (fun a => a % e != 0) with
  | some a => (fmt, .stop (.trap cALIGN (BitVec.ofNat 64 a)))
  | none => (fmt, s.locate acc true base (rows.zipIdx.flatMap (fun p => cutPages p.1 (64 * e) p.2 0)))

/-- LDV (15 R362). -/
def execLdv (n : BitVec 6) (r b q : BitVec 5) (s : State) : Host.Outcome State Fault Refusal :=
  word32 { srcs := [b.toNat, r.toNat] }
    (fun s =>
      let count := n.toNat + 1
      if s.orderFull then .wait 0x03 s
      else if !(s.fctx.dq q.toNat).room count s.clk then .wait (0x20 + q.toNat) s
      else match s.locateRows .read b r count with
        | (_, .stop res) => res
        | (fmt, .at xs t) => .done (t.vectorLoad q.toNat fmt count xs (rowUnits count xs))) s

/-- STV (15 R363). -/
def execStv (n : BitVec 6) (r b q : BitVec 5) (s : State) : Host.Outcome State Fault Refusal :=
  word32 { srcs := [b.toNat, r.toNat] }
    (fun s =>
      let count := n.toNat + 1
      if s.orderFull then .wait 0x03 s
      else match (s.fctx.dq q.toNat).heads count s.clk with
        | none => .wait (0x10 + q.toNat) s
        | some gs =>
          match s.locateRows .write b r count with
          | (_, .stop res) => res
          | (fmt, .at xs t) =>
            .done ((t.modF (fun x => x.putDq q.toNat ((x.dq q.toNat).take count s.clk))).apEnter .store fmt 0 xs (rowUnits count xs) gs)) s

/-- The address of a lane: none where it is inactive (15 R364). -/
def laneEa (base : Word) (i : Elem) : Option Nat := if i = 0x80000000 then none else some (base + i.signExtend 64).toNat

/-- The pieces of a gather, scatter or vector atomic: granule by granule, lane by lane. -/
def lanePieces (base : Word) (e : Nat) (idx : List (List Elem)) : List Piece :=
  idx.zipIdx.flatMap (fun g => g.1.zipIdx.filterMap (fun l => (laneEa base l.1).map (fun a => ⟨a, e, g.2, l.2 * e⟩)))

/-- LDG, STSC and AMOV with their index granules: e, ALIGN, and the lanes located (15 R359, R360, R364 to R366). -/
def State.locateLanes (s : State) (acc : Access) (b : BitVec 5) (idx : List (List Elem)) : Nat × Located :=
  let base := s.rd b
  let fmt := if acc = .atomic then 0 else
    match idx.flatten.findSome? (laneEa base) with
    | some a => (s.fmtAt a).getD 2
    | none => 0
  let e := elemSize fmt
  let ps := lanePieces base e idx
  match ps.find? (fun p => p.ea % e != 0) with
  | some p => (fmt, .stop (.trap cALIGN (BitVec.ofNat 64 p.ea)))
  | none => (fmt, s.locate acc false base ps)

/-- LDG (15 R364). -/
def execLdg (n : BitVec 6) (r b q : BitVec 5) (s : State) : Host.Outcome State Fault Refusal :=
  word32 { srcs := [b.toNat] }
    (fun s =>
      let count := n.toNat + 1
      if s.orderFull then .wait 0x03 s
      else match (s.fctx.dq r.toNat).heads count s.clk with
        | none => .wait (0x10 + r.toNat) s
        | some idx =>
          if !(s.fctx.dq q.toNat).room count s.clk then .wait (0x20 + q.toNat) s
          else match s.locateLanes .read b idx with
          | (_, .stop res) => res
          | (fmt, .at xs t) =>
            .done ((t.modF (fun x => x.putDq r.toNat ((x.dq r.toNat).take count s.clk))).vectorLoad q.toNat fmt count xs (laneUnits count xs))) s

/-- The granules that STSC and AMOV take: indices, then data, or the queue that lacks one (15 R365). -/
def State.scatterHeads (s : State) (r q count : Nat) : Nat ⊕ (List (List Elem) × List (List Elem)) :=
  match (s.fctx.dq r).heads count s.clk with
  | none => .inl r
  | some idx =>
    match (s.fctx.dq q).heads count s.clk with
    | none => .inl q
    | some gs => .inr (idx, gs)

/-- Both queues without the granules that a word has taken. -/
def Ctx.takeBoth (x : Ctx) (r q count clk : Nat) : Ctx :=
  let x := x.putDq r ((x.dq r).take count clk)
  x.putDq q ((x.dq q).take count clk)

/-- STSC and AMOV once their granules are there: both sets taken, and the word in the request order (15 R365, R366). -/
def scatterWord (acc : Access) (kind : ApKind) (n : BitVec 6) (r b q : BitVec 5) (s : State) : Host.Outcome State Fault Refusal :=
  word32 { srcs := [b.toNat] }
    (fun s =>
      let count := n.toNat + 1
      if s.orderFull then .wait 0x03 s
      else match s.scatterHeads r.toNat q.toNat count with
        | .inl k => .wait (0x10 + k) s
        | .inr (idx, gs) =>
          match s.locateLanes acc b idx with
          | (_, .stop res) => res
          | (fmt, .at xs t) =>
            .done ((t.modF (fun x => x.takeBoth r.toNat q.toNat count s.clk)).apEnter kind fmt 0 xs (laneUnits count xs) gs)) s

/-- STSC (15 R365). -/
def execStsc (n : BitVec 6) (r b q : BitVec 5) (s : State) : Host.Outcome State Fault Refusal := scatterWord .write .store n r b q s

/-- AMOV.add (15 R366). -/
def execAmovAdd (n : BitVec 6) (r b q : BitVec 5) (s : State) : Host.Outcome State Fault Refusal := scatterWord .atomic (.atomic false) n r b q s

/-- AMOV.max (15 R366). -/
def execAmovMax (n : BitVec 6) (r b q : BitVec 5) (s : State) : Host.Outcome State Fault Refusal := scatterWord .atomic (.atomic true) n r b q s

/-- GRANULE_DATA_ARRIVAL (07 R170): the data of a reserved granule. -/
def execGranuleDataArrival (s : State) : Host.Outcome State Fault Refusal :=
  match s.cur with
  | some (.granuleDataArrival c q ticket d) =>
    -- a frozen core's data wait at its station (R185)
    if s.frozen c.core then .next (s.post ((s.core c.core).freeze.getD s.clk) (.granuleDataArrival c q ticket d))
    else .next (s.modCtx c (fun x => x.putDq q ((x.dq q).fill ticket d s.clk)))
  | _ => .next s

/-! ## Translation probes -/

/-- PREF (15 R369): a walk beside the request order; nothing where it would fault, for another selector, or where the translation
is held. -/
def execPref (i : BitVec 12) (a : BitVec 5) (s : State) : Host.Outcome State Fault Refusal :=
  word32 { srcs := [a.toNat] }
    (fun s =>
      match decodeEa (kindOf s.foc.ctx.core) (s.ea a i) 1 with
      | .glob va =>
        match s.walk s.foc.ctx.core s.fctx.job.toNat .prefetch va with
        | .fault .. => .done s
        | .ok _ =>
          match s.translate s.foc.ctx 1 .prefetch va with
          | .wait s' => .done s'
          | .leaf _ s' => .done s'
          | .fault .. => .done s
      | _ => .done s) s

/-- The register that TLBP gives for a leaf (15 R370). -/
def tlbpWord (l : Leaf) (va : Nat) (hit : Bool) : Word :=
  BitVec.ofNat 64 ((l.pa va / 65536) * 2 ^ 24 + l.hmod * 2 ^ 18 + l.home * 2 ^ 16 + l.fmt * 2 ^ 12 + l.geom * 2 ^ 10 + l.ord * 2 ^ 8 +
    bit l.bar * 2 ^ 7 + bit l.mir * 2 ^ 6 + bit l.x * 2 ^ 5 + bit l.w * 2 ^ 4 + bit l.r * 2 ^ 3 + bit hit * 2 ^ 2 + bit l.big * 2 + 1)

/-- TLBP (15 R370): it enters the request order, so that an earlier miss of its stream holds it (09 R228). Permissions are reported, those of the
range entry with them, and no missing one is a fault (log 75). -/
def execTlbp (a d : BitVec 5) (s : State) : Host.Outcome State Fault Refusal :=
  word32 { srcs := [a.toNat], outs := [d.toNat] }
    (fun s =>
      match decodeEa (kindOf s.foc.ctx.core) (s.rd a) 1 with
      | .glob va =>
        if s.acquiring s.foc then .wait 0x03 s
        else match s.fcore.tlbHit s.fctx.job va with
        | some l => .done (s.interlocked d.toNat (s.clk + 3)
            (if s.outOfMemory s.foc.ctx.core s.fctx.job l va then BitVec.ofNat 64 (5 * 2 ^ 60) else tlbpWord l va true))
        | none =>
          let v := match s.walk s.foc.ctx.core s.fctx.job.toNat .probe va with
            | .ok l => tlbpWord l va false
            | .fault kind _ _ => BitVec.ofNat 64 (kind * 2 ^ 60)
          let (t, s) := s.freeTime
          .done (s.interlocked d.toNat (s.clk + t) v)
      | _ => .done (s.interlocked d.toNat (s.clk + 3) (BitVec.ofNat 64 (6 * 2 ^ 60)))) s

end Sys2Proof.Machine
end

