-- ==== Sys2Proof/Decode.lean ====
section
/-! DEFINITION. The decoder of each stream, total on any halfwords and rejecting by name (13 R300, 12 R298), and the encoder,
both written from the formats of 13 R303 and the maps of R308 to R312. -/

namespace Sys2Proof

/-- Why a word does not decode: every one of these raises ILLEGAL (12 R298, 13 R300). -/
inductive Illegal where
  /-- A major the stream or the kind of core does not allocate. -/
  | unallocatedMajor
  /-- An FN, code or cmd the major does not allocate. -/
  | unallocatedFn
  /-- A reserved or unused field that is not 0. -/
  | reservedField
  /-- A major 0x1F word in a body: only block headers have it. -/
  | blockHeader
  /-- An operand field outside the limits of its instruction. -/
  | operand
  /-- A 16-bit op that is not allocated. -/
  | unallocatedOp16
deriving DecidableEq, Repr

/-- A part of a field. -/
def sub {n : Nat} (x : BitVec n) (lo len : Nat) : BitVec len := x.extractLsb' lo len

/-- Bits [5:1] of a 32-bit word (13 R303). -/
def majorOf (w : BitVec 32) : BitVec 5 := w.extractLsb' 1 5

/-- Format W3, three registers (13 R303). -/
structure FW3 where
  fn : BitVec 4
  n : BitVec 1
  g : BitVec 6
  b : BitVec 5
  a : BitVec 5
  d : BitVec 5
deriving DecidableEq, Repr

/-- The fields of a word of format W3. -/
def splitW3 (w : BitVec 32) : FW3 :=
  ⟨w.extractLsb' 28 4, w.extractLsb' 27 1, w.extractLsb' 21 6, w.extractLsb' 16 5, w.extractLsb' 11 5, w.extractLsb' 6 5⟩

/-- The word of format W3 with a major and fields. -/
def joinW3 (m : BitVec 5) (f : FW3) : BitVec 32 :=
  f.fn ++ f.n ++ f.g ++ f.b ++ f.a ++ f.d ++ m ++ 1#1

/-- Format WI, register and 12-bit immediate; WM has the same places, with the code in FN, the base in ra and the register in rd (13 R303). -/
structure FWI where
  fn : BitVec 4
  imm : BitVec 12
  a : BitVec 5
  d : BitVec 5
deriving DecidableEq, Repr

/-- The fields of a word of format WI. -/
def splitWI (w : BitVec 32) : FWI :=
  ⟨w.extractLsb' 28 4, w.extractLsb' 16 12, w.extractLsb' 11 5, w.extractLsb' 6 5⟩

/-- The word of format WI with a major and fields. -/
def joinWI (m : BitVec 5) (f : FWI) : BitVec 32 :=
  f.fn ++ f.imm ++ f.a ++ f.d ++ m ++ 1#1

/-- Format WU, 20-bit immediate (13 R303). -/
structure FWU where
  fn : BitVec 1
  imm : BitVec 20
  d : BitVec 5
deriving DecidableEq, Repr

/-- The fields of a word of format WU. -/
def splitWU (w : BitVec 32) : FWU :=
  ⟨w.extractLsb' 31 1, w.extractLsb' 11 20, w.extractLsb' 6 5⟩

/-- The word of format WU with a major and fields. -/
def joinWU (m : BitVec 5) (f : FWU) : BitVec 32 :=
  f.fn ++ f.imm ++ f.d ++ m ++ 1#1

/-- Format WP, compare or predicate logic (13 R303). -/
structure FWP where
  rsv : BitVec 5
  n : BitVec 1
  fn : BitVec 4
  b : BitVec 5
  a : BitVec 5
  d : BitVec 6
deriving DecidableEq, Repr

/-- The fields of a word of format WP. -/
def splitWP (w : BitVec 32) : FWP :=
  ⟨w.extractLsb' 27 5, w.extractLsb' 26 1, w.extractLsb' 22 4, w.extractLsb' 17 5, w.extractLsb' 12 5, w.extractLsb' 6 6⟩

/-- The word of format WP with a major and fields. -/
def joinWP (m : BitVec 5) (f : FWP) : BitVec 32 :=
  f.rsv ++ f.n ++ f.fn ++ f.b ++ f.a ++ f.d ++ m ++ 1#1

/-- Format WPI, compare with immediate (13 R303). -/
structure FWPI where
  n : BitVec 1
  fn : BitVec 3
  imm : BitVec 11
  a : BitVec 5
  d : BitVec 6
deriving DecidableEq, Repr

/-- The fields of a word of format WPI. -/
def splitWPI (w : BitVec 32) : FWPI :=
  ⟨w.extractLsb' 31 1, w.extractLsb' 28 3, w.extractLsb' 17 11, w.extractLsb' 12 5, w.extractLsb' 6 6⟩

/-- The word of format WPI with a major and fields. -/
def joinWPI (m : BitVec 5) (f : FWPI) : BitVec 32 :=
  f.n ++ f.fn ++ f.imm ++ f.a ++ f.d ++ m ++ 1#1

/-- Format WBP, prepare to branch (13 R303). -/
structure FWBP where
  fn : BitVec 3
  off : BitVec 20
  t : BitVec 3
deriving DecidableEq, Repr

/-- The fields of a word of format WBP. -/
def splitWBP (w : BitVec 32) : FWBP :=
  ⟨w.extractLsb' 29 3, w.extractLsb' 9 20, w.extractLsb' 6 3⟩

/-- The word of format WBP with a major and fields. -/
def joinWBP (m : BitVec 5) (f : FWBP) : BitVec 32 :=
  f.fn ++ f.off ++ f.t ++ m ++ 1#1

/-- Format WBB, branch (13 R303). -/
structure FWBB where
  rsv : BitVec 7
  a : BitVec 5
  fn : BitVec 4
  n : BitVec 1
  g : BitVec 6
  t : BitVec 3
deriving DecidableEq, Repr

/-- The fields of a word of format WBB. -/
def splitWBB (w : BitVec 32) : FWBB :=
  ⟨w.extractLsb' 25 7, w.extractLsb' 20 5, w.extractLsb' 16 4, w.extractLsb' 15 1, w.extractLsb' 9 6, w.extractLsb' 6 3⟩

/-- The word of format WBB with a major and fields. -/
def joinWBB (m : BitVec 5) (f : FWBB) : BitVec 32 :=
  f.rsv ++ f.a ++ f.fn ++ f.n ++ f.g ++ f.t ++ m ++ 1#1

/-- Format WV4, four vector registers (13 R303). -/
structure FWV4 where
  g : BitVec 4
  fn : BitVec 2
  c : BitVec 5
  b : BitVec 5
  a : BitVec 5
  d : BitVec 5
deriving DecidableEq, Repr

/-- The fields of a word of format WV4. -/
def splitWV4 (w : BitVec 32) : FWV4 :=
  ⟨w.extractLsb' 28 4, w.extractLsb' 26 2, w.extractLsb' 21 5, w.extractLsb' 16 5, w.extractLsb' 11 5, w.extractLsb' 6 5⟩

/-- The word of format WV4 with a major and fields. -/
def joinWV4 (m : BitVec 5) (f : FWV4) : BitVec 32 :=
  f.g ++ f.fn ++ f.c ++ f.b ++ f.a ++ f.d ++ m ++ 1#1

/-- Format WA, vector access (13 R303). -/
structure FWA where
  fn : BitVec 4
  rsv : BitVec 1
  n : BitVec 6
  rs : BitVec 5
  base : BitVec 5
  q : BitVec 5
deriving DecidableEq, Repr

/-- The fields of a word of format WA. -/
def splitWA (w : BitVec 32) : FWA :=
  ⟨w.extractLsb' 28 4, w.extractLsb' 27 1, w.extractLsb' 21 6, w.extractLsb' 16 5, w.extractLsb' 11 5, w.extractLsb' 6 5⟩

/-- The word of format WA with a major and fields. -/
def joinWA (m : BitVec 5) (f : FWA) : BitVec 32 :=
  f.fn ++ f.rsv ++ f.n ++ f.rs ++ f.base ++ f.q ++ m ++ 1#1

/-- Format WD, distribution tag (13 R303). -/
structure FWD where
  fn : BitVec 4
  rsv : BitVec 1
  imm : BitVec 16
  d : BitVec 5
deriving DecidableEq, Repr

/-- The fields of a word of format WD. -/
def splitWD (w : BitVec 32) : FWD :=
  ⟨w.extractLsb' 28 4, w.extractLsb' 27 1, w.extractLsb' 11 16, w.extractLsb' 6 5⟩

/-- The word of format WD with a major and fields. -/
def joinWD (m : BitVec 5) (f : FWD) : BitVec 32 :=
  f.fn ++ f.rsv ++ f.imm ++ f.d ++ m ++ 1#1

/-- Format WE, engine command (13 R303). -/
structure FWE where
  x : BitVec 1
  fl : BitVec 4
  sig : BitVec 3
  wait : BitVec 3
  sb : BitVec 5
  sa : BitVec 5
  cmd : BitVec 5
deriving DecidableEq, Repr

/-- The fields of a word of format WE. -/
def splitWE (w : BitVec 32) : FWE :=
  ⟨w.extractLsb' 31 1, w.extractLsb' 27 4, w.extractLsb' 24 3, w.extractLsb' 21 3, w.extractLsb' 16 5, w.extractLsb' 11 5, w.extractLsb' 6 5⟩

/-- The word of format WE with a major and fields. -/
def joinWE (m : BitVec 5) (f : FWE) : BitVec 32 :=
  f.x ++ f.fl ++ f.sig ++ f.wait ++ f.sb ++ f.sa ++ f.cmd ++ m ++ 1#1

/-- Major 0x00 of the C and A streams (13 R308). -/
def parseCA00 (w : BitVec 32) : Except Illegal Instr :=
  let f := splitW3 w
  match f.fn.toNat with
  | 0 => .ok (Instr.add ⟨f.n == 1#1, f.g⟩ f.b f.a f.d)
  | 1 => .ok (Instr.sub ⟨f.n == 1#1, f.g⟩ f.b f.a f.d)
  | 2 => .ok (Instr.and ⟨f.n == 1#1, f.g⟩ f.b f.a f.d)
  | 3 => .ok (Instr.or ⟨f.n == 1#1, f.g⟩ f.b f.a f.d)
  | 4 => .ok (Instr.xor ⟨f.n == 1#1, f.g⟩ f.b f.a f.d)
  | 5 => .ok (Instr.andn ⟨f.n == 1#1, f.g⟩ f.b f.a f.d)
  | 6 => .ok (Instr.shl ⟨f.n == 1#1, f.g⟩ f.b f.a f.d)
  | 7 => .ok (Instr.shr ⟨f.n == 1#1, f.g⟩ f.b f.a f.d)
  | 8 => .ok (Instr.sar ⟨f.n == 1#1, f.g⟩ f.b f.a f.d)
  | 9 => .ok (Instr.rol ⟨f.n == 1#1, f.g⟩ f.b f.a f.d)
  | 10 => .ok (Instr.min ⟨f.n == 1#1, f.g⟩ f.b f.a f.d)
  | 11 => .ok (Instr.max ⟨f.n == 1#1, f.g⟩ f.b f.a f.d)
  | 12 => .ok (Instr.minu ⟨f.n == 1#1, f.g⟩ f.b f.a f.d)
  | 13 => .ok (Instr.maxu ⟨f.n == 1#1, f.g⟩ f.b f.a f.d)
  | 14 => .ok (Instr.mul ⟨f.n == 1#1, f.g⟩ f.b f.a f.d)
  | 15 => .ok (Instr.mulhu ⟨f.n == 1#1, f.g⟩ f.b f.a f.d)
  | _ => .error .unallocatedFn

/-- Major 0x01 of the C and A streams (13 R308). -/
def parseCA01 (w : BitVec 32) : Except Illegal Instr :=
  let f := splitWI w
  match f.fn.toNat with
  | 0 => .ok (Instr.addi f.imm f.a f.d)
  | 1 => .ok (Instr.andi f.imm f.a f.d)
  | 2 => .ok (Instr.ori f.imm f.a f.d)
  | 3 => .ok (Instr.xori f.imm f.a f.d)
  | 4 => if sub f.imm 6 6 == 0#6 then .ok (Instr.shli (sub f.imm 0 6) f.a f.d) else .error .reservedField
  | 5 => if sub f.imm 6 6 == 0#6 then .ok (Instr.shri (sub f.imm 0 6) f.a f.d) else .error .reservedField
  | 6 => if sub f.imm 6 6 == 0#6 then .ok (Instr.sari (sub f.imm 0 6) f.a f.d) else .error .reservedField
  | 7 => .ok (Instr.muli f.imm f.a f.d)
  | _ => .error .unallocatedFn

/-- Major 0x02 of the C and A streams (13 R308). -/
def parseCA02 (w : BitVec 32) : Except Illegal Instr :=
  let f := splitWU w
  match f.fn.toNat with
  | 0 => .ok (Instr.lui f.imm f.d)
  | 1 => .ok (Instr.auib f.imm f.d)
  | _ => .error .unallocatedFn

/-- Major 0x03 of the C and A streams (13 R308). -/
def parseCA03 (w : BitVec 32) : Except Illegal Instr :=
  let f := splitW3 w
  match f.fn.toNat with
  | 0 => .ok (Instr.bext ⟨f.n == 1#1, f.g⟩ f.b f.a f.d)
  | 1 => .ok (Instr.bexts ⟨f.n == 1#1, f.g⟩ f.b f.a f.d)
  | 2 => .ok (Instr.bins ⟨f.n == 1#1, f.g⟩ f.b f.a f.d)
  | 3 => if f.b == 0#5 then .ok (Instr.clz ⟨f.n == 1#1, f.g⟩ f.a f.d) else .error .reservedField
  | 4 => if f.b == 0#5 then .ok (Instr.ctz ⟨f.n == 1#1, f.g⟩ f.a f.d) else .error .reservedField
  | 5 => if f.b == 0#5 then .ok (Instr.popc ⟨f.n == 1#1, f.g⟩ f.a f.d) else .error .reservedField
  | 6 => let f := splitWI w; .ok (Instr.bexti (sub f.imm 6 6) (sub f.imm 0 6) f.a f.d)
  | 7 => let f := splitWI w; .ok (Instr.binsi (sub f.imm 6 6) (sub f.imm 0 6) f.a f.d)
  | _ => .error .unallocatedFn

/-- Major 0x04 of the C and A streams (13 R308). -/
def parseCA04 (w : BitVec 32) : Except Illegal Instr :=
  let f := splitWP w
  match f.fn.toNat with
  | 0 => if f.rsv == 0#5 then .ok (Instr.cmpEq (f.n == 1#1) f.b f.a f.d) else .error .reservedField
  | 1 => if f.rsv == 0#5 then .ok (Instr.cmpNe (f.n == 1#1) f.b f.a f.d) else .error .reservedField
  | 2 => if f.rsv == 0#5 then .ok (Instr.cmpLt (f.n == 1#1) f.b f.a f.d) else .error .reservedField
  | 3 => if f.rsv == 0#5 then .ok (Instr.cmpGe (f.n == 1#1) f.b f.a f.d) else .error .reservedField
  | 4 => if f.rsv == 0#5 then .ok (Instr.cmpLtu (f.n == 1#1) f.b f.a f.d) else .error .reservedField
  | 5 => if f.rsv == 0#5 then .ok (Instr.cmpGeu (f.n == 1#1) f.b f.a f.d) else .error .reservedField
  | _ => .error .unallocatedFn

/-- Major 0x05 of the C and A streams (13 R308). -/
def parseCA05 (w : BitVec 32) : Except Illegal Instr :=
  let f := splitWPI w
  match f.fn.toNat with
  | 0 => .ok (Instr.cmpiEq (f.n == 1#1) f.imm f.a f.d)
  | 1 => .ok (Instr.cmpiNe (f.n == 1#1) f.imm f.a f.d)
  | 2 => .ok (Instr.cmpiLt (f.n == 1#1) f.imm f.a f.d)
  | 3 => .ok (Instr.cmpiGe (f.n == 1#1) f.imm f.a f.d)
  | 4 => .ok (Instr.cmpiLtu (f.n == 1#1) f.imm f.a f.d)
  | 5 => .ok (Instr.cmpiGeu (f.n == 1#1) f.imm f.a f.d)
  | _ => .error .unallocatedFn

/-- Major 0x06 of the C and A streams (13 R308). -/
def parseCA06 (w : BitVec 32) : Except Illegal Instr :=
  let f := splitWP w
  match f.fn.toNat with
  | 0 => if f.rsv == 0#5 then .ok (Instr.pand (f.n == 1#1) f.b f.a f.d) else .error .reservedField
  | 1 => if f.rsv == 0#5 then .ok (Instr.por (f.n == 1#1) f.b f.a f.d) else .error .reservedField
  | 2 => if f.rsv == 0#5 then .ok (Instr.pxor (f.n == 1#1) f.b f.a f.d) else .error .reservedField
  | 3 => if f.rsv == 0#5 then .ok (Instr.pandn (f.n == 1#1) f.b f.a f.d) else .error .reservedField
  | 4 => if f.rsv == 0#5 && f.b == 0#5 then .ok (Instr.pmov (f.n == 1#1) f.a f.d) else .error .reservedField
  | 5 => if f.rsv == 0#5 && f.b == 0#5 then .ok (Instr.pnot (f.n == 1#1) f.a f.d) else .error .reservedField
  | _ => .error .unallocatedFn

/-- Major 0x07 of the C and A streams (13 R308). -/
def parseCA07 (w : BitVec 32) : Except Illegal Instr :=
  let f := splitW3 w
  match f.fn.toNat with
  | 0 => if f.b == 0#5 then .ok (Instr.movqPop ⟨f.n == 1#1, f.g⟩ f.a f.d) else .error .reservedField
  | 1 => if f.b == 0#5 then .ok (Instr.movqPush ⟨f.n == 1#1, f.g⟩ f.a f.d) else .error .reservedField
  | 2 => .ok (Instr.trypopQueue ⟨f.n == 1#1, f.g⟩ f.b f.a f.d)
  | _ => .error .unallocatedFn

/-- Major 0x08 of the C and A streams (13 R308). -/
def parseCA08 (w : BitVec 32) : Except Illegal Instr :=
  let f := splitWI w
  match f.fn.toNat with
  | 0 => .ok (Instr.ldB f.imm f.a f.d)
  | 1 => .ok (Instr.ldH f.imm f.a f.d)
  | 2 => .ok (Instr.ldW f.imm f.a f.d)
  | 3 => .ok (Instr.ld f.imm f.a f.d)
  | 4 => .ok (Instr.ldSb f.imm f.a f.d)
  | 5 => .ok (Instr.ldSh f.imm f.a f.d)
  | 6 => .ok (Instr.ldSw f.imm f.a f.d)
  | _ => if sub f.fn 3 1 == 1#1 then .ok (Instr.ldAcq (sub f.fn 0 3) f.imm f.a f.d) else .error .unallocatedFn

/-- Major 0x09 of the C and A streams (13 R308). -/
def parseCA09 (w : BitVec 32) : Except Illegal Instr :=
  let f := splitWI w
  match f.fn.toNat with
  | 0 => .ok (Instr.stB f.imm f.a f.d)
  | 1 => .ok (Instr.stH f.imm f.a f.d)
  | 2 => .ok (Instr.stW f.imm f.a f.d)
  | 3 => .ok (Instr.st f.imm f.a f.d)
  | _ => if sub f.fn 3 1 == 1#1 then .ok (Instr.stRel (sub f.fn 0 3) f.imm f.a f.d) else .error .unallocatedFn

/-- Major 0x0A of the C and A streams (13 R308). -/
def parseCA0A (w : BitVec 32) : Except Illegal Instr :=
  let f := splitW3 w
  match f.fn.toNat with
  | 0 => .ok (Instr.amoAdd ⟨f.n == 1#1, f.g⟩ f.b f.a f.d)
  | 1 => .ok (Instr.amoAnd ⟨f.n == 1#1, f.g⟩ f.b f.a f.d)
  | 2 => .ok (Instr.amoOr ⟨f.n == 1#1, f.g⟩ f.b f.a f.d)
  | 3 => .ok (Instr.amoXor ⟨f.n == 1#1, f.g⟩ f.b f.a f.d)
  | 4 => .ok (Instr.amoMin ⟨f.n == 1#1, f.g⟩ f.b f.a f.d)
  | 5 => .ok (Instr.amoMax ⟨f.n == 1#1, f.g⟩ f.b f.a f.d)
  | 6 => .ok (Instr.amoMinu ⟨f.n == 1#1, f.g⟩ f.b f.a f.d)
  | 7 => .ok (Instr.amoMaxu ⟨f.n == 1#1, f.g⟩ f.b f.a f.d)
  | 8 => .ok (Instr.amoSwap ⟨f.n == 1#1, f.g⟩ f.b f.a f.d)
  | 9 => .ok (Instr.cas ⟨f.n == 1#1, f.g⟩ f.b f.a f.d)
  | _ => .error .unallocatedFn

/-- Major 0x0B of the C and A streams (13 R308). -/
def parseCA0B (w : BitVec 32) : Except Illegal Instr :=
  let f := splitWI w
  match f.fn.toNat with
  | 0 => if f.a == 0#5 then .ok (Instr.ldlB f.imm f.d) else .error .reservedField
  | 1 => if f.a == 0#5 then .ok (Instr.ldlH f.imm f.d) else .error .reservedField
  | 2 => if f.a == 0#5 then .ok (Instr.ldlW f.imm f.d) else .error .reservedField
  | 3 => if f.a == 0#5 then .ok (Instr.ldl f.imm f.d) else .error .reservedField
  | 4 => if f.a == 0#5 then .ok (Instr.ldlSb f.imm f.d) else .error .reservedField
  | 5 => if f.a == 0#5 then .ok (Instr.ldlSh f.imm f.d) else .error .reservedField
  | 6 => if f.a == 0#5 then .ok (Instr.ldlSw f.imm f.d) else .error .reservedField
  | 8 => if f.a == 0#5 then .ok (Instr.stlB f.imm f.d) else .error .reservedField
  | 9 => if f.a == 0#5 then .ok (Instr.stlH f.imm f.d) else .error .reservedField
  | 10 => if f.a == 0#5 then .ok (Instr.stlW f.imm f.d) else .error .reservedField
  | 11 => if f.a == 0#5 then .ok (Instr.stl f.imm f.d) else .error .reservedField
  | _ => .error .unallocatedFn

/-- Major 0x0C of the C and A streams (13 R308). -/
def parseCA0C (w : BitVec 32) : Except Illegal Instr :=
  let f := splitWI w
  match f.fn.toNat with
  | 0 => if sub f.imm 4 8 == 0#8 && f.a == 0#5 && f.d == 0#5 then .ok (Instr.fence (sub f.imm 3 1 == 1#1) (sub f.imm 0 3)) else .error .reservedField
  | _ => .error .unallocatedFn

/-- Major 0x0D of the C and A streams (13 R308). -/
def parseCA0D (w : BitVec 32) : Except Illegal Instr :=
  let f := splitWBP w
  match f.fn.toNat with
  | 0 => .ok (Instr.pbr f.off f.t)
  | _ => .error .unallocatedFn

/-- Major 0x0E of the C and A streams (13 R308). -/
def parseCA0E (w : BitVec 32) : Except Illegal Instr :=
  let f := splitWBB w
  match f.fn.toNat with
  | 0 => if f.rsv == 0#7 then .ok (Instr.pbrx f.a ⟨f.n == 1#1, f.g⟩ f.t) else .error .reservedField
  | 1 => if f.rsv == 0#7 && f.a == 0#5 then .ok (Instr.br ⟨f.n == 1#1, f.g⟩ f.t) else .error .reservedField
  | 2 => if f.rsv == 0#7 && f.a == 0#5 then .ok (Instr.brl ⟨f.n == 1#1, f.g⟩ f.t) else .error .reservedField
  | _ => .error .unallocatedFn

/-- Majors 0x00 to 0x0E of the C and A streams (13 R308) -/
def parseCA (w : BitVec 32) : Except Illegal Instr :=
  match (majorOf w).toNat with
  | 0x00 => parseCA00 w
  | 0x01 => parseCA01 w
  | 0x02 => parseCA02 w
  | 0x03 => parseCA03 w
  | 0x04 => parseCA04 w
  | 0x05 => parseCA05 w
  | 0x06 => parseCA06 w
  | 0x07 => parseCA07 w
  | 0x08 => parseCA08 w
  | 0x09 => parseCA09 w
  | 0x0A => parseCA0A w
  | 0x0B => parseCA0B w
  | 0x0C => parseCA0C w
  | 0x0D => parseCA0D w
  | 0x0E => parseCA0E w
  | 0x1F => .error .blockHeader
  | _ => .error .unallocatedMajor

/-- Major 0x10 of the C stream (13 R309, R312). -/
def parseC10 (w : BitVec 32) : Except Illegal Instr :=
  let f := splitW3 w
  match f.fn.toNat with
  | 0 => .ok (Instr.div ⟨f.n == 1#1, f.g⟩ f.b f.a f.d)
  | 1 => .ok (Instr.divu ⟨f.n == 1#1, f.g⟩ f.b f.a f.d)
  | 2 => .ok (Instr.rem ⟨f.n == 1#1, f.g⟩ f.b f.a f.d)
  | 3 => .ok (Instr.remu ⟨f.n == 1#1, f.g⟩ f.b f.a f.d)
  | _ => .error .unallocatedFn

/-- Major 0x11 of the C stream (13 R309, R312). -/
def parseC11 (w : BitVec 32) : Except Illegal Instr :=
  let f := splitWI w
  match f.fn.toNat with
  | 0 => if f.a == 0#5 then .ok (Instr.mfs f.imm f.d) else .error .reservedField
  | 1 => if f.d == 0#5 then .ok (Instr.mts f.imm f.a) else .error .reservedField
  | _ => .error .unallocatedFn

/-- Major 0x12 of the C stream (13 R309, R312). -/
def parseC12 (w : BitVec 32) : Except Illegal Instr :=
  let f := splitWI w
  match f.fn.toNat with
  | 0 => if sub f.imm 8 4 == 0#4 && f.a == 0#5 && f.d == 0#5 then .ok (Instr.barArrive (sub f.imm 5 3) (sub f.imm 0 5)) else .error .reservedField
  | 1 => if sub f.imm 8 4 == 0#4 && f.a == 0#5 && f.d == 0#5 then .ok (Instr.barWait (sub f.imm 5 3) (sub f.imm 0 5)) else .error .reservedField
  | 2 => if sub f.imm 8 4 == 0#4 && f.a == 0#5 && f.d == 0#5 then .ok (Instr.barAw (sub f.imm 5 3) (sub f.imm 0 5)) else .error .reservedField
  | 3 => if sub f.imm 1 11 == 0#11 && f.d == 0#5 then .ok (Instr.twait (sub f.imm 0 1 == 1#1) f.a) else .error .reservedField
  | 4 => if f.imm == 0#12 then .ok (Instr.waitm f.a f.d) else .error .reservedField
  | 5 => if sub f.imm 3 9 == 0#9 && f.a == 0#5 && f.d == 0#5 then .ok (Instr.qwait (sub f.imm 0 3)) else .error .reservedField
  | 6 => if f.imm == 0#12 && f.d == 0#5 then .ok (Instr.signal f.a) else .error .reservedField
  | _ => .error .unallocatedFn

/-- Major 0x13 of the C stream (13 R309, R312). -/
def parseC13 (w : BitVec 32) : Except Illegal Instr :=
  let f := splitW3 w
  match f.fn.toNat with
  | 0 => if f.b == 0#5 && f.d == 0#5 then .ok (Instr.push ⟨f.n == 1#1, f.g⟩ f.a) else .error .reservedField
  | 1 => if f.b == 0#5 && f.d == 0#5 then .ok (Instr.pop ⟨f.n == 1#1, f.g⟩ f.a) else .error .reservedField
  | 2 => if f.d == 0#5 then .ok (Instr.trypopToken ⟨f.n == 1#1, f.g⟩ f.b f.a) else .error .reservedField
  | 3 => if f.d == 0#5 then .ok (Instr.setup ⟨f.n == 1#1, f.g⟩ f.b f.a) else .error .reservedField
  | _ => .error .unallocatedFn

/-- Major 0x14 of the C stream (13 R309, R312). -/
def parseC14 (w : BitVec 32) : Except Illegal Instr :=
  let f := splitWI w
  match f.fn.toNat with
  | 0 => if sub f.imm 5 7 == 0#7 && f.a == 0#5 then .ok (Instr.oclaim (sub f.imm 0 5) f.d) else .error .reservedField
  | 1 => if sub f.imm 5 7 == 0#7 && f.a == 0#5 && f.d == 0#5 then .ok (Instr.orelease (sub f.imm 0 5)) else .error .reservedField
  | _ => .error .unallocatedFn

/-- Major 0x15 of the C stream (13 R309, R312). -/
def parseC15 (w : BitVec 32) : Except Illegal Instr :=
  let f := splitW3 w
  match f.fn.toNat with
  | 0 => if f.d == 0#5 then .ok (Instr.send ⟨f.n == 1#1, f.g⟩ f.b f.a) else .error .reservedField
  | 1 => if f.b == 0#5 && f.a == 0#5 && f.d == 0#5 then .ok (Instr.hret ⟨f.n == 1#1, f.g⟩) else .error .reservedField
  | _ => .error .unallocatedFn

/-- Major 0x16 of the C stream (13 R309, R312). -/
def parseC16 (w : BitVec 32) : Except Illegal Instr :=
  let f := splitWI w
  match f.fn.toNat with
  | 0 => if f.a == 0#5 && f.d == 0#5 then .ok (Instr.trap f.imm) else .error .reservedField
  | 1 => if f.imm == 0#12 && f.a == 0#5 && f.d == 0#5 then .ok (Instr.rte) else if f.imm == 1#12 && f.a == 0#5 && f.d == 0#5 then .ok (Instr.rteSkip) else .error .reservedField
  | 2 => if f.a == 0#5 && f.d == 0#5 then .ok (Instr.waypt f.imm) else .error .reservedField
  | 3 => if f.imm == 0#12 then .ok (Instr.evac f.a f.d) else .error .reservedField
  | 4 => if f.imm == 0#12 && f.a == 0#5 && f.d == 0#5 then .ok (Instr.retire) else .error .reservedField
  | 5 => if f.imm == 0#12 then .ok (Instr.mrepair f.a f.d) else .error .reservedField
  | 6 => let f := splitW3 w; .ok (Instr.launch ⟨f.n == 1#1, f.g⟩ f.b f.a f.d)
  | 7 => if f.imm == 0#12 && f.d == 0#5 then .ok (Instr.ckpt f.a) else .error .reservedField
  | _ => .error .unallocatedFn

/-- Major 0x17 of the C stream (13 R309, R312). -/
def parseC17 (w : BitVec 32) : Except Illegal Instr :=
  let f := splitWE w
  match f.cmd.toNat with
  | 0 => if f.fl == 0#4 then .ok (Instr.cld ⟨f.x == 1#1, f.sig, f.wait, f.sb, f.sa⟩) else .error .reservedField
  | 1 => if f.fl == 0#4 then .ok (Instr.cst ⟨f.x == 1#1, f.sig, f.wait, f.sb, f.sa⟩) else .error .reservedField
  | 2 => if f.fl == 0#4 then .ok (Instr.csta ⟨f.x == 1#1, f.sig, f.wait, f.sb, f.sa⟩) else .error .reservedField
  | 3 => if sub f.fl 0 2 == 0#2 then .ok (Instr.cchn ⟨f.x == 1#1, f.sig, f.wait, f.sb, f.sa⟩ (sub f.fl 3 1 == 1#1) (sub f.fl 2 1 == 1#1)) else .error .reservedField
  | 4 => if f.fl == 0#4 then .ok (Instr.cslc ⟨f.x == 1#1, f.sig, f.wait, f.sb, f.sa⟩) else .error .reservedField
  | 5 => if f.fl == 0#4 then .ok (Instr.covl ⟨f.x == 1#1, f.sig, f.wait, f.sb, f.sa⟩) else .error .reservedField
  | 6 => if sub f.fl 0 3 == 0#3 then .ok (Instr.cmig ⟨f.x == 1#1, f.sig, f.wait, f.sb, f.sa⟩ (sub f.fl 3 1 == 1#1)) else .error .reservedField
  | 7 => if sub f.fl 0 3 == 0#3 then .ok (Instr.cinv ⟨f.x == 1#1, f.sig, f.wait, f.sb, f.sa⟩ (sub f.fl 3 1 == 1#1)) else .error .reservedField
  | _ => .error .unallocatedFn

/-- Major 0x18 of the C stream (13 R309, R312). -/
def parseC18 (w : BitVec 32) : Except Illegal Instr :=
  let f := splitWE w
  match f.cmd.toNat with
  | 0 => .ok (Instr.mma ⟨f.x == 1#1, f.sig, f.wait, f.sb, f.sa⟩ (sub f.fl 3 1 == 1#1) (sub f.fl 0 3))
  | 1 => .ok (Instr.mmas ⟨f.x == 1#1, f.sig, f.wait, f.sb, f.sa⟩ (sub f.fl 3 1 == 1#1) (sub f.fl 0 3))
  | 2 => if f.fl == 0#4 then .ok (Instr.mrot ⟨f.x == 1#1, f.sig, f.wait, f.sb, f.sa⟩) else .error .reservedField
  | 3 => if f.fl == 0#4 then .ok (Instr.mdrn ⟨f.x == 1#1, f.sig, f.wait, f.sb, f.sa⟩) else .error .reservedField
  | 4 => if f.fl == 0#4 then .ok (Instr.mclr ⟨f.x == 1#1, f.sig, f.wait, f.sb, f.sa⟩) else .error .reservedField
  | 5 => if f.fl == 0#4 then .ok (Instr.msgn ⟨f.x == 1#1, f.sig, f.wait, f.sb, f.sa⟩) else .error .reservedField
  | _ => .error .unallocatedFn

/-- Major 0x19 of the C stream (13 R309, R312). -/
def parseC19 (w : BitVec 32) : Except Illegal Instr :=
  let f := splitWE w
  match f.cmd.toNat with
  | 0 => if f.fl == 0#4 then .ok (Instr.wmax ⟨f.x == 1#1, f.sig, f.wait, f.sb, f.sa⟩) else .error .reservedField
  | 1 => if f.fl == 0#4 then .ok (Instr.wexs ⟨f.x == 1#1, f.sig, f.wait, f.sb, f.sa⟩) else .error .reservedField
  | 2 => if f.fl == 0#4 then .ok (Instr.wscl ⟨f.x == 1#1, f.sig, f.wait, f.sb, f.sa⟩) else .error .reservedField
  | 3 => if f.fl == 0#4 then .ok (Instr.wmom ⟨f.x == 1#1, f.sig, f.wait, f.sb, f.sa⟩) else .error .reservedField
  | 4 => if f.fl == 0#4 then .ok (Instr.wapl ⟨f.x == 1#1, f.sig, f.wait, f.sb, f.sa⟩) else .error .reservedField
  | _ => .error .unallocatedFn

/-- Majors 0x10 to 0x19 of the C stream (13 R309, R312) -/
def parseC (w : BitVec 32) : Except Illegal Instr :=
  match (majorOf w).toNat with
  | 0x10 => parseC10 w
  | 0x11 => parseC11 w
  | 0x12 => parseC12 w
  | 0x13 => parseC13 w
  | 0x14 => parseC14 w
  | 0x15 => parseC15 w
  | 0x16 => parseC16 w
  | 0x17 => parseC17 w
  | 0x18 => parseC18 w
  | 0x19 => parseC19 w
  | 0x1F => .error .blockHeader
  | _ => .error .unallocatedMajor

/-- Major 0x0F of the A stream (13 R310). -/
def parseA0F (w : BitVec 32) : Except Illegal Instr :=
  let f := splitWI w
  match f.fn.toNat with
  | 0 => if sub f.imm 4 8 == 0#8 && f.d == 0#5 then .ok (Instr.sloop (sub f.imm 0 4) f.a) else .error .reservedField
  | 1 => if f.imm == 0#12 && f.a == 0#5 && sub f.d 3 2 == 0#2 then .ok (Instr.snext (sub f.d 0 3)) else .error .reservedField
  | _ => .error .unallocatedFn

/-- Major 0x10 of the A stream (13 R310). -/
def parseA10 (w : BitVec 32) : Except Illegal Instr :=
  let f := splitWA w
  match f.fn.toNat with
  | 0 => if f.rsv == 0#1 then .ok (Instr.ldv f.n f.rs f.base f.q) else .error .reservedField
  | _ => .error .unallocatedFn

/-- Major 0x11 of the A stream (13 R310). -/
def parseA11 (w : BitVec 32) : Except Illegal Instr :=
  let f := splitWA w
  match f.fn.toNat with
  | 0 => if f.rsv == 0#1 then .ok (Instr.stv f.n f.rs f.base f.q) else .error .reservedField
  | _ => .error .unallocatedFn

/-- Major 0x12 of the A stream (13 R310). -/
def parseA12 (w : BitVec 32) : Except Illegal Instr :=
  let f := splitWA w
  match f.fn.toNat with
  | 0 => if f.rsv == 0#1 then .ok (Instr.ldg f.n f.rs f.base f.q) else .error .reservedField
  | _ => .error .unallocatedFn

/-- Major 0x13 of the A stream (13 R310). -/
def parseA13 (w : BitVec 32) : Except Illegal Instr :=
  let f := splitWA w
  match f.fn.toNat with
  | 0 => if f.rsv == 0#1 then .ok (Instr.stsc f.n f.rs f.base f.q) else .error .reservedField
  | _ => .error .unallocatedFn

/-- Major 0x14 of the A stream (13 R310). -/
def parseA14 (w : BitVec 32) : Except Illegal Instr :=
  let f := splitWA w
  match f.fn.toNat with
  | 0 => if f.rsv == 0#1 then .ok (Instr.amovAdd f.n f.rs f.base f.q) else .error .reservedField
  | 1 => if f.rsv == 0#1 then .ok (Instr.amovMax f.n f.rs f.base f.q) else .error .reservedField
  | _ => .error .unallocatedFn

/-- Major 0x15 of the A stream (13 R310). -/
def parseA15 (w : BitVec 32) : Except Illegal Instr :=
  let f := splitWI w
  match f.fn.toNat with
  | 0 => if f.d == 0#5 then .ok (Instr.pref f.imm f.a) else .error .reservedField
  | 1 => if f.imm == 0#12 then .ok (Instr.tlbp f.a f.d) else .error .reservedField
  | _ => .error .unallocatedFn

/-- Majors 0x0F to 0x15 of the A stream (13 R310) -/
def parseA (w : BitVec 32) : Except Illegal Instr :=
  match (majorOf w).toNat with
  | 0x0F => parseA0F w
  | 0x10 => parseA10 w
  | 0x11 => parseA11 w
  | 0x12 => parseA12 w
  | 0x13 => parseA13 w
  | 0x14 => parseA14 w
  | 0x15 => parseA15 w
  | 0x1F => .error .blockHeader
  | _ => .error .unallocatedMajor

/-- Major 0x00 of the V stream (13 R311). -/
def parseV00 (w : BitVec 32) : Except Illegal Instr :=
  let f := splitW3 w
  match f.fn.toNat with
  | 0 => .ok (Instr.vadd ⟨f.n == 1#1, f.g⟩ f.b f.a f.d)
  | 1 => .ok (Instr.vsub ⟨f.n == 1#1, f.g⟩ f.b f.a f.d)
  | 2 => .ok (Instr.vmul ⟨f.n == 1#1, f.g⟩ f.b f.a f.d)
  | 3 => .ok (Instr.vmin ⟨f.n == 1#1, f.g⟩ f.b f.a f.d)
  | 4 => .ok (Instr.vmax ⟨f.n == 1#1, f.g⟩ f.b f.a f.d)
  | 5 => if f.b == 0#5 then .ok (Instr.vabs ⟨f.n == 1#1, f.g⟩ f.a f.d) else .error .reservedField
  | 6 => if f.b == 0#5 then .ok (Instr.vneg ⟨f.n == 1#1, f.g⟩ f.a f.d) else .error .reservedField
  | 7 => if f.b == 0#5 then .ok (Instr.vmov ⟨f.n == 1#1, f.g⟩ f.a f.d) else .error .reservedField
  | _ => .error .unallocatedFn

/-- Major 0x01 of the V stream (13 R311). -/
def parseV01 (w : BitVec 32) : Except Illegal Instr :=
  let f := splitWV4 w
  match f.fn.toNat with
  | 0 => .ok (Instr.vfma f.g f.c f.b f.a f.d)
  | 1 => .ok (Instr.vfms f.g f.c f.b f.a f.d)
  | 2 => .ok (Instr.vfnma f.g f.c f.b f.a f.d)
  | 3 => .ok (Instr.vfnms f.g f.c f.b f.a f.d)
  | _ => .error .unallocatedFn

/-- Major 0x02 of the V stream (13 R311). -/
def parseV02 (w : BitVec 32) : Except Illegal Instr :=
  let f := splitW3 w
  match f.fn.toNat with
  | 0 => if f.b == 0#5 then .ok (Instr.vrcp ⟨f.n == 1#1, f.g⟩ f.a f.d) else .error .reservedField
  | 1 => if f.b == 0#5 then .ok (Instr.vrsq ⟨f.n == 1#1, f.g⟩ f.a f.d) else .error .reservedField
  | 2 => if f.b == 0#5 then .ok (Instr.vsqrt ⟨f.n == 1#1, f.g⟩ f.a f.d) else .error .reservedField
  | 3 => if f.b == 0#5 then .ok (Instr.vexp2 ⟨f.n == 1#1, f.g⟩ f.a f.d) else .error .reservedField
  | 4 => if f.b == 0#5 then .ok (Instr.vlog2 ⟨f.n == 1#1, f.g⟩ f.a f.d) else .error .reservedField
  | 5 => if f.b == 0#5 then .ok (Instr.vsin ⟨f.n == 1#1, f.g⟩ f.a f.d) else .error .reservedField
  | 6 => if f.b == 0#5 then .ok (Instr.vcos ⟨f.n == 1#1, f.g⟩ f.a f.d) else .error .reservedField
  | 7 => if f.b == 0#5 then .ok (Instr.vtanh ⟨f.n == 1#1, f.g⟩ f.a f.d) else .error .reservedField
  | _ => .error .unallocatedFn

/-- Major 0x03 of the V stream (13 R311). -/
def parseV03 (w : BitVec 32) : Except Illegal Instr :=
  let f := splitW3 w
  match f.fn.toNat with
  | 0 => .ok (Instr.viadd ⟨f.n == 1#1, f.g⟩ f.b f.a f.d)
  | 1 => .ok (Instr.visub ⟨f.n == 1#1, f.g⟩ f.b f.a f.d)
  | 2 => .ok (Instr.vimul ⟨f.n == 1#1, f.g⟩ f.b f.a f.d)
  | 3 => .ok (Instr.vand ⟨f.n == 1#1, f.g⟩ f.b f.a f.d)
  | 4 => .ok (Instr.vor ⟨f.n == 1#1, f.g⟩ f.b f.a f.d)
  | 5 => .ok (Instr.vxor ⟨f.n == 1#1, f.g⟩ f.b f.a f.d)
  | 6 => .ok (Instr.vshl ⟨f.n == 1#1, f.g⟩ f.b f.a f.d)
  | 7 => .ok (Instr.vshr ⟨f.n == 1#1, f.g⟩ f.b f.a f.d)
  | 8 => .ok (Instr.vsar ⟨f.n == 1#1, f.g⟩ f.b f.a f.d)
  | 9 => .ok (Instr.vimin ⟨f.n == 1#1, f.g⟩ f.b f.a f.d)
  | 10 => .ok (Instr.vimax ⟨f.n == 1#1, f.g⟩ f.b f.a f.d)
  | _ => .error .unallocatedFn

/-- Major 0x04 of the V stream (13 R311). -/
def parseV04 (w : BitVec 32) : Except Illegal Instr :=
  let f := splitWP w
  match f.fn.toNat with
  | 0 => if f.rsv == 0#5 then .ok (Instr.vcmpEq (f.n == 1#1) f.b f.a f.d) else .error .reservedField
  | 1 => if f.rsv == 0#5 then .ok (Instr.vcmpNe (f.n == 1#1) f.b f.a f.d) else .error .reservedField
  | 2 => if f.rsv == 0#5 then .ok (Instr.vcmpLt (f.n == 1#1) f.b f.a f.d) else .error .reservedField
  | 3 => if f.rsv == 0#5 then .ok (Instr.vcmpLe (f.n == 1#1) f.b f.a f.d) else .error .reservedField
  | 4 => if f.rsv == 0#5 then .ok (Instr.vcmpGt (f.n == 1#1) f.b f.a f.d) else .error .reservedField
  | 5 => if f.rsv == 0#5 then .ok (Instr.vcmpGe (f.n == 1#1) f.b f.a f.d) else .error .reservedField
  | 6 => if f.rsv == 0#5 then .ok (Instr.vcmpOrd (f.n == 1#1) f.b f.a f.d) else .error .reservedField
  | 7 => if f.rsv == 0#5 then .ok (Instr.vcmpUno (f.n == 1#1) f.b f.a f.d) else .error .reservedField
  | 8 => if f.rsv == 0#5 then .ok (Instr.vcmpIeq (f.n == 1#1) f.b f.a f.d) else .error .reservedField
  | 9 => if f.rsv == 0#5 then .ok (Instr.vcmpIlt (f.n == 1#1) f.b f.a f.d) else .error .reservedField
  | 10 => if f.rsv == 0#5 then .ok (Instr.vcmpIltu (f.n == 1#1) f.b f.a f.d) else .error .reservedField
  | _ => .error .unallocatedFn

/-- Major 0x05 of the V stream (13 R311). -/
def parseV05 (w : BitVec 32) : Except Illegal Instr :=
  let f := splitW3 w
  match f.fn.toNat with
  | 0 => .ok (Instr.vsel ⟨f.n == 1#1, f.g⟩ f.b f.a f.d)
  | _ => .error .unallocatedFn

/-- Major 0x06 of the V stream (13 R311). -/
def parseV06 (w : BitVec 32) : Except Illegal Instr :=
  let f := splitWP w
  match f.fn.toNat with
  | 0 => if f.rsv == 0#5 then .ok (Instr.pand (f.n == 1#1) f.b f.a f.d) else .error .reservedField
  | 1 => if f.rsv == 0#5 then .ok (Instr.por (f.n == 1#1) f.b f.a f.d) else .error .reservedField
  | 2 => if f.rsv == 0#5 then .ok (Instr.pxor (f.n == 1#1) f.b f.a f.d) else .error .reservedField
  | 3 => if f.rsv == 0#5 then .ok (Instr.pandn (f.n == 1#1) f.b f.a f.d) else .error .reservedField
  | 4 => if f.rsv == 0#5 && f.b == 0#5 then .ok (Instr.pmov (f.n == 1#1) f.a f.d) else .error .reservedField
  | 5 => if f.rsv == 0#5 && f.b == 0#5 then .ok (Instr.pnot (f.n == 1#1) f.a f.d) else .error .reservedField
  | _ => .error .unallocatedFn

/-- Major 0x07 of the V stream (13 R311). -/
def parseV07 (w : BitVec 32) : Except Illegal Instr :=
  let f := splitW3 w
  match f.fn.toNat with
  | 0 => if f.b == 0#5 then .ok (Instr.vcvtI32 ⟨f.n == 1#1, f.g⟩ f.a f.d) else .error .reservedField
  | 1 => if f.b == 0#5 then .ok (Instr.vcvtF32 ⟨f.n == 1#1, f.g⟩ f.a f.d) else .error .reservedField
  | 2 => if f.b == 0#5 then .ok (Instr.vrndBf16 ⟨f.n == 1#1, f.g⟩ f.a f.d) else .error .reservedField
  | 3 => if f.b == 0#5 then .ok (Instr.vrndT8 ⟨f.n == 1#1, f.g⟩ f.a f.d) else .error .reservedField
  | 4 => if f.b == 0#5 then .ok (Instr.vrndT6 ⟨f.n == 1#1, f.g⟩ f.a f.d) else .error .reservedField
  | _ => .error .unallocatedFn

/-- Major 0x08 of the V stream (13 R311). -/
def parseV08 (w : BitVec 32) : Except Illegal Instr :=
  let f := splitWI w
  match f.fn.toNat with
  | 0 => if sub f.imm 4 8 == 0#8 then .ok (Instr.vrotr (sub f.imm 0 4) f.a f.d) else .error .reservedField
  | 1 => if sub f.imm 6 6 == 0#6 then .ok (Instr.vrotc (sub f.imm 0 6) f.a f.d) else .error .reservedField
  | 2 => if sub f.imm 4 8 == 0#8 then .ok (Instr.vbcr (sub f.imm 0 4) f.a f.d) else .error .reservedField
  | 3 => if sub f.imm 6 6 == 0#6 then .ok (Instr.vbcc (sub f.imm 0 6) f.a f.d) else .error .reservedField
  | 4 => if f.imm == 0#12 then .ok (Instr.vtrn16 f.a f.d) else .error .reservedField
  | _ => .error .unallocatedFn

/-- Major 0x09 of the V stream (13 R311). -/
def parseV09 (w : BitVec 32) : Except Illegal Instr :=
  let f := splitWI w
  match f.fn.toNat with
  | 0 => if f.imm == 0#12 then .ok (Instr.vredrSum f.a f.d) else .error .reservedField
  | 1 => if f.imm == 0#12 then .ok (Instr.vredrMax f.a f.d) else .error .reservedField
  | 2 => if f.imm == 0#12 then .ok (Instr.vredrMin f.a f.d) else .error .reservedField
  | 4 => if f.imm == 0#12 then .ok (Instr.vredcSum f.a f.d) else .error .reservedField
  | 5 => if f.imm == 0#12 then .ok (Instr.vredcMax f.a f.d) else .error .reservedField
  | 6 => if f.imm == 0#12 then .ok (Instr.vredcMin f.a f.d) else .error .reservedField
  | _ => .error .unallocatedFn

/-- Major 0x0A of the V stream (13 R311). -/
def parseV0A (w : BitVec 32) : Except Illegal Instr :=
  let f := splitWU w
  match f.fn.toNat with
  | 0 => .ok (Instr.vli f.imm f.d)
  | _ => .error .unallocatedFn

/-- Major 0x0B of the V stream (13 R311). -/
def parseV0B (w : BitVec 32) : Except Illegal Instr :=
  let f := splitWI w
  match f.fn.toNat with
  | 0 => if f.a == 0#5 then .ok (Instr.vpop (sub f.imm 8 4) (sub f.imm 4 4) (sub f.imm 0 4) f.d) else .error .reservedField
  | 1 => if f.d == 0#5 then .ok (Instr.vpush (sub f.imm 8 4) (sub f.imm 4 4) (sub f.imm 0 4) f.a) else .error .reservedField
  | 2 => if sub f.imm 9 3 == 0#3 && f.d == 0#5 then .ok (Instr.vtos (sub f.imm 4 5) (sub f.imm 0 4) f.a) else .error .reservedField
  | 3 => if sub f.imm 1 11 == 0#11 && f.a == 0#5 then .ok (Instr.vfrs (sub f.imm 0 1 == 1#1) f.d) else .error .reservedField
  | _ => .error .unallocatedFn

/-- Major 0x0C of the V stream (13 R311). -/
def parseV0C (w : BitVec 32) : Except Illegal Instr :=
  let f := splitWI w
  match f.fn.toNat with
  | 0 => if f.a == 0#5 then .ok (Instr.vldl f.imm f.d) else .error .reservedField
  | 1 => if f.d == 0#5 then .ok (Instr.vstl f.imm f.a) else .error .reservedField
  | _ => .error .unallocatedFn

/-- Major 0x0D of the V stream (13 R311). -/
def parseV0D (w : BitVec 32) : Except Illegal Instr :=
  let f := splitWBP w
  match f.fn.toNat with
  | 0 => .ok (Instr.pbr f.off f.t)
  | _ => .error .unallocatedFn

/-- Major 0x0E of the V stream (13 R311). -/
def parseV0E (w : BitVec 32) : Except Illegal Instr :=
  let f := splitWBB w
  match f.fn.toNat with
  | 1 => if f.rsv == 0#7 && f.a == 0#5 then .ok (Instr.br ⟨f.n == 1#1, f.g⟩ f.t) else .error .reservedField
  | 2 => if f.rsv == 0#7 && f.a == 0#5 then .ok (Instr.brl ⟨f.n == 1#1, f.g⟩ f.t) else .error .reservedField
  | _ => .error .unallocatedFn

/-- Major 0x0F of the V stream (13 R311). -/
def parseV0F (w : BitVec 32) : Except Illegal Instr :=
  let f := splitWI w
  match f.fn.toNat with
  | 0 => if sub f.imm 4 8 == 0#8 && f.a == 1#5 && f.d == 0#5 then .ok (Instr.vSloop (sub f.imm 0 4)) else .error .reservedField
  | 1 => if f.imm == 0#12 && f.a == 0#5 && sub f.d 3 2 == 0#2 then .ok (Instr.snext (sub f.d 0 3)) else .error .reservedField
  | _ => .error .unallocatedFn

/-- Major 0x10 of the V stream (13 R311). -/
def parseV10 (w : BitVec 32) : Except Illegal Instr :=
  let f := splitW3 w
  match f.fn.toNat with
  | 0 => if f.n == 0#1 && f.g == 0#6 then .ok (Instr.dadd f.b f.a f.d) else .error .reservedField
  | 1 => if f.n == 0#1 && f.g == 0#6 then .ok (Instr.dsub f.b f.a f.d) else .error .reservedField
  | 2 => if f.n == 0#1 && f.g == 0#6 then .ok (Instr.dmul f.b f.a f.d) else .error .reservedField
  | 3 => if f.n == 0#1 && f.g == 0#6 then .ok (Instr.dmix f.b f.a f.d) else .error .reservedField
  | _ => .error .unallocatedFn

/-- Major 0x11 of the V stream (13 R311). -/
def parseV11 (w : BitVec 32) : Except Illegal Instr :=
  let f := splitW3 w
  match f.fn.toNat with
  | 0 => if f.n == 0#1 && f.g == 0#6 then .ok (Instr.dmuls f.b f.a f.d) else .error .reservedField
  | 1 => if f.n == 0#1 && f.g == 0#6 then .ok (Instr.dadds f.b f.a f.d) else .error .reservedField
  | 2 => if f.n == 0#1 && f.g == 0#6 then .ok (Instr.dmaxs f.b f.a f.d) else .error .reservedField
  | 3 => if f.n == 0#1 && f.g == 0#6 && f.b == 0#5 then .ok (Instr.dmapExp2 f.a f.d) else .error .reservedField
  | 4 => if f.n == 0#1 && f.g == 0#6 && f.b == 0#5 then .ok (Instr.dmapLog2 f.a f.d) else .error .reservedField
  | 5 => if f.n == 0#1 && f.g == 0#6 && f.b == 0#5 then .ok (Instr.dmapTanh f.a f.d) else .error .reservedField
  | 6 => if f.n == 0#1 && f.g == 0#6 && f.b == 0#5 then .ok (Instr.dmapSigmoid f.a f.d) else .error .reservedField
  | _ => .error .unallocatedFn

/-- Major 0x12 of the V stream (13 R311). -/
def parseV12 (w : BitVec 32) : Except Illegal Instr :=
  let f := splitWI w
  match f.fn.toNat with
  | 0 => if sub f.imm 4 8 == 0#8 then .ok (Instr.dpt (sub f.imm 0 4) f.a f.d) else .error .reservedField
  | 1 => if sub f.imm 4 8 == 0#8 then .ok (Instr.dgauss (sub f.imm 0 4) f.a f.d) else .error .reservedField
  | 2 => if sub f.imm 4 8 == 0#8 && f.a == 0#5 then .ok (Instr.dpop (sub f.imm 0 4) f.d) else .error .reservedField
  | 3 => if sub f.imm 4 8 == 0#8 && f.d == 0#5 then .ok (Instr.dpush (sub f.imm 0 4) f.a) else .error .reservedField
  | _ => .error .unallocatedFn

/-- Major 0x13 of the V stream (13 R311). -/
def parseV13 (w : BitVec 32) : Except Illegal Instr :=
  let f := splitWI w
  match f.fn.toNat with
  | 0 => if sub f.imm 6 6 == 0#6 then .ok (Instr.dmom (sub f.imm 4 2) (sub f.imm 0 4) f.a f.d) else .error .reservedField
  | 1 => if sub f.imm 4 8 == 0#8 then .ok (Instr.dqnt (sub f.imm 0 4) f.a f.d) else .error .reservedField
  | _ => .error .unallocatedFn

/-- Major 0x14 of the V stream (13 R311). -/
def parseV14 (w : BitVec 32) : Except Illegal Instr :=
  let f := splitWD w
  match f.fn.toNat with
  | 0 => if f.rsv == 0#1 then .ok (Instr.dtag f.imm f.d) else .error .reservedField
  | 1 => if f.rsv == 0#1 then .ok (Instr.dlin f.imm f.d) else .error .reservedField
  | 2 => if f.rsv == 0#1 && f.d == 0#5 then .ok (Instr.dflg f.imm) else if f.rsv == 0#1 && f.d == 1#5 then .ok (Instr.dflgRd f.imm) else .error .reservedField
  | _ => .error .unallocatedFn

/-- Majors of the V stream (13 R311) -/
def parseV (w : BitVec 32) : Except Illegal Instr :=
  match (majorOf w).toNat with
  | 0x00 => parseV00 w
  | 0x01 => parseV01 w
  | 0x02 => parseV02 w
  | 0x03 => parseV03 w
  | 0x04 => parseV04 w
  | 0x05 => parseV05 w
  | 0x06 => parseV06 w
  | 0x07 => parseV07 w
  | 0x08 => parseV08 w
  | 0x09 => parseV09 w
  | 0x0A => parseV0A w
  | 0x0B => parseV0B w
  | 0x0C => parseV0C w
  | 0x0D => parseV0D w
  | 0x0E => parseV0E w
  | 0x0F => parseV0F w
  | 0x10 => parseV10 w
  | 0x11 => parseV11 w
  | 0x12 => parseV12 w
  | 0x13 => parseV13 w
  | 0x14 => parseV14 w
  | 0x1F => .error .blockHeader
  | _ => .error .unallocatedMajor
/-- A 16-bit word (13 R307). -/
def parse16 (h : BitVec 16) : Except Illegal Instr :=
  match (h.extractLsb' 1 4).toNat with
  | 0 => .ok (.stall (h.extractLsb' 5 11))
  | 1 => if h.extractLsb' 15 1 == 0#1 then .ok (.mvh (h.extractLsb' 10 5) (h.extractLsb' 5 5)) else .error .reservedField
  | 2 => .ok (.addih (h.extractLsb' 10 6) (h.extractLsb' 5 5))
  | 3 => if h.extractLsb' 15 1 == 0#1 then
      .ok (.brh ⟨h.extractLsb' 14 1 == 1#1, h.extractLsb' 8 6⟩ (h.extractLsb' 5 3)) else .error .reservedField
  | _ => .error .unallocatedOp16

/-- A 32-bit word on a stream, before the operand limits: majors 0x00 to 0x0E of C and A are shared (13 R308). -/
def parse32 (st : Stream) (w : BitVec 32) : Except Illegal Instr :=
  match st with
  | .c => if (majorOf w).toNat ≤ 14 then parseCA w else parseC w
  | .a => if (majorOf w).toNat ≤ 14 then parseCA w else parseA w
  | .v => parseV w

/-- An instruction kept if its operands are within the limits of its entry (13 R300 step 4). -/
def checkWf (k : CoreKind) (st : Stream) (r : Except Illegal Instr) : Except Illegal Instr :=
  match r with
  | .error e => .error e
  | .ok i => if i.wf k st then .ok i else .error .operand

/-- The 16-bit word `h` on a stream of a kind of core. -/
def decode16 (k : CoreKind) (st : Stream) (h : BitVec 16) : Except Illegal Instr := checkWf k st (parse16 h)

/-- The 32-bit word `w` on a stream of a kind of core. -/
def decode32 (k : CoreKind) (st : Stream) (w : BitVec 32) : Except Illegal Instr := checkWf k st (parse32 st w)

/-- A word at the head of a list of halfwords, lowest first: bit 0 of the first gives the length, and a 32-bit word has its low
halfword first (13 R300, 07 R165). The answer is the instruction or the reason, and the halfwords after it; none when the
list ends inside the word. -/
def decodeHalfwords (k : CoreKind) (st : Stream) : List Half → Option (Except Illegal Instr × List Half)
  | [] => none
  | h :: hs =>
    if h.getLsbD 0 then
      match hs with
      | [] => none
      | h2 :: rest => some (decode32 k st (h2 ++ h), rest)
    else some (decode16 k st h, hs)

/-- A word at the head of a list of bytes as the scratchpad stores them, each halfword low byte first (00 R2, 07 R165). -/
def decodeBytes (k : CoreKind) (st : Stream) : List Byte → Option (Except Illegal Instr × List Byte)
  | b0 :: b1 :: bs =>
    if b0.getLsbD 0 then
      match bs with
      | b2 :: b3 :: rest => some (decode32 k st (b3 ++ b2 ++ b1 ++ b0), rest)
      | _ => none
    else some (decode16 k st (b1 ++ b0), bs)
  | _ => none

/-- The words of an instruction: 16 or 32 bits; an event has none. -/
inductive Code where
  | half (h : BitVec 16)
  | word (w : BitVec 32)
  | none
deriving DecidableEq, Repr

/-- The encoding of an instruction (13 R303 to R312); an event of the device has no word. -/
def encode : Instr → Code
  | .add g b a d => .word (joinW3 0x00#5 ⟨0#4, BitVec.ofBool g.neg, g.p, b, a, d⟩)
  | .sub g b a d => .word (joinW3 0x00#5 ⟨1#4, BitVec.ofBool g.neg, g.p, b, a, d⟩)
  | .and g b a d => .word (joinW3 0x00#5 ⟨2#4, BitVec.ofBool g.neg, g.p, b, a, d⟩)
  | .or g b a d => .word (joinW3 0x00#5 ⟨3#4, BitVec.ofBool g.neg, g.p, b, a, d⟩)
  | .xor g b a d => .word (joinW3 0x00#5 ⟨4#4, BitVec.ofBool g.neg, g.p, b, a, d⟩)
  | .andn g b a d => .word (joinW3 0x00#5 ⟨5#4, BitVec.ofBool g.neg, g.p, b, a, d⟩)
  | .shl g b a d => .word (joinW3 0x00#5 ⟨6#4, BitVec.ofBool g.neg, g.p, b, a, d⟩)
  | .shr g b a d => .word (joinW3 0x00#5 ⟨7#4, BitVec.ofBool g.neg, g.p, b, a, d⟩)
  | .sar g b a d => .word (joinW3 0x00#5 ⟨8#4, BitVec.ofBool g.neg, g.p, b, a, d⟩)
  | .rol g b a d => .word (joinW3 0x00#5 ⟨9#4, BitVec.ofBool g.neg, g.p, b, a, d⟩)
  | .min g b a d => .word (joinW3 0x00#5 ⟨10#4, BitVec.ofBool g.neg, g.p, b, a, d⟩)
  | .max g b a d => .word (joinW3 0x00#5 ⟨11#4, BitVec.ofBool g.neg, g.p, b, a, d⟩)
  | .minu g b a d => .word (joinW3 0x00#5 ⟨12#4, BitVec.ofBool g.neg, g.p, b, a, d⟩)
  | .maxu g b a d => .word (joinW3 0x00#5 ⟨13#4, BitVec.ofBool g.neg, g.p, b, a, d⟩)
  | .mul g b a d => .word (joinW3 0x00#5 ⟨14#4, BitVec.ofBool g.neg, g.p, b, a, d⟩)
  | .mulhu g b a d => .word (joinW3 0x00#5 ⟨15#4, BitVec.ofBool g.neg, g.p, b, a, d⟩)
  | .addi i a d => .word (joinWI 0x01#5 ⟨0#4, i, a, d⟩)
  | .andi i a d => .word (joinWI 0x01#5 ⟨1#4, i, a, d⟩)
  | .ori i a d => .word (joinWI 0x01#5 ⟨2#4, i, a, d⟩)
  | .xori i a d => .word (joinWI 0x01#5 ⟨3#4, i, a, d⟩)
  | .shli i a d => .word (joinWI 0x01#5 ⟨4#4, (0#6 ++ i), a, d⟩)
  | .shri i a d => .word (joinWI 0x01#5 ⟨5#4, (0#6 ++ i), a, d⟩)
  | .sari i a d => .word (joinWI 0x01#5 ⟨6#4, (0#6 ++ i), a, d⟩)
  | .muli i a d => .word (joinWI 0x01#5 ⟨7#4, i, a, d⟩)
  | .lui i d => .word (joinWU 0x02#5 ⟨0#1, i, d⟩)
  | .auib i d => .word (joinWU 0x02#5 ⟨1#1, i, d⟩)
  | .bext g b a d => .word (joinW3 0x03#5 ⟨0#4, BitVec.ofBool g.neg, g.p, b, a, d⟩)
  | .bexts g b a d => .word (joinW3 0x03#5 ⟨1#4, BitVec.ofBool g.neg, g.p, b, a, d⟩)
  | .bins g b a d => .word (joinW3 0x03#5 ⟨2#4, BitVec.ofBool g.neg, g.p, b, a, d⟩)
  | .clz g a d => .word (joinW3 0x03#5 ⟨3#4, BitVec.ofBool g.neg, g.p, 0#5, a, d⟩)
  | .ctz g a d => .word (joinW3 0x03#5 ⟨4#4, BitVec.ofBool g.neg, g.p, 0#5, a, d⟩)
  | .popc g a d => .word (joinW3 0x03#5 ⟨5#4, BitVec.ofBool g.neg, g.p, 0#5, a, d⟩)
  | .bexti w o a d => .word (joinWI 0x03#5 ⟨6#4, (w ++ o), a, d⟩)
  | .binsi w o a d => .word (joinWI 0x03#5 ⟨7#4, (w ++ o), a, d⟩)
  | .cmpEq n b a p => .word (joinWP 0x04#5 ⟨0#5, BitVec.ofBool n, 0#4, b, a, p⟩)
  | .cmpNe n b a p => .word (joinWP 0x04#5 ⟨0#5, BitVec.ofBool n, 1#4, b, a, p⟩)
  | .cmpLt n b a p => .word (joinWP 0x04#5 ⟨0#5, BitVec.ofBool n, 2#4, b, a, p⟩)
  | .cmpGe n b a p => .word (joinWP 0x04#5 ⟨0#5, BitVec.ofBool n, 3#4, b, a, p⟩)
  | .cmpLtu n b a p => .word (joinWP 0x04#5 ⟨0#5, BitVec.ofBool n, 4#4, b, a, p⟩)
  | .cmpGeu n b a p => .word (joinWP 0x04#5 ⟨0#5, BitVec.ofBool n, 5#4, b, a, p⟩)
  | .cmpiEq n i a p => .word (joinWPI 0x05#5 ⟨BitVec.ofBool n, 0#3, i, a, p⟩)
  | .cmpiNe n i a p => .word (joinWPI 0x05#5 ⟨BitVec.ofBool n, 1#3, i, a, p⟩)
  | .cmpiLt n i a p => .word (joinWPI 0x05#5 ⟨BitVec.ofBool n, 2#3, i, a, p⟩)
  | .cmpiGe n i a p => .word (joinWPI 0x05#5 ⟨BitVec.ofBool n, 3#3, i, a, p⟩)
  | .cmpiLtu n i a p => .word (joinWPI 0x05#5 ⟨BitVec.ofBool n, 4#3, i, a, p⟩)
  | .cmpiGeu n i a p => .word (joinWPI 0x05#5 ⟨BitVec.ofBool n, 5#3, i, a, p⟩)
  | .pand n b a p => .word (joinWP 0x06#5 ⟨0#5, BitVec.ofBool n, 0#4, b, a, p⟩)
  | .por n b a p => .word (joinWP 0x06#5 ⟨0#5, BitVec.ofBool n, 1#4, b, a, p⟩)
  | .pxor n b a p => .word (joinWP 0x06#5 ⟨0#5, BitVec.ofBool n, 2#4, b, a, p⟩)
  | .pandn n b a p => .word (joinWP 0x06#5 ⟨0#5, BitVec.ofBool n, 3#4, b, a, p⟩)
  | .pmov n a p => .word (joinWP 0x06#5 ⟨0#5, BitVec.ofBool n, 4#4, 0#5, a, p⟩)
  | .pnot n a p => .word (joinWP 0x06#5 ⟨0#5, BitVec.ofBool n, 5#4, 0#5, a, p⟩)
  | .movqPop g q d => .word (joinW3 0x07#5 ⟨0#4, BitVec.ofBool g.neg, g.p, 0#5, q, d⟩)
  | .movqPush g a q => .word (joinW3 0x07#5 ⟨1#4, BitVec.ofBool g.neg, g.p, 0#5, a, q⟩)
  | .trypopQueue g p q d => .word (joinW3 0x07#5 ⟨2#4, BitVec.ofBool g.neg, g.p, p, q, d⟩)
  | .ldB i b r => .word (joinWI 0x08#5 ⟨0#4, i, b, r⟩)
  | .ldH i b r => .word (joinWI 0x08#5 ⟨1#4, i, b, r⟩)
  | .ldW i b r => .word (joinWI 0x08#5 ⟨2#4, i, b, r⟩)
  | .ld i b r => .word (joinWI 0x08#5 ⟨3#4, i, b, r⟩)
  | .ldSb i b r => .word (joinWI 0x08#5 ⟨4#4, i, b, r⟩)
  | .ldSh i b r => .word (joinWI 0x08#5 ⟨5#4, i, b, r⟩)
  | .ldSw i b r => .word (joinWI 0x08#5 ⟨6#4, i, b, r⟩)
  | .ldAcq s i b r => .word (joinWI 0x08#5 ⟨(1#1 ++ s), i, b, r⟩)
  | .stB i b r => .word (joinWI 0x09#5 ⟨0#4, i, b, r⟩)
  | .stH i b r => .word (joinWI 0x09#5 ⟨1#4, i, b, r⟩)
  | .stW i b r => .word (joinWI 0x09#5 ⟨2#4, i, b, r⟩)
  | .st i b r => .word (joinWI 0x09#5 ⟨3#4, i, b, r⟩)
  | .stRel s i b r => .word (joinWI 0x09#5 ⟨(1#1 ++ s), i, b, r⟩)
  | .amoAdd g b a d => .word (joinW3 0x0A#5 ⟨0#4, BitVec.ofBool g.neg, g.p, b, a, d⟩)
  | .amoAnd g b a d => .word (joinW3 0x0A#5 ⟨1#4, BitVec.ofBool g.neg, g.p, b, a, d⟩)
  | .amoOr g b a d => .word (joinW3 0x0A#5 ⟨2#4, BitVec.ofBool g.neg, g.p, b, a, d⟩)
  | .amoXor g b a d => .word (joinW3 0x0A#5 ⟨3#4, BitVec.ofBool g.neg, g.p, b, a, d⟩)
  | .amoMin g b a d => .word (joinW3 0x0A#5 ⟨4#4, BitVec.ofBool g.neg, g.p, b, a, d⟩)
  | .amoMax g b a d => .word (joinW3 0x0A#5 ⟨5#4, BitVec.ofBool g.neg, g.p, b, a, d⟩)
  | .amoMinu g b a d => .word (joinW3 0x0A#5 ⟨6#4, BitVec.ofBool g.neg, g.p, b, a, d⟩)
  | .amoMaxu g b a d => .word (joinW3 0x0A#5 ⟨7#4, BitVec.ofBool g.neg, g.p, b, a, d⟩)
  | .amoSwap g b a d => .word (joinW3 0x0A#5 ⟨8#4, BitVec.ofBool g.neg, g.p, b, a, d⟩)
  | .cas g b a d => .word (joinW3 0x0A#5 ⟨9#4, BitVec.ofBool g.neg, g.p, b, a, d⟩)
  | .ldlB i r => .word (joinWI 0x0B#5 ⟨0#4, i, 0#5, r⟩)
  | .ldlH i r => .word (joinWI 0x0B#5 ⟨1#4, i, 0#5, r⟩)
  | .ldlW i r => .word (joinWI 0x0B#5 ⟨2#4, i, 0#5, r⟩)
  | .ldl i r => .word (joinWI 0x0B#5 ⟨3#4, i, 0#5, r⟩)
  | .ldlSb i r => .word (joinWI 0x0B#5 ⟨4#4, i, 0#5, r⟩)
  | .ldlSh i r => .word (joinWI 0x0B#5 ⟨5#4, i, 0#5, r⟩)
  | .ldlSw i r => .word (joinWI 0x0B#5 ⟨6#4, i, 0#5, r⟩)
  | .stlB i r => .word (joinWI 0x0B#5 ⟨8#4, i, 0#5, r⟩)
  | .stlH i r => .word (joinWI 0x0B#5 ⟨9#4, i, 0#5, r⟩)
  | .stlW i r => .word (joinWI 0x0B#5 ⟨10#4, i, 0#5, r⟩)
  | .stl i r => .word (joinWI 0x0B#5 ⟨11#4, i, 0#5, r⟩)
  | .fence u s => .word (joinWI 0x0C#5 ⟨0#4, (0#8 ++ (BitVec.ofBool u) ++ s), 0#5, 0#5⟩)
  | .pbr o t => .word (joinWBP 0x0D#5 ⟨0#3, o, t⟩)
  | .pbrx a g t => .word (joinWBB 0x0E#5 ⟨0#7, a, 0#4, BitVec.ofBool g.neg, g.p, t⟩)
  | .br g t => .word (joinWBB 0x0E#5 ⟨0#7, 0#5, 1#4, BitVec.ofBool g.neg, g.p, t⟩)
  | .brl g t => .word (joinWBB 0x0E#5 ⟨0#7, 0#5, 2#4, BitVec.ofBool g.neg, g.p, t⟩)
  | .sloop e a => .word (joinWI 0x0F#5 ⟨0#4, (0#8 ++ e), a, 0#5⟩)
  | .snext t => .word (joinWI 0x0F#5 ⟨1#4, 0#12, 0#5, (0#2 ++ t)⟩)
  | .div g b a d => .word (joinW3 0x10#5 ⟨0#4, BitVec.ofBool g.neg, g.p, b, a, d⟩)
  | .divu g b a d => .word (joinW3 0x10#5 ⟨1#4, BitVec.ofBool g.neg, g.p, b, a, d⟩)
  | .rem g b a d => .word (joinW3 0x10#5 ⟨2#4, BitVec.ofBool g.neg, g.p, b, a, d⟩)
  | .remu g b a d => .word (joinW3 0x10#5 ⟨3#4, BitVec.ofBool g.neg, g.p, b, a, d⟩)
  | .mfs s d => .word (joinWI 0x11#5 ⟨0#4, s, 0#5, d⟩)
  | .mts s a => .word (joinWI 0x11#5 ⟨1#4, s, a, 0#5⟩)
  | .barArrive s i => .word (joinWI 0x12#5 ⟨0#4, (0#4 ++ s ++ i), 0#5, 0#5⟩)
  | .barWait s i => .word (joinWI 0x12#5 ⟨1#4, (0#4 ++ s ++ i), 0#5, 0#5⟩)
  | .barAw s i => .word (joinWI 0x12#5 ⟨2#4, (0#4 ++ s ++ i), 0#5, 0#5⟩)
  | .twait p a => .word (joinWI 0x12#5 ⟨3#4, (0#11 ++ (BitVec.ofBool p)), a, 0#5⟩)
  | .waitm a d => .word (joinWI 0x12#5 ⟨4#4, 0#12, a, d⟩)
  | .qwait s => .word (joinWI 0x12#5 ⟨5#4, (0#9 ++ s), 0#5, 0#5⟩)
  | .signal a => .word (joinWI 0x12#5 ⟨6#4, 0#12, a, 0#5⟩)
  | .push g a => .word (joinW3 0x13#5 ⟨0#4, BitVec.ofBool g.neg, g.p, 0#5, a, 0#5⟩)
  | .pop g t => .word (joinW3 0x13#5 ⟨1#4, BitVec.ofBool g.neg, g.p, 0#5, t, 0#5⟩)
  | .trypopToken g p t => .word (joinW3 0x13#5 ⟨2#4, BitVec.ofBool g.neg, g.p, p, t, 0#5⟩)
  | .setup g b a => .word (joinW3 0x13#5 ⟨3#4, BitVec.ofBool g.neg, g.p, b, a, 0#5⟩)
  | .oclaim i d => .word (joinWI 0x14#5 ⟨0#4, (0#7 ++ i), 0#5, d⟩)
  | .orelease i => .word (joinWI 0x14#5 ⟨1#4, (0#7 ++ i), 0#5, 0#5⟩)
  | .send g b a => .word (joinW3 0x15#5 ⟨0#4, BitVec.ofBool g.neg, g.p, b, a, 0#5⟩)
  | .hret g => .word (joinW3 0x15#5 ⟨1#4, BitVec.ofBool g.neg, g.p, 0#5, 0#5, 0#5⟩)
  | .trap c => .word (joinWI 0x16#5 ⟨0#4, c, 0#5, 0#5⟩)
  | .rte => .word (joinWI 0x16#5 ⟨1#4, 0#12, 0#5, 0#5⟩)
  | .rteSkip => .word (joinWI 0x16#5 ⟨1#4, 1#12, 0#5, 0#5⟩)
  | .waypt i => .word (joinWI 0x16#5 ⟨2#4, i, 0#5, 0#5⟩)
  | .evac a d => .word (joinWI 0x16#5 ⟨3#4, 0#12, a, d⟩)
  | .retire => .word (joinWI 0x16#5 ⟨4#4, 0#12, 0#5, 0#5⟩)
  | .mrepair a d => .word (joinWI 0x16#5 ⟨5#4, 0#12, a, d⟩)
  | .launch g b a d => .word (joinW3 0x16#5 ⟨6#4, BitVec.ofBool g.neg, g.p, b, a, d⟩)
  | .ckpt a => .word (joinWI 0x16#5 ⟨7#4, 0#12, a, 0#5⟩)
  | .cld e => .word (joinWE 0x17#5 ⟨BitVec.ofBool e.sw, 0#4, e.sig, e.wait, e.sb, e.sa, 0#5⟩)
  | .cst e => .word (joinWE 0x17#5 ⟨BitVec.ofBool e.sw, 0#4, e.sig, e.wait, e.sb, e.sa, 1#5⟩)
  | .csta e => .word (joinWE 0x17#5 ⟨BitVec.ofBool e.sw, 0#4, e.sig, e.wait, e.sb, e.sa, 2#5⟩)
  | .cchn e head last => .word (joinWE 0x17#5 ⟨BitVec.ofBool e.sw, ((BitVec.ofBool head) ++ (BitVec.ofBool last) ++ 0#2), e.sig, e.wait, e.sb, e.sa, 3#5⟩)
  | .cslc e => .word (joinWE 0x17#5 ⟨BitVec.ofBool e.sw, 0#4, e.sig, e.wait, e.sb, e.sa, 4#5⟩)
  | .covl e => .word (joinWE 0x17#5 ⟨BitVec.ofBool e.sw, 0#4, e.sig, e.wait, e.sb, e.sa, 5#5⟩)
  | .cmig e k => .word (joinWE 0x17#5 ⟨BitVec.ofBool e.sw, ((BitVec.ofBool k) ++ 0#3), e.sig, e.wait, e.sb, e.sa, 6#5⟩)
  | .cinv e k => .word (joinWE 0x17#5 ⟨BitVec.ofBool e.sw, ((BitVec.ofBool k) ++ 0#3), e.sig, e.wait, e.sb, e.sa, 7#5⟩)
  | .mma e tb fmt => .word (joinWE 0x18#5 ⟨BitVec.ofBool e.sw, ((BitVec.ofBool tb) ++ fmt), e.sig, e.wait, e.sb, e.sa, 0#5⟩)
  | .mmas e tb fmt => .word (joinWE 0x18#5 ⟨BitVec.ofBool e.sw, ((BitVec.ofBool tb) ++ fmt), e.sig, e.wait, e.sb, e.sa, 1#5⟩)
  | .mrot e => .word (joinWE 0x18#5 ⟨BitVec.ofBool e.sw, 0#4, e.sig, e.wait, e.sb, e.sa, 2#5⟩)
  | .mdrn e => .word (joinWE 0x18#5 ⟨BitVec.ofBool e.sw, 0#4, e.sig, e.wait, e.sb, e.sa, 3#5⟩)
  | .mclr e => .word (joinWE 0x18#5 ⟨BitVec.ofBool e.sw, 0#4, e.sig, e.wait, e.sb, e.sa, 4#5⟩)
  | .msgn e => .word (joinWE 0x18#5 ⟨BitVec.ofBool e.sw, 0#4, e.sig, e.wait, e.sb, e.sa, 5#5⟩)
  | .wmax e => .word (joinWE 0x19#5 ⟨BitVec.ofBool e.sw, 0#4, e.sig, e.wait, e.sb, e.sa, 0#5⟩)
  | .wexs e => .word (joinWE 0x19#5 ⟨BitVec.ofBool e.sw, 0#4, e.sig, e.wait, e.sb, e.sa, 1#5⟩)
  | .wscl e => .word (joinWE 0x19#5 ⟨BitVec.ofBool e.sw, 0#4, e.sig, e.wait, e.sb, e.sa, 2#5⟩)
  | .wmom e => .word (joinWE 0x19#5 ⟨BitVec.ofBool e.sw, 0#4, e.sig, e.wait, e.sb, e.sa, 3#5⟩)
  | .wapl e => .word (joinWE 0x19#5 ⟨BitVec.ofBool e.sw, 0#4, e.sig, e.wait, e.sb, e.sa, 4#5⟩)
  | .ldv n r b q => .word (joinWA 0x10#5 ⟨0#4, 0#1, n, r, b, q⟩)
  | .stv n r b q => .word (joinWA 0x11#5 ⟨0#4, 0#1, n, r, b, q⟩)
  | .ldg n r b q => .word (joinWA 0x12#5 ⟨0#4, 0#1, n, r, b, q⟩)
  | .stsc n r b q => .word (joinWA 0x13#5 ⟨0#4, 0#1, n, r, b, q⟩)
  | .amovAdd n r b q => .word (joinWA 0x14#5 ⟨0#4, 0#1, n, r, b, q⟩)
  | .amovMax n r b q => .word (joinWA 0x14#5 ⟨1#4, 0#1, n, r, b, q⟩)
  | .pref i a => .word (joinWI 0x15#5 ⟨0#4, i, a, 0#5⟩)
  | .tlbp a d => .word (joinWI 0x15#5 ⟨1#4, 0#12, a, d⟩)
  | .vadd g b a d => .word (joinW3 0x00#5 ⟨0#4, BitVec.ofBool g.neg, g.p, b, a, d⟩)
  | .vsub g b a d => .word (joinW3 0x00#5 ⟨1#4, BitVec.ofBool g.neg, g.p, b, a, d⟩)
  | .vmul g b a d => .word (joinW3 0x00#5 ⟨2#4, BitVec.ofBool g.neg, g.p, b, a, d⟩)
  | .vmin g b a d => .word (joinW3 0x00#5 ⟨3#4, BitVec.ofBool g.neg, g.p, b, a, d⟩)
  | .vmax g b a d => .word (joinW3 0x00#5 ⟨4#4, BitVec.ofBool g.neg, g.p, b, a, d⟩)
  | .vabs g a d => .word (joinW3 0x00#5 ⟨5#4, BitVec.ofBool g.neg, g.p, 0#5, a, d⟩)
  | .vneg g a d => .word (joinW3 0x00#5 ⟨6#4, BitVec.ofBool g.neg, g.p, 0#5, a, d⟩)
  | .vmov g a d => .word (joinW3 0x00#5 ⟨7#4, BitVec.ofBool g.neg, g.p, 0#5, a, d⟩)
  | .vfma g c b a d => .word (joinWV4 0x01#5 ⟨g, 0#2, c, b, a, d⟩)
  | .vfms g c b a d => .word (joinWV4 0x01#5 ⟨g, 1#2, c, b, a, d⟩)
  | .vfnma g c b a d => .word (joinWV4 0x01#5 ⟨g, 2#2, c, b, a, d⟩)
  | .vfnms g c b a d => .word (joinWV4 0x01#5 ⟨g, 3#2, c, b, a, d⟩)
  | .vrcp g a d => .word (joinW3 0x02#5 ⟨0#4, BitVec.ofBool g.neg, g.p, 0#5, a, d⟩)
  | .vrsq g a d => .word (joinW3 0x02#5 ⟨1#4, BitVec.ofBool g.neg, g.p, 0#5, a, d⟩)
  | .vsqrt g a d => .word (joinW3 0x02#5 ⟨2#4, BitVec.ofBool g.neg, g.p, 0#5, a, d⟩)
  | .vexp2 g a d => .word (joinW3 0x02#5 ⟨3#4, BitVec.ofBool g.neg, g.p, 0#5, a, d⟩)
  | .vlog2 g a d => .word (joinW3 0x02#5 ⟨4#4, BitVec.ofBool g.neg, g.p, 0#5, a, d⟩)
  | .vsin g a d => .word (joinW3 0x02#5 ⟨5#4, BitVec.ofBool g.neg, g.p, 0#5, a, d⟩)
  | .vcos g a d => .word (joinW3 0x02#5 ⟨6#4, BitVec.ofBool g.neg, g.p, 0#5, a, d⟩)
  | .vtanh g a d => .word (joinW3 0x02#5 ⟨7#4, BitVec.ofBool g.neg, g.p, 0#5, a, d⟩)
  | .viadd g b a d => .word (joinW3 0x03#5 ⟨0#4, BitVec.ofBool g.neg, g.p, b, a, d⟩)
  | .visub g b a d => .word (joinW3 0x03#5 ⟨1#4, BitVec.ofBool g.neg, g.p, b, a, d⟩)
  | .vimul g b a d => .word (joinW3 0x03#5 ⟨2#4, BitVec.ofBool g.neg, g.p, b, a, d⟩)
  | .vand g b a d => .word (joinW3 0x03#5 ⟨3#4, BitVec.ofBool g.neg, g.p, b, a, d⟩)
  | .vor g b a d => .word (joinW3 0x03#5 ⟨4#4, BitVec.ofBool g.neg, g.p, b, a, d⟩)
  | .vxor g b a d => .word (joinW3 0x03#5 ⟨5#4, BitVec.ofBool g.neg, g.p, b, a, d⟩)
  | .vshl g b a d => .word (joinW3 0x03#5 ⟨6#4, BitVec.ofBool g.neg, g.p, b, a, d⟩)
  | .vshr g b a d => .word (joinW3 0x03#5 ⟨7#4, BitVec.ofBool g.neg, g.p, b, a, d⟩)
  | .vsar g b a d => .word (joinW3 0x03#5 ⟨8#4, BitVec.ofBool g.neg, g.p, b, a, d⟩)
  | .vimin g b a d => .word (joinW3 0x03#5 ⟨9#4, BitVec.ofBool g.neg, g.p, b, a, d⟩)
  | .vimax g b a d => .word (joinW3 0x03#5 ⟨10#4, BitVec.ofBool g.neg, g.p, b, a, d⟩)
  | .vcmpEq n b a p => .word (joinWP 0x04#5 ⟨0#5, BitVec.ofBool n, 0#4, b, a, p⟩)
  | .vcmpNe n b a p => .word (joinWP 0x04#5 ⟨0#5, BitVec.ofBool n, 1#4, b, a, p⟩)
  | .vcmpLt n b a p => .word (joinWP 0x04#5 ⟨0#5, BitVec.ofBool n, 2#4, b, a, p⟩)
  | .vcmpLe n b a p => .word (joinWP 0x04#5 ⟨0#5, BitVec.ofBool n, 3#4, b, a, p⟩)
  | .vcmpGt n b a p => .word (joinWP 0x04#5 ⟨0#5, BitVec.ofBool n, 4#4, b, a, p⟩)
  | .vcmpGe n b a p => .word (joinWP 0x04#5 ⟨0#5, BitVec.ofBool n, 5#4, b, a, p⟩)
  | .vcmpOrd n b a p => .word (joinWP 0x04#5 ⟨0#5, BitVec.ofBool n, 6#4, b, a, p⟩)
  | .vcmpUno n b a p => .word (joinWP 0x04#5 ⟨0#5, BitVec.ofBool n, 7#4, b, a, p⟩)
  | .vcmpIeq n b a p => .word (joinWP 0x04#5 ⟨0#5, BitVec.ofBool n, 8#4, b, a, p⟩)
  | .vcmpIlt n b a p => .word (joinWP 0x04#5 ⟨0#5, BitVec.ofBool n, 9#4, b, a, p⟩)
  | .vcmpIltu n b a p => .word (joinWP 0x04#5 ⟨0#5, BitVec.ofBool n, 10#4, b, a, p⟩)
  | .vsel k b a d => .word (joinW3 0x05#5 ⟨0#4, BitVec.ofBool k.neg, k.p, b, a, d⟩)
  | .vcvtI32 g a d => .word (joinW3 0x07#5 ⟨0#4, BitVec.ofBool g.neg, g.p, 0#5, a, d⟩)
  | .vcvtF32 g a d => .word (joinW3 0x07#5 ⟨1#4, BitVec.ofBool g.neg, g.p, 0#5, a, d⟩)
  | .vrndBf16 g a d => .word (joinW3 0x07#5 ⟨2#4, BitVec.ofBool g.neg, g.p, 0#5, a, d⟩)
  | .vrndT8 g a d => .word (joinW3 0x07#5 ⟨3#4, BitVec.ofBool g.neg, g.p, 0#5, a, d⟩)
  | .vrndT6 g a d => .word (joinW3 0x07#5 ⟨4#4, BitVec.ofBool g.neg, g.p, 0#5, a, d⟩)
  | .vrotr k a d => .word (joinWI 0x08#5 ⟨0#4, (0#8 ++ k), a, d⟩)
  | .vrotc k a d => .word (joinWI 0x08#5 ⟨1#4, (0#6 ++ k), a, d⟩)
  | .vbcr k a d => .word (joinWI 0x08#5 ⟨2#4, (0#8 ++ k), a, d⟩)
  | .vbcc k a d => .word (joinWI 0x08#5 ⟨3#4, (0#6 ++ k), a, d⟩)
  | .vtrn16 a d => .word (joinWI 0x08#5 ⟨4#4, 0#12, a, d⟩)
  | .vredrSum a d => .word (joinWI 0x09#5 ⟨0#4, 0#12, a, d⟩)
  | .vredrMax a d => .word (joinWI 0x09#5 ⟨1#4, 0#12, a, d⟩)
  | .vredrMin a d => .word (joinWI 0x09#5 ⟨2#4, 0#12, a, d⟩)
  | .vredcSum a d => .word (joinWI 0x09#5 ⟨4#4, 0#12, a, d⟩)
  | .vredcMax a d => .word (joinWI 0x09#5 ⟨5#4, 0#12, a, d⟩)
  | .vredcMin a d => .word (joinWI 0x09#5 ⟨6#4, 0#12, a, d⟩)
  | .vli i d => .word (joinWU 0x0A#5 ⟨0#1, i, d⟩)
  | .vpop c r q d => .word (joinWI 0x0B#5 ⟨0#4, (c ++ r ++ q), 0#5, d⟩)
  | .vpush c r q a => .word (joinWI 0x0B#5 ⟨1#4, (c ++ r ++ q), a, 0#5⟩)
  | .vtos j r a => .word (joinWI 0x0B#5 ⟨2#4, (0#3 ++ j ++ r), a, 0#5⟩)
  | .vfrs h d => .word (joinWI 0x0B#5 ⟨3#4, (0#11 ++ (BitVec.ofBool h)), 0#5, d⟩)
  | .vldl o d => .word (joinWI 0x0C#5 ⟨0#4, o, 0#5, d⟩)
  | .vstl o a => .word (joinWI 0x0C#5 ⟨1#4, o, a, 0#5⟩)
  | .vSloop e => .word (joinWI 0x0F#5 ⟨0#4, (0#8 ++ e), 1#5, 0#5⟩)
  | .dadd b a d => .word (joinW3 0x10#5 ⟨0#4, 0#1, 0#6, b, a, d⟩)
  | .dsub b a d => .word (joinW3 0x10#5 ⟨1#4, 0#1, 0#6, b, a, d⟩)
  | .dmul b a d => .word (joinW3 0x10#5 ⟨2#4, 0#1, 0#6, b, a, d⟩)
  | .dmix b a d => .word (joinW3 0x10#5 ⟨3#4, 0#1, 0#6, b, a, d⟩)
  | .dmuls b a d => .word (joinW3 0x11#5 ⟨0#4, 0#1, 0#6, b, a, d⟩)
  | .dadds b a d => .word (joinW3 0x11#5 ⟨1#4, 0#1, 0#6, b, a, d⟩)
  | .dmaxs b a d => .word (joinW3 0x11#5 ⟨2#4, 0#1, 0#6, b, a, d⟩)
  | .dmapExp2 a d => .word (joinW3 0x11#5 ⟨3#4, 0#1, 0#6, 0#5, a, d⟩)
  | .dmapLog2 a d => .word (joinW3 0x11#5 ⟨4#4, 0#1, 0#6, 0#5, a, d⟩)
  | .dmapTanh a d => .word (joinW3 0x11#5 ⟨5#4, 0#1, 0#6, 0#5, a, d⟩)
  | .dmapSigmoid a d => .word (joinW3 0x11#5 ⟨6#4, 0#1, 0#6, 0#5, a, d⟩)
  | .dpt r a d => .word (joinWI 0x12#5 ⟨0#4, (0#8 ++ r), a, d⟩)
  | .dgauss r a d => .word (joinWI 0x12#5 ⟨1#4, (0#8 ++ r), a, d⟩)
  | .dpop q d => .word (joinWI 0x12#5 ⟨2#4, (0#8 ++ q), 0#5, d⟩)
  | .dpush q a => .word (joinWI 0x12#5 ⟨3#4, (0#8 ++ q), a, 0#5⟩)
  | .dmom k r a d => .word (joinWI 0x13#5 ⟨0#4, (0#6 ++ k ++ r), a, d⟩)
  | .dqnt r a d => .word (joinWI 0x13#5 ⟨1#4, (0#8 ++ r), a, d⟩)
  | .dtag i d => .word (joinWD 0x14#5 ⟨0#4, 0#1, i, d⟩)
  | .dlin i d => .word (joinWD 0x14#5 ⟨1#4, 0#1, i, d⟩)
  | .dflg i => .word (joinWD 0x14#5 ⟨2#4, 0#1, i, 0#5⟩)
  | .dflgRd i => .word (joinWD 0x14#5 ⟨2#4, 0#1, i, 1#5⟩)
  | .stall n => .half (n ++ 0#4 ++ 0#1)
  | .mvh a d => .half (0#1 ++ a ++ d ++ 1#4 ++ 0#1)
  | .addih i d => .half (i ++ d ++ 2#4 ++ 0#1)
  | .brh g t => .half (0#1 ++ BitVec.ofBool g.neg ++ g.p ++ t ++ 3#4 ++ 0#1)
  | .blockFetch => .none
  | .stallEnd => .none
  | .resultLand => .none
  | .interlockedResultArrival => .none
  | .granuleDataArrival => .none
  | .twaitExpiry => .none
  | .waitmWake => .none
  | .qwaitComplete => .none
  | .barrierRelease => .none
  | .combiningEntrySend => .none
  | .combiningEntryInject => .none
  | .slotInject => .none
  | .slotHopArrival => .none
  | .hopAcknowledge => .none
  | .hopRetransmit => .none
  | .retryExhausted => .none
  | .hopRetrained => .none
  | .returnedSlotReinject => .none
  | .timetabledSlotArrival => .none
  | .landingBufferDrain => .none
  | .trunkGroupArrival => .none
  | .linkOutOfLock => .none
  | .laneFailure => .none
  | .linkBringUp => .none
  | .mirrorAcceptance => .none
  | .resetNoticeArrival => .none
  | .activeMessageArrival => .none
  | .postedWriteArrival => .none
  | .remoteReadRequest => .none
  | .remoteReadReply => .none
  | .remoteAtomicRequest => .none
  | .remoteAtomicReply => .none
  | .migrationDataArrival => .none
  | .lossNoticeArrival => .none
  | .creditReturn => .none
  | .moduleWaveBegin => .none
  | .podWaveBegin => .none
  | .podWavePart => .none
  | .musterSlotMerge => .none
  | .musterRollReturn => .none
  | .jobOpenNotice => .none
  | .jobCloseNotice => .none
  | .jobFreeNotice => .none
  | .stationReset => .none
  | .mrepairArrival => .none
  | .signalArrival => .none
  | .invalidationMarkerArrival => .none
  | .tlbWalkComplete => .none
  | .pageFault => .none
  | .fnfresRetry => .none
  | .fnfresRaisePerm => .none
  | .fnfresEndPlat => .none
  | .fnfresAnswerNothing => .none
  | .bankSwitchComplete => .none
  | .trapDelivery => .none
  | .trapCapture => .none
  | .handlerStart => .none
  | .rteResume => .none
  | .latchReinject => .none
  | .timerMatch => .none
  | .promiseMiss => .none
  | .engineCommandBegin => .none
  | .engineMicroStep => .none
  | .engineCommandComplete => .none
  | .eccFreezeBegin => .none
  | .eccFreezeEnd => .none
  | .selfTestEnd => .none
  | .uncorrectableErrorConsumed => .none
  | .memoryUncorrectableError => .none
  | .pairSlotCompare => .none
  | .pairCompareTimeout => .none
  | .periodicResurvey => .none
  | .resurveyEnd => .none
  | .surveyChangePost => .none
  | .thermalStop => .none
  | .thermalPowerOff => .none
  | .readinessDeadline => .none
  | .readinessVerdict => .none
  | .verdictTimeout => .none
  | .platRelease => .none
  | .priorityAging => .none
  | .runQuantumExpiry => .none
  | .forcedStop => .none
  | .platResume => .none
  | .loaderRequest => .none
  | .templatePass => .none
  | .profilePass => .none
  | .manselWrite => .none
  | .jopenWrite => .none
  | .jcloseWrite => .none
  | .losscntClear => .none
  | .mirentWrite => .none
  | .plostClear => .none
  | .hsemAcquire => .none
  | .hsemRelease => .none
  | .fnctlRst => .none
  | .functionResetComplete => .none
  | .fnctlGo => .none
  | .fnctlEn => .none
  | .fnjobsWrite => .none
  | .feataccWrite => .none
  | .featmaskWrite => .none
  | .fnnotifyWrite => .none
  | .fnerrclrWrite => .none
  | .attctlRequest => .none
  | .attestReportReady => .none
  | .dbgreqRequest => .none
  | .dbgreqWithdraw => .none
  | .registerWrite => .none
  | .hostBar2Write => .none
  | .hostBar2Read => .none
  | .hostConfigRequest => .none
  | .portReset => .none
  | .powerOn => .none
  | .dhcpv6Timeout => .none
  | .imageFetchComplete => .none
  | .firmwareUpdate => .none
  | .moduleReset => .none
  | .ptimeSync => .none
  | .mrepairNoAnswer => .none
  | .hostPortTrained => .none

/-- The bytes of an instruction's word, lowest first (00 R2, 07 R165). -/
def Code.bytes : Code → List Byte
  | .half h => [h.extractLsb' 0 8, h.extractLsb' 8 8]
  | .word w => [w.extractLsb' 0 8, w.extractLsb' 8 8, w.extractLsb' 16 8, w.extractLsb' 24 8]
  | .none => []

/-- The instruction of a list of bytes on a stream of a compute core, if it decodes. -/
def decodedOn (st : Stream) (bs : List Byte) : Option Instr :=
  match decodeBytes .compute st bs with
  | some (.ok i, _) => some i
  | _ => none

/-- The instruction of bytes as the first of the streams C, A, V of a compute core that decodes them: a word has one meaning for
each stream (13 R300), and the table's word does not say which stream it is on (log 9). -/
def decodedOnSome (bs : List Byte) : Option Instr :=
  (decodedOn .c bs).or ((decodedOn .a bs).or (decodedOn .v bs))

/-- The stream on which `decodedOnSome` reads a word. -/
def streamOfWord (bs : List Byte) : Stream :=
  if (decodedOn .c bs).isSome then .c else if (decodedOn .a bs).isSome then .a else .v

/-- The bytes of a word whose bits are numbered as the opcode table numbers them: the least significant bit of the first
halfword is bit 0. A word of the table is 16 or 32 bits long, as its bit 0 says. -/
def tableBytes (w : Nat) : List Byte :=
  if w % 2 = 0 then [BitVec.ofNat 8 w, BitVec.ofNat 8 (w / 256)]
  else [BitVec.ofNat 8 w, BitVec.ofNat 8 (w / 256), BitVec.ofNat 8 (w / 65536), BitVec.ofNat 8 (w / 16777216)]

/-- The instruction the decoder reads from the bits of a row of the opcode table; a row of `nbits` 0 has no word. -/
def decodeTableWord (nbits w : Nat) : Option Instr :=
  if nbits = 0 then none else decodedOnSome (tableBytes w)

end Sys2Proof
end

