-- ==== Sys2Proof/Machine/Commands.lean ====
section
/-! DEFINITION. The words that work the engines: PUSH and the command words with the checks at push (14 R342; 13 R312; 21 R414, R415),
POP and TRYPOP of tokens, SETUP, OCLAIM and ORELEASE (14 R343 to R345; 07 R171 to R178). -/

namespace Sys2Proof.Machine

/-- A command word (13 R312): its engine queue, cmd, flags [30:27] and common fields. -/
structure Cmd where
  eng : EngQ
  cmd : Nat
  fl : BitVec 4
  e : EngArgs
deriving DecidableEq, Repr

/-- The command that an instruction pushes; none for a word that is no engine word. -/
def cmdOf : Instr → Option Cmd
  | .cld e => some ⟨.load, 0, 0, e⟩
  | .cst e => some ⟨.store, 1, 0, e⟩
  | .csta e => some ⟨.store, 2, 0, e⟩
  | .cchn e h l => some ⟨.load, 3, BitVec.ofBool h ++ BitVec.ofBool l ++ 0#2, e⟩
  | .cslc e => some ⟨.store, 4, 0, e⟩
  | .covl e => some ⟨.load, 5, 0, e⟩
  | .cmig e b => some ⟨.load, 6, BitVec.ofBool b ++ 0#3, e⟩
  | .cinv e a => some ⟨.load, 7, BitVec.ofBool a ++ 0#3, e⟩
  | .mma e t f => some ⟨.matrix, 0, BitVec.ofBool t ++ f, e⟩
  | .mmas e t f => some ⟨.matrix, 1, BitVec.ofBool t ++ f, e⟩
  | .mrot e => some ⟨.matrix, 2, 0, e⟩
  | .mdrn e => some ⟨.matrix, 3, 0, e⟩
  | .mclr e => some ⟨.matrix, 4, 0, e⟩
  | .msgn e => some ⟨.matrix, 5, 0, e⟩
  | .wmax e => some ⟨.row, 0, 0, e⟩
  | .wexs e => some ⟨.row, 1, 0, e⟩
  | .wscl e => some ⟨.row, 2, 0, e⟩
  | .wmom e => some ⟨.row, 3, 0, e⟩
  | .wapl e => some ⟨.row, 4, 0, e⟩
  | _ => none

/-! ## Room of a queue (07 R168, R169) -/

/-- The number of an engine queue, and its depth. -/
def engNum : EngQ → Nat
  | .load => 10
  | .store => 11
  | .matrix => 12
  | .row => 13

def engDepth (e : EngQ) : Nat := if e = .row then 8 else 16

/-- Whether an engine queue is full; the room of a command that began in this clk is usable from the next (07 R169). -/
def Engines.full (g : Engines) (e : EngQ) (clk : Nat) : Bool :=
  decide (engDepth e ≤ (g.queue e).length + ((g.live e).filter (fun r => r.begun == clk)).length)

/-! ## Setup sets (07 R172, R173) -/

def Engines.setOf (g : Engines) : EngQ → SetupSet
  | .load => g.copySet
  | .store => g.copySet
  | .matrix => g.matrixSet
  | .row => g.rowSet

/-- Swapping commands of an engine that have been pushed and have not begun. -/
def Engines.swaps (g : Engines) (e : EngQ) : Nat :=
  let n (q : List Command) : Nat := (q.filter Command.sw).length
  match e with
  | .load => n g.loadQ + n g.storeQ
  | .store => n g.loadQ + n g.storeQ
  | .matrix => n g.matrixQ
  | .row => n g.rowQ

/-- The set that will be live after `n` swaps (R173). -/
def SetupSet.after (p : SetupSet) (n : Nat) : Sp Word := if n % 2 = 0 then p.live else p.shadow

/-- The four words of shape record `n` (21 R416). -/
def recordOf (w : Sp Word) (n : Nat) : List Word := (List.range 4).map (fun i => Sp.get 0 w (4 * n + i))

def recBase (r : List Word) : Word := r.getD 0 0
def recRows (r : List Word) : Nat := wfield (r.getD 1 0) 0 32
def recCols (r : List Word) : Nat := wfield (r.getD 1 0) 32 32
def recStride (r : List Word) : Word := sextW 48 (wfield (r.getD 2 0) 0 48)
def recTrows (r : List Word) : Nat := wfield (r.getD 3 0) 0 16
def recTcols (r : List Word) : Nat := wfield (r.getD 3 0) 16 16

/-- A record that holds a reserved combination (21 R415); its reserved fields take no write (00 R5; log 70). -/
def recBad (r : List Word) : Bool :=
  recRows r == 0 || recCols r == 0 || recTrows r == 0 || recTcols r == 0 || wfield (r.getD 2 0) 48 16 != 0 || wfield (r.getD 3 0) 32 32 != 0

/-- M, N and K of the matrix engine's set, the drain format and record, and the rotation order (21 R425). -/
def setM (w : Sp Word) : Nat := wfield (Sp.get 0 w 0) 0 8 + 1
def setN (w : Sp Word) : Nat := 16 * (wfield (Sp.get 0 w 0) 8 4 + 1)
def setK (w : Sp Word) : Nat := wfield (Sp.get 0 w 0) 16 12 + 1
def setDfmt (w : Sp Word) : Nat := wfield (Sp.get 0 w 1) 0 4
def setRec (w : Sp Word) : Nat := wfield (Sp.get 0 w 1) 4 4
def setOrd (w : Sp Word) : Nat := wfield (Sp.get 0 w 2) 0 2

/-- The order n of a code: 16, 64, 256 (21 R425, R414). -/
def orderOf (code : Nat) : Nat := match code with | 1 => 16 | 2 => 64 | 3 => 256 | _ => 0

/-- R, C of the row engine's set (21 R430). -/
def setR (w : Sp Word) : Nat := wfield (Sp.get 0 w 0) 0 8 + 1
def setC (w : Sp Word) : Nat := 16 * (wfield (Sp.get 0 w 0) 8 4 + 1)

/-! ## The checks at push (21 R414, R415) -/

/-- Whether a value has a bit outside a mask. -/
def outside (v : Word) (mask : Word) : Bool := v &&& ~~~mask != 0

/-- Fields beyond the limits of R414. -/
def Cmd.badFields (w : Cmd) (a b : Word) : Bool :=
  match w.eng, w.cmd with
  | .load, 0 => outside b 0x7FFFFFFFF || wfield b 24 2 == 3
  | .store, 1 => outside b 0x7FFFFFFFF || decide (2 ≤ wfield b 24 2)
  | .store, 2 => outside b 0x7FFFFFFFF || decide (2 ≤ wfield b 24 2)
  | .load, 3 => outside a 0xFFFFF || outside b 0x3FFFCFFFFFF || (!w.fl.getLsbD 3 && wfield b 26 4 != 0)
  | .store, 4 => outside a 0x3FFFFFFFFFFFFFFF || wfield b 24 24 % 64 != 0
  | .load, 5 => outside b 0xFFFFFFF || wfield b 0 16 % 128 != 0 || wfield b 16 2 == 3 || wfield b 18 10 == 0 || decide (512 < wfield b 18 10) ||
      decide (65536 < wfield b 0 16 + 128 * wfield b 18 10)
  | .load, 6 => outside a 0xFFFFFFFFF0000 || outside b 0xFFFFFFFFF0000
  | .load, 7 => outside a 0xFFFFFFFFFF0000 || outside b 0xFFFFFF0FFF || (w.fl.getLsbD 3 && wfield b 16 24 != 0)
  | .matrix, 0 => outside a 0x1F1F || outside b 0x7FF
  | .matrix, 1 => outside a 0x1F1F || outside b 0x7FF
  | .matrix, 3 => outside b 0x7FF
  | .matrix, 5 => outside a 0x1F || outside b 0x3 || b == 0
  | .matrix, _ => a != 0 || outside b 0x7FF
  | .row, _ => outside a 0x7FF || outside b 0xFFFFFFFFFFFF || wfield b 0 24 % 64 != 0 || wfield b 24 24 % 8 != 0
  | _, _ => false

/-- FMT of MMA and MMAS, its element size (21 R414, R415). -/
def Cmd.fmt (w : Cmd) : Nat := w.fl.toNat % 8
def mmaEsz (fmt : Nat) : Nat := if fmt = 0 then 2 else 1

/-- The reserved combinations of R415, against the sets that will be live: the engine's own, and for MDRN the copy engine's. -/
def Cmd.badSet (w : Cmd) (a b : Word) (own copy : Sp Word) : Bool :=
  let m := setM own
  let n := setN own
  let k := setK own
  let zrow := wfield b 0 11
  match w.eng, w.cmd with
  | .load, 0 => recBad (recordOf own (wfield b 26 4))
  | .store, 1 => recBad (recordOf own (wfield b 26 4))
  | .store, 2 => recBad (recordOf own (wfield b 26 4))
  | .load, 3 => w.fl.getLsbD 3 && recBad (recordOf own (wfield b 26 4))
  | .matrix, 0 => decide (4 ≤ w.fmt) || decide (65536 < m * k * mmaEsz w.fmt) || decide (65536 < k * n * mmaEsz w.fmt) || decide (2048 < zrow + m)
  | .matrix, 1 => w.fmt != 1 || k % 4 != 0 || decide (65536 < m * k) || decide (65536 < k * n) || decide (2048 < zrow + m)
  | .matrix, 2 => setOrd own == 0 || n % orderOf (setOrd own) != 0 || decide (2048 < zrow + m)
  | .matrix, 3 => decide (5 ≤ setDfmt own) || recBad (recordOf copy (setRec own)) || decide (2048 < zrow + m)
  | .matrix, 4 => decide (2048 < zrow + m)
  | .row, _ => decide (2048 < wfield a 0 11 + setR own)
  | _, _ => false

/-- The feature that a command lacks (21 R415). -/
def Cmd.lacks (w : Cmd) (own : Sp Word) (x : Ctx) : Option Nat :=
  let need := match w.eng, w.cmd with
    | .matrix, 0 => if w.fmt = 2 then [0] else []
    | .matrix, 1 => [1]
    | .matrix, 2 => [8]
    | .matrix, 3 => if setDfmt own = 3 then [0] else []
    | .matrix, 5 => [8]
    | .store, 4 => [6]
    | .load, 6 => [7]
    | _, _ => []
  need.find? (fun f => !x.hasFeature f)

/-- The operand slots that a command names (14 R345; 21 R415). -/
def slotsNamed (eng : EngQ) (cmd : Nat) (a b : Word) : List Nat :=
  match eng, cmd with
  | .load, 0 => if wfield b 24 2 = 2 then [wfield b 30 5] else []
  | .matrix, 0 => [wfield a 0 5, wfield a 8 5]
  | .matrix, 1 => [wfield a 0 5, wfield a 8 5]
  | .matrix, 5 => [wfield a 0 5]
  | _, _ => []

/-- Whether a slot is held by a bank. -/
def CoreSt.holds (k : CoreSt) (bank n : Nat) : Bool := decide (n < 24) && (Sp.get SlotInfo.reset k.slots n).holder == some bank

/-- The working column groups of a core's matrix engine, and its class, as the edition for a context has them (21 R429; 04 R95, R112). -/
def State.columnUnits (s : State) (c : CtxId) : List (Nat × Nat) :=
  ((List.range 16).map (fun g => (s.die (dieOf c.core)).unitAt (s.editionFor c) 0x03 (16 * scoreOf c.core + g))).filter (fun u => decide (u.1 < 2))

def State.columnGroups (s : State) (c : CtxId) : Nat := (s.columnUnits c).length

def State.matrixClass (s : State) (c : CtxId) : Nat := (s.columnUnits c).foldl (fun m u => Nat.max m u.2) 0

/-- The set of an engine that will be live when a command that is pushed now begins (07 R173). -/
def State.setFor (s : State) (w : Cmd) : Sp Word :=
  let g := s.fctx.eng
  (g.setOf w.eng).after (g.swaps w.eng + bit w.e.sw)

/-- A reserved field, value or combination, or an engine that is not there (21 R415). -/
def State.cmdIllegal (s : State) (w : Cmd) (a b : Word) : Bool :=
  let g := s.fctx.eng
  w.badFields a b || (w.eng == .matrix && s.columnGroups s.foc.ctx == 0) || w.badSet a b (s.setFor w) (g.copySet.after (g.swaps .load))

/-- A word that only job 0 may push, whatever its operands hold (21 R415). -/
def Cmd.system (w : Cmd) : Bool := w.eng == .load && (w.cmd == 5 || w.cmd == 6)

/-! ## The mapping of a copy command (09 R236; 21 R416, R417, R434) -/

/-- Row and column of the tile's first element: from sa, which for CCHN holds E; the tile of a chain stands at 0, 0 (21 R414, R417, R420). -/
def Command.tile (c : Command) (e : EngQ) : Nat × Nat := if e = .load && c.cmd == 3 then (0, 0) else (wfield c.va 0 32, wfield c.va 32 32)

/-- The address of a byte of a tile row (21 R417). -/
def tileAddr (r : Run) (t off : Nat) : Nat :=
  (recBase r.shape + BitVec.ofNat 64 (r.row0 + t) * recStride r.shape + BitVec.ofNat 64 (r.col0 * r.esz + off)).toNat

/-- Bytes of a tile row, and how many of them lie inside the tensor. -/
def tileRow (r : Run) : Nat := recTcols r.shape * r.esz
def tileValid (r : Run) (t : Nat) : Nat :=
  if r.row0 + t < recRows r.shape then Nat.min (tileRow r) ((recCols r.shape - r.col0) * r.esz) else 0

/-- The stretches of a tile. -/
def tileSpans (r : Run) : List (Nat × Nat) :=
  (List.range (recTrows r.shape)).map (fun t => (tileAddr r t 0, tileValid r t))

/-- Whether the tensor of a copy command lies in global memory. -/
def globalTensor (r : Run) : Bool := wfield (recBase r.shape) 56 8 == 0

/-- The leaf of an address in the space of a command's job: the one that the core's TLB holds, or else the one that a walk finds; none
where that walk would fault (09 R228, R229). -/
def State.peekLeaf (s : State) (c : CtxId) (va : Nat) : Option Leaf :=
  match (s.core c.core).tlbHit (s.ctx c).job va with
  | some l => some l
  | none =>
    match s.walk c.core (s.ctx c).job.toNat .probe va with
    | .ok l => some l
    | .fault .. => none

/-- The pages of some stretches of bytes. -/
def pagesOf (ps : List (Nat × Nat)) : List Nat :=
  (ps.flatMap (fun p => if p.2 = 0 then [] else
    (List.range ((p.1 + p.2 - 1) / 65536 - p.1 / 65536 + 1)).map (fun i => p.1 / 65536 + i))).eraseDups

/-- The stretches of global memory that a copy command names at its push, in the set that will be live when it begins. -/
def State.spansAtPush (s : State) (c : CtxId) (own : Sp Word) (e : EngQ) (cm : Command) : List (Nat × Nat) :=
  let shape := recordOf own (wfield cm.vb 26 4)
  let r : Run := { c := cm, row0 := (cm.tile e).1, col0 := (cm.tile e).2, step := 1, steps := 0, begun := 0, due := 0, promise := 0, error := 0,
                   errArg := 0, words := own, shape := shape, bpt := [], gone := [], esz := 0, fmt := none, done := none, count := 0 }
  if e == .load && cm.cmd == 5 then [(cm.va.toNat, 256 * wfield cm.vb 18 10)]
  else if (e == .load && (cm.cmd == 0 || cm.cmd == 3 && cm.flags.getLsbD 3) || e == .store && cm.cmd ≤ 2) && globalTensor r then
    match s.peekLeaf c (tileAddr r 0 0) with
    | some l => tileSpans { r with esz := (fmtOf l.fmt).bytes }
    -- the size of an element is not known yet: every page that the tile may touch
    | none => [1, 2, 4].flatMap (fun k => tileSpans { r with esz := k })
  else []

/-- A copy command with the mapping of its pages as it stands at the push: what it translates by behind an invalidation marker. -/
def State.mapped (s : State) (c : CtxId) (own : Sp Word) (e : EngQ) (cm : Command) : Command :=
  { cm with maps := (pagesOf (s.spansAtPush c own e cm)).filterMap (fun p => (s.peekLeaf c (65536 * p)).map (fun l => (p, l))) }

/-- The leaf that a command finds for an address, where it finds one: in its own mapping once a marker has passed it. -/
def State.commandLeaf (s : State) (c : CtxId) (cm : Command) (va : Nat) : Option Leaf :=
  if cm.gen = (s.core c.core).gen (s.ctx c).job then s.peekLeaf c va
  else match cm.maps.find? (fun m => m.1 == va / 65536) with
    | some m => some m.2
    | none => s.peekLeaf c va

/-- Whether a page that a copy command names, as far as it has a mapping, is mirrored (03 R79). -/
def State.namesMirror (s : State) (c : CtxId) (own : Sp Word) (w : Cmd) (a b : Word) : Bool :=
  let cm : Command := { cmd := w.cmd, flags := w.fl, sw := w.e.sw, sig := 0, wait := 0, va := a, vb := b, tag := 0, elig := 0, seq := 0, gen := 0,
                        maps := [], chk := ⟨w.cmd, w.fl, w.e.sw, 0, 0, a, b⟩ }
  (pagesOf (s.spansAtPush c own w.eng cm)).any (fun p => match s.peekLeaf c (65536 * p) with | some l => l.mir | none => false)

/-- The first check of R415 that fails: a cause and its TVAL. A command whose tensor has a MIR page needs feature 5 (03 R76, R79), as far as
its pages have a mapping at the push. -/
def State.pushCheck (s : State) (w : Cmd) (a b : Word) : Option (Nat × Word) :=
  let c := s.foc.ctx
  let x := s.fctx
  let own := s.setFor w
  if s.cmdIllegal w a b then some (cILLEGAL, s.firstHalf.setWidth 64)
  else
    match w.lacks own x with
    | some f => some (cMASKED, BitVec.ofNat 64 f)
    | none =>
      if !x.hasFeature 5 && s.namesMirror c own w a b then some (cMASKED, 5)
      else if x.job != 0 && (w.system || (w.eng == .load && w.cmd == 7 && wfield b 0 12 != x.job.toNat)) then
        some (cPRIV, s.firstHalf.setWidth 64)
      else
        match (slotsNamed w.eng w.cmd a b).find? (fun n => !s.fcore.holds c.bank n) with
        | some n => some (cSLOT, BitVec.ofNat 64 n)
        | none =>
          if w.eng == .store && w.cmd == 2 then
            let base := recBase (recordOf own (wfield b 26 4))
            match (if wfield base 56 8 = 0 then s.leafAt base.toNat else none) with
            | some l => if l.mir then some (cPERM, base) else none
            | none => none
          else none

/-- A command as the check core has it where nothing has failed (04 R105). -/
def Command.own (c : Command) : CmdCopy := ⟨c.cmd, c.flags, c.sw, c.sig, c.wait, c.va, c.vb⟩

/-- A command pushed (14 R342): the checks, room, the release, its place and tag. It becomes eligible 4 clk later (07 R171). -/
def pushBody (w : Cmd) (s : State) : Res :=
  let a := s.rd w.e.sa
  let b := s.rd w.e.sb
  match s.pushCheck w a b with
  | some (c, t) => .trap c t
  | none =>
    if s.fctx.eng.full w.eng s.clk then .wait (0x20 + engNum w.eng) s
    -- the command's reads return what the stream stored and acquired before (09 R245)
    else if s.ownPending s.foc || s.acquirePending s.foc then .wait 0x03 (s.flush s.foc.ctx)
    else
      let copy := w.eng == .load || w.eng == .store
      let s := s.flush s.foc.ctx
      let gen := s.fcore.gen s.fctx.job
      let own := (s.fctx.eng.setOf w.eng).after (s.fctx.eng.swaps w.eng + bit w.e.sw)
      .done (s.modF (fun x =>
        let g := x.eng
        let cm : Command :=
          { cmd := w.cmd, flags := w.fl, sw := w.e.sw, sig := w.e.sig.toNat, wait := w.e.wait.toNat, va := a, vb := b,
            tag := if copy then g.tags % 65534 else 0, elig := s.clk + 4, seq := g.order, gen := gen, maps := []
            chk := ⟨w.cmd, w.fl, w.e.sw, w.e.sig.toNat, w.e.wait.toNat, a, b⟩ }
        let cm := s.mapped s.foc.ctx own w.eng cm
        { x with eng := { g.putQueue w.eng (g.queue w.eng ++ [cm]) with
            tags := if copy then g.tags + 1 else g.tags, order := g.order + 1 } }))

/-- What a command word needs (12 R284): its features and its right come before its operands, but after what makes it ILLEGAL, as far as its
operands have come. -/
def State.cmdNeed (s : State) (w : Cmd) : Need :=
  let n : Need := { srcs := [w.e.sa.toNat, w.e.sb.toNat] }
  let come := !interlockWait s.foc.st s.fstrm n && (hazard s.foc.st s.fstrm s.clk n).isNone
  if come && s.cmdIllegal w (s.rd w.e.sa) (s.rd w.e.sb) then n
  else
    let mirror := if come && !s.fctx.hasFeature 5 && s.namesMirror s.foc.ctx (s.setFor w) w (s.rd w.e.sa) (s.rd w.e.sb) then some 5 else none
    { n with feature := (w.lacks (s.setFor w) s.fctx).or mirror, priv := !s.fctx.normal || (s.fctx.job != 0 && w.system) }

/-- A command word. -/
def cmdWord (w : Cmd) (s : State) : Host.Outcome State Fault Refusal := word32 (s.cmdNeed w) (pushBody w) s

/-- CLD (21 R419). -/
def execCld (e : EngArgs) (s : State) : Host.Outcome State Fault Refusal := cmdWord ⟨.load, 0, 0, e⟩ s

/-- CST (21 R419). -/
def execCst (e : EngArgs) (s : State) : Host.Outcome State Fault Refusal := cmdWord ⟨.store, 1, 0, e⟩ s

/-- CSTA (21 R419). -/
def execCsta (e : EngArgs) (s : State) : Host.Outcome State Fault Refusal := cmdWord ⟨.store, 2, 0, e⟩ s

/-- CCHN (21 R420). -/
def execCchn (e : EngArgs) (head last : Bool) (s : State) : Host.Outcome State Fault Refusal := cmdWord ⟨.load, 3, BitVec.ofBool head ++ BitVec.ofBool last ++ 0#2, e⟩ s

/-- CSLC (21 R421). -/
def execCslc (e : EngArgs) (s : State) : Host.Outcome State Fault Refusal := cmdWord ⟨.store, 4, 0, e⟩ s

/-- COVL (21 R422). -/
def execCovl (e : EngArgs) (s : State) : Host.Outcome State Fault Refusal := cmdWord ⟨.load, 5, 0, e⟩ s

/-- CMIG (21 R422). -/
def execCmig (e : EngArgs) (big : Bool) (s : State) : Host.Outcome State Fault Refusal := cmdWord ⟨.load, 6, BitVec.ofBool big ++ 0#3, e⟩ s

/-- CINV (21 R422; 09 R236). -/
def execCinv (e : EngArgs) (all : Bool) (s : State) : Host.Outcome State Fault Refusal := cmdWord ⟨.load, 7, BitVec.ofBool all ++ 0#3, e⟩ s

/-- MMA (21 R426). -/
def execMma (e : EngArgs) (tb : Bool) (fmt : BitVec 3) (s : State) : Host.Outcome State Fault Refusal := cmdWord ⟨.matrix, 0, BitVec.ofBool tb ++ fmt, e⟩ s

/-- MMAS (21 R426). -/
def execMmas (e : EngArgs) (tb : Bool) (fmt : BitVec 3) (s : State) : Host.Outcome State Fault Refusal := cmdWord ⟨.matrix, 1, BitVec.ofBool tb ++ fmt, e⟩ s

/-- MROT (21 R427). -/
def execMrot (e : EngArgs) (s : State) : Host.Outcome State Fault Refusal := cmdWord ⟨.matrix, 2, 0, e⟩ s

/-- MDRN (21 R428). -/
def execMdrn (e : EngArgs) (s : State) : Host.Outcome State Fault Refusal := cmdWord ⟨.matrix, 3, 0, e⟩ s

/-- MCLR (21 R427). -/
def execMclr (e : EngArgs) (s : State) : Host.Outcome State Fault Refusal := cmdWord ⟨.matrix, 4, 0, e⟩ s

/-- MSGN (21 R427). -/
def execMsgn (e : EngArgs) (s : State) : Host.Outcome State Fault Refusal := cmdWord ⟨.matrix, 5, 0, e⟩ s

/-- WMAX (21 R430). -/
def execWmax (e : EngArgs) (s : State) : Host.Outcome State Fault Refusal := cmdWord ⟨.row, 0, 0, e⟩ s

/-- WEXS (21 R430). -/
def execWexs (e : EngArgs) (s : State) : Host.Outcome State Fault Refusal := cmdWord ⟨.row, 1, 0, e⟩ s

/-- WSCL (21 R430). -/
def execWscl (e : EngArgs) (s : State) : Host.Outcome State Fault Refusal := cmdWord ⟨.row, 2, 0, e⟩ s

/-- WMOM (21 R430). -/
def execWmom (e : EngArgs) (s : State) : Host.Outcome State Fault Refusal := cmdWord ⟨.row, 3, 0, e⟩ s

/-- WAPL (21 R430). -/
def execWapl (e : EngArgs) (s : State) : Host.Outcome State Fault Refusal := cmdWord ⟨.row, 4, 0, e⟩ s

/-- PUSH ra (14 R342): the command word in ra[31:0]; a word that is no valid engine word raises ILLEGAL. -/
def execPush (g : Guard) (a : BitVec 5) (s : State) : Host.Outcome State Fault Refusal :=
  let w : Option Cmd := match decode32 (kindOf s.foc.ctx.core) .c ((s.rd a).setWidth 32) with
    | .ok i => cmdOf i
    | .error _ => none
  word32 { guard := g, priv := !s.fctx.normal, srcs := [a.toNat] ++ (match w with | some w => [w.e.sa.toNat, w.e.sb.toNat] | none => []) }
    (fun s => match w with
      | some w => pushBody w s
      | none => .trap cILLEGAL (s.firstHalf.setWidth 64)) s

/-! ## Tokens (07 R175, R176; 14 R343) -/

/-- Tokens in a FIFO. -/
def Ctx.token (x : Ctx) (f : Nat) : Nat := Sp.get 0 x.tokens f
def Ctx.setToken (x : Ctx) (f n : Nat) : Ctx := { x with tokens := Sp.set 0 x.tokens f n }

/-- Heads of engine queues that wait on a FIFO: the C stream's word stands behind them in program order (R176). -/
def Engines.claims (g : Engines) (f : Nat) : Bool :=
  [EngQ.load, .store, .matrix, .row].any (fun e => match g.queue e with | c :: _ => c.wait == f | [] => false)

/-- POP (14 R343). -/
def execPop (g : Guard) (t : BitVec 5) (s : State) : Host.Outcome State Fault Refusal :=
  word32 { guard := g, priv := !s.fctx.normal }
    (fun s =>
      let x := s.fctx
      if x.token t.toNat = 0 || x.eng.claims t.toNat then .wait (0x2F + t.toNat) s
      else .done (s.modF (fun x => x.setToken t.toNat (x.token t.toNat - 1)))) s

/-- TRYPOP tk, pb (14 R343). -/
def execTrypopToken (g : Guard) (p t : BitVec 5) (s : State) : Host.Outcome State Fault Refusal :=
  word32 { guard := g, priv := !s.fctx.normal, dsts := [(codeP p.toNat, 1)] }
    (fun s =>
      let x := s.fctx
      if x.token t.toNat = 0 || x.eng.claims t.toNat then .done (s.resPred p.toNat false)
      else .done ((s.modF (fun x => x.setToken t.toNat (x.token t.toNat - 1))).resPred p.toNat true)) s

/-! ## Setup and operand slots (07 R172; 14 R344, R345) -/

/-- The words of an engine's set by the engine code of SETUP, none where the core lacks the engine or the code is reserved. -/
def setupWords (kd : CoreKind) (engine : Nat) : Option (EngQ × Nat) :=
  match engine with
  | 0 => some (.load, 64)
  | 1 => if kd.ctl then none else some (.matrix, 3)
  | 2 => if kd.ctl then none else some (.row, 4)
  | _ => none

/-- The bits of a word of a set that no field named reserved holds (21 R416, R425, R430). -/
def setupFields (e : EngQ) (i : Nat) : Word :=
  match e, i with
  | .matrix, 0 => 0x0FFF0FFF
  | .matrix, 1 => 0xFF
  | .matrix, _ => 3
  | .row, 0 => 0xFFF
  | .row, 1 => 0xFFFFFFFF
  | .row, 2 => 0xFFFFFFFF
  | .row, _ => 0
  | _, i => match i % 4 with
    | 2 => 0x0000FFFFFFFFFFFF
    | 3 => 0x00000000FFFFFFFF
    | _ => BitVec.allOnes 64

/-- A word written to a shadow set; a write to a field named reserved is ignored (00 R5), so that no record of R415 has a nonzero one (log 70). -/
def Engines.setShadow (g : Engines) (e : EngQ) (i : Nat) (v : Word) : Engines :=
  let put (p : SetupSet) : SetupSet := { p with shadow := Sp.set 0 p.shadow i (v &&& setupFields e i) }
  match e with
  | .load => { g with copySet := put g.copySet }
  | .store => { g with copySet := put g.copySet }
  | .matrix => { g with matrixSet := put g.matrixSet }
  | .row => { g with rowSet := put g.rowSet }

/-- SETUP (14 R344). -/
def execSetup (g : Guard) (b a : BitVec 5) (s : State) : Host.Outcome State Fault Refusal :=
  word32 { guard := g, priv := !s.fctx.normal, srcs := [a.toNat, b.toNat] }
    (fun s =>
      let r := s.rd a
      match setupWords (kindOf s.foc.ctx.core) (wfield r 8 4) with
      | none => .trap cILLEGAL (s.firstHalf.setWidth 64)
      | some (e, n) =>
        if n ≤ wfield r 0 8 then .trap cILLEGAL (s.firstHalf.setWidth 64)
        else if s.fctx.eng.swaps e != 0 then .wait 0x03 s
        else .done (s.modF (fun x => { x with eng := x.eng.setShadow e (wfield r 0 8) (s.rd b) }))) s

/-- The bytes of operand slot `n` with its scales in the core's slot memory. -/
def slotAt (n : Nat) : Nat := 0x11000 * n

/-- Whether a claim zeroes a slot: its last holder was of another job (14 R345). -/
def claimZeroes (i : SlotInfo) (bank : Nat) (job : BitVec 12) : Bool :=
  i.holder.isNone && (match i.last with | some j => j != job | none => false) && i.holder != some bank

/-- OCLAIM (14 R345): 2 clk, or 66 clk when zeroing. -/
def execOclaim (i d : BitVec 5) (s : State) : Host.Outcome State Fault Refusal :=
  let n := i.toNat
  let info := Sp.get SlotInfo.reset s.fcore.slots n
  let lat := if claimZeroes info s.foc.ctx.bank s.fctx.job then 66 else 2
  word32 { priv := !s.fctx.normal, dsts := [(d.toNat, lat)] }
    (fun s =>
      let c := s.foc.ctx
      if 23 < n then .trap cSLOT (BitVec.ofNat 64 n)
      else
        match info.holder with
        | some h => .done (s.resWord d.toNat lat (if h = c.bank then 1 else 0))
        | none =>
          let job := s.fctx.job
          let s := s.modFcore (fun k =>
            { k with slots := Sp.put k.slots n (if claimZeroes info c.bank job then ⟨0, 0, some c.bank, some job⟩
                                                else { info with holder := some c.bank, last := some job }),
                     slotMem := if claimZeroes info c.bank job then Memory.clear k.slotMem (slotAt n) (slotAt (n + 1)) else k.slotMem })
          .done (s.resWord d.toNat lat 1)) s

/-- Whether a pushed command that is not complete names a slot. -/
def Engines.names (g : Engines) (n : Nat) : Bool :=
  [EngQ.load, .store, .matrix, .row].any (fun e =>
    ((g.queue e) ++ (g.live e).map Run.c).any (fun c => (slotsNamed e c.cmd c.va c.vb).contains n))

/-- ORELEASE (14 R345). -/
def execOrelease (i : BitVec 5) (s : State) : Host.Outcome State Fault Refusal :=
  word32 { priv := !s.fctx.normal }
    (fun s =>
      let n := i.toNat
      if !s.fcore.holds s.foc.ctx.bank n then .trap cSLOT (BitVec.ofNat 64 n)
      else if s.fctx.eng.names n then .wait 0x03 s
      else .done (s.modFcore (fun k => { k with slots := Sp.put k.slots n { Sp.get SlotInfo.reset k.slots n with holder := none } }))) s

end Sys2Proof.Machine
end

