-- ==== Sys2Proof/Machine/Path.lean ====
section
/-! DEFINITION. The paths of the rings: positions and directions of the local ring (01 R12 to R14), the trunk ring that free traffic
takes and its direction (01 R16 to R18), and the times of a path. -/

namespace Sys2Proof.Machine

/-- The position of a station on the local ring, by its number within the module (01 R12). -/
def posOf (sta : Nat) : Nat :=
  match sta with
  | 0 => 0 | 1 => 1 | 8 => 2 | 2 => 3 | 3 => 4 | 9 => 5 | 4 => 6 | 5 => 7 | 10 => 8 | 6 => 9 | 7 => 10 | _ => 11

/-- The station at a position. -/
def staAt (pos : Nat) : Nat :=
  match pos % 12 with
  | 0 => 0 | 1 => 1 | 2 => 8 | 3 => 2 | 4 => 3 | 5 => 9 | 6 => 4 | 7 => 5 | 8 => 10 | 9 => 6 | 10 => 7 | _ => 11

/-- Hops clockwise from one station to another. -/
def cwHops (a b : Nat) : Nat := (posOf b + 12 - posOf a) % 12

/-- Free traffic between two stations of a module goes counter-clockwise: where that has fewer hops (01 R14). -/
def goesCcw (a b : Nat) : Bool := decide (12 - cwHops a b < cwHops a b)

/-- The hops of free traffic between two stations of a module. -/
def freeHops (a b : Nat) : Nat := if cwHops a b = 0 then 0 else if goesCcw a b then 12 - cwHops a b else cwHops a b

/-- The next station in a direction. -/
def nextSta (sta : Nat) (ccw : Bool) : Nat := staAt (if ccw then posOf sta + 11 else posOf sta + 1)

/-- One direction of the trunk link that waystation `k` of a module transmits on. -/
def State.link (s : State) (mod k : Nat) (ccw : Bool) : LinkSt :=
  let t := s.sta (16 * mod + 8 + k)
  if ccw then t.linkCcw else t.linkCw

/-- The place of a module in the pod. -/
def State.modIndex (s : State) (m : Nat) : Nat := s.pod.mods.idxOf m

/-- The next module in a direction. -/
def State.nextMod (s : State) (m : Nat) (ccw : Bool) : Nat :=
  let n := s.pod.mods.length
  (s.pod.mods[(s.modIndex m + (if ccw then n - 1 else 1)) % n]?).getD m

/-- Whether a trunk link is in lock, by the entries of both of its waystations (01 R34): the next waystation has it on its other side. -/
def State.inLock (s : State) (mod k : Nat) (ccw : Bool) : Bool :=
  !(s.link mod k ccw).unlock && !(s.link (s.nextMod mod ccw) k !ccw).unlock

/-- Whether a trunk link is in service, by the entries of both of its waystations: LANES 0 at one takes the link out (01 R19). -/
def State.linkUp (s : State) (mod k : Nat) (ccw : Bool) : Bool :=
  (s.link mod k ccw).lanes != 0 && (s.link (s.nextMod mod ccw) k !ccw).lanes != 0

/-- Whether a waystation is in service: its unit is not struck (04 R89, R100). -/
def State.wayUp (s : State) (mod k : Nat) : Bool := !(s.die (8 * mod + 2 * k)).struck 0x0D 0

/-- Trunk hops clockwise from one module to another (01 R17). -/
def State.trunkCw (s : State) (a b : Nat) : Nat :=
  let n := s.pod.mods.length
  if n = 0 then 0 else (s.modIndex b + n - s.modIndex a) % n

/-- The direction of free traffic on a trunk ring: fewer hops, clockwise on a tie (01 R17). -/
def State.trunkCcw (s : State) (a b : Nat) : Bool :=
  decide (s.pod.mods.length - s.trunkCw a b < s.trunkCw a b)

/-- The modules that transmit on the way, in order. -/
def State.trunkPath (s : State) (ccw : Bool) : Nat → Nat → List Nat
  | 0, _ => []
  | n + 1, m => m :: s.trunkPath ccw n (s.nextMod m ccw)

/-- The modules that transmit from one module to another. -/
def State.trunkSenders (s : State) (a b : Nat) : List Nat :=
  let ccw := s.trunkCcw a b
  s.trunkPath ccw (if ccw then s.pod.mods.length - s.trunkCw a b else s.trunkCw a b) a

/-- Whether ring `k` offers a path in service (01 R17): every waystation of the path, and every link. -/
def State.ringUp (s : State) (k a b : Nat) : Bool :=
  let ms := s.trunkSenders a b
  let ccw := s.trunkCcw a b
  s.wayUp b k && ms.all (fun m => s.wayUp m k && s.linkUp m k ccw)

/-- The trunk ring of free traffic from a station to another module, none where no ring offers a path (01 R17). -/
def State.ringFor (s : State) (mod sta dmod : Nat) : Option Nat :=
  ((List.range 4).map (fun i => (dmod + sta + i) % 4)).find? (fun k => s.ringUp k mod dmod)

/-- The one-way time of a free slot from one station to another, without contention (01 R13, R18). -/
def State.oneWay (s : State) (mod sta dmod dsta : Nat) : Nat :=
  if mod = dmod then 8 + 2 * freeHops sta dsta
  else
    match s.ringFor mod sta dmod with
    | none => 0
    | some k =>
      let ms := s.trunkSenders mod dmod
      let ccw := s.trunkCcw mod dmod
      8 + 2 * freeHops sta (8 + k) + 2 * freeHops (8 + k) dsta + 6 + ms.foldl (fun t m => t + 6 + (s.link m k ccw).lat) 0

/-- LAT of the survey's path entry for a core and a memory unit: PKIND 2 an HBM4E stack, 3 an LPDDR-6 slice (04 R90). -/
def State.pathLat (s : State) (core pkind unit : Nat) : Nat :=
  match (s.die (dieOf core)).survey.paths.find? (fun p => p.pkind == pkind && p.frm == scoreOf core && p.dst == unit) with
  | some p => p.lat
  | none => 0

end Sys2Proof.Machine
end

