-- ==== Sys2Proof/Machine/Engines.lean ====
section
/-! DEFINITION. What the engines share: which engine may act, the beginning of a command with its promise, its completion with its token
or error (07 R171 to R179; 05 R139, R140; 21 R423, R424, R432), and the pages of buffers as a command saw them when it began. -/

namespace Sys2Proof.Machine

/-! ## Which engine may act -/

/-- The engines of a context act while its streams may, and until the state of a stop is taken at t_c; not in a handler, in a freeze or in a
foreground test of the core (07 R174, R185; 12 R288; 04 R99). -/
def State.engineLive (s : State) (c : CtxId) : Bool :=
  let x := s.ctx c
  x.resident && (match x.phase with | .running => true | .stopping _ => true | _ => false) && x.normal && !s.frozen c.core &&
  decide ((s.core c.core).test ≤ s.clk)

/-- The number of an engine in the order of the step records (12 R291). -/
def engIndex : EngQ → Nat
  | .load => 0
  | .store => 1
  | .matrix => 2
  | .row => 3

/-- The source code of an engine in a walk. -/
def engSrc (e : EngQ) : Nat := engIndex e + 2

/-- An engine whose step has faulted takes none until the fault is answered (09 R233, R234). -/
def Ctx.engineFault (x : Ctx) (e : EngQ) : Bool := x.fault.any (fun f => f.req.src == engSrc e)

/-- The other bank of a core. -/
def otherBank (c : CtxId) : CtxId := ⟨c.core, 1 - c.bank⟩

/-- The head of a queue whose token is there, in the order of the claimants (07 R176). -/
def Ctx.headReady (x : Ctx) (e : EngQ) (clk : Nat) : Bool :=
  match x.eng.queue e with
  | [] => false
  | h :: _ =>
    decide (h.elig ≤ clk) &&
    (h.wait == 0 || (x.token h.wait != 0 &&
      [EngQ.load, .store, .matrix, .row].all (fun f => match x.eng.queue f with
        | g :: _ => g.wait != h.wait || decide (h.seq ≤ g.seq)
        | [] => true)))

/-- Whether a head waits on a token that is not there. -/
def Ctx.headStarved (x : Ctx) (e : EngQ) : Bool :=
  match x.eng.queue e with
  | [] => true
  | h :: _ => h.wait != 0 && x.token h.wait == 0

def isCopy (e : EngQ) : Bool := e == .load || e == .store

/-- Whether nothing that a command has sent is still to be performed (21 R419). -/
def State.engineIdle (s : State) (c : CtxId) (e : EngQ) (seq : Nat) : Bool :=
  let k := s.core c.core
  !k.groups.any (fun g => match g.want with
    | .place c' q n .. => c' == c && q == e && n == seq
    | .done c' q n _ => c' == c && q == e && n == seq
    | _ => false) &&
  !k.owed.any (fun o => o.bank == c.bank && o.eng == some (e, seq))

/-- Whether a command is complete but for its error element and its token: its last clk has come, and what it has sent is performed, a
CINV's markers among it (07 R176, R179; 09 R237; 21 R419). -/
def State.complete (s : State) (c : CtxId) (e : EngQ) (r : Run) : Bool :=
  (match r.done with | some d => decide (d ≤ s.clk) | none => false) && (r.error != 0 || s.engineIdle c e r.c.seq) &&
  (e != .load || r.c.cmd != 7 || r.count == 0 || r.error != 0)

/-- Whether an engine may take a command after those of a bank: the last of them has issued its last step in an earlier clk, and none holds its
token for want of room (07 R176; 21 R431, R435). -/
def State.engineRoom (s : State) (c : CtxId) (e : EngQ) : Bool :=
  let x := s.ctx c
  (x.eng.live e).all (fun r => decide (r.due ≤ s.clk) &&
    !(s.complete c e r && r.c.sig != 0 && decide (8 ≤ x.token r.c.sig)))

/-! ## Pages as a command saw them -/

/-- A buffer page entry of the table that a command keeps from its beginning on (08 R198). -/
def Run.snapEntry (r : Run) (buf page : Nat) : Word :=
  withField (Sp.get bptRelease r.bpt (128 * buf + page)) 30 1 (bit (!r.gone.contains (128 * buf + page)))

/-- The entry of a byte of a buffer. -/
def Run.snapAt (r : Run) (buf off : Nat) : Word :=
  if inInbox buf off then 0xC0004000 else r.snapEntry buf (off / 65536)

/-- Whether the scales of a page are to be had: its scale page has V and AV set (08 R201). -/
def Run.scalesThere (r : Run) (buf : Nat) (e : Word) : Bool :=
  let p := r.snapEntry buf (wfield e 16 7)
  entGeom e == 0 || !wbit e 23 || (entV p && entAv p)

/-- The pages of a core whose AV is 0 (08 R197). -/
def State.pagesGone (s : State) (core : Nat) : List Nat :=
  [0, 1, 2].flatMap (fun b => ((List.range (bufPages b)).filter (fun p => !s.pageAvail core b p)).map (fun p => 128 * b + p))

/-- The offset of the scale byte of a byte of a buffer, where its page has scales (08 R201). -/
def scaleOffset (e : Word) (off : Nat) : Option Nat :=
  if entGeom e = 0 || !wbit e 23 then none
  else some (65536 * wfield e 16 7 + 1024 * wfield e 24 6 + blockOf (entGeom e) (off % 65536))

/-! ## The tile of a copy command (21 R416, R417) -/

/-- A grant of a clk to a class of the copy engine. A clk without one ends a run of grants (05 R140; log 35). -/
def CoreSt.grant (k : CoreSt) (cls clk : Nat) : CoreSt :=
  { k with grantClass := cls, grantRun := if k.grantClass = cls && k.grantFrom = clk then k.grantRun + 1 else 1, grantFrom := clk + 1 }

/-- Inbound traffic that comes when the clk's grant has been made to none takes it: nothing else is pending (05 R140). -/
def State.grantInbound (s : State) (core : Nat) : State :=
  if s.clk < (s.core core).grantFrom || s.frozen core then s
  else (s.modCore core (fun k => k.grant 3 s.clk)).postNow (.landingBufferDrain core)

/-- Bytes of one beat: 1,024, or 256 on a control-only core (21 R423). -/
def beatBytes (core : Nat) : Nat := if (kindOf core).ctl then 256 else 1024

def ceilDiv (a b : Nat) : Nat := (a + b - 1) / b

/-- LAT for a page at its home (21 R423). -/
def State.latOf (s : State) (core : Nat) (l : Leaf) (pa : Nat) : Nat :=
  let base := if isHbm pa then s.pathLat core 2 (pa / 0xC00000000) else s.pathLat core 3 (homeStation pa)
  let m := l.homeMod (modOf core)
  if m = modOf core then base else base + 2 * s.oneWay (modOf core) (stationOf core % 16) m (homeStation pa)

/-- The highest LAT over the pages of some stretches of bytes (21 R423). -/
def State.highestLat (s : State) (c : CtxId) (cm : Command) (ps : List (Nat × Nat)) : Nat :=
  (pagesOf ps).foldl (fun m p => match s.commandLeaf c cm (65536 * p) with
    | some l => Nat.max m (s.latOf c.core l (l.pa (65536 * p)))
    | none => m) 0

/-- The element size of the page of a tensor byte, where that page is there. -/
def State.pageEsz (s : State) (c : CtxId) (r : Run) (a : Nat) : Option Nat :=
  if globalTensor r then (s.commandLeaf c r.c a).map (fun l => (fmtOf l.fmt).bytes)
  else
    match decodeEa (kindOf c.core) (BitVec.ofNat 64 a) 1 with
    | .buf b off => some (fmtOf (entFmt (r.snapAt b off))).bytes
    | _ => none

/-- The element size of a command's tensor (21 R417, R418): that of the page in which a tile of such elements begins, or of the page of its first
row, or where no page is there, of its local page. -/
def State.tensorEsz (s : State) (c : CtxId) (r : Run) : Nat :=
  let size (e : Nat) : Option Nat := s.pageEsz c r (tileAddr { r with esz := e } 0 0)
  match [1, 2, 4].find? (fun e => size e == some e) with
  | some e => e
  | none =>
    (size 0).getD (match wfield r.c.vb 24 2 with
      | 0 => (fmtOf (entFmt (r.snapAt 0 (wfield r.c.vb 0 24)))).bytes
      | 1 => (fmtOf (entFmt (r.snapAt 1 (wfield r.c.vb 0 24)))).bytes
      | _ => 1)

/-- Slots of 256 bytes of a chain tile (21 R420). -/
def chainSlots (r : Run) : Nat := ceilDiv (recTrows r.shape * tileRow r) 256

/-- Receivers, and lines for each, of a slice multicast (21 R421, R414). -/
def sliceReceivers (r : Run) : Nat := wfield r.c.va 56 6 + 1
def sliceLines (r : Run) : Nat := wfield r.c.va 24 16 + wfield r.c.va 40 16

/-- Bytes that a migration moves (21 R422). -/
def migBytes (r : Run) : Nat := if r.c.flags.getLsbD 3 then 2 ^ 28 else 65536

/-- The steps of a command (21 R432). -/
def State.stepsOf (s : State) (c : CtxId) (e : EngQ) (r : Run) : Nat :=
  match e, r.c.cmd with
  | .load, 3 => if r.c.flags.getLsbD 3 then chainSlots r else 0
  | .load, 5 => ceilDiv (256 * wfield r.c.vb 18 10) 1024
  | .load, 6 => migBytes r / 1024
  | .load, 7 => 1
  | .store, 4 => sliceReceivers r * ceilDiv (sliceLines r) 3
  | .matrix, 0 => ceilDiv (setN r.words / 16) (s.columnGroups c) * ceilDiv (setM r.words * setK r.words) (match r.c.flags.toNat % 8 with
      | 0 => 128 | 2 => 1024 | _ => 512)
  | .matrix, 1 => ceilDiv (setN r.words / 16) (s.columnGroups c) * ceilDiv (setM r.words * setK r.words) 1024
  | .matrix, 5 => 1
  | .matrix, _ => setM r.words
  | .row, _ => setR r.words
  | _, _ => recTrows r.shape * ceilDiv (tileRow r) (beatBytes c.core)

/-- The clk from the last step to completion, the highest LAT included (21 R423, R429, R431). -/
def State.tailOf (s : State) (c : CtxId) (e : EngQ) (r : Run) : Nat :=
  let cls := s.matrixClass c
  match e, r.c.cmd with
  | .load, 0 => if globalTensor r then 6 + s.highestLat c r.c (tileSpans r) else 4
  | .load, 3 => 0
  | .load, 5 => 6 + s.highestLat c r.c [(r.c.va.toNat, 256 * wfield r.c.vb 18 10)]
  | .load, 6 =>
    let lat (pa : Nat) : Nat := if isHbm pa then s.pathLat c.core 2 (pa / 0xC00000000) else s.pathLat c.core 3 (homeStation pa)
    6 + lat r.c.va.toNat + lat r.c.vb.toNat
  | .load, _ => 0
  | .store, 1 => 6 + s.highestLat c r.c (tileSpans r)
  | .store, 2 => 14 + s.highestLat c r.c (tileSpans r)
  | .store, _ => 8
  | .matrix, 4 => 3
  | .matrix, 5 => if wfield r.c.vb 0 2 = 3 then 12 else 5
  | .matrix, _ => 21 + cls
  | .row, 0 => 10
  | .row, 1 => 18
  | .row, 2 => 12
  | .row, 3 => 14
  | .row, _ => 16

/-- The amount of a promise (21 R423). -/
def State.promiseOf (s : State) (c : CtxId) (e : EngQ) (r : Run) : Nat :=
  match e, r.c.cmd with
  | .load, 3 => wfield r.c.va 0 20 + 40
  | .load, 7 => 104
  | _, _ => r.steps + s.tailOf c e r + 40

/-! ## Beginning -/

/-- A copy command's element size and steps, as its pages give them until its first step has gone. -/
def State.sized (s : State) (c : CtxId) (e : EngQ) (r : Run) : Run :=
  let r := if isCopy e && decide (r.c.cmd ≤ 3) && r.step == 1 then { r with esz := s.tensorEsz c r } else r
  { r with steps := s.stepsOf c e r }

/-- The run of a command at its beginning, in the sets that are live then. A command without a step has its end at once. -/
def State.newRun (s : State) (c : CtxId) (e : EngQ) (cm : Command) : Run :=
  let x := s.ctx c
  let words := (x.eng.setOf e).live
  let shape := if e = .matrix then recordOf x.eng.copySet.live (setRec words) else recordOf words (wfield cm.vb 26 4)
  let r : Run := { c := cm, row0 := (cm.tile e).1, col0 := (cm.tile e).2, step := 1, steps := 0, begun := s.clk, due := s.clk, promise := 0,
                   error := 0, errArg := 0, words := words, shape := shape, bpt := x.bpt, gone := s.pagesGone c.core
                   esz := if e = .matrix then (fmtOf (setDfmt words)).bytes else 1, fmt := none, done := none, count := 0 }
  let r := s.sized c e r
  if r.steps = 0 && !(e == .load && cm.cmd == 3) then { r with due := s.clk + 1, done := some (s.clk + s.tailOf c e r) } else r

/-! ## The local bytes of a command: what begins when its inputs are complete (04 R112) -/

/-- The stretches of local bytes that a command reads, and those that it writes: space, first offset, length. A slot is one stretch of space 3
(21 R417, R420, R421, R426 to R428, R430). -/
def Run.spans (r : Run) (e : EngQ) : List (Nat × Nat × Nat) × List (Nat × Nat × Nat) :=
  let slot (n : Nat) : Nat × Nat × Nat := (3, slotAt n, 0x11000)
  let local_ : Nat × Nat × Nat :=
    let sp := wfield r.c.vb 24 2
    if sp = 2 then slot (wfield r.c.vb 30 5) else (sp, wfield r.c.vb 0 24, recTrows r.shape * tileRow r)
  let z (n : Nat) : Nat × Nat × Nat := (2, 1024 * wfield r.c.vb 0 11, 1024 * n)
  let tensor : List (Nat × Nat × Nat) :=
    if wfield (recBase r.shape) 56 8 < 0xF0 then []
    else (tileSpans r).map (fun p => (p.1 / 2 ^ 56 - 0xF0, p.1 % 2 ^ 24, p.2))
  let m := setM r.words
  match e, r.c.cmd with
  | .load, 0 => (tensor, [local_])
  | .load, 3 => (tensor, [(1, wfield r.c.vb 0 24, recTrows r.shape * tileRow r)])
  | .load, _ => ([], [])
  | .store, 4 =>
    let lc := wfield r.c.va 24 16
    let ls := wfield r.c.va 40 16
    ([(1, wfield r.c.va 0 24, 64 * (lc + sliceReceivers r * ls)), (1, 64 * wfield r.c.vb 48 16, 2 * sliceReceivers r)], [])
  | .store, _ => ([local_], [])
  | .matrix, 3 => ([z m], [])
  | .matrix, 4 => ([], [z m])
  | .matrix, 2 => ([z m], [z m])
  | .matrix, 5 => ([slot (wfield r.c.va 0 5)], [])
  | .matrix, _ => ([slot (wfield r.c.va 0 5), slot (wfield r.c.va 8 5), z m], [z m])
  | .row, _ =>
    let rows := setR r.words
    let esz := (fmtOf (entFmt (r.snapAt 1 (wfield r.c.vb 0 24)))).bytes
    let x : List (Nat × Nat × Nat) :=
      [(1, wfield r.c.vb 24 24, 8 * rows), (1, wfield r.c.vb 0 24, rows * setC r.words * esz)]
    ((2, 1024 * wfield r.c.va 0 11, 1024 * rows) :: x, x)

/-- Whether two stretches meet. -/
def spansMeet (a b : Nat × Nat × Nat) : Bool :=
  a.1 == b.1 && decide (a.2.1 < b.2.1 + b.2.2) && decide (b.2.1 < a.2.1 + a.2.2)

/-- Whether the inputs of a command are complete: no earlier command of its context that is not complete writes what it reads (04 R112). -/
def State.inputsComplete (s : State) (c : CtxId) (e : EngQ) (cm : Command) : Bool :=
  let x := s.ctx c
  let reads := ((s.newRun c e cm).spans e).1
  let ahead (f : EngQ) (r : Run) : Bool := decide (r.c.seq < cm.seq) && (r.spans f).2.any (fun w => reads.any (spansMeet w))
  [EngQ.load, .store, .matrix, .row].all (fun f =>
    !(x.eng.live f).any (ahead f) && !(x.eng.queue f).any (fun q => ahead f (s.newRun c f q)))

/-- Whether the head of a queue may begin in this clk (07 R171, R176; 05 R139; 04 R106, R112; 21 R429, R431). -/
def State.mayBegin (s : State) (c : CtxId) (e : EngQ) : Bool :=
  let x := s.ctx c
  let k := s.core c.core
  let o := otherBank c
  s.engineLive c && !x.engineFault e && x.headReady e s.clk && (x.eng.run e).isNone && !x.eng.blocked.contains e && s.engineRoom c e &&
  ((s.ctx o).eng.run e == none && s.engineRoom o e || !s.engineLive o) &&
  (c.bank == k.active || (s.ctx ⟨c.core, k.active⟩).headStarved e) &&
  (e != .matrix || decide (k.matrixFree ≤ s.clk)) &&
  (!isCopy e || !x.q14.full 32 s.clk) &&
  (!x.guarded || (x.eng.queue e).head?.all (s.inputsComplete c e))

/-- The live and shadow sets of an engine exchanged (07 R172). -/
def Engines.swap (g : Engines) (e : EngQ) : Engines :=
  let f (p : SetupSet) : SetupSet := ⟨p.shadow, p.live⟩
  match e with
  | .load => { g with copySet := f g.copySet }
  | .store => { g with copySet := f g.copySet }
  | .matrix => { g with matrixSet := f g.matrixSet }
  | .row => { g with rowSet := f g.rowSet }

/-- A command that the check core does not have as the core has it: it is not issued, its queue issues no later one, CHECK is raised and the core
is tested (04 R98, R105, R106). -/
def State.copyMismatch (s : State) (c : CtxId) (e : EngQ) : State :=
  ((s.modCtx c (fun x => { x with eng := { x.eng with blocked := e :: x.eng.blocked } })).raiseAsync c cCHECK (BitVec.ofNat 64 (engIndex e))).logicTest c.core

/-! ## Ends -/

/-- A run that has met an error: no further data are written, and it ends in the clk in which the error is found, or in the clk after it
begins (21 R424). -/
def Run.fail (r : Run) (code arg clk : Nat) : Run :=
  { r with error := code, errArg := arg, done := some (if clk = r.begun then clk + 1 else clk) }

/-- What a command in progress has become. -/
def State.putRun (s : State) (c : CtxId) (e : EngQ) (r : Run) : State :=
  s.modCtx c (fun x => { x with eng := x.eng.modSeq e r.c.seq (fun _ => r) })

/-- A step done: the micro-PC moves, and after the last step the clk of completion is known, a copy's one clk later (21 R423), and the copy and
row engines go on (21 R431, R435). -/
def State.stepped (s : State) (c : CtxId) (e : EngQ) (r : Run) : State :=
  let r := { r with step := r.step + 1, due := s.clk + 1 }
  let r := if r.steps < r.step then { r with done := some (s.clk + s.tailOf c e r + bit (isCopy e)) } else r
  let s := if e = .matrix then s.modCore c.core (fun k => { k with matrixFree := s.clk + s.tailOf c e r }) else s
  if e != .matrix && decide (r.steps < r.step) then
    s.modCtx c (fun x => { x with eng := { x.eng.putRun e none with drain := x.eng.drain ++ [(e, r)] } })
  else s.putRun c e r

/-- A command stopped by an error in this clk, which completes it unless it has just begun (21 R424). -/
def State.failed (s : State) (c : CtxId) (e : EngQ) (r : Run) (code arg : Nat) : State :=
  (s.putRun c e (r.fail code arg s.clk)).postNow (.engineCommandComplete c e)

/-- The error element of a run (21 R424; 07 R178). -/
def errElement (e : EngQ) (r : Run) : Word :=
  let tag := match e with | .matrix => 0xFFFE | .row => 0xFFFF | _ => r.c.tag
  BitVec.ofNat 64 (tag * 2 ^ 48 + 0xFFFFFFFFFFFF)

/-- Whether a command completes in this clk: its data complete, its error element and its token with room (07 R176; 21 R424), and no freeze
under way (07 R185). -/
def State.mayEndRun (s : State) (c : CtxId) (e : EngQ) (r : Run) : Bool :=
  let x := s.ctx c
  !s.frozen c.core && s.complete c e r && (r.error == 0 || !x.q14.full 32 s.clk) && (r.c.sig == 0 || decide (x.token r.c.sig < 8))

/-- The command of an engine that completes next: the oldest that may. -/
def State.ending (s : State) (c : CtxId) (e : EngQ) : Option Run := ((s.ctx c).eng.live e).find? (s.mayEndRun c e)

/-- Whether a command of an engine completes in this clk. -/
def State.mayEnd (s : State) (c : CtxId) (e : EngQ) : Bool := (s.ending c e).isSome

/-- The promise of a copy command with a tag that is not complete at its promised cycle (07 R179; 09 R237). -/
def State.lateOf (s : State) (c : CtxId) (tag : Nat) (e : EngQ) : Option Nat :=
  match ((s.ctx c).eng.live e).find? (fun r => r.c.tag == tag) with
  | some r =>
    if r.error == 0 && !s.complete c e r && decide (r.promise ≤ (s.cyc c.core).toNat % 2 ^ 48) then some r.promise else none
  | none => none

/-- PROMISE_MISS (07 R179): not raised in guarded timing (04 R112). -/
def execPromiseMiss (s : State) : Host.Outcome State Fault Refusal :=
  match s.cur with
  | some (.promiseMiss c tag) =>
    match ([EngQ.load, .store].filterMap (s.lateOf c tag.toNat)).head? with
    | some p => .next (if (s.ctx c).guarded then s else s.raiseAsync c cPROMISE (BitVec.ofNat 64 (tag.toNat * 2 ^ 48 + p)))
    | none => .next s
  | _ => .next s

/-- Every engine of a core looked at again in this clk. -/
def State.kick (s : State) (core : Nat) : State :=
  [0, 1].foldl (fun s b => [EngQ.load, .store, .matrix, .row].foldl (fun s e =>
    if ((s.ctx ⟨core, b⟩).eng.queue e).isEmpty then s else s.postNow (.engineCommandBegin ⟨core, b⟩ e)) s) s

/-- ENGINE_COMMAND_COMPLETE (07 R176, R179; 21 R424). -/
def execEngineCommandComplete (s : State) : Host.Outcome State Fault Refusal :=
  match s.cur with
  | some (.engineCommandComplete c e) =>
    match s.ending c e with
    | none => .next s
    | some r =>
      let s := s.modCtx c (fun x =>
        let x := { x with eng := x.eng.dropSeq e r.c.seq }
        if r.c.sig = 0 then x else x.setToken r.c.sig (x.token r.c.sig + 1))
      let s := if r.error = 0 then s else
        (s.modCtx c (fun x => { x with
          q14 := x.q14.add (errElement e r) (s.clk + 2)
          eng := { x.eng with errs := Sp.set 0 x.eng.errs (engIndex e) (BitVec.ofNat 64 (r.errArg % 2 ^ 56 * 256 + r.error)) } })).raiseAsync
          c cENGERR (errElement e r)
      .next ((s.promiseDone c).kick c.core)
  | _ => .next s

end Sys2Proof.Machine
end

