-- ==== Sys2Proof/Machine/Life.lean ====
section
/-! DEFINITION. The life of contexts and plats: status records (05 R126), the end of a context and of a plat (05 R133; 12 R281; 14 R353),
bank switches (05 R138), trap entry and return with the frame store (12 R288 to R297), fault records and answers (09 R232 to R234). -/

namespace Sys2Proof.Machine

/-! ## Plats -/

def DieSt.modPlat (d : DieSt) (plat : Word) (f : PlatRec → PlatRec) : DieSt :=
  { d with plats := d.plats.map (fun p => if p.plat = plat then f p else p) }

def State.modPlat (s : State) (die : Nat) (plat : Word) (f : PlatRec → PlatRec) : State := s.modDie die (fun d => d.modPlat plat f)

/-- A region of a plat that is not released yet has 2 more than its PLATID for a bank. -/
def waitBank (plat : Word) : Nat := 2 + plat.toNat

/-- The plat that a region of a core belongs to. -/
def State.regionOwner (s : State) (core : Nat) (r : Region) : Word :=
  if r.bank < 2 then (s.ctx ⟨core, r.bank⟩).plat else BitVec.ofNat 64 (r.bank - 2)

/-- A region overwritten: the plat that it belongs to has to load it again before it resumes or is released (05 R130). A stopped context's region is
marked; that of a plat not released yet is gone. -/
def State.overwrite (s : State) (core : Nat) (r : Region) : State :=
  let owner := s.regionOwner core r
  let mark (rs : List Region) : List Region :=
    if r.bank < 2 then rs.map (fun q => if q = r then { q with overwritten := true } else q) else rs.filter (fun q => q != r)
  let s := s.modCore core (fun k => { k with regions := mark k.regions })
  s.modPlat (dieOf core) owner (fun p =>
    { p with loads := p.loads.filter (fun l => !(l.core == core && l.st == r.st)) ++ [⟨core, r.st, none, 0⟩] })

/-- At most 64 KiB written through a job's own translation, as firmware and schedulers write (05 R126); nothing where a page does not
translate. -/
def State.writeVirt (s : State) (core job : Nat) (va : Nat) (bs : List Byte) : State :=
  let page (t : State) (a : Nat) (cs : List Byte) : State :=
    if cs = [] then t
    else
      match t.walk core job .write a with
      | .ok l => t.writeMem 0 (l.homeMod (modOf core)) (l.pa a) cs
      | .fault .. => t
  let room := 65536 - va % 65536
  page (page s va (bs.take room)) (va + room) (bs.drop room)

/-- Bytes read through a job's own translation; none where a page does not translate. -/
def State.readVirt (s : State) (core job : Nat) (acc : Access) (va n : Nat) : Option (List Byte) :=
  let page (a m : Nat) : Option (List Byte) :=
    match s.walk core job acc a with
    | .ok l => some (Memory.readN s.mem (memKey (l.homeMod (modOf core)) (l.pa a)) m)
    | .fault .. => none
  if n = 0 then some []
  else
    let first := va / 65536
    let last := (va + n - 1) / 65536
    (List.range (last - first + 1)).foldl (fun acc i =>
      let lo := Nat.max va ((first + i) * 65536)
      let hi := Nat.min (va + n) ((first + i + 1) * 65536)
      match acc, page lo (hi - lo) with
      | some bs, some cs => some (bs ++ cs)
      | _, _ => none) (some [])

/-- A status record written into the header copy that the LAUNCH named, the second word first (05 R126). -/
def State.writeStatus (s : State) (die : Nat) (p : PlatRec) (code detail cyc : Nat) : State :=
  let va := p.va + 0x100 + 16 * (die % 8)
  let s := s.writeVirt p.core 0 (va + 8) (bytesLE 8 cyc)
  s.writeVirt p.core 0 va (bytesLE 8 (code * 2 ^ 56 + detail % 2 ^ 16 * 2 ^ 40))

/-- The record of a plat takes a code (05 R126); an entry of the launch table is freed at RETIRED, EVACUATED, ENDED and failures
(05 R127), and with it the regions loaded for a release. -/
def State.setStatus (s : State) (die : Nat) (plat : Word) (code detail : Nat) : State :=
  match (s.die die).plat plat with
  | none => s
  | some p =>
    let s := s.writeStatus die p code detail s.clk
    if 4 ≤ code then
      let s := s.modDie die (fun d => { d with plats := d.plats.filter (fun q => q.plat != plat) })
      (List.range 8).foldl (fun t k => t.modCore (16 * die + k) (fun x => { x with regions := x.regions.filter (fun r => r.bank != waitBank plat) })) s
    else s.modPlat die plat (fun q => { q with code := code, detail := detail })

/-! ## Banks (05 R138) -/

/-- Whether a context can issue when its bank is active. -/
def Ctx.issues (x : Ctx) : Bool :=
  x.resident && (match x.phase with
    | .atWaypoint => false
    | .faulted => false
    | .forced => false
    | _ => true)

/-- Whether a bank of a core issues: it is active, no switch runs, and the core is not frozen. -/
def State.bankActive (s : State) (c : CtxId) : Bool :=
  let k := s.core c.core
  k.active == c.bank && k.switching.isNone && !s.frozen c.core

/-- A bank switch of 8 clk begins at a clk, or as the freeze that holds the core ends (05 R138; 07 R185, R189). -/
def State.beginSwitch (s : State) (core bank start : Nat) : State :=
  let start := Nat.max start (s.thaw core)
  (s.modCore core (fun k => { k with switching := some bank, switchEnd := start + 8 })).post (start + 8) (.bankSwitchComplete core)

/-- The active bank changes when its context no longer issues and the other bank's does (05 R138). -/
def State.reconsider (s : State) (core start : Nat) : State :=
  let k := s.core core
  if k.switching.isSome then s
  else if !(s.ctx ⟨core, k.active⟩).issues && (s.ctx ⟨core, 1 - k.active⟩).issues then s.beginSwitch core (1 - k.active) start
  else s

/-! ## Displacement (08 R204) -/

/-- The page of a byte of a buffer, or of the element whose kind a byte of Z tells. -/
def pageOfByte (buf a : Nat) : Nat := if buf = 2 && decide (zKindAt ≤ a) then (a - zKindAt) / 16384 else a / 65536

/-- The bytes of a buffer that lie in pages whose entries a context has with V = 1; the inboxes are in no page (08 R196). -/
def State.ownBytes (s : State) (c : CtxId) (buf : Nat) (m : Memory) : Memory × Memory :=
  let ps := (List.range (bufPages buf)).filter (fun p => entV (s.bptEntry c buf p))
  let own (e : Nat × Byte) : Bool := ps.contains (pageOfByte buf e.1) && !inInbox buf e.1
  (m.filter own, m.filter (fun e => !own e))

/-- A stopped context's pages, slots and sign store copied away and set to zero (08 R204). -/
def State.displace (s : State) (c : CtxId) : State :=
  let x := s.ctx c
  if !x.resident || x.displaced then s
  else
    let s := s.modCore c.core (fun k => { k.settleAll with moves := k.moves.filter (fun m => m.1 != c.bank) })
    let k := s.core c.core
    let (w, w') := s.ownBytes c 0 k.memW
    let (b, b') := s.ownBytes c 1 k.memX
    let (z, z') := s.ownBytes c 2 k.memZ
    let held (e : Nat × Byte) : Bool := (Sp.get SlotInfo.reset k.slots (e.1 / 0x11000)).holder == some c.bank
    let pg (l : Nat) : Bool := entV (s.bptEntry c 1 (l / 1024)) && !inInbox 1 (64 * l)
    let s := s.putCtx c { x with
      displaced := true, dispW := w, dispX := b, dispZ := z, dispSlots := k.slotMem.filter held, dispSign := k.sign,
      dispPoison := k.poison.filter pg }
    s.modCore c.core (fun k => { k with
      memW := w', memX := b', memZ := z', slotMem := k.slotMem.filter (fun e => !held e), sign := []
      poison := k.poison.filter (fun l => !pg l) })

/-- A displaced context's state copied back, after what the other bank's context has there is displaced; of what else the buffers held only the
inboxes stay (08 R204, R205). -/
def State.swapIn (s : State) (c : CtxId) : State :=
  if !(s.ctx c).displaced then s
  else
    let s := s.displace ⟨c.core, 1 - c.bank⟩
    let x := s.ctx c
    let put (buf : Nat) (m d : Memory) : Memory := Sp.setAll Memory.unlisted (m.filter (fun e => inInbox buf e.1)) d
    let s := s.modCore c.core (fun k => { k with
      memW := put 0 k.memW x.dispW, memX := put 1 k.memX x.dispX, memZ := put 2 k.memZ x.dispZ
      slotMem := Sp.setAll Memory.unlisted k.slotMem x.dispSlots, sign := x.dispSign, moves := k.moves.filter (fun m => m.1 != c.bank)
      poison := x.dispPoison ++ k.poison.filter (fun l => inInbox 1 (64 * l)) })
    s.modCtx c (fun x => { x with
      displaced := false, dispW := [], dispX := [], dispZ := [], dispSlots := [], dispSign := [], dispPoison := [] })

/-! ## Ends -/

/-- A context ends: its slots are released, its regions and its awaited data are gone, a pending DEBUG request is withdrawn
(14 R353; 12 R286). -/
def State.freeCtx (s : State) (c : CtxId) : State :=
  let x := s.ctx c
  let s := s.putCtx c { Ctx.reset with frame := x.frame }
  let s := s.modCore c.core (fun k =>
    { k with
      moves := k.moves.filter (fun m => m.1 != c.bank)
      slots := k.slots.map (fun e => if e.2.holder = some c.bank then (e.1, { e.2 with holder := none, last := some x.job }) else e)
      regions := k.regions.filter (fun r => r.bank != c.bank)
      groups := k.groups.filter (fun g => g.bank != c.bank)
      ap := k.ap.filter (fun w => w.ctx != c)
      walks := k.walks.filter (fun w => w.ctx != c)
      walkLeaf := k.walkLeaf.filter (fun w => w.1.ctx != c) })
  let s := s.modSta (stationOf c.core) (fun t => { t with qregs := t.qregs.filter (fun q => q.ctx != c) })
  s.reconsider c.core (s.clk + 1)

/-- The die whose share a barrier unit of a quad or die is (05 R117, R118). -/
def barDie (u : BarUnit) : Option Nat :=
  match u.scope with
  | 1 => some (u.inst / 2)
  | 2 => some u.inst
  | _ => none

/-- The die whose share of its module's reservations a local one is: that of its source station, or of its destination where a waystation
is its source (05 R122; log 72). -/
def Resv.die? (r : Resv) : Option Nat :=
  if r.trunk then none
  else if r.ssta < 8 then some (8 * r.smod + r.ssta)
  else if r.dsta < 8 then some (8 * r.dmod + r.dsta)
  else none

/-- A plat that a die no longer holds: the die's barrier units and reservations are free (05 R126, R133), and what its dies share, with the last
one of the module or of the pod (log 72). -/
def State.freeUnits (s : State) (die : Nat) (plat : Word) : State :=
  let mod := die / 8
  let pod := s.dies.any (fun d => (d.2.plat plat).isSome)
  let here := s.dies.any (fun d => d.1 / 8 == mod && (d.2.plat plat).isSome)
  let keepBar (u : BarUnit) : Bool := u.plat != plat || (match barDie u with
    | some d => d != die
    | none => if u.scope = 3 then u.inst != mod || here else pod)
  let keepRes (r : Word × Resv) : Bool := r.1 != plat || (here && r.2.die? != some die)
  { s with bars := s.bars.filter (fun b => keepBar b.1)
           cores := s.cores.map (fun k => (k.1, { k.2 with arrivals := k.2.arrivals.filter (fun a => keepBar a.unit) }))
           modules := s.modules.map (fun m => if m.1 = mod then (m.1, { m.2 with booked := m.2.booked.filter keepRes }) else m) }

/-- A plat is ended without records (05 R126, 12 R281): every die's record reads ENDED with the cause, and its contexts end. -/
def State.endPlat (s : State) (plat : Word) (cause : Nat) : State :=
  let s := (s.dies.map Prod.fst).foldl (fun t d => t.setStatus d plat 0x06 cause) s
  let s := (s.ctxsOf plat).foldl (fun t c => t.freeCtx c) s
  let s : State := { s with dies := s.dies.map (fun (d : Nat × DieSt) => (d.1, { d.2 with
    kept := d.2.kept.filter (fun q => q.1 != plat), log := d.2.log.filter (fun l => l.plat != plat) })) }
  (s.dies.map Prod.fst).foldl (fun t d => t.freeUnits d plat) s

/-- The plat of a context is ended; a context that has no plat ends alone. -/
def State.endPlatOf (s : State) (c : CtxId) (cause : Nat) : State :=
  let p := (s.ctx c).plat
  if p = 0 then s.freeCtx c else s.endPlat p cause

/-- A checkpointed plat rolls back (04 R109): the logged lines are written back, newest first, and the plat ends with the cause in
its record, by which its dispatch bank is told (log 16). -/
def State.rollback (s : State) (plat : Word) (cause : Nat) : State :=
  let lines := s.dies.flatMap (fun d => (d.2.log.filter (fun l => l.plat == plat)).map (fun l => (memKey (d.1 / 8) l.pa, l.old)))
  let s := { s with mem := lines.foldl (fun (m : Memory) (l : Nat × List Byte) => Memory.writeN m l.1 l.2) s.mem }
  s.endPlat plat cause

/-- Whether a plat has a checkpoint in a recoverable interval (04 R107 to R109). -/
def State.recoverable (s : State) (plat : Word) : Bool :=
  plat != 0 && s.dies.any (fun d => d.2.plats.any (fun p => p.plat == plat && p.ckptAt.isSome)) &&
  !s.dies.any (fun d => d.2.plats.any (fun p => p.plat == plat && !p.recoverable))

/-! ## Trap entry (12 R288 to R291) -/

/-- Results in flight taken into latches at t_c, with their remaining cycles; 0 where the data has not come (12 R288). -/
def latchOf (tc : Nat) (p : Pend) : Pend := if p.inter then { p with land := 0 } else { p with land := p.land + 1 - tc }

/-- The stream record of a stopped stream (12 R291). -/
def StreamSt.record (y : StreamSt) (te tc : Nat) : StreamRec :=
  { pc := y.pc, blk := y.blk, len := y.len, reps := y.reps, atHeader := y.atHeader, stall := y.stall, slip := y.slip,
    prepReg := y.prepReg, prepDist := te - y.prepClk y.prepReg, begun := y.begun,
    latch := y.pend.map (latchOf tc) }

/-- The bytes of a stream record (12 R291). -/
def StreamRec.bytes (r : StreamRec) (waiting : Bool) : List Byte :=
  bytesLE 2 r.pc ++ bytesLE 2 r.blk ++ bytesLE 2 r.reps ++ bytesLE 2 r.stall ++ bytesLE 1 r.prepReg ++
  bytesLE 1 (Nat.min r.prepDist 255) ++ bytesLE 1 (bit waiting) ++ List.replicate 5 0 ++ bytesLE 8 r.slip ++ List.replicate 8 0

/-- A value as a C or A latch holds it. -/
def RVal.scalar : RVal → Nat
  | .word v => v.toNat
  | .pred b => bit b
  | _ => 0

/-- A C or A latch (12 R291). -/
def latchBytes (p : Pend) : List Byte :=
  bytesLE 8 p.val.scalar ++ bytesLE 1 p.reg ++ bytesLE 1 p.land ++ bytesLE 1 1 ++ List.replicate 5 0

/-- A V latch descriptor (12 R291). -/
def vLatchBytes (p : Pend) : List Byte :=
  let k := match p.val with
    | .mask _ => 2
    | .dist _ => 3
    | _ => 1
  let t := match p.val with
    | .dist d => (d.tag.toNat, d.lin.toNat)
    | _ => (0, 0)
  bytesLE 1 k ++ bytesLE 1 p.reg ++ bytesLE 1 p.land ++ bytesLE 1 1 ++ bytesLE 2 t.1 ++ bytesLE 2 t.2 ++
  bytesLE 2 p.fl.toNat ++ List.replicate 6 0

/-- The bytes of a distribution register's 12 rows (11 R272). -/
def DReg.bytes (d : DReg) : List Byte := (rowOfLanes d.lanes).flatMap (fun g => g.flatMap (fun e => bytesLE 4 e.toNat))

/-- The data of a V latch (12 R291). -/
def vLatchData (p : Pend) : List Byte :=
  match p.val with
  | .vec v => v.flatMap (fun e => bytesLE 4 e.toNat)
  | .mask m => bytesLE 128 m.toNat
  | .dist d => d.bytes
  | _ => []

/-- A table of records of `n` places, each of `k` bytes. -/
def table (n k : Nat) (bs : List (List Byte)) : List Byte :=
  ((bs.take n).map (fun b => (b ++ List.replicate k 0).take k)).flatten ++ List.replicate ((n - bs.length) * k) 0

/-- The pending bits of the frame header (12 R291). -/
def Ctx.pendingBits (x : Ctx) : Nat := x.pending.foldl (fun n p => n ||| 2 ^ (p.1 - 0x20)) 0

/-- The occupancy of a queue, reserved granules counted (12 R291). -/
def Ctx.occupancy (x : Ctx) (q : Nat) : Nat :=
  match q with
  | 0 => x.q0.items.length | 1 => x.q1.items.length | 2 => x.q2.items.length | 3 => x.q3.items.length
  | 4 => x.q4.items.length | 5 => x.q5.items.length | 6 => x.q6.items.length | 7 => x.q7.items.length
  | 8 => x.q8.items.length | 9 => x.q9.items.length
  | 10 => x.eng.loadQ.length | 11 => x.eng.storeQ.length | 12 => x.eng.matrixQ.length | 13 => x.eng.rowQ.length
  | 14 => x.q14.items.length | _ => x.q15.items.length

/-- An engine step record (12 R291): the micro-PC, and in bytes 120 to 127 the engine's last error (21 R424); the rest of the step
state stays in the context. -/
def runBytes (r : Option Run) (err : Word) : List Byte :=
  bytesLE 4 (match r with | some r => r.step | none => 0) ++ List.replicate 116 0 ++ bytesLE 8 err.toNat

/-- The frame of a context at t_c (12 R291). -/
def Ctx.frameImage (x : Ctx) (te tc : Nat) : Memory :=
  let m : Memory := x.frame
  let m := Memory.clear m 0 0x9000
  let m := Memory.writeN m 0 (bytesLE 8 x.trapc.toNat ++ bytesLE 8 x.tval.toNat ++ bytesLE 8 te ++ bytesLE 8 tc ++ bytesLE 8 x.pendingBits)
  let m := Memory.writeN m 0x40 ((x.c.record te tc).bytes x.c.waiting ++ (x.a.record te tc).bytes x.a.waiting ++
    (x.v.record te tc).bytes x.v.waiting)
  let lat (y : StreamSt) : List Pend := y.pend.map (latchOf tc)
  let m := Memory.writeN m 0x100 (table 8 16 ((lat x.c).map latchBytes) ++ table 8 16 ((lat x.a).map latchBytes) ++
    table 8 16 ((lat x.v).map vLatchBytes))
  let m := Memory.writeN m 0x280 (table 4 128 [runBytes (x.eng.now .load) (Sp.get 0 x.eng.errs 0),
    runBytes (x.eng.now .store) (Sp.get 0 x.eng.errs 1), runBytes (x.eng.now .matrix) (Sp.get 0 x.eng.errs 2),
    runBytes (x.eng.now .row) (Sp.get 0 x.eng.errs 3)])
  let m := Memory.writeN m 0x480 ((List.range 16).flatMap (fun q => bytesLE 8 (x.occupancy q)))
  (lat x.v).zipIdx.foldl (fun m p => Memory.writeN m (0x1000 + 4096 * p.2) (vLatchData p.1)) m

/-- TRAPC at an entry (12 R290): TIE and SIE stay. -/
def trapcOf (old : Word) (cause scause strm mode : Nat) (mrg : Bool) (word : Nat) : Word :=
  BitVec.ofNat 64 (cause * 2 ^ 56 + scause * 2 ^ 48 + strm * 2 ^ 46 + mode * 2 ^ 44 + bit mrg * 2 ^ 43 + word % 65536 * 2 ^ 24 +
    wfield old 0 2)

/-- SCAUSE of an entry: 0x40 once a pending access has taken a page fault (12 R290, R294). -/
def Ctx.scause (x : Ctx) : Nat := if x.secondary.isSome then 0x40 else 0

/-- A page fault of an access that was pending when a trap was entered is noted, and stands in SCAUSE of the frame (12 R294). -/
def Ctx.secondFault (x : Ctx) : Ctx :=
  { x with secondary := some 0, frame := if x.saved.isSome then Memory.writeN x.frame 6 [0x40] else x.frame }

/-- The C stream emptied of what its record holds. -/
def StreamSt.emptied (y : StreamSt) : StreamSt :=
  { y with pend := [], latch := [], stall := 0, bubble := 0, slip := 0, waiting := false, hold := .no, begun := false,
           fetch := none, writing := none }

/-- The A or V stream with its results in latches (12 R288). -/
def StreamSt.latched (y : StreamSt) (tc : Nat) : StreamSt := { y with latch := y.pend.map (latchOf tc), pend := [], fetch := none }

/-- Whether every stream has at most 8 results in flight, and no start of a V stage loop is among them (12 R288; log 17). -/
def Ctx.canCapture (x : Ctx) : Bool :=
  decide (x.c.pend.length ≤ 8) && decide (x.a.pend.length ≤ 8) && decide (x.v.pend.length ≤ 8) && !x.v.pend.any (fun p => p.reg == 200)

/-- The state of a context captured at t_c (12 R288, R297). A forced stop or page fault in a handler mode saves only C, in the
handler frame. -/
def Ctx.capture (x : Ctx) (te tc : Nat) (e : Entry) : Ctx :=
  let r := x.c.record te tc
  if !x.normal && (e.kind == .pageFault || e.kind == .forcedStop) then
    { x with
      frame := Memory.writeN (Memory.clear x.frame 0x9000 0x9100) 0x9000 (r.bytes x.c.waiting ++ table 8 16 (r.latch.map latchBytes))
      handlerSaved := some r, c := x.c.emptied }
  else
    -- the frame records the mode that was interrupted (12 R293); TRAPC and TVAL change at a handler entry only (12 R289)
    let y := { x with trapc := trapcOf x.trapc e.cause x.scause e.strm 0 e.mrg e.word, tval := e.tval }
    let z := if e.kind == .pageFault || e.kind == .forcedStop then x else y
    { z with frame := y.frameImage te tc, saved := some r, savedTe := te, c := x.c.emptied, a := x.a.latched tc, v := x.v.latched tc }

/-- FNHVEC of the function that owns a context's job (12 R282). -/
def State.hypervisorVector (s : State) (c : CtxId) : Nat :=
  match (s.modu (modOf c.core)).owner (s.ctx c).job.toNat with
  | some f => wfield ((s.modu (modOf c.core)).fn f).hvec 0 16
  | none => 0

/-! ## Return (12 R293) -/

/-- A stream set going again from its record at t_r. -/
def StreamSt.resume (y : StreamSt) (r : StreamRec) (slip tr : Nat) : StreamSt :=
  { y with pc := r.pc, blk := r.blk, len := r.len, reps := r.reps, atHeader := r.atHeader, stall := r.stall, slip := slip,
           begun := r.begun, waiting := false, hold := .no, prepReg := r.prepReg,
           prep := Sp.set 0 y.prep r.prepReg (tr - r.prepDist) }

/-- The latches of a stream re-injected from t_r on (12 R293): those with r ≥ 1 land at t_r + r - 1, those whose data has come at
t_r, the others when it comes. -/
def State.reinject (s : State) (i : StreamId) (ls : List Pend) (tr : Nat) : State :=
  ls.foldl (fun t p =>
    if p.inter then t.modStrm i (fun y => { y with pend := y.pend ++ [p] })
    else
      let land := if p.land = 0 then tr else tr + p.land - 1
      (t.modStrm i (fun y => { y with pend := y.pend ++ [{ p with land := land }] })).post (land + 1) (.latchReinject i p.id)) s

/-- The A or V stream set going again at t_r: it has been stopped since t_e. Its slip grows by the time that passed, and its prepared branch
keeps its distance (12 R291, R293). -/
def StreamSt.goOn (y : StreamSt) (te d tr : Nat) : StreamSt :=
  { y with slip := y.slip + d, latch := [], waiting := false, hold := .no,
           prep := Sp.set 0 y.prep y.prepReg (tr - (te - y.prepClk y.prepReg)) }

/-- The context goes on from its main frame at t_r = this clk (12 R293), or from its handler frame (12 R297). -/
def State.restore (s : State) (c : CtxId) : State :=
  let s := s.swapIn c
  let x := s.ctx c
  match x.handlerSaved with
  | some r =>
    let tr := s.thaw c.core
    let s := s.modCtx c (fun x => { x with handlerSaved := none, phase := .running, entry := none, c := x.c.resume r r.slip tr })
    s.reinject ⟨c, .c⟩ r.latch tr
  | none =>
    match x.saved with
    | none => s.modCtx c (fun x => { x with phase := .running, entry := none })
    | some r =>
      let d := s.clk - x.savedTe
      -- results pause with a core that is frozen (07 R185)
      let tr := s.thaw c.core
      let s := s.modCtx c (fun x =>
        { x with
          saved := none, phase := .running, entry := none, trapc := withField x.trapc 44 2 0,
          guarded := x.guarded || x.guardLater, guardLater := false
          c := x.c.resume r (r.slip + d) tr, a := x.a.goOn x.savedTe d tr, v := x.v.goOn x.savedTe d tr })
      let s := s.reinject ⟨c, .c⟩ r.latch tr
      let s := s.reinject ⟨c, .a⟩ x.a.latch tr
      s.reinject ⟨c, .v⟩ x.v.latch tr

/-- A context that is ready goes on when its bank is active; else it asks for its core (09 R234). One of a plat that is pre-empted goes on
with its plat. -/
def State.wake (s : State) (c : CtxId) : State :=
  let held := match s.platRec c with
    | some p => p.code == 3
    | none => false
  let s := s.modCtx c (fun x => { x with phase := if held then .forced else .ready })
  if held then s
  else if (s.core c.core).active == c.bank && (s.core c.core).switching.isNone then s.restore c else s.reconsider c.core (s.clk + 1)

/-! ## Faults (09 R232 to R234) -/

/-- The port whose PF records a fault of a context (09 R232); none when neither can. -/
def State.faultPort (s : State) (c : CtxId) : Option Nat :=
  let m := s.modu (modOf c.core)
  let p := match m.owner (s.ctx c).job.toNat with
    | some f => f / 64
    | none => s.requester c - 1
  let p := if p < 2 then p else 0
  if m.port p then some p
  else if (m.owner (s.ctx c).job.toNat).isSome then none
  else if m.port (1 - p) then some (1 - p) else none

/-- The code of an access in a record (09 R232). -/
def accessCode : Access → Nat
  | .read => 0
  | .write => 1
  | .atomic => 2
  | .overlay => 3
  | _ => 0

/-- The 64 bytes of a fault record (09 R232). -/
def faultBytes (f : FaultRec) (fn : Nat) : List Byte :=
  bytesLE 8 f.req.va ++ bytesLE 8 f.gpa ++ bytesLE 2 f.req.job.toNat ++ bytesLE 1 fn ++ bytesLE 1 f.kind ++
  bytesLE 1 (accessCode f.req.acc) ++ bytesLE 1 f.level ++ bytesLE 1 (dieOf f.req.ctx.core % 8) ++ bytesLE 1 (scoreOf f.req.ctx.core) ++
  bytesLE 1 f.req.ctx.bank ++ bytesLE 1 (Nat.min f.req.src 2) ++ List.replicate 6 0 ++ bytesLE 8 f.at_.toNat ++ List.replicate 16 0 ++ bytesLE 8 f.seq

/-- A record written, or kept until its slot is free (09 R232). -/
def State.recordFault (s : State) (port : Nat) (f : FaultRec) : State :=
  let m := modOf f.req.ctx.core
  let pf := (s.modu m).fn (64 * port)
  let area := wfield pf.area 12 40 * 4096
  if area = 0 then s.endPlatOf f.req.ctx cPERM
  else if pf.unanswered.any (fun u => u.seq % 64 == pf.seq % 64) then
    s.modMod m (fun x => x.modFn (64 * port) (fun pf => { pf with waitingSlot := pf.waitingSlot ++ [f] }))
  else
    let f := { f with seq := pf.seq }
    let fn := ((s.modu m).owner f.req.job.toNat).getD (64 * port)
    let s := s.writeMem 0 m (area + 64 * (pf.seq % 64)) (faultBytes f fn)
    let s := s.modMod m (fun x => x.modFn (64 * port) (fun pf => { pf with seq := pf.seq + 1, unanswered := pf.unanswered ++ [f] }))
    s.modCtx f.req.ctx (fun x =>
      { x with fault := some f, faultSlot := some (port, f.seq % 64),
               secondary := if x.secondary.isSome then some (BitVec.ofNat 64 f.seq) else none })

/-- A fault of a context recorded, or answered as VERDICT 2 when no port can take it (09 R232). -/
def State.reportFault (s : State) (f : FaultRec) : State :=
  match s.faultPort f.req.ctx with
  | some p => s.recordFault p f
  | none => s.endPlatOf f.req.ctx cPERM

/-- What an answer does first: the register reads back, the record's slot is free, and records that waited for their slots are
written, as far as those are free (09 R232). -/
def State.takeAnswer (s : State) (m port slot verdict : Nat) : Option FaultRec × State :=
  let pf := (s.modu m).fn (64 * port)
  let f := pf.unanswered.find? (fun u => u.seq % 64 == slot)
  let s := s.modMod m (fun x => x.modFn (64 * port) (fun pf =>
    { pf with res := BitVec.ofNat 64 (verdict * 64 + slot),
              unanswered := if verdict = 3 then pf.unanswered else pf.unanswered.filter (fun u => u.seq % 64 != slot) }))
  if verdict = 3 then (none, s)
  else
    match f with
    | some f =>
      let ws := ((s.modu m).fn (64 * port)).waitingSlot
      let s := s.modMod m (fun x => x.modFn (64 * port) (fun pf => { pf with waitingSlot := [] }))
      (some f, ws.foldl (fun t w => t.recordFault port w) s)
    | none => (none, s)

end Sys2Proof.Machine
end

