-- ==== Sys2Proof/Machine/Ring.lean ====
section
/-! DEFINITION. Slots on the rings: headers and the loss log (01 R20; 02 R48, R49), reserved and withheld slots (01 R25; 02 R53, R441;
05 R122), the way of a free slot and its hops (01 R13 to R18, R27 to R30, R442). -/

namespace Sys2Proof.Machine

/-! ## Headers and losses -/

/-- One byte of the CRC-32 of IEEE 802.3. -/
def crcByte (c : BitVec 32) (b : Byte) : BitVec 32 :=
  (List.range 8).foldl (fun c _ => if c.getLsbD 0 then (c >>> 1) ^^^ 0xEDB88320#32 else c >>> 1) (c ^^^ b.setWidth 32)

/-- CRC-32 over bytes (01 R20). -/
def crc32 (bs : List Byte) : BitVec 32 := ~~~(bs.foldl crcByte 0xFFFFFFFF#32)

/-- The end-to-end part of a header, bits [79:0] (01 R20). -/
def slotHead (t : Slot) : BitVec 80 :=
  t.arg ++ t.tag ++ 0#1 ++ BitVec.ofBool t.mir ++ BitVec.ofBool t.rtn ++ BitVec.ofBool t.rfs ++ t.nfl ++ t.score ++ t.ssta ++ t.smod ++
  t.dcore ++ t.dsta ++ t.dmod ++ t.job ++ t.kind

/-- The header with its hop part: SEQ, and LCRC over the end-to-end part and four flits (01 R20). -/
def slotHeader (t : Slot) : BitVec 128 :=
  crc32 (bytesLE 10 (slotHead t).toNat ++ t.data.take 256 ++ List.replicate (256 - t.data.length) 0) ++ t.seq ++ (slotHead t)

/-- The die whose CYC a station counts with: its own, or die 2k of its module for waystation k, which carries its survey entries (01 R18,
R31). -/
def dieAt (sta : Nat) : Nat := 8 * (sta / 16) + (if sta % 16 < 8 then sta % 16 else 2 * (sta % 16 - 8))

/-- CYC at a station (01 R31). -/
def State.staCyc (s : State) (sta : Nat) : Word :=
  BitVec.ofNat 64 (s.clk + (s.die (dieAt sta)).skew) + (s.modu (sta / 16)).cycOff

/-- A lost slot logged (02 R49). A slot that its own station delivers, which has crossed no hop, has SEQ 0 in its hop part (log 66). -/
def State.logLoss (s : State) (sta : Nat) (slot : Slot) (cause : Nat) : State :=
  s.modSta sta (fun t =>
    let t := { t with lossTotal := (t.lossTotal + 1) % 2 ^ 32 }
    if 64 ≤ t.losslog.length then { t with lossFull := true }
    else { t with losslog := t.losslog ++ [⟨(slotHeader slot), s.staCyc sta, cause⟩] })

/-- A slot that a station itself makes (log 13). -/
def stationSlot (sta kind : Nat) (job : BitVec 12) (dmod dsta dcore tag arg : Nat) (data : List Byte) : Slot :=
  { kind := BitVec.ofNat 4 kind, job := job, dmod := BitVec.ofNat 6 dmod, dsta := BitVec.ofNat 4 dsta,
    dcore := BitVec.ofNat 4 dcore, smod := BitVec.ofNat 6 (sta / 16), ssta := BitVec.ofNat 4 sta, score := 0, nfl := 0, rfs := false,
    rtn := false, mir := false, tag := BitVec.ofNat 14 tag, arg := BitVec.ofNat 16 arg, seq := 0, trk := 0, poison := false, data := data }

/-- The loss notice of a slot of a counted kind, to its source core (02 R48 step 4): its payload tells the kind of the lost slot and
the lines it carried (log 13). -/
def lossNotice (sta : Nat) (lost : Slot) : Slot :=
  stationSlot sta 11 lost.job lost.smod.toNat lost.ssta.toNat lost.score.toNat lost.tag.toNat 2
    (bytesLE 8 lost.kind.toNat ++ bytesLE 8 lost.nfl.toNat)

/-- A slot is lost at a station: a counted kind is counted, logged and noticed; any other is only logged (01 R17, R442; 02 R48, R49). -/
def State.lose (s : State) (sta : Nat) (slot : Slot) (cause : Nat) : State :=
  let s := s.logLoss sta slot cause
  if countedKind slot.kind.toNat then
    let n := lossNotice sta slot
    (s.countLos sta slot.job).enqueue sta n s.clk
  else s

/-! ## Muster slots (02 R53, R441) -/

/-- Whether a module wave has a slot that leaves position 0 at a clk (02 R53). -/
def musterClk (t : Nat) : Bool :=
  let w := t % 2048
  decide (w < 2) || (decide (64 ≤ w) && decide (w < 80)) || (decide (128 ≤ w) && decide (w < 144)) || w == 192

/-- A visit of a pod wave's slot: the station that merges it, the local hop out of a station that it takes at a clk, the trunk group that
carries it, or its return. -/
inductive PodVisit where
  | merge (sta clk : Nat)
  | hop (sta clk : Nat)
  | trunk (mod group : Nat)
  | back (clk : Nat)
deriving DecidableEq, Repr

/-- The first trunk group whose position 7 leaves at or after a clk: it leaves at 5g + 3 (02 R441). -/
def group7 (t : Nat) : Nat := (t + 1) / 5

/-- The visits on the modules after the leader's, from the clk in which waystation `k` of the module before has merged the slot. -/
def State.podVisits (s : State) (k lead : Nat) : Nat → Nat → Nat → List PodVisit
  | 0, _, _ => []
  | fuel + 1, m, t =>
    let g := group7 (t + 6)
    let e := 5 * g + 3 + (s.link m k false).lat + 6
    let n := s.nextMod m false
    let p0 := posOf (8 + k)
    let merges (c : Nat) : List PodVisit := (List.range c).map (fun i => .merge (16 * n + staAt (p0 + 1 + i)) (e + 4 * (i + 1)))
    -- it takes the hop out of the waystation as it enters, without merging there
    let hops (c : Nat) : List PodVisit := (List.range c).map (fun i => .hop (16 * n + staAt (p0 + i)) (e + 4 * i))
    if n = lead then .trunk m g :: merges (11 - p0) ++ hops (12 - p0) ++ [.back (e + 4 * (12 - p0))]
    else .trunk m g :: merges 12 ++ hops 12 ++ s.podVisits k lead fuel n (e + 48)

/-- The visits of a slot of a pod wave that leaves position 0 of its leader's ring at a clk (02 R441). A pod of one module has no
trunk to cross (log 23). -/
def State.podPath (s : State) (k lead t : Nat) : List PodVisit :=
  let merges (c : Nat) : List PodVisit := (List.range c).map (fun p => .merge (16 * lead + staAt p) (t + 4 * p))
  let hops (c : Nat) : List PodVisit := (List.range c).map (fun p => .hop (16 * lead + staAt p) (t + 4 * p))
  if s.pod.mods.length ≤ 1 then merges 12 ++ hops 12 ++ [.back (t + 48)]
  else
    -- at waystation k it leaves for the trunk, and takes no hop
    let p0 := posOf (8 + k)
    merges (p0 + 1) ++ hops p0 ++ s.podVisits k lead s.pod.mods.length lead (t + 4 * p0)

/-- The clk at which a place of a part of the pod wave that began at `w` leaves (02 R441). -/
def State.podLeave (s : State) (w part place : Nat) : Nat := w + part * (s.pod.bound + 76) + 5 * place

/-- The leader's module: the pod root (01 R31, 02 R57). -/
def State.podRoot (s : State) : Nat := s.pod.mods.foldl Nat.min (s.pod.mods.headD 0)

/-- All visits of the pod wave that began at `w`, on the ring chosen; none where no ring is. -/
def State.podAll (s : State) (w : Nat) : List PodVisit :=
  match s.pod.ring with
  | none => []
  | some k =>
    (List.range 4).flatMap (fun n => (List.range 16).flatMap (fun i => s.podPath k s.podRoot (s.podLeave w n i)))

/-! ## Reserved and withheld slots -/

/-- Hops from one station to another in a direction. -/
def dirHops (ccw : Bool) (a b : Nat) : Nat := if ccw then (12 - cwHops a b) % 12 else cwHops a b

/-- The clk, in its frame, at which a local reservation's slot is on its first hop: after the injection at a die (01 R13, 05 R122). -/
def Resv.first (r : Resv) : Nat := if r.ssta < 8 then r.offset + 4 else r.offset

/-- Whether a local reservation takes the track of a hop out of a station at a clk (05 R122). -/
def Resv.takes (r : Resv) (ccw : Bool) (trk sta clk : Nat) : Bool :=
  let j := dirHops ccw r.ssta sta
  !r.trunk && r.ccw == ccw && r.trk == trk && decide (j < dirHops ccw r.ssta r.dsta) && (r.first + 2 * j) % 4096 == clk % 4096

/-- Whether a local slot is withheld for a muster wave (02 R53, R441): a slot that leaves position 0 at t is on the hop out of position p at
t + 4p (log 66). -/
def State.withheld (s : State) (mod : Nat) (ccw : Bool) (trk sta clk : Nat) : Bool :=
  !ccw && ((trk == 3 && musterClk (clk + 2048 - 4 * posOf sta)) ||
    (trk == 2 && s.pod.ring.isSome && (s.podAll (clk / 32768 * 32768)).any (fun v => v == .hop (16 * mod + sta) clk)))

/-- Whether a plat runs (05 R126). -/
def State.platRuns (s : State) (plat : Word) : Bool := s.dies.any (fun d => d.2.plats.any (fun p => p.plat == plat && p.code == 2))

/-- Whether free traffic may not use the track of a hop (01 R25). -/
def State.hopTaken (s : State) (mod : Nat) (ccw : Bool) (trk sta clk : Nat) : Bool :=
  (s.modu mod).booked.any (fun b => b.2.takes ccw trk sta clk && s.platRuns b.1) || s.withheld mod ccw trk sta clk

/-- The cell of a track's rotation that passes a station at a clk: 24 to a track and direction (01 R13). -/
def cellAt (ccw : Bool) (sta clk : Nat) : Nat := if ccw then (clk + 2 * posOf sta) % 24 else (clk + 24 - 2 * posOf sta) % 24

/-- The lowest-numbered track whose slot is empty as it passes and stays free for `hops` hops (01 R14, R25). -/
def State.freeTrack (s : State) (mod sta : Nat) (ccw : Bool) (hops clk : Nat) : Option Nat :=
  let used := (s.modu mod).ring
  let pos (j : Nat) : Nat := staAt (if ccw then posOf sta + 12 - j % 12 else posOf sta + j)
  [0, 1, 2, 3].find? (fun trk => !used.contains (ccw, trk, cellAt ccw sta clk) &&
    (List.range hops).all (fun j => !s.hopTaken mod ccw trk (pos j) (clk + 2 * j)))

/-- The groups by which a trunk reservation moves on from one module to the next (01 R24). -/
def groupStep (lat : Nat) : Nat := (lat + 6 + 4) / 5

/-- The modules that transmit a trunk reservation, each with the groups by which its group is later than the first. -/
def State.resvSteps (s : State) (r : Resv) : List (Nat × Nat) :=
  let n := if r.ccw then s.pod.mods.length - s.trunkCw r.smod r.dmod else s.trunkCw r.smod r.dmod
  ((s.trunkPath r.ccw n r.smod).foldl (fun (a : Nat × List (Nat × Nat)) m =>
    (a.1 + groupStep (s.link m (r.ssta - 8) r.ccw).lat, a.2 ++ [(m, a.1)])) (0, [])).2

/-- The groups, in the frame, of a trunk reservation at the modules that transmit it. -/
def State.resvGroups (s : State) (r : Resv) : List (Nat × Nat) := (s.resvSteps r).map (fun g => (g.1, (r.offset + g.2) % 4096))

/-- The first clk from `t` on that falls on a phase of a frame (01 R24). -/
def nextInFrame (t period phase : Nat) : Nat := t + (phase + period - t % period) % period

/-- A reserved path of a plat: its frame, the offset of its injections in the frame, and the clk from an injection to the end of the ejection
(01 R13, R24); across a trunk ring, the clk from the injection to its place in its first group. -/
structure ResvPath where
  period : Nat
  phase : Nat
  travel : Nat
  lead : Nat
deriving DecidableEq, Repr

/-- A path across a trunk ring, by its three entries (05 R122): the slot leaves position POS of its group (01 R16), so it is injected at the last
local offset from which it is through the waystation by then (R18); its group moves on at every module (R24), and it enters the last
ring at that entry's offset. -/
def State.trunkResv (s : State) (r t l : Resv) : ResvPath :=
  let n := if t.ccw then s.pod.mods.length - s.trunkCw t.smod t.dmod else s.trunkCw t.smod t.dmod
  let out := 20480 + 5 * t.offset + 5 * t.pos / 9
  let latest := out - 10 - 2 * dirHops r.ccw r.ssta r.dsta
  let inj := latest - (latest + 4096 - r.offset % 4096) % 4096
  let (_, in_) := (s.trunkPath t.ccw n t.smod).foldl (fun (a : Nat × Nat) m =>
    let lat := (s.link m (t.ssta - 8) t.ccw).lat
    (a.1 + groupStep lat, 5 * a.1 + 5 * t.pos / 9 + lat + 6)) (4096 + t.offset, 0)
  ⟨20480, inj % 20480, nextInFrame in_ 4096 l.offset + 2 * dirHops l.ccw l.ssta l.dsta + 4 - inj, out - inj⟩

/-- Whether free traffic may not use a position of a trunk group (01 R25; 02 R441). -/
def State.takenTrunk (s : State) (mod k : Nat) (ccw : Bool) (group pos : Nat) : Bool :=
  (s.modu mod).groups.contains (8 + k, ccw, group, pos) ||
  (s.modu mod).booked.any (fun b => b.2.trunk && b.2.trk == k && b.2.ccw == ccw && b.2.pos == pos && s.platRuns b.1 &&
    (s.resvGroups b.2).contains (mod, group % 4096)) ||
  (!ccw && pos == 7 && s.pod.ring == some k && (s.podAll (5 * group / 32768 * 32768)).contains (.trunk mod group))

/-! ## The way of a slot (01 R14, R17, R27) -/

/-- Where a free slot goes on from a station. -/
inductive Way where
  | here
  | loc (ccw : Bool)
  | trunk (ccw : Bool)
  | none
deriving DecidableEq, Repr

/-- The target of a slot: its destination, or its source when it returns. -/
def slotTarget (t : Slot) : Nat × Nat := if t.rtn then (t.smod.toNat, t.ssta.toNat) else (t.dmod.toNat, t.dsta.toNat)
def slotOrigin (t : Slot) : Nat × Nat := if t.rtn then (t.dmod.toNat, t.dsta.toNat) else (t.smod.toNat, t.ssta.toNat)

/-- The direction in which a free slot travels on the ring of its target's module: from its own station, or from the waystation by which it
entered (01 R14, R27); from station `n` where no ring leads there any more. -/
def State.travelCcw (s : State) (slot : Slot) (n : Nat) : Bool :=
  let (tm, ts) := slotTarget slot
  let (om, os) := slotOrigin slot
  if om = tm then goesCcw os ts
  else match s.ringFor om os tm with
    | some k => goesCcw (8 + k) ts
    | Option.none => goesCcw n ts

/-- The way of a free slot from a station (module 16 to a station number): `via` is the direction of the local hop by which it came,
or none, where it goes on in its direction of travel; `refused` where it has just been refused here. -/
def State.wayOf (s : State) (sta : Nat) (via : Option Bool) (refused : Bool) (slot : Slot) : Way :=
  let m := sta / 16
  let n := sta % 16
  let (tm, ts) := (slotTarget slot)
  let (om, os) := (slotOrigin slot)
  if m ≠ tm then
    if m ≠ om then .trunk (s.trunkCcw om tm)
    else
      match s.ringFor om os tm with
      | Option.none => .none
      | some k => if n = 8 + k then .trunk (s.trunkCcw om tm) else .loc (via.getD (goesCcw n (8 + k)))
  else if slot.rfs && !slot.rtn && !slot.far && !refused && om ≠ tm && s.ringFor om os tm == some (n - 8) && decide (8 ≤ n) then
    .trunk (s.trunkCcw om tm)
  else if n = ts && !refused then .here
  else .loc (via.getD (s.travelCcw slot n))

/-- Hops from one station to another in a direction, once round where they are the same. -/
def roundHops (ccw : Bool) (a b : Nat) : Nat := if a = b then 12 else dirHops ccw a b

/-- The local hops still to go on a way: to the target, or to the waystation of the trunk ring, to which a slot goes too that has been refused once
and has not been round the trunk ring yet (01 R27). -/
def State.hopsLeft (s : State) (sta : Nat) (ccw : Bool) (slot : Slot) : Nat :=
  let n := sta % 16
  let (tm, ts) := (slotTarget slot)
  let (om, os) := (slotOrigin slot)
  let way := (s.ringFor om os tm).map (fun k => roundHops ccw n (8 + k))
  if sta / 16 ≠ tm then way.getD 1
  else if !slot.rfs || slot.rtn then dirHops ccw n ts
  else if om = tm then roundHops ccw n ts
  else if slot.far then dirHops ccw n ts
  else way.getD (roundHops ccw n ts)

/-! ## Hops (01 R29; 02 R48) -/

def Station.hop (t : Station) (h : HopId) : Hop :=
  match h.trunk, h.ccw with
  | false, false => t.hopCw
  | false, true => t.hopCcw
  | true, false => t.trunkCw
  | true, true => t.trunkCcw

def Station.putHop (t : Station) (h : HopId) (x : Hop) : Station :=
  match h.trunk, h.ccw with
  | false, false => { t with hopCw := x }
  | false, true => { t with hopCcw := x }
  | true, false => { t with trunkCw := x }
  | true, true => { t with trunkCcw := x }

def State.hop (s : State) (h : HopId) : Hop := (s.sta h.sta).hop h
def State.modHop (s : State) (h : HopId) (f : Hop → Hop) : State := s.modSta h.sta (fun t => t.putHop h (f (t.hop h)))

/-- The station that a hop leads to. -/
def State.hopEnd (s : State) (h : HopId) : Nat :=
  if h.trunk then 16 * s.nextMod (h.sta / 16) h.ccw + h.sta % 16 else 16 * (h.sta / 16) + nextSta (h.sta % 16) h.ccw

/-- A slot sent over a hop: kept in its retry buffer under its next number (01 R29, 02 R48), due at the far end at a clk. -/
def State.sendHop (s : State) (h : HopId) (slot : Slot) (due : Nat) : State :=
  let slot := { slot with seq := (s.hop h).next }
  (s.modHop h (fun x => { x with kept := x.kept ++ [slot], next := x.next + 1 })).post due (.slotHopArrival h slot true)

/-- A slot put back in front of a station's queue, to be tried again in the next clk. -/
def State.retryInject (s : State) (sta : Nat) (slot : Slot) : State :=
  (s.modSta sta (fun t => { t with outq := (s.clk + 1, slot) :: t.outq })).post (s.clk + 1) (.slotInject sta)

/-- The clk in which a waystation's own count reads a cycle that is not past (01 R16, R31). -/
def State.clkOf (s : State) (sta cyc : Nat) : Nat := s.clk + cyc - (s.staCyc sta).toNat

/-- A trunk group comes to the far waystation with its group field, once (01 R23): group g begins at cycle 5g of its sender's count, and its field
carries g mod 65,536. -/
def State.postGroup (s : State) (h : HopId) (g lat : Nat) : State :=
  let far := 16 * s.nextMod (h.sta / 16) h.ccw + h.sta % 16
  let e : Nat × Event := (s.clkOf h.sta (5 * g) + lat, .trunkGroupArrival far (!h.ccw) (BitVec.ofNat 16 g) true)
  if s.agenda.contains e then s else s.post e.1 e.2

/-- The first position of a group that is free at or after the end of the transit, by the sender's count (01 R16 to R18, R25). -/
def State.trunkPlace (s : State) (sta : Nat) (ccw : Bool) : Option (Nat × Nat) :=
  let k := sta % 16 - 8
  let e := (s.staCyc sta).toNat + 6
  let positions := if (s.link (sta / 16) k ccw).lanes < 18 then 8 else 9
  ((List.range 16).flatMap (fun g => (List.range positions).map (fun p => (e / 5 + g, p)))).find?
    (fun q => decide (e ≤ 5 * q.1 + 5 * q.2 / 9) && !s.takenTrunk (sta / 16) k ccw q.1 q.2)

/-- A place of a group taken, with the group's field (01 R23), and the clk in which it comes to the far waystation. -/
def State.takePlace (s : State) (h : HopId) (g p : Nat) : Nat × State :=
  let m := h.sta / 16
  let lat := (s.link m (h.sta % 16 - 8) h.ccw).lat
  let now := (s.staCyc h.sta).toNat / 5
  (s.clkOf h.sta (5 * g + 5 * p / 9) + lat,
    (s.modMod m (fun x => { x with groups := (h.sta % 16, h.ccw, g, p) :: x.groups.filter (fun q => decide (now ≤ q.2.2.1)) })).postGroup h g lat)

/-- A slot sent on the trunk link of its waystation (01 R16 to R19; 02 R441). Where the link is out of service, the slot takes another ring while
it is on the module of its source; on any other module it is undeliverable there (log 66). -/
def State.trunkSend (s : State) (sta : Nat) (ccw : Bool) (slot : Slot) : State :=
  let h : HopId := ⟨sta, true, ccw⟩
  let m := sta / 16
  if (s.hop h).down then s.retryInject sta slot
  else if !s.linkUp m (sta % 16 - 8) ccw then
    if m = (slotOrigin slot).1 then s.retryInject sta slot else s.lose sta slot 2
  else
    match s.trunkPlace sta ccw with
    | none => s.retryInject sta slot
    | some (g, p) =>
      let (due, s) := s.takePlace h g p
      -- from its destination's module it goes round the whole trunk ring (01 R27)
      s.sendHop h { slot with far := slot.far || m == (slotTarget slot).1 } due

/-- A slot that rides a track put on its next local hop at this clk. -/
def State.localSend (s : State) (sta : Nat) (ccw : Bool) (slot : Slot) : State := s.sendHop ⟨sta, false, ccw⟩ slot (s.clk + 2)

/-- The cell of a slot freed as it leaves the ring at a station. -/
def State.leaveRing (s : State) (sta : Nat) (ccw : Bool) (slot : Slot) : State :=
  s.modMod (sta / 16) (fun m => { m with ring := m.ring.filter (fun c => c != (ccw, slot.trk, cellAt ccw (sta % 16) s.clk)) })

/-! ## Delivery (01 R21, R22, R27, R28) -/

/-- The core that a slot is for. -/
def destCore (t : Slot) : Nat := 128 * t.dmod.toNat + 16 * t.dsta.toNat + t.dcore.toNat
def srcCore (t : Slot) : Nat := 128 * t.smod.toNat + 16 * t.ssta.toNat + t.score.toNat

/-- The bank of a core that runs a job (02 R45); bank 0 where both do (log 66). -/
def State.bankOfJob (s : State) (core : Nat) (job : BitVec 12) : Option CtxId :=
  [CtxId.mk core 0, ⟨core, 1⟩].find? (fun c => (s.ctx c).resident && (s.ctx c).job == job)

/-- The cores that take what arrives for a job at a core: the other member of a redundant pair takes it too (04 R102; log 24). -/
def State.twins (s : State) (core : Nat) (job : BitVec 12) : List Nat :=
  core :: (match s.pairOf core job with
    | some (d, _) => [d.core]
    | none => [])

/-- The event that a slot of a kind is at its destination (01 R21; log 13). -/
def arrivalOf (sta : Nat) (t : Slot) : List Event :=
  let d := t.data.take 8
  match t.kind.toNat with
  | 2 => [.activeMessageArrival t]
  | 3 => [.postedWriteArrival t]
  | 4 => [.remoteAtomicRequest t]
  | 5 => [.remoteAtomicReply t]
  | 6 => [.remoteReadRequest t]
  | 7 => [.remoteReadReply t]
  | 8 => [.migrationDataArrival t]
  | 9 => [.mirrorAcceptance t]
  | 11 => (match t.arg.toNat with
    | 1 => [.creditReturn t]
    | 2 => [.lossNoticeArrival t]
    | _ => [.resetNoticeArrival sta t])
  | 12 => (match t.arg.toNat with
    | 1 => [.readinessVerdict (8 * (sta / 16) + sta % 16) (BitVec.ofNat 64 (ofBytesLE d)) (ofBytesLE ((t.data.drop 8).take 8))
        (ofBytesLE ((t.data.drop 16).take 8)) (ofBytesLE ((t.data.drop 24).take 8))]
    | 2 => [.jobOpenNotice sta (BitVec.ofNat 12 (ofBytesLE d))]
    | 3 => [.jobCloseNotice sta (BitVec.ofNat 12 (ofBytesLE d))]
    | 4 => [.jobFreeNotice sta (BitVec.ofNat 12 (ofBytesLE d))]
    | 5 => [.invalidationMarkerArrival (destCore t) t]
    | 6 => [.mrepairArrival sta (BitVec.ofNat 64 (ofBytesLE d))
        ⟨⟨ofBytesLE ((t.data.drop 8).take 8), ofBytesLE ((t.data.drop 16).take 8)⟩, .c⟩ (ofBytesLE ((t.data.drop 24).take 8))]
    | _ => [.signalArrival t])
  | _ => []

/-- Active messages on their way from the station into a bank's inbox. -/
def State.landingMessages (s : State) (core : Nat) (job : BitVec 12) : Nat :=
  (s.agenda.filter (fun e => match e.2 with
    | .activeMessageArrival t => (destCore t) == core && t.job == job
    | _ => false)).length

/-- Whether a destination has no room for a slot: an inbox or q15 that is full, or the port of a frozen core (01 R27, 02 R45). The spec
gives the buffers of KIND 4 to 8, and of posted writes to a global home, no size: they are never full (log 66). -/
def State.noRoom (s : State) (sta : Nat) (slot : Slot) : Bool :=
  let core := (destCore slot)
  match slot.kind.toNat with
  | 2 =>
    (match s.bankOfJob core slot.job with
    | some c =>
      let x := s.ctx c
      let n := s.landingMessages core slot.job
      s.jobState sta slot.job == .opened && (decide (32 ≤ x.inbox.length + n) || decide (32 ≤ x.q15.items.length + n))
    | none => false)
  | 3 => slot.arg == 0 && s.frozen core
  | _ => false

/-- A slot without what its hops and refusals changed. -/
def plainSlot (t : Slot) : Slot := { t with seq := 0, trk := 0, rfs := false, rtn := false, far := false }

def sameFlow (a b : Slot) : Bool := a.smod == b.smod && a.ssta == b.ssta && a.score == b.score && a.job == b.job

/-- Whether a station refuses a free slot (01 R27, R28): without room for it, or behind a refused slot of its source core and job that
has not come again. -/
def State.refuses (s : State) (sta : Nat) (slot : Slot) : Bool :=
  let first := (s.sta sta).refusing.find? (sameFlow slot)
  (first.isSome && first != some (plainSlot slot)) || s.noRoom sta slot

/-- A free slot at its destination, which accepts it: ejection takes 4 clk (01 R13). -/
def State.accept (s : State) (sta : Nat) (slot : Slot) : State :=
  let s := s.modSta sta (fun t => { t with refusing := t.refusing.erase (plainSlot slot) })
  (arrivalOf sta slot).foldl (fun t e => t.post (t.clk + 4) e) s

/-- A slot back at its source under RTN: it goes to the egress, which sends it again 64 clk after the last one (01 R28). -/
def State.takeBack (s : State) (slot : Slot) : State :=
  let core := (srcCore slot)
  (s.modCore core (fun k => { k with returned := k.returned ++ [(plainSlot slot)], returnClk := s.clk })).post (s.clk + 64) (.returnedSlotReinject core)

/-- A slot put at the head of a station's queue, behind those that stand there on their way back or round (01 R27, R28). -/
def State.headInject (s : State) (sta : Nat) (slot : Slot) : State :=
  (s.modSta sta (fun t => { t with
    outq := t.outq.takeWhile (fun q => q.2.rtn || q.2.rfs) ++ [(s.clk, slot)] ++ t.outq.dropWhile (fun q => q.2.rtn || q.2.rfs) })).post
    s.clk (.slotInject sta)

/-- Whether a slot on a track may ride on from a station: no hop that it still has to go is reserved or withheld (01 R25; 02 R53). -/
def State.mayRide (s : State) (sta : Nat) (ccw : Bool) (slot : Slot) : Bool :=
  let pos (j : Nat) : Nat := staAt (if ccw then posOf (sta % 16) + 24 - j else posOf (sta % 16) + j)
  (List.range (s.hopsLeft sta ccw slot)).all (fun j => !s.hopTaken (sta / 16) ccw slot.trk (pos j) (s.clk + 2 * j))

/-- A slot refused (01 R27): once more round, on its track where that is free and in a later free slot where it is not (R25), or back to its
source with RTN set and RFS kept. -/
def State.refuse (s : State) (sta : Nat) (via : Option Bool) (slot : Slot) : State :=
  let s := s.modSta sta (fun t =>
    if t.refusing.contains (plainSlot slot) then t else { t with refusing := t.refusing ++ [(plainSlot slot)] })
  let off (s : State) : State := match via with | some ccw => s.leaveRing sta ccw slot | none => s
  if slot.rfs then (off s).headInject sta { slot with rtn := true }
  else
    let slot := { slot with rfs := true }
    match via with
    | some ccw => if s.mayRide sta ccw slot then s.localSend sta ccw slot else (off s).headInject sta slot
    | none => s.headInject sta slot

/-- A free slot that has reached the station it is for. -/
def State.atTarget (s : State) (sta : Nat) (via : Option Bool) (slot : Slot) : State :=
  let off (s : State) : State := match via with | some ccw => s.leaveRing sta ccw slot | none => s
  if slot.rtn then (off s).takeBack slot
  else if s.refuses sta slot then s.refuse sta via slot
  else (off s).accept sta slot

/-- Whether a header names what does not exist (01 R22). -/
def reservedHeader (t : Slot) : Bool := decide (13 ≤ t.kind.toNat) || decide (12 ≤ t.dsta.toNat) || decide (11 ≤ t.dcore.toNat)

/-! ## The events -/

/-- The first slot of a queue whose injection is over and that is not behind an earlier one of its flow to the same station: slots of one
core and job to one station keep their order (01 R28). -/
def nextOut (clk : Nat) : List (Nat × Slot) → List Slot → Option (Nat × Slot)
  | [], _ => none
  | q :: rest, held =>
    if decide (q.1 ≤ clk) && !held.any (fun t => sameFlow t q.2 && slotTarget t == slotTarget q.2) then some q
    else nextOut clk rest (q.2 :: held)

/-- The number that a station would have sent a slot under on its first hop to the first of its trunk rings (02 R49). -/
def State.firstSeq (s : State) (sta : Nat) (slot : Slot) : BitVec 16 :=
  let k := ((slotTarget slot).1 + sta % 16) % 4
  if sta % 16 = 8 + k then (s.hop ⟨sta, true, s.trunkCcw (sta / 16) (slotTarget slot).1⟩).next
  else (s.hop ⟨sta, false, goesCcw (sta % 16) (8 + k)⟩).next

/-- SLOT_INJECT (01 R14, R17): the first slot of a station's queue that may go. -/
def execSlotInject (s : State) : Host.Outcome State Fault Refusal :=
  match s.cur with
  | some (.slotInject sta) =>
    match nextOut s.clk (s.sta sta).outq [] with
    | none => .next (if (s.sta sta).outq.any (fun q => decide (q.1 ≤ s.clk)) then s.post (s.clk + 1) (.slotInject sta) else s)
    | some (due, slot) =>
      let s := s.modSta sta (fun t => { t with outq := t.outq.erase (due, slot) })
      -- a slot refused here goes once more round (01 R27)
      let round := slot.rfs && !slot.rtn && (sta / 16, sta % 16) == slotTarget slot
      match s.wayOf sta none round slot with
      | .none => .next (s.lose sta { slot with seq := s.firstSeq sta slot } 2)
      | .here => .next (s.atTarget sta none slot)
      | .trunk ccw => .next (s.trunkSend sta ccw slot)
      | .loc ccw =>
        if (s.hop ⟨sta, false, ccw⟩).down then .next (s.retryInject sta slot)
        else
          match s.freeTrack (sta / 16) (sta % 16) ccw (s.hopsLeft sta ccw slot) s.clk with
          | none => .next (s.retryInject sta slot)
          | some trk =>
            .next ((s.modMod (sta / 16) (fun m => { m with ring := (ccw, trk, cellAt ccw (sta % 16) s.clk) :: m.ring })).localSend sta ccw
              { slot with trk := trk })
  | _ => .next s

/-- The mark of a slot that has come over its hop but waits, without a track, behind an earlier one of its flow that has still to come
(01 R28). -/
def offTrack : Nat := 4

/-- Whether a station's queue holds a slot of a slot's flow on its way to the same station. -/
def State.flowWaits (s : State) (sta : Nat) (slot : Slot) : Bool :=
  (s.sta sta).outq.any (fun q => sameFlow q.2 slot && slotTarget q.2 == slotTarget slot)

/-- A slot put behind a station's queue. -/
def State.queueSlot (s : State) (sta : Nat) (slot : Slot) (due : Nat) : State :=
  (s.modSta sta (fun t => { t with outq := t.outq ++ [(due, slot)] })).post due (.slotInject sta)

/-- A slot that has come over a hop intact: acknowledged, and forwarded or delivered; `rides` where it still has its place on its track. Where the
last trunk path leaves service with the slot already past its source, it is undeliverable at the station that it has reached (log 66). -/
def State.passOn (s : State) (h : HopId) (slot : Slot) (rides : Bool) : State :=
  let sta := s.hopEnd h
  let via := if h.trunk then none else some h.ccw
  -- the onward message is counted before its acknowledgement (02 R42, R43)
  let s := if h.trunk && countedKind slot.kind.toNat then s.countInj sta slot.job else s
  let (d, s) := s.freeTime
  let s := s.post (s.clk + 1 + d) (.hopAcknowledge h slot.seq)
  let off (s : State) : State := if rides then s.leaveRing sta h.ccw slot else s
  if (reservedHeader slot) then (off s).modSta sta (fun t => { t with linkErr := t.linkErr + 1 })
  else
    match s.wayOf sta via false slot with
    | .here => if h.trunk then s.queueSlot sta slot (s.clk + 6) else s.atTarget sta (if rides then via else none) slot
    | .trunk ccw => if s.flowWaits sta slot then (off s).queueSlot sta slot s.clk else (off s).trunkSend sta ccw slot
    | .none => (off s).lose sta slot 2
    | .loc ccw =>
      if h.trunk then s.queueSlot sta slot (s.clk + 6)
      -- it leaves its track where its hop is down, or reserved or withheld (01 R25; 02 R53, R441)
      else if !rides || (s.hop ⟨sta, false, ccw⟩).down || s.hopTaken (sta / 16) ccw slot.trk (sta % 16) s.clk || s.flowWaits sta slot then
        (off s).queueSlot sta slot s.clk
      else s.localSend sta ccw slot

/-- Whether an acknowledgement of a slot is on its way. -/
def State.acked (s : State) (h : HopId) (seq : BitVec 16) : Bool :=
  s.agenda.any (fun e => match e.2 with
    | .hopAcknowledge h' q => h' == h && q == seq
    | _ => false)

/-- Whether a slot that has come over a hop waits for an earlier one of its flow to the same station that was damaged on it and is to be sent again:
free slots of one core and job to one station keep their order (01 R28, R29). -/
def State.behindFlow (s : State) (h : HopId) (slot : Slot) : Bool :=
  ((s.hop h).kept.takeWhile (fun t => t.seq != slot.seq)).any (fun t =>
    sameFlow t slot && slotTarget t == slotTarget slot && t.rtn == slot.rtn && !s.acked h t.seq)

def State.modWaves (s : State) (p : Wave → Bool) (f : Wave → Wave) : State :=
  { s with pod := { s.pod with waves := s.pod.waves.map (fun w => if p w then f w else w) } }

/-- The kinds that no hop sends again: timetabled and muster slots (01 R30, R442). -/
def passingKind (t : Slot) : Bool := t.kind == 1 || t.kind == 10

/-- The timetabled slots on their way that `p` names poisoned: each is delivered so at its time (01 R30). -/
def State.poisonTimed (s : State) (p : Nat → Slot → Bool) : State :=
  { s with agenda := s.agenda.map (fun (e : Nat × Event) => match e.2 with
      | .timetabledSlotArrival core t => if p e.1 t then (e.1, .timetabledSlotArrival core { t with poison := true }) else e
      | _ => e) }

/-- A timetabled or muster slot damaged on a hop travels on poisoned: the one is delivered so at its time (01 R30), and the wave of the
other declares nothing (01 R442). A module wave runs on track 3, a pod wave on track 2 and the trunk (02 R53, R441). -/
def State.poisonPassing (s : State) (h : HopId) (slot : Slot) : State :=
  if slot.kind = 10 then
    let pod := h.trunk || slot.trk == 2
    s.modWaves (fun w => w.id.pod == pod && (pod || w.id.mod == h.sta / 16)) (fun w => { w with void := true })
  else s.poisonTimed (fun _ t => t == slot)

/-- SLOT_HOP_ARRIVAL (01 R29, R30, R442; 02 R48). -/
def execSlotHopArrival (s : State) : Host.Outcome State Fault Refusal :=
  match s.cur with
  | some (.slotHopArrival h slot intact) =>
    let rides := !h.trunk && slot.trk != offTrack
    if passingKind slot then .next (if intact then s else s.poisonPassing h slot)
    else if (s.hop h).dead.contains slot.seq then
      -- given up by its sender: discarded and not acknowledged
      let s := s.modHop h (fun x => { x with dead := x.dead.erase slot.seq })
      .next (if rides then s.leaveRing (s.hopEnd h) h.ccw slot else s)
    else if !intact then
      let s := if h.trunk then s else s.leaveRing (s.hopEnd h) h.ccw slot
      let (d, s) := s.freeTime
      .next (s.post (s.clk + 1 + d) (.hopRetransmit h slot.seq))
    else if s.behindFlow h slot then
      .next ((if rides then s.leaveRing (s.hopEnd h) h.ccw slot else s).post (s.clk + 1) (.slotHopArrival h { slot with trk := offTrack } true))
    else .next (s.passOn h slot rides)
  | _ => .next s

/-- HOP_ACKNOWLEDGE (02 R42, R48). -/
def execHopAcknowledge (s : State) : Host.Outcome State Fault Refusal :=
  match s.cur with
  | some (.hopAcknowledge h seq) =>
    match (s.hop h).kept.find? (fun t => t.seq == seq) with
    | none => .next s
    | some slot =>
      let s := s.modHop h (fun x => { x with kept := x.kept.erase slot })
      .next (if h.trunk && countedKind slot.kind.toNat then s.countCon h.sta slot.job else s)
  | _ => .next s

/-- The first clk from now on, within 4,096, at which a local track is free for a slot's hops: the clk and the track. -/
def State.nextFree (s : State) (h : HopId) (hops : Nat) : Nat → Nat → Option (Nat × Nat)
  | 0, _ => none
  | fuel + 1, t =>
    match s.freeTrack (h.sta / 16) (h.sta % 16) h.ccw hops t with
    | some trk => some (t, trk)
    | none => s.nextFree h hops fuel (t + 1)

/-- A slot sent again over its hop, in a later free slot of it that stays free on its way (01 R25, R29). -/
def State.sendAgain (s : State) (h : HopId) (slot : Slot) : State :=
  if h.trunk then
    match s.trunkPlace h.sta h.ccw with
    | none => s.post (s.clk + 1) (.hopRetransmit h slot.seq)
    | some (g, p) => let (due, s) := s.takePlace h g p; s.post due (.slotHopArrival h slot true)
  else
    match s.nextFree h (s.hopsLeft h.sta h.ccw slot) 4096 s.clk with
    | none => s.post (s.clk + 4096) (.hopRetransmit h slot.seq)
    | some (t, trk) =>
      let slot' := { slot with trk := trk }
      ((s.modHop h (fun x => { x with kept := x.kept.map (fun y => if y = slot then slot' else y) })).modMod (h.sta / 16) (fun m =>
        { m with ring := (h.ccw, trk, cellAt h.ccw (h.sta % 16) t) :: m.ring })).post (t + 2) (.slotHopArrival h slot' true)

/-- HOP_RETRANSMIT (01 R29): at most 8 attempts within 2 µs, which is 2,100 clk, on a hop. -/
def execHopRetransmit (s : State) : Host.Outcome State Fault Refusal :=
  match s.cur with
  | some (.hopRetransmit h seq) =>
    match (s.hop h).kept.find? (fun t => t.seq == seq) with
    | none => .next s
    | some slot =>
      let x := s.hop h
      if x.down then .next s
      else
        let (n, since) := if x.tries != 0 && decide (s.clk ≤ x.since + 2100) then (x.tries + 1, x.since) else (1, s.clk)
        if 8 < n then .next (s.postNow (.retryExhausted h))
        else .next ((s.modHop h (fun x => { x with tries := n, since := since })).sendAgain h slot)
  | _ => .next s

/-- The kinds that a hop never abandons (01 R442). -/
def keptKind (t : Slot) : Bool := t.kind == 9 || t.kind == 11 || t.kind == 12

/-- The slots of a hop that are still on their way over it: what its receiver has to discard as they come (02 R48 step 2). -/
def State.flying (s : State) (h : HopId) (slots : List Slot) : List (BitVec 16) :=
  (slots.filter (fun t => s.agenda.any (fun e => match e.2 with
    | .slotHopArrival h' u _ => h' == h && u.seq == t.seq
    | _ => false))).map (fun t => t.seq)

/-- The slots of a hop that fails abandoned (02 R48 steps 1, 2, 4); those of KIND 9, 11 and 12 stay (01 R442). -/
def State.abandon (s : State) (h : HopId) : State :=
  let x := s.hop h
  let open_ := x.kept.filter (fun t => !s.acked h t.seq)
  let lost := open_.filter (fun t => !keptKind t)
  let gone := s.flying h open_
  let s := s.modHop h (fun x => { x with
    kept := x.kept.filter (fun t => !lost.contains t), dead := x.dead ++ gone, down := true, tries := 0 })
  lost.foldl (fun t slot => t.lose h.sta slot 1) s

/-- A hop that leaves service: its mail is lost too, logged with cause 1, and goes no further (01 R442). -/
def State.hopLost (s : State) (h : HopId) : State :=
  let s := s.abandon h
  let mail := (s.hop h).kept.filter (fun t => !s.acked h t.seq)
  let s := s.modHop h (fun x => { x with kept := x.kept.filter (fun t => !mail.contains t) })
  mail.foldl (fun t slot => t.logLoss h.sta slot 1) s

/-! ## Lost modules (01 R36 to R39) -/

/-- A load outstanding at a lost module sent again to its mirror, once the copies retained for that mirror have been accepted
(01 R38). -/
def State.failOver (s : State) (core : Nat) (lost mirror : Nat) : State :=
  let k := s.core core
  if k.mirrorPending mirror then s
  else
    (k.reqs.filter (fun r => r.mir && r.slot.dmod.toNat == lost)).foldl (fun s r =>
      let k := s.core core
      let tag := k.reqTag % 16384
      let slot := { r.slot with dmod := BitVec.ofNat 6 mirror, tag := BitVec.ofNat 14 tag }
      let r' : Request := ⟨tag, r.group, r.at_, r.len, r.mir, slot⟩
      (s.modCore core (fun k =>
        { k with reqTag := (k.reqTag + 1) % 16384
                 reqs := k.reqs.filter (fun q => q.tag != r.tag) ++ [r'] })).sendCounted core slot (s.clk + 1)) s

/-- Every core of a module tried for fail-over to the mirror of a lost module. -/
def State.failOverAll (s : State) (mod lost : Nat) : State :=
  let (v, pl, m) := s.mirror mod lost
  if v && pl then
    ((s.cores.filter (fun e => modOf e.1 == mod)).map Prod.fst).foldl (fun t k => t.failOver k lost m) s
  else s

/-- Credits that the cores of a module miss from a lost module, or from a station that was reset, taken as returned (01 R442). -/
def State.forgive (s : State) (mod : Nat) (hit : Dest → Bool) : State :=
  ((s.cores.map Prod.fst).filter (fun k => modOf k == mod)).foldl (fun s core =>
    (((s.core core).owed.filter (fun o => hit o.dest))).foldl (fun s o =>
      let s := s.modCore core (fun k => { k with owed := k.owed.erase o })
      match o.eng, o.dest with
      | none, .window n _ _ _ => s.modCtx ⟨core, o.bank⟩ (fun x => x.setCur n (Nat.min 255 (x.allowCur n + o.lines)))
      | _, _ => s) s) s

/-- A module declared lost by another (01 R37): PLOST in all four copies, and the event to the management cores. -/
def State.declareLost (s : State) (mod n : Nat) : State :=
  let w := Sp.get 0 (s.modu mod).mirent n
  let s := s.modMod mod (fun m => { m with mirent := Sp.set 0 m.mirent n (w ||| 0x4000), notes := .moduleLost n :: m.notes })
  (s.failOverAll mod n).forgive mod (fun d => match d with
    | .window _ m _ _ => m == n
    | .global m _ => m == n)

/-- Modules that no ring reaches from a module, because a hop of every path in service is exhausted (01 R37). -/
def State.unreached (s : State) (mod : Nat) : List Nat :=
  s.pod.mods.filter (fun n => n != mod && (List.range 4).all (fun k => !s.ringUp k mod n ||
    (s.trunkSenders mod n).any (fun m => (s.hop ⟨16 * m + 8 + k, true, s.trunkCcw mod n⟩).down)))

/-- A foreground link test of a hop's sender (04 R98): it ends within 2 ms, and what it finds is free (log 1); the hop retrains behind it, in a
time of its own. A waystation stands on the die of twice its number (R89). -/
def State.linkTest (s : State) (h : HopId) : State :=
  let (mod, n) := (h.sta / 16, h.sta % 16)
  let (d, s) := s.freeTime
  let (a, s) := s.freeTime
  let (r, s) := s.freeTime
  let e := s.clk + 1 + d % 2100000
  (s.post e (if n < 8 then .selfTestEnd (8 * mod + n) ⟨0x0A, 0⟩ (a % 2 == 0) else .selfTestEnd (8 * mod + 2 * (n - 8)) ⟨0x0D, 0⟩ (a % 2 == 0))).post
    (e + r) (.hopRetrained h)

/-- RETRY_EXHAUSTED (01 R37; 02 R48; 04 R98): an error in link retry, which no function owns (03 R78; log 67). -/
def execRetryExhausted (s : State) : Host.Outcome State Fault Refusal :=
  match s.cur with
  | some (.retryExhausted h) =>
    let s := ((s.abandon h).countErr (h.sta / 16) 0 4).linkTest h
    .next (if h.trunk then
      let mod := h.sta / 16
      ((s.unreached mod).filter (fun n => !(s.mirror mod n).2.1)).foldl (fun t n => t.declareLost mod n) s
      else s)
  | _ => .next s

/-- HOP_RETRAINED (01 R442; 02 R48 step 3): the hop runs again, and its mail is sent again in order. A link out of service stays so. -/
def execHopRetrained (s : State) : Host.Outcome State Fault Refusal :=
  match s.cur with
  | some (.hopRetrained h) =>
    if h.trunk && !s.linkUp (h.sta / 16) (h.sta % 16 - 8) h.ccw then .next s
    else
      let mail := (s.hop h).kept.filter (fun t => !s.acked h t.seq)
      let s := s.modHop h (fun x => { x with down := false, kept := x.kept.filter (fun t => !mail.contains t) })
      .next (if h.trunk then mail.foldl (fun t slot => t.trunkSend h.sta h.ccw slot) s
        else mail.foldl (fun t _ => t.post t.clk (.slotInject h.sta))
          (s.modSta h.sta (fun x => { x with outq := mail.map (fun m => (s.clk, m)) ++ x.outq })))
  | _ => .next s

/-- RETURNED_SLOT_REINJECT (01 R28): in their order, ahead of newer slots to the same destination, 64 clk after the last came. -/
def execReturnedSlotReinject (s : State) : Host.Outcome State Fault Refusal :=
  match s.cur with
  | some (.returnedSlotReinject core) =>
    let k := s.core core
    if s.clk < k.returnClk + 64 then .next s
    else
      let sta := stationOf core
      let back := k.returned
      let s := s.modCore core (fun k => { k with returned := [] })
      .next (back.foldl (fun t _ => t.post (t.clk + 4) (.slotInject sta)) (s.modSta sta (fun t => { t with outq := back.map (fun b => (s.clk + 4, b)) ++ t.outq })))
  | _ => .next s

/-! ## Combining entries (08 R213) -/

/-- COMBINING_ENTRY_SEND (08 R213): the entry, and every one opened before it; held by a freeze of the core (07 R185; log 73). -/
def execCombiningEntrySend (s : State) : Host.Outcome State Fault Refusal :=
  match s.cur with
  | some (.combiningEntrySend core id) =>
    .next (if s.frozen core then s.post (s.thaw core) (.combiningEntrySend core id) else s.sendEntries core (fun e => e.id == id))
  | _ => .next s

/-- COMBINING_ENTRY_INJECT (08 R213): the entry leaves for its station as a posted-write slot, in the order of opening. A freeze of the core holds
it (07 R185; log 73). -/
def execCombiningEntryInject (s : State) : Host.Outcome State Fault Refusal :=
  match s.cur with
  | some (.combiningEntryInject core id) =>
    if s.frozen core then .next (s.post (s.thaw core) (.combiningEntryInject core id)) else
    match (s.core core).comb.find? (fun e => e.id == id) with
    | none => .next s
    | some e =>
      .next ((s.modCore core (fun k => { k with comb := k.comb.filter (fun q => q.id != id) })).postSlot core e.bank e.job e.dest e.ord none
        e.mir e.by_ e.fenced e.before e.lines s.clk)
  | _ => .next s

/-! ## Redundant pairs (04 R103) -/

/-- What two members' slots must agree in: everything but the core that sent them (log 24). -/
def pairForm (t : Slot) : Slot := { (plainSlot t) with score := 0 }

/-- CHECK in both members, and the test of each (04 R98, R103): nothing of either is sent. -/
def State.pairFails (s : State) (core : Nat) (job : BitVec 12) : State :=
  match s.pairOf core job, s.bankOfJob core job with
  | some (d, _), some c => (((s.raiseAsync c cCHECK 0).raiseAsync d cCHECK 0).logicTest c.core).logicTest d.core
  | _, _ => s

/-- A slot of a redundant pair on its way: a timetabled one in its reservation, which is named by the clk of the injection, the frame and the time
to its destination; one whose reservation has passed goes in the next frame, and the plat overruns (04 R103, R113). -/
def State.pairSend (s : State) (core : Nat) (slot : Slot) (at_ : Option (Nat × Nat × Nat)) : State :=
  match at_ with
  | none => s.enqueue (stationOf core) slot s.clk
  | some (inj, period, travel) =>
    let n := (s.clk - inj + period - 1) / period
    let s := if n = 0 then s else match s.bankOfJob core slot.job with
      | some c => s.overrun c 2
      | none => s
    s.post (inj + n * period + travel) (.timetabledSlotArrival (destCore slot) slot)

/-- PAIR_SLOT_COMPARE (04 R103): the slot of one member, held until the other's comes. -/
def execPairSlotCompare (s : State) : Host.Outcome State Fault Refusal :=
  match s.cur with
  | some (.pairSlotCompare core slot at_) =>
    match s.pairOf core slot.job with
    | none => .next (s.pairSend core slot at_)
    | some (d, second) =>
      match (s.core d.core).pairWait with
      | (_, other) :: rest =>
        let s := s.modCore d.core (fun k => { k with pairWait := rest })
        if pairForm other = pairForm slot then .next (s.pairSend core (if second then other else slot) at_)
        else .next (s.pairFails core slot.job)
      | [] =>
        let (id, s) := s.nextId
        .next ((s.modCore core (fun k => { k with pairWait := k.pairWait ++ [(id, slot)] })).post (s.clk + 64) (.pairCompareTimeout core id))
  | _ => .next s

/-- PAIR_COMPARE_TIMEOUT (04 R103). -/
def execPairCompareTimeout (s : State) : Host.Outcome State Fault Refusal :=
  match s.cur with
  | some (.pairCompareTimeout core id) =>
    match (s.core core).pairWait.find? (fun p => p.1 == id) with
    | none => .next s
    | some (_, slot) =>
      .next ((s.modCore core (fun k => { k with pairWait := k.pairWait.filter (fun p => p.1 != id) })).pairFails core slot.job)
  | _ => .next s

end Sys2Proof.Machine
end

