-- ==== Sys2Proof/Machine/CopyEngine.lean ====
section
/-! DEFINITION. The steps of the copy engine (21 R416 to R422, R424, R432; 08 R203; 09 R235, R236; 02 R64, R65). -/

namespace Sys2Proof.Machine

/-! ## Where bytes lie -/

/-- A stretch of tensor bytes located. -/
inductive CLoc where
  | mem (l : Leaf) (mod pa : Nat)
  | buf (b off : Nat) (e : Word)
deriving DecidableEq, Repr

/-- What the location of the stretches of a beat gives: all of them, a walk or a hold to wait for, a page fault, an error code with the
failing address. -/
inductive Beat where
  | go (xs : List (Piece × CLoc)) (s : State)
  | hold (s : State)
  | fault (va kind level : Nat)
  | bad (code ea : Nat)
deriving DecidableEq, Repr

/-- A translation for a command: of a copy command that a marker has passed, the mapping of its push (09 R236; 21 R434). -/
def State.copyTrans (s : State) (c : CtxId) (e : EngQ) (acc : Access) (cm : Command) (va : Nat) : Trans :=
  let x := s.ctx c
  let k := s.core c.core
  if cm.gen = k.gen x.job || !isCopy e then s.translate c (engSrc e) acc va
  else
    match cm.maps.find? (fun m => m.1 == va / 65536) with
    | some m => match s.leafFaults c.core (s.ctx c).job m.2 acc va with
      | some (kind, level) => .fault kind level
      | none => .leaf m.2 s
    | none =>
      match s.walk c.core x.job.toNat acc va with
      | .ok l => .leaf l s
      | .fault kind level _ => .fault kind level

/-- The error code of an access that a page forbids, 0 for none (21 R424; 08 R217, R219): 1 for register space, to which only LD and ST lead (03 R69;
log 77). -/
def State.pageCode (s : State) (c : CtxId) (l : Leaf) (acc : Access) : Nat :=
  let wr := acc == .write || acc == .atomic
  if l.unmapped then 5
  else if l.bar && wr then 2
  else if l.home = 3 || (l.mir && !(s.ctx c).hasFeature 5) || (l.mir && acc == .atomic) then 1
  else if l.mir && wr && !(s.mirror (modOf c.core) (l.homeMod (modOf c.core))).1 then 1
  else 0

/-- The first byte of some local bytes that is poisoned. -/
def CoreSt.poisonAt (k : CoreSt) (b off n : Nat) : Nat := off + ((List.range n).find? (fun i => k.poisoned b (off + i) 1)).getD 0

/-- The first byte of a stretch that no decoding admits. -/
def badAt (core ea n : Nat) : Nat := ea + ((List.range n).find? (fun i => decodeEa (kindOf core) (BitVec.ofNat 64 (ea + i)) 1 == .bad)).getD 0

/-- The stretches of a beat located, page by page (09 R235). `own` says which buffers of the core the command may read. -/
def State.locateBeat (s : State) (c : CtxId) (e : EngQ) (r : Run) (acc : Access) (own : Nat → Bool) : List Piece → Beat
  | [] => .go [] s
  | p :: ps =>
    let rest (s : State) (y : CLoc) : Beat := match s.locateBeat c e r acc own ps with
      | .go xs s => .go ((p, y) :: xs) s
      | b => b
    match decodeEa (kindOf c.core) (BitVec.ofNat 64 p.ea) p.len with
    | .bad => .bad 1 (badAt c.core p.ea p.len)
    | .win _ _ => .bad 1 p.ea
    | .buf b off =>
      let w := r.snapAt b off
      if !own b || acc != .read then .bad 1 p.ea
      else if !entV w || !entAv w then .bad 5 p.ea
      else if (s.core c.core).poisoned b off p.len then .bad 6 (p.ea + (s.core c.core).poisonAt b off p.len - off)
      else rest s (.buf b off w)
    | .glob va =>
      match s.copyTrans c e acc r.c va with
      | .wait s => .hold s
      | .fault kind level =>
        match s.commandLeaf c r.c va with
        | some l => if kind = 2 && s.pageCode c l acc != 0 then .bad (s.pageCode c l acc) p.ea else .fault va kind level
        | none => .fault va kind level
      | .leaf l s =>
        let code := s.pageCode c l acc
        if code != 0 then .bad code p.ea else rest s (.mem l (l.homeMod (modOf c.core)) (l.pa va))

/-- FMT and GEOM of a located stretch. -/
def CLoc.attrs : CLoc → Nat × Nat
  | .mem l _ _ => (l.fmt, l.geom)
  | .buf _ _ e => (entFmt e, entGeom e)

/-- The width of a block in the bytes of a row, by GEOM. -/
def blockWidth (geom : Nat) : Nat := match geom with | 1 => 32 | 2 => 16 | _ => 8

/-- The alignment that R418 asks of a tile on a page with blocks. -/
def tileAligned (r : Run) (geom : Nat) : Bool :=
  match geom with
  | 0 => true
  | 3 => tileRow r == 256 && r.row0 % 8 == 0 && recTrows r.shape % 8 == 0
  | g => r.col0 * r.esz % blockWidth g == 0 && tileRow r % blockWidth g == 0

/-- The attributes of a command's tensor with those of a beat, or the first byte at which they are mixed or not aligned. -/
def beatAttrs (r : Run) (xs : List (Piece × CLoc)) : Nat ⊕ Run :=
  match xs with
  | [] => .inr r
  | (p, y) :: _ =>
    let a := r.fmt.getD y.attrs
    match xs.find? (fun x => x.2.attrs != a) with
    | some x => .inl x.1.ea
    | none => if tileAligned r a.2 then .inr { r with fmt := some a } else .inl p.ea

/-- Whether bytes lie in the memory of a module (03 R68), and the first that does not. -/
def inMemory (pa n : Nat) : Bool := (isHbm pa && isHbm (pa + n - 1)) || (isLpddr pa && isLpddr (pa + n - 1))
def outsideAt (pa : Nat) : Nat := if isHbm pa then 0xC000000000 else if isLpddr pa then 0x1020000000000 else pa

/-- Where the scale of byte `i` of a located stretch stands: at a home, in a buffer, or nowhere, where it is 0 (08 R201, R202; 09 R227). -/
inductive ScaleSrc where
  | zero
  | home (mod pa : Nat)
  | buf (b off : Nat)
deriving DecidableEq, Repr

def CLoc.scale (p : Piece) (y : CLoc) (i : Nat) : ScaleSrc :=
  match y with
  | .mem l mod _ =>
    if l.sv && l.geom != 0 then .home mod (l.scb + blockOf l.geom ((p.ea + i) % (if l.big then 2 ^ 28 else 65536))) else .zero
  | .buf b off e =>
    match scaleOffset e (off + i) with
    | some o => .buf b o
    | none => .zero

/-- The pages that some local bytes lie in: the first byte of each stretch and its entry (08 R196, R201). A slot has none. -/
def Run.localEntries (r : Run) (space off n : Nat) : List (Nat × Word) :=
  if space = 2 then [] else (cutPages ((0xF0 + space) * 2 ^ 56 + off) n 0 0).map (fun p => (off + p.off, r.snapAt space (off + p.off)))

/-- The first byte of a beat whose scale is not to be had, if any: its buffer page's scale page is not there, or the scale's own address lies
outside memory (08 R201; 03 R68; 21 R424). -/
def scalesGone (r : Run) (xs : List (Piece × CLoc)) (space lo n : Nat) : Option Nat :=
  (((xs.find? (fun x => match x.2 with
    | .buf b _ e => !r.scalesThere b e
    | .mem .. => match x.2.scale x.1 0 with | .home _ pa => !inMemory pa 1 | _ => false)).map (fun x => x.1.ea))).or
  (((r.localEntries space lo n).find? (fun e => !r.scalesThere space e.2)).map Prod.fst)

/-! ## Local space -/

/-- The local space, offset and slot of a copy command (21 R414): 0 W, 1 X, 2 an operand slot. -/
def Command.space (c : Command) : Nat := wfield c.vb 24 2
def Command.loff (c : Command) : Nat := wfield c.vb 0 24
def Command.slotNo (c : Command) : Nat := wfield c.vb 30 5

/-- The entry that governs local bytes, none for a slot, whose pages must be of one format and geometry; or an error code with the first byte
that meets it (21 R418, R424). -/
def Run.localPage (r : Run) (core space off n : Nat) (wr : Bool) : (Nat × Nat) ⊕ Option Word :=
  let ctl := (kindOf core).ctl
  let (lo, hi) := if ctl then (if space = 1 then (0x2F0000, 0x300000) else (0, 0)) else (0, if space = 2 then 65536 else bufSize space)
  if off < lo then .inl (1, off)
  else if hi < off + n then .inl (1, Nat.max off hi)
  else if wr && space == 1 && decide (0x2FC000 < off + n) then .inl (3, Nat.max off 0x2FC000)
  else
    let es := r.localEntries space off n
    match es.find? (fun e => !entV e.2 || !entAv e.2) with
    | some e => .inl (5, e.1)
    | none =>
      match es.find? (fun e => es.any (fun f => (entFmt f.2, entGeom f.2) != (entFmt e.2, entGeom e.2) && decide (f.1 < e.1))) with
      | some e => .inl (4, e.1)
      | none => .inr (es.head?.map Prod.snd)

/-- A write of the copy port: into a scratchpad at once, into any other space as the clk ends (08 R193). -/
def CoreSt.copyWrite (k : CoreSt) (space off : Nat) (bs : List Byte) : CoreSt :=
  if space < 4 then k.portWrite 2 space off bs else k.writeSpace space off bs

/-- Space and offset of local bytes for `copyWrite`. -/
def spaceOf (c : Command) (off : Nat) : Nat × Nat := if c.space = 2 then (3, slotAt c.slotNo + off) else (c.space, off)

/-- Where the scale of a byte that a load writes to a local space goes: a space and an offset, by the byte's own page (08 R201, R203). -/
def Run.localScale (r : Run) (space geom off : Nat) : Option (Nat × Nat) :=
  if space = 2 then (if geom = 0 then none else some (3, slotAt r.c.slotNo + 0x10000 + blockOf geom off))
  else (scaleOffset (r.snapAt space off) off).map (fun o => (space, o))

/-! ## Engine stores -/

/-- Bytes cut into lines of 64. -/
def linesFrom (pa : Nat) (bs : List Byte) : List CombLine :=
  (List.range ((pa % 64 + bs.length + 63) / 64)).map (fun i =>
    let lo := if i = 0 then 0 else 64 * i - pa % 64
    let hi := Nat.min bs.length (64 * (i + 1) - pa % 64)
    lineOf (pa + lo) ((bs.drop lo).take (hi - lo)))

/-- Lines sent in posted-write slots of an engine, three to a slot (21 R419). -/
def State.sendLines (s : State) (c : CtxId) (e : EngQ) (seq : Nat) (dest : Dest) (ord mir : Nat) (ls : List CombLine) : State :=
  (chunks 3 (ceilDiv ls.length 3) ls).foldl (fun t g => t.enginePost c e seq dest ord mir g) s

/-- Bytes that a command of an engine writes at a home (21 R419; 01 R36); none while the mirror copies are full (08 R219). -/
def State.engineStore (s : State) (c : CtxId) (e : EngQ) (seq : Nat) (l : Leaf) (mod pa : Nat) (bs : List Byte) : Option State :=
  let here := modOf c.core
  if l.mir then
    let (_, lost, m) := s.mirror here mod
    let ls := linesFrom pa bs
    if 64 < (s.core c.core).mirrors.length + ((s.core c.core).comb.filter (fun x => x.mir == 2)).length + ceilDiv ls.length 3 then none
    else
      let s := if lost then s else s.sendLines c e seq (.global mod (homeStation pa)) l.ord 1 ls
      some (s.sendLines c e seq (.global m (homeStation pa)) l.ord 2 ls)
  else if mod = here then some (s.writeMem (s.ctx c).plat mod pa bs)
  else some (s.sendLines c e seq (.global mod (homeStation pa)) l.ord 0 (linesFrom pa bs))

/-! ## Beats of a tile -/

/-- The tile row and the bytes of a beat (21 R423). -/
structure Seg where
  t : Nat
  off : Nat
  len : Nat
  valid : Nat
deriving DecidableEq, Repr

def segOf (core : Nat) (r : Run) : Seg :=
  let segs := ceilDiv (tileRow r) (beatBytes core)
  let i := r.step - 1
  let t := i / segs
  let off := i % segs * beatBytes core
  let len := Nat.min (beatBytes core) (tileRow r - off)
  ⟨t, off, len, Nat.min len (tileValid r t - off)⟩

/-- The stretches of a beat inside the tensor. -/
def segPieces (r : Run) (g : Seg) : List Piece :=
  if g.valid = 0 then [] else cutPages (tileAddr r g.t g.off) g.valid 0 0

/-- A beat that waits, faults or fails. -/
def State.beatStop (s : State) (c : CtxId) (e : EngQ) (r : Run) (acc : Access) (b : Beat) : State :=
  match b with
  | .hold s => s.putRun c e { r with due := s.clk + 1 }
  | .fault va kind level => s.postNow (.pageFault ⟨c, (s.ctx c).job, va, acc, engSrc e⟩ kind level)
  | .bad code ea => s.failed c e r code ea
  | .go _ s => s

/-- Bytes read for a load: what is at hand is written into a space, the rest requested for it (21 R417, R419). -/
def State.fetchInto (s : State) (c : CtxId) (e : EngQ) (seq space off : Nat) (xs : List (Piece × CLoc)) : State :=
  xs.foldl (fun s x =>
    match x.2 with
    | .buf b o _ => s.modCore c.core (fun k => k.copyWrite space (off + x.1.off) (Memory.readN (k.buf b) o x.1.len))
    | .mem l mod pa =>
      let m := if l.mir then (s.mirrorSource c.core mod).getD mod else mod
      if m = modOf c.core then
        s.modCore c.core (fun k => k.copyWrite space (off + x.1.off) (Memory.readN s.mem (memKey m pa) x.1.len))
      else
        (List.range (ceilDiv x.1.len 256)).foldl (fun s i =>
          let (g, s) := s.newGroup c .c false (.place c e seq (x.1.ea + 256 * i) space (off + x.1.off + 256 * i)) []
          s.readRemote c g 0 (.global m (homeStation pa)) (pa + 256 * i) (Nat.min 256 (x.1.len - 256 * i)) l.mir) s) s

/-- Whether a load must wait for mirror copies to be accepted (01 R38). -/
def State.mirrorHold (s : State) (core : Nat) (xs : List (Piece × CLoc)) : Bool :=
  xs.any (fun x => match x.2 with | .mem l mod _ => l.mir && (s.mirrorSource core mod).isNone | _ => false)

/-- The scales that a beat of a load carries to the blocks of the local bytes from `lo` on (21 R418): zero for a block wholly clipped. The scale
of a MIR page is read where its bytes are: of the mirror once the home is lost (01 R38). -/
def State.loadScales (s : State) (c : CtxId) (r : Run) (space lo len valid geom : Nat) (xs : List (Piece × CLoc)) : State :=
  if geom = 0 then s
  else
    let starts := (List.range len).filter (fun j => j == 0 || (lo + j) % blockWidth geom == 0)
    starts.foldl (fun s j =>
      match r.localScale space geom (lo + j) with
      | none => s
      | some (sp, o) =>
        let put (b : Byte) : State := s.modCore c.core (fun k => k.copyWrite sp o [b])
        match xs.find? (fun x => decide (x.1.off ≤ j) && decide (j < x.1.off + x.1.len)) with
        | none => if geom = 3 && (lo / 256) % 8 != 0 || j < valid then s else put 0
        | some (p, y) =>
          match y.scale p (j - p.off) with
          | .zero => put 0
          | .buf b a => put (Memory.read ((s.core c.core).buf b) a)
          | .home mod pa =>
            let mir := match y with | .mem l _ _ => l.mir | .buf .. => false
            let m := if mir then (s.mirrorSource c.core mod).getD mod else mod
            if m = modOf c.core then put (Memory.read s.mem (memKey m pa))
            else
              -- of a remote home, by a remote read (09 R226, R227)
              let (n, s) := s.newGroup c .c false (.place c .load r.c.seq (p.ea + (j - p.off)) sp o) []
              s.readRemote c n 0 (.global m (homeStation pa)) pa 1 mir) s

/-- Whether a page of local bytes has the tensor's format and geometry. -/
def Run.sameAttrs (r : Run) (entry : Option Word) : Bool :=
  match entry, r.fmt with
  | some w, some a => (entFmt w, entGeom w) == a
  | _, _ => true

/-- One beat of CLD (21 R417 to R419). -/
def State.cldBeat (s : State) (c : CtxId) (r : Run) : State :=
  let g := segOf c.core r
  let own (b : Nat) : Bool := (b == 0 && r.c.space == 2) || (b == 1 && (r.c.space == 2 || r.c.space == 0))
  match s.locateBeat c .load r .read own (segPieces r g) with
  | .go xs s =>
    match beatAttrs r xs with
    | .inl a => s.failed c .load r 4 a
    | .inr r =>
      let lo := r.c.loff + g.t * tileRow r + g.off
      match r.localPage c.core r.c.space lo g.len true, scalesGone r xs r.c.space lo g.len with
      | .inl (code, a), _ => s.failed c .load r code a
      | .inr entry, gone =>
        if !r.sameAttrs entry then s.failed c .load r 4 lo
        else if gone.isSome then s.failed c .load r 5 (gone.getD 0)
        else if s.mirrorHold c.core xs then s.putRun c .load { r with due := s.clk + 1 }
        else
          let (sp, o) := spaceOf r.c lo
          let s := if g.valid < g.len then
              s.modCore c.core (fun k => k.copyWrite sp (o + g.valid) (List.replicate (g.len - g.valid) 0)) else s
          let s := s.fetchInto c .load r.c.seq sp o xs
          let (fmt, geom) := r.fmt.getD (0, 0)
          let s := if r.c.space = 2 then s.modCore c.core (fun k =>
              { k with slots := Sp.put k.slots r.c.slotNo { Sp.get SlotInfo.reset k.slots r.c.slotNo with fmt := fmt, geom := geom } }) else s
          (s.loadScales c r r.c.space lo g.len g.valid geom xs).stepped c .load r
  | b => s.beatStop c .load r .read b

/-- The scales that a beat of a store carries to the blocks of its page (21 R418): those of a stretch lie side by side, and go where its
bytes go, to the mirror too (01 R36). None while the mirror copies are full (08 R219). -/
def State.storeScales (s : State) (c : CtxId) (e : EngQ) (r : Run) (lo : Nat) (xs : List (Piece × CLoc)) : Option State :=
  xs.foldl (fun t x => t.bind (fun t =>
    match x.2 with
    | .mem l mod _ =>
      if l.geom = 0 || !l.sv then some t
      else
        let page := if l.big then 2 ^ 28 else 65536
        let scale (i : Nat) : Byte := match scaleOffset (r.snapAt r.c.space (lo + x.1.off + i)) (lo + x.1.off + i) with
          | some o => Memory.read ((s.core c.core).buf r.c.space) o
          | none => 0
        t.engineStore c e r.c.seq l mod (l.scb + blockOf l.geom (x.1.ea % page))
          (((List.range x.1.len).filter (fun i => i == 0 || (x.1.ea + i) % blockWidth l.geom == 0)).map scale)
    | .buf .. => some t)) (some s)

/-- One beat of CST (21 R417 to R419). -/
def State.cstBeat (s : State) (c : CtxId) (r : Run) : State :=
  let g := segOf c.core r
  let lo := r.c.loff + g.t * tileRow r + g.off
  match s.locateBeat c .store r .write (fun _ => false) (segPieces r g) with
  | .go xs s =>
    match beatAttrs r xs with
    | .inl a => s.failed c .store r 4 a
    | .inr r =>
      match r.localPage c.core r.c.space lo g.len false, scalesGone r xs r.c.space lo g.len with
      | .inl (code, a), _ => s.failed c .store r code a
      | .inr entry, gone =>
        if !r.sameAttrs entry then s.failed c .store r 4 lo
        else if gone.isSome then s.failed c .store r 5 (gone.getD 0)
        else if (s.core c.core).poisoned r.c.space lo g.valid then s.failed c .store r 6 ((s.core c.core).poisonAt r.c.space lo g.valid)
        else
          let bs := Memory.readN ((s.core c.core).buf r.c.space) lo g.valid
          let out := xs.foldl (fun (t : Option State) x => match t, x.2 with
            | some t, .mem l mod pa => t.engineStore c .store r.c.seq l mod pa ((bs.drop x.1.off).take x.1.len)
            | t, _ => t) (some s)
          match out.bind (fun t => t.storeScales c .store r lo xs) with
          | none => s.putRun c .store { r with due := s.clk + 1 }
          | some s => s.stepped c .store r
  | b => s.beatStop c .store r .write b

/-- Lines of FP32 adds at a remote home: one request for each line (21 R419; log 13). -/
def State.addRemote (s : State) (c : CtxId) (seq ea mod pa : Nat) (els : List (Nat × Elem)) : State :=
  ((els.map (fun x => (pa + x.1) / 64)).eraseDups).foldl (fun s line =>
    let mine := els.filter (fun x => (pa + x.1) / 64 == line)
    let (g, s) := s.newGroup c .c false (.done c .store seq (ea + (64 * line - pa))) []
    s.request c g 0 0 4 mod (homeStation pa) 0 16
      (bytesLE 8 (64 * line) ++ mine.flatMap (fun x => bytesLE 4 ((pa + x.1) % 64) ++ bytesLE 4 x.2.toNat))) s

/-- One beat of CSTA (21 R419). -/
def State.cstaBeat (s : State) (c : CtxId) (r : Run) : State :=
  let g := segOf c.core r
  let lo := r.c.loff + g.t * tileRow r + g.off
  match s.locateBeat c .store r .atomic (fun _ => false) (segPieces r g) with
  | .go xs s =>
    match beatAttrs r xs with
    | .inl a => s.failed c .store r 4 a
    | .inr r =>
      match r.localPage c.core r.c.space lo g.len false with
      | .inl (code, a) => s.failed c .store r code a
      | .inr entry =>
        let raw := (match r.fmt with | some a => a == (0, 0) | none => true) && (match entry with | some w => entFmt w == 0 | none => true)
        if !raw then s.failed c .store r 4 (if r.fmt.any (fun a => a != (0, 0)) then tileAddr r g.t g.off else lo)
        else if (s.core c.core).poisoned r.c.space lo g.valid then s.failed c .store r 6 ((s.core c.core).poisonAt r.c.space lo g.valid)
        else
          let k := s.core c.core
          let el (i : Nat) : Elem := BitVec.ofNat 32 (Memory.readLE (k.buf r.c.space) (lo + i) 4)
          (xs.foldl (fun s x => match x.2 with
            | .mem _ mod pa =>
              let els := (List.range (x.1.len / 4)).map (fun i => (4 * i, el (x.1.off + 4 * i)))
              if mod = modOf c.core then
                els.foldl (fun s v =>
                  let old := BitVec.ofNat 32 (Memory.readLE s.mem (memKey mod (pa + v.1)) 4)
                  s.writeMem (s.ctx c).plat mod (pa + v.1) (bytesLE 4 (fAdd .rne old v.2).1.toNat)) s
              else s.addRemote c r.c.seq x.1.ea mod pa els
            | .buf .. => s) s).stepped c .store r
  | b => s.beatStop c .store r .atomic b

/-! ## Chains (02 R64; 21 R420) -/

/-- The reserved paths of a plat from one station to another. -/
def State.resvPaths (s : State) (rs : List Resv) (mod sta dmod dsta : Nat) : List ResvPath :=
  let loc (m a b : Nat) (r : Resv) : Bool := !r.trunk && r.smod == m && r.ssta == a && r.dsta == b
  if mod = dmod then
    (rs.filter (loc mod sta dsta)).map (fun r => ⟨4096, r.offset % 4096, 8 + 2 * dirHops r.ccw sta dsta, 0⟩)
  else
    (rs.filter (fun t => t.trunk && t.smod == mod && t.dmod == dmod)).flatMap (fun t =>
      (rs.filter (loc mod sta t.ssta)).flatMap (fun r => (rs.filter (loc dmod t.dsta dsta)).map (fun l => s.trunkResv r t l)))

/-- The X offset at which the next member writes its tile, which the placement of the plat fixes (01 R21): that of its CCHN; where none stands
there yet, the sender's own (log 25). -/
def State.chainOffset (s : State) (core : Nat) (job : BitVec 12) (own : Nat) : Nat :=
  match s.bankOfJob core job with
  | none => own
  | some d =>
    let g := (s.ctx d).eng
    let cs := (g.live .load).map Run.c ++ g.loadQ
    match cs.find? (fun c => c.cmd == 3 && !c.flags.getLsbD 3) with
    | some c => wfield c.vb 0 24
    | none => own

/-- The first injection of a path from a clk on that no chain slot of the context has taken. -/
def freeInjection (taken : List (Nat × Nat)) (i : Nat) (p : ResvPath) (t : Nat) : Nat :=
  let n := nextInFrame t p.period p.phase
  (((List.range (taken.length + 1)).map (fun k => n + k * p.period)).find? (fun c => !taken.contains (c, i))).getD n

/-- A chain slot sent to the next member in the plat's first reserved slot at or after its write (21 R420; 05 R122). A write behind its
timetable by the slip of the C stream has a reservation that has passed: it goes in the same one of the next frame, and the plat
overruns (04 R113; log 25). TAG marks the slot as a chain slot, with the tile's last and the place in the tile; ARG is the destination
X offset / 256 (01 R21; log 13). -/
def State.chainSend (s : State) (c : CtxId) (r : Run) (index : Nat) (last poison : Bool) (bs : List Byte) : State :=
  let x := s.ctx c
  let dmod := wfield r.c.vb 30 6
  let dsta := wfield r.c.vb 36 3
  let dcore := wfield r.c.vb 39 3
  let core := 128 * dmod + 16 * dsta + dcore
  let rs := match (s.die (dieOf c.core)).plat x.plat with
    | some p => p.res
    | none => []
  let taken := x.eng.resvOut.filter (fun q => decide (s.clk ≤ q.1))
  let due := s.clk - x.c.slip
  let paths := (s.resvPaths rs (modOf c.core) (stationOf c.core % 16) dmod dsta).zipIdx
  let best := paths.foldl (fun (b : Option (Nat × Nat × ResvPath)) q =>
    let n := freeInjection taken q.2 q.1 due
    match b with
    | some p => if n < p.1 then some (n, q.2, q.1) else b
    | none => some (n, q.2, q.1)) none
  match best with
  | none => s.overrun c 2
  | some (first, i, p) =>
    let inj := if first < s.clk then freeInjection taken i p s.clk else first
    let s := if first < s.clk then s.overrun c 2 else s
    let s := s.modCtx c (fun x => { x with eng := { x.eng with resvOut := (inj, i) :: taken } })
    let at_ := s.chainOffset core x.job (wfield r.c.vb 0 24) + 256 * index
    let slot := { slotFrom c.core 1 x.job dmod dsta dcore ((bs.length - 1) / 64) (0x2000 + bit last * 0x1000 + index % 4096) (at_ / 256) bs with
      poison := poison }
    -- the slots of a redundant pair are compared first (04 R103)
    if (s.pairOf c.core x.job).isSome then s.postNow (.pairSlotCompare c.core slot (some (inj, p.period, p.travel)))
    else s.post (inj + p.travel) (.timetabledSlotArrival core slot)

/-- The X offset of a chain slot at a member (21 R420). -/
def chainAt (r : Run) (index : Nat) : Nat := wfield r.c.vb 0 24 + 256 * index

/-- The bytes of a slot of a head's tile. -/
def chainLen (r : Run) (index : Nat) : Nat := Nat.min 256 (recTrows r.shape * tileRow r - 256 * index)

/-- The pieces of 256 bytes of a tile: tile row, offset in it, length, and offset in the slot. -/
def chainPieces (r : Run) (index : Nat) : List (Nat × Nat × Nat × Nat) :=
  let w := tileRow r
  let lo := 256 * index
  let hi := lo + chainLen r index
  (List.range (recTrows r.shape)).filterMap (fun t =>
    let a := Nat.max lo (t * w)
    let b := Nat.min hi ((t + 1) * w)
    if a < b then some (t, a - t * w, b - a, a - lo) else none)

/-- The slots of a head's tile that are whole in its X and not yet sent, sent in order: at most `n` of them (21 R420). -/
def State.chainFlush (s : State) (c : CtxId) (seq : Nat) : Nat → State
  | 0 => s
  | n + 1 =>
    match (s.ctx c).eng.find .load seq with
    | some r =>
      let k := s.core c.core
      let lo := chainAt r r.count
      let len := chainLen r r.count
      let awaited := k.groups.any (fun g => match g.want with
        | .place d .load m _ 1 off => d == c && m == seq && decide (lo ≤ off) && decide (off < lo + len)
        | _ => false)
      if r.c.cmd = 3 && r.c.flags.getLsbD 3 && r.error == 0 && decide (r.count + 1 < r.step) && !awaited then
        let k := k.settle (s.clk + 1)
        let bs := Memory.readN k.memX lo len
        let bs := bs ++ List.replicate ((64 - len % 64) % 64) 0
        let s := if r.c.flags.getLsbD 2 then s else s.chainSend c r r.count (r.count + 1 == r.steps) (k.poisoned 1 lo len) bs
        (s.putRun c .load { r with count := r.count + 1 }).chainFlush c seq n
      else s
    | none => s

/-- What a head can send now. -/
def State.chainGo (s : State) (c : CtxId) (seq : Nat) : State :=
  match (s.ctx c).eng.find .load seq with
  | some r => s.chainFlush c seq r.steps
  | none => s

/-- One step of the head of a chain: 256 bytes read, a remote home's by remote reads, and written into its own X with their scales; what is whole
there is sent on (21 R418, R420; 01 R38; 09 R226). -/
def State.chainStep (s : State) (c : CtxId) (r : Run) : State :=
  let i := r.step - 1
  let len := chainLen r i
  let lo := chainAt r i
  let ps := (chainPieces r i).flatMap (fun p =>
    let valid := Nat.min p.2.2.1 (tileValid r p.1 - p.2.1)
    if valid = 0 then [] else cutPages (tileAddr r p.1 p.2.1) valid 0 p.2.2.2)
  -- only a CLD names the core's own buffers (R418)
  match s.locateBeat c .load r .read (fun _ => false) ps with
  | .go xs s =>
    match beatAttrs r xs with
    | .inl a => s.failed c .load r 4 a
    | .inr r =>
      match r.localPage c.core 1 lo len true, scalesGone r xs 1 lo len with
      | .inl (code, a), _ => s.failed c .load r code a
      | .inr entry, gone =>
        if !r.sameAttrs entry then s.failed c .load r 4 lo
        else if gone.isSome then s.failed c .load r 5 (gone.getD 0)
        else if s.mirrorHold c.core xs then s.putRun c .load { r with due := s.clk + 1 }
        else
          let s := s.modCore c.core (fun k => k.copyWrite 1 lo (List.replicate len 0))
          let s := s.fetchInto c .load r.c.seq 1 lo xs
          ((s.loadScales c r 1 lo len 0 (r.fmt.getD (0, 0)).2 xs).stepped c .load r).chainGo c r.c.seq
  | b => s.beatStop c .load r .read b

/-- A chain slot that arrives at a member: written, and forwarded; the member completes when its whole tile has come, so not where a slot of it
was discarded (21 R420; 01 R26). None where no member's command is there for it (log 25). -/
def State.chainArrive (s : State) (c : CtxId) (slot : Slot) : Option State :=
  match (s.ctx c).eng.loadRun with
  | some r =>
    if r.c.cmd = 3 && !r.c.flags.getLsbD 3 && r.done.isNone && slot.tag.getLsbD 13 then
      -- the place in the tile, from its lowest 12 bits: the one next to what has come
      let base := r.step - 1 - Nat.min (r.step - 1) 64
      let index := base + (slot.tag.toNat % 4096 + 4096 - base % 4096) % 4096
      let at_ := chainAt r index
      match r.localPage c.core 1 at_ slot.data.length true with
      | .inl (code, a) => some (s.failed c .load r code a)
      | .inr _ =>
        let s := s.modCore c.core (fun k => k.portWrite 2 1 at_ slot.data slot.poison)
        let last := slot.tag.getLsbD 12
        let s := if r.c.flags.getLsbD 2 then s else s.chainSend c r index last slot.poison slot.data
        let r := { r with count := r.count + 1, step := Nat.max r.step (index + 2), steps := if last then index + 1 else r.steps }
        some (s.putRun c .load (if r.steps != 0 && r.count == r.steps then { r with done := some s.clk } else r))
    else none
  | none => none

/-! ## Slice multicast, overlays, migration, invalidation -/

/-- Bytes of X that a command reads, or an error code and the first byte that meets it. -/
def State.xBytes (s : State) (c : CtxId) (r : Run) (off n : Nat) : (Nat × Nat) ⊕ List Byte :=
  match r.localPage c.core 1 off n false with
  | .inl q => .inl q
  | .inr _ =>
    if (s.core c.core).poisoned 1 off n then .inl (6, (s.core c.core).poisonAt 1 off n) else .inr (Memory.readN (s.core c.core).memX off n)

/-- The source and destination offsets of line `n` of receiver `i` (02 R65; 21 R421). -/
def sliceLine (r : Run) (i n : Nat) : Nat × Nat :=
  let src := wfield r.c.va 0 24
  let lc := wfield r.c.va 24 16
  let ls := wfield r.c.va 40 16
  let d := wfield r.c.vb 0 24
  if n < lc then (src + 64 * n, d + 64 * n)
  else (src + 64 * lc + 64 * i * ls + 64 * (n - lc), d + 64 * lc + i * wfield r.c.vb 24 24 + 64 * (n - lc))

/-- One slot of CSLC (21 R421). -/
def State.cslcStep (s : State) (c : CtxId) (r : Run) : State :=
  let per := ceilDiv (sliceLines r) 3
  let i := (r.step - 1) / per
  let part := (r.step - 1) % per
  let ns := (List.range (Nat.min 3 (sliceLines r - 3 * part))).map (fun j => 3 * part + j)
  let listAt := 64 * wfield r.c.vb 48 16 + 2 * i
  match s.xBytes c r listAt 2 with
  | .inl (code, a) => s.failed c .store r code a
  | .inr lb =>
    let w := ofBytesLE lb
    let srcs := ns.map (fun n => (sliceLine r i n, s.xBytes c r (sliceLine r i n).1 64))
    match srcs.find? (fun q => match q.2 with | .inl _ => true | .inr _ => false) with
    | some (_, .inl (code, a)) => s.failed c .store r code a
    | _ =>
      match srcs.find? (fun q => decide (0x2FC000 < q.1.2 + 64)) with
      | some q => if 0x300000 < q.1.2 + 64 then s.failed c .store r 1 (Nat.max 0x300000 q.1.2) else s.failed c .store r 3 (Nat.max 0x2FC000 q.1.2)
      | none =>
        let ls := srcs.flatMap (fun q => linesFrom q.1.2 (match q.2 with | .inr bs => bs | .inl _ => []))
        let sta := stationOf c.core
        let job := (s.ctx c).job
        let m := fieldOf w 10 6
        let post (s : State) (g : List CombLine) : State :=
          if s.jobState sta job = .closing then s
          else
            -- its lines return credits that no one waits for
            let s := (s.countSent c.core job).postSlot c.core c.bank job (.window 16 m (fieldOf w 7 3) (fieldOf w 4 3)) 1 (some (.store, r.c.seq)) 0 [] [] [] g (s.clk + 1)
            s.modCore c.core (fun k => { k with owed := k.owed.dropLast })
        ((chunks 3 (ceilDiv ls.length 3) ls).foldl post s).stepped c .store r

/-- One beat of COVL (21 R422; 05 R130). -/
def State.covlBeat (s : State) (c : CtxId) (r : Run) : State :=
  let total := 256 * wfield r.c.vb 18 10
  let off := 1024 * (r.step - 1)
  let len := Nat.min 1024 (total - off)
  let strm := wfield r.c.vb 16 2
  let st : Stream := match strm with | 0 => .c | 1 => .a | _ => .v
  match s.locateBeat c .load r .overlay (fun _ => false) (cutPages ((r.c.va.toNat + off) % 2 ^ 64) len 0 0) with
  | .go xs s =>
    if s.mirrorHold c.core xs then s.putRun c .load { r with due := s.clk + 1 }
    else
      let s := s.fetchInto c .load r.c.seq (4 + strm) (2 * wfield r.c.vb 0 16 + off) xs
      let lo := wfield r.c.vb 0 16
      let hi := lo + total / 2 - 1
      -- the loop buffers are emptied; a region of the other bank that it overlaps is overwritten, and its own is loaded
      let clear (y : StreamSt) : StreamSt := { y with loopBuf := none }
      let s := [0, 1].foldl (fun s b => s.modStrm ⟨⟨c.core, b⟩, st⟩ clear) s
      let s := ((s.core c.core).regions.filter (fun g =>
        g.bank != c.bank && g.st == st && decide (g.lo ≤ hi) && decide (lo ≤ g.hi) && !g.overwritten)).foldl (fun s g => s.overwrite c.core g) s
      let s := s.modCore c.core (fun k => { k with regions :=
        k.regions ++ (if r.step = r.steps then [⟨c.bank, st, lo, hi, false⟩] else []) })
      s.stepped c .load r
  | b => s.beatStop c .load r .overlay b

/-- Migration data sent to the home of its destination frame, a counted message (01 R21; 02 R41); its slot names the physical
address (log 13). The command is owed it until it is written (07 R176). -/
def State.migSend (s : State) (c : CtxId) (seq pa : Nat) (bs : List Byte) : State :=
  let job := (s.ctx c).job
  let m := modOf c.core
  let tag := (s.core c.core).reqTag % 16384
  if s.jobState (stationOf c.core) job = .closing then s
  else
    (s.modCore c.core (fun k =>
      { k with reqTag := (k.reqTag + 1) % 16384
               owed := k.owed ++ [⟨c.bank, some (.load, seq), tag, .global m (homeStation pa), 2, 1, [pa], [], [], []⟩] })).sendCounted c.core
      (slotFrom c.core 8 job m (homeStation pa) 0 2 tag 0 (bytesLE 8 pa ++ bs)) (s.clk + 1)

/-- The valid entries of a job's table at an address of a module, each with its index; a VF's table through its range table (09 R222 to R224, R231). -/
def State.tableEntries (s : State) (mod job table len : Nat) : List (Nat × Nat) :=
  match (s.modu mod).formed job (false, false, true) table with
  | .inl _ => []
  | .inr (pa, _) =>
    ((Sp.slice s.mem (memKey mod pa) (memKey mod pa + 16 * 2 ^ len)).filter (fun e =>
      (e.1 - memKey mod pa) % 16 == 0 && e.2.getLsbD 0)).map (fun e => ((e.1 - memKey mod pa) / 16, Memory.readLE s.mem e.1 16))

/-- Whether a leaf of a job's tables maps a barrier page on bytes of module `home` (08 R217; 09 R223); a walk of every address, level by level. -/
def State.barLeaf (s : State) (mod job home pa n : Nat) : List (Nat × Nat × Nat) → Nat → Bool
  | [], _ => false
  | (lv, lo, len) :: rest, table =>
    (s.tableEntries mod job table len).any (fun e =>
      if fieldOf e.2 1 1 = 1 then
        fieldOf e.2 7 1 == 1 && (List.range (if lv = 2 then 4096 else 1)).any (fun p =>
          match leafOf s mod job .probe lv e.2 (e.1 * 2 ^ lo + 65536 * p) with
          | .ok l =>
            let at' := l.pa (e.1 * 2 ^ lo + 65536 * p)
            l.bar && l.homeMod mod == home && decide (at' < pa + n) && decide (pa < at' + 65536)
          | .fault .. => false)
      else s.barLeaf mod job home pa n rest (fieldOf e.2 24 36 * 65536))

/-- Whether bytes of a module's memory lie in a page of barrier configuration (08 R217): CMIG passes through no translation, so a frame is such a
page when a leaf of some job's tables, of any module, maps it with BAR set (log 69). -/
def State.barFrame (s : State) (mod pa n : Nat) : Bool :=
  s.stations.any (fun e => e.2.jroot.any (fun r =>
    wbit r.2 0 && s.barLeaf (e.1 / 16) r.1 mod pa n walkLevels (wfield r.2 8 44 * 256)))

/-- One beat of CMIG (21 R422; 09 R238): between physical frames of the module; none into a BAR page (08 R217). -/
def State.cmigBeat (s : State) (c : CtxId) (r : Run) : State :=
  let src := r.c.va.toNat
  let dst := r.c.vb.toNat
  let n := migBytes r
  let m := modOf c.core
  if !inMemory src n then s.failed c .load r 5 (outsideAt src)
  else if !inMemory dst n then s.failed c .load r 5 (outsideAt dst)
  else if s.barFrame m dst n then s.failed c .load r 2 dst
  else
    let off := 1024 * (r.step - 1)
    ((List.range 8).foldl (fun t i =>
      t.migSend c r.c.seq (dst + off + 128 * i) (Memory.readN t.mem (memKey m (src + off + 128 * i)) 128)) s).stepped c .load r

/-- The cores of a module. -/
def coresOf (mod : Nat) : List Nat := (List.range 8).flatMap (fun d => (List.range 11).map (fun k => 128 * mod + 16 * d + k))

/-- The step of CINV: a management slot for every core of the module, which the local ring carries to it (09 R236; log 13). -/
def State.cinvStep (s : State) (c : CtxId) (r : Run) : State :=
  let lo := r.c.va.toNat
  let hi := lo + 65536 * (wfield r.c.vb 16 24 + 1)
  let job := (s.ctx c).job
  let cs := coresOf (modOf c.core)
  let s := cs.foldl (fun s k =>
    s.egress c.core (mgmtSlot c.core job (modOf k) (stationOf k % 16) (scoreOf k) 5
      [wfield r.c.vb 0 12, bit (r.c.flags.getLsbD 3), lo, hi, r.c.seq]) s.clk) s
  s.stepped c .load { r with count := cs.length }

/-- INVALIDATION_MARKER_ARRIVAL (09 R236, R237): the generation of the job rises, so that no entry matches work behind the marker;
commands already queued keep theirs. The command waits for one marker less, that of the other member of a redundant pair too. -/
def execInvalidationMarkerArrival (s : State) : Host.Outcome State Fault Refusal :=
  match s.cur with
  | some (.invalidationMarkerArrival core slot) =>
    let job := ofBytesLE (slot.data.take 8) % 4096
    let s := s.modCore core (fun k => { k with gens := Sp.set 0 k.gens job (k.gen (BitVec.ofNat 12 job) + 1) })
    let seq := ofBytesLE ((slot.data.drop 32).take 8)
    let mine (t : State) (c : CtxId) : Bool := (t.ctx c).resident && (t.ctx c).job == slot.job &&
      ((t.ctx c).eng.find .load seq).any (fun r => r.c.cmd == 7 && decide (0 < r.count))
    .next ((s.twins (srcCore slot) slot.job).foldl (fun t k => match [CtxId.mk k 0, ⟨k, 1⟩].find? (mine t) with
      | some c => t.modCtx c (fun x => { x with eng := x.eng.modSeq .load seq (fun r => { r with count := r.count - 1 }) })
      | none => t) s)
  | _ => .next s

end Sys2Proof.Machine
end

