-- ==== Sys2Proof/Machine/Arrivals.lean ====
section
/-! DEFINITION. What slots do at their destinations (02 R44 to R49, R61, R62; 08 R205, R214, R216; 09 R240): messages, posted writes,
remote reads and atomics with their replies, migration data, credits, loss notices, timetabled slots, mirror acceptances. -/

namespace Sys2Proof.Machine

/-! ## How a counted slot is taken (02 R61, R62) -/

/-- The station that a slot is for. -/
def destSta (t : Slot) : Nat := 16 * t.dmod.toNat + t.dsta.toNat

/-- A counted slot handled under the state of its job at the station: performed where OPEN; as `closing` says where CLOSING; dropped,
logged with cause 3 and counted nowhere where FREE (02 R61, R62). -/
def State.takeSlot (s : State) (slot : Slot) (perform closing : State → State) : State :=
  match s.jobState (destSta slot) slot.job with
  | .opened => perform s
  | .closing => closing s
  | .free => s.logLoss (destSta slot) slot 3

/-- Counted consumed at its destination (02 R42, R44). -/
def State.consumed (s : State) (slot : Slot) : State := s.countCon (destSta slot) slot.job

/-- A reply slot to a request (02 R43, R62): status 0 done, 1 job-closed in ARG (log 13), counted injected at the station. -/
def State.reply (s : State) (req : Slot) (kind status : Nat) (poison : Bool) (data : List Byte) : State :=
  let sta := destSta req
  let slot : Slot := { stationSlot sta kind req.job req.smod.toNat req.ssta.toNat req.score.toNat req.tag.toNat status data with
    score := req.dcore, poison := poison, nfl := BitVec.ofNat 2 ((data.length - 1) / 64) }
  let (d, s) := s.freeTime
  (s.countInj sta req.job).enqueue sta slot (s.clk + 1 + d)

/-! ## Active messages (02 R45 to R47) -/

/-- The lowest free entry of an inbox. -/
def Ctx.freeEntry (x : Ctx) : Option Nat := (List.range 32).find? (fun e => !x.inbox.contains e)

/-- The descriptor of a message (02 R47). -/
def descriptor (t : Slot) (entry : Nat) : Word :=
  BitVec.ofNat 64 (t.arg.toNat * 2 ^ 48 + t.smod.toNat * 2 ^ 42 + t.ssta.toNat * 2 ^ 38 + t.score.toNat * 2 ^ 34 + t.job.toNat * 2 ^ 22 +
    t.nfl.toNat * 2 ^ 20 + entry)

/-- A message written into the inbox of a bank as its ejection ends and its descriptor pushed in the next clk: the C stream pops it
from clk t + 11 + 2h of a SEND of clk t (14 R346). -/
def State.intoInbox (s : State) (c : CtxId) (slot : Slot) : State :=
  match (s.ctx c).freeEntry with
  | none => s
  | some e =>
    (s.modCore c.core (fun k => k.writeBuf 1 (0x2FC000 + 0x2000 * c.bank + 256 * e) (slot.data.take (64 * (slot.nfl.toNat + 1))))).modCtx c
      (fun x => { x with inbox := e :: x.inbox, q15 := x.q15.add (descriptor slot e) (s.clk + 2) })

/-- ACTIVE_MESSAGE_ARRIVAL (02 R45, R46, R62). -/
def execActiveMessageArrival (s : State) : Host.Outcome State Fault Refusal :=
  match s.cur with
  | some (.activeMessageArrival slot) =>
    .next (s.takeSlot slot
      (fun s =>
        match s.bankOfJob (destCore slot) slot.job with
        | none => s.lose (destSta slot) slot 2
        | some c =>
          if (s.ctx c).freeEntry.isNone || (s.ctx c).q15.full 32 s.clk then s.refuse (destSta slot) none slot
          else (s.twins c.core slot.job).foldl (fun t k =>
            match t.bankOfJob k slot.job with
            | some d => t.intoInbox d slot
            | none => t) s)
      (fun s => (s.consumed slot).logLoss (destSta slot) slot 3))
  | _ => .next s

/-! ## Posted writes (08 R205, R212, R214) -/

/-- The lines of a posted-write slot: address, mask, bytes (01 R21). -/
def slotLines (t : Slot) : List CombLine :=
  (List.range t.nfl.toNat).map (fun i =>
    ⟨ofBytesLE ((t.data.drop (16 * i)).take 8), BitVec.ofNat 64 (ofBytesLE ((t.data.drop (16 * i + 8)).take 8)),
     (t.data.drop (64 * (i + 1))).take 64⟩)

/-- A line written into X by the copy port, or into the displaced copy of a context's X (08 R193, R205). -/
def State.lineIntoX (s : State) (c : CtxId) (l : CombLine) : State :=
  l.runs.foldl (fun t r =>
    if (t.ctx c).displaced then t.modCtx c (fun x => { x with dispX := Memory.writeN x.dispX (l.addr + r.1) r.2 })
    else t.modCore c.core (fun k => k.portWrite 2 1 (l.addr + r.1) r.2)) s

/-- The credit of one line (08 R214), uncounted. -/
def State.credit (s : State) (slot : Slot) : State :=
  s.enqueue (destSta slot)
    (stationSlot (destSta slot) 11 slot.job slot.smod.toNat slot.ssta.toNat slot.score.toNat slot.tag.toNat 1 []) (s.clk + 1)

/-- A posted write performed: its lines' credits go back, and it is counted consumed. -/
def State.written (s : State) (slot : Slot) : State := ((slotLines slot).foldl (fun t _ => t.credit slot) s).consumed slot

/-- A posted write into X that the copy port of a core carries (08 R193, R205): the station answers for it once, at the core that it names. -/
def State.writeX (s : State) (core : Nat) (slot : Slot) : State :=
  match s.bankOfJob core slot.job with
  | none => if core = destCore slot then s.lose (destSta slot) slot 2 else s
  | some c =>
    let s := (slotLines slot).foldl (fun t l => t.lineIntoX c l) s
    if core = destCore slot then s.written slot else s

/-- A posted write at its home (08 R205, R214): its lines into memory, and the acceptance of a mirror's copy (01 R36). -/
def State.writeHome (s : State) (slot : Slot) : State :=
  let plat := s.platOf (srcCore slot) slot.job
  let s := (slotLines slot).foldl (fun t l => l.runs.foldl (fun t r => t.writeMem plat slot.dmod.toNat (l.addr + r.1) r.2) t) s
  let s := if slot.mir then
      s.enqueue (destSta slot)
        (stationSlot (destSta slot) 9 slot.job slot.smod.toNat slot.ssta.toNat slot.score.toNat slot.tag.toNat 0 []) (s.clk + 1)
    else s
  s.written slot

/-- A remote read done (02 R44; 08 R216): of X of the job's context at a core, with what the copy port writes there in this clk, or of memory. -/
def State.readFor (s : State) (slot : Slot) : State :=
  let addr := ofBytesLE (slot.data.take 8)
  let n := ofBytesLE ((slot.data.drop 8).take 8)
  if slot.arg = 0 then
    match s.bankOfJob (destCore slot) slot.job with
    | none => s.lose (destSta slot) slot 2
    | some c =>
      let k := (s.core c.core).settle (s.clk + 1)
      let m := if (s.ctx c).displaced then (s.ctx c).dispX else k.memX
      (s.reply slot 7 0 (!(s.ctx c).displaced && k.poisoned 1 addr n) (Memory.readN m addr n)).consumed slot
  else (s.reply slot 7 0 false (Memory.readN s.mem (memKey slot.dmod.toNat addr) n)).consumed slot

/-- Lanes of an atomic request: offsets in the line and elements (log 13). -/
def atomicLanes (bs : List Byte) : List (Nat × Elem) :=
  (List.range (bs.length / 8)).map (fun i =>
    (ofBytesLE ((bs.drop (8 * i)).take 4), BitVec.ofNat 32 (ofBytesLE ((bs.drop (8 * i + 4)).take 4))))

/-- A remote atomic done at its home (09 R240; 14 R328; 15 R366; 21 R419), its reply counted first (02 R43). -/
def State.atomicFor (s : State) (slot : Slot) : State :=
  let addr := ofBytesLE (slot.data.take 8)
  let m := slot.dmod.toNat
  let plat := s.platOf (srcCore slot) slot.job
  if slot.arg.toNat < 16 then
    let b := BitVec.ofNat 64 (ofBytesLE ((slot.data.drop 8).take 8))
    let expected := BitVec.ofNat 64 (ofBytesLE ((slot.data.drop 16).take 8))
    let old := BitVec.ofNat 64 (Memory.readLE s.mem (memKey m addr) 8)
    let s := s.writeMem plat m addr (bytesLE 8 ((Amo.ofCode slot.arg.toNat).apply old b expected).toNat)
    (s.reply slot 5 0 false (bytesLE 8 old.toNat)).consumed slot
  else
    let s := (atomicLanes (slot.data.drop 8)).foldl (fun t l =>
      let old := BitVec.ofNat 32 (Memory.readLE t.mem (memKey m (addr + l.1)) 4)
      t.writeMem plat m (addr + l.1) (bytesLE 4 (amovApply (slot.arg == 17) old l.2).toNat)) s
    (s.reply slot 5 0 false []).consumed slot

/-- A posted write into X taken up by the cores whose X it is for, each of which writes it when the copy engine grants its inbound traffic
(05 R140). -/
def State.takeInbound (s : State) (slot : Slot) : State :=
  match s.bankOfJob (destCore slot) slot.job with
  | none => s.lose (destSta slot) slot 2
  | some c => (s.twins c.core slot.job).foldl (fun t k => (t.modCore k (fun k => { k with inbound := k.inbound ++ [slot] })).grantInbound k) s

/-- An accepted posted write, remote read or remote atomic performed. -/
def State.perform (s : State) (slot : Slot) : State :=
  match slot.kind.toNat with
  | 3 => if slot.arg = 0 then s.takeInbound slot else s.writeHome slot
  | 4 => s.atomicFor slot
  | _ => s.readFor slot

/-- The core of the destination station where an accepted slot of the same source core and job waits to be performed (08 R216). -/
def State.waitingAt (s : State) (slot : Slot) : Option Nat :=
  ((List.range 11).map (fun k => 128 * slot.dmod.toNat + 16 * slot.dsta.toNat + k)).find? (fun core => (s.core core).inbound.any (sameFlow slot))

/-- Accepted slots of one source core and job are performed in their order (08 R216). -/
def State.performInOrder (s : State) (slot : Slot) : State :=
  match s.waitingAt slot with
  | some core => s.modCore core (fun k => { k with inbound := k.inbound ++ [slot] })
  | none => s.perform slot

/-- Whether a slot that has come to the front is a write into the core's own X, which waits for its copy port. -/
def State.needsPort (s : State) (core : Nat) (slot : Slot) : Bool :=
  slot.kind == 3 && slot.arg == 0 && (s.twins (destCore slot) slot.job).contains core

/-- The slots at the front of a core's inbound traffic that wait for no port are performed: at most `n`. -/
def State.performFront (s : State) (core : Nat) : Nat → State
  | 0 => s
  | n + 1 =>
    match (s.core core).inbound with
    | slot :: rest =>
      if s.needsPort core slot then s
      else ((s.modCore core (fun k => { k with inbound := rest })).perform slot).performFront core n
    | [] => s

/-- POSTED_WRITE_ARRIVAL (08 R205, R214; 01 R36): into X for a window's line, into memory at its home for a global one. -/
def execPostedWriteArrival (s : State) : Host.Outcome State Fault Refusal :=
  match s.cur with
  | some (.postedWriteArrival slot) =>
    .next (s.takeSlot slot (fun s => s.performInOrder slot) (fun s => (s.consumed slot).logLoss (destSta slot) slot 3))
  | _ => .next s

/-- Allowance given back by lines of an owed slot (08 R214). -/
def State.giveBack (s : State) (core : Nat) (o : Owed) (n : Nat) : State :=
  let s := s.modCore core (fun k =>
    { k with owed := if n < o.lines then k.owed.map (fun q => if q = o then { o with lines := o.lines - n } else q) else k.owed.erase o })
  match o.eng, o.dest with
  | none, .window w _ _ _ => s.modCtx ⟨core, o.bank⟩ (fun x => x.setCur w (Nat.min 255 (x.allowCur w + n)))
  | _, _ => s

/-- CREDIT_RETURN (08 R214): one line; a TAG of no slot that is owed is ignored. -/
def execCreditReturn (s : State) : Host.Outcome State Fault Refusal :=
  match s.cur with
  | some (.creditReturn slot) =>
    .next ((s.twins (destCore slot) slot.job).foldl (fun t core =>
      match (t.core core).owed.find? (fun o => o.tag == slot.tag.toNat) with
      | some o => t.giveBack core o 1
      | none => t) s)
  | _ => .next s

/-- LOSS_NOTICE_ARRIVAL (02 R48; 12 R281; 08 R214): LOSS in the context of the job, or the notice to management core 0, an error that no
function owns (03 R78; log 67); the lines of a lost posted write return their credits. -/
def execLossNoticeArrival (s : State) : Host.Outcome State Fault Refusal :=
  match s.cur with
  | some (.lossNoticeArrival slot) =>
    let core := destCore slot
    .next ((s.twins core slot.job).foldl (fun s core =>
      let s := match (s.core core).owed.find? (fun o => o.tag == slot.tag.toNat) with
        | some o => if ofBytesLE (slot.data.take 8) = 3 || ofBytesLE (slot.data.take 8) = 8 then s.giveBack core o o.lines else s
        | none => s
      match s.bankOfJob core slot.job with
      | some c => (s.modCtx c (fun x => { x with lossCount := x.lossCount + 1 })).raiseAsync c cLOSS (slot.job.setWidth 64)
      | none => (s.modMod (modOf core) (fun m => { m with notes := .lossNotice slot :: m.notes })).countErr (modOf core) 0 4) s)
  | _ => .next s

/-! ## Remote reads (02 R44; 08 R216) -/

/-- REMOTE_READ_REQUEST (02 R44; 08 R216): X of the job's context at a core, or memory at its home. -/
def execRemoteReadRequest (s : State) : Host.Outcome State Fault Refusal :=
  match s.cur with
  | some (.remoteReadRequest slot) =>
    .next (s.takeSlot slot (fun s => s.performInOrder slot) (fun s => (s.reply slot 7 1 false []).consumed slot))
  | _ => .next s

/-- A clk, when a core is frozen, at which what it holds back is tried again (07 R185). -/
def State.heldUntil (s : State) (core : Nat) : Option Nat :=
  match (s.core core).freeze with
  | some e => if s.clk < e then some e else none
  | none => none

/-- The elements of a granule whose value nothing states: free values (log 1). -/
def State.freeGranule (s : State) : List Elem × State :=
  ((List.range 64).map (fun i => (Config.freeWord (s.fresh + i)).setWidth 32), { s with fresh := s.fresh + 64 })

/-- What a reply does to the command that asked for it: one that finds its job closed ends it in error 7 (02 R62), poisoned data in error 6,
and nothing is written once it has met an error (21 R424). -/
def State.commandReply (s : State) (c : CtxId) (e : EngQ) (seq ea code : Nat) (write : State → State) : State :=
  match (s.ctx c).eng.find e seq with
  | some r => if r.error ≠ 0 then s else if code ≠ 0 then s.failed c e r code ea else write s
  | none => s

/-- What awaited data does once all of it has come, the last answer reaching up to byte `n` (02 R44, R62). -/
def State.groupDone (s : State) (core : Nat) (g : Group) (n : Nat) (closed : Bool) (poison : Bool := false) : State :=
  let code := if closed then 7 else if poison then 6 else 0
  match g.want with
  | .reg i id b signed =>
    let v := if closed then 0 else (if signed then sextW (8 * b) (Memory.readLE g.got 0 b) else BitVec.ofNat 64 (Memory.readLE g.got 0 b))
    s.arrive i id s.clk (.word v)
  | .granule c q ticket fmt lanes =>
    let (d, s) := if closed then s.freeGranule else (granuleOf fmt lanes g.got, s)
    s.postNow (.granuleDataArrival c q ticket d)
  | .atomic _ => s
  | .place c e seq ea space off =>
    s.commandReply c e seq ea code (fun s => (s.modCore core (fun k => k.writeSpace space off (Memory.readN g.got 0 n))).chainGo c seq)
  | .done c e seq ea => s.commandReply c e seq ea code id
  | .scales id => s.modCore core (fun k => k.modAp id (fun w => match w.fetch with
      | some (asked, x, none) => if x = g.id then { w with fetch := some (asked, x, some g.got) } else w
      | _ => w))
  | .word i => s.modStrm i (fun y => if y.fetch == some (g.id, none) then { y with fetch := some (g.id, some g.got) } else y)

/-- Whether a load of a mirrored page waits for its mirror: its home has been declared lost (01 R38). -/
def State.homeLost (s : State) (core : Nat) (r : Request) : Bool :=
  let (v, lost, _) := s.mirror (modOf core) r.slot.dmod.toNat
  r.mir && v && lost

/-- A reply taken by a core: its bytes into the group that its request is of (02 R44). An answer to no request is dropped, and so is an answer
of a lost module to a load that goes to the mirror (01 R38). -/
def State.takeReply (s : State) (core : Nat) (slot : Slot) : State :=
  let k := s.core core
  match k.reqs.find? (fun r => r.tag == slot.tag.toNat && !s.homeLost core r) with
  | none => s
  | some r =>
    let s := s.modCore core (fun k => { k with reqs := k.reqs.filter (fun q => q.tag != r.tag) })
    match k.groups.find? (fun g => g.id == r.group) with
    | none => s
    | some g =>
      let g := { g with left := g.left - 1, got := Memory.writeN g.got r.at_ (slot.data.take r.len) }
      let closed := slot.arg == 1
      let command := match g.want with | .place .. => true | .done .. => true | _ => false
      let s := if slot.poison && !command then s.raiseAsync ⟨core, g.bank⟩ cPOISON (BitVec.ofNat 64 (ofBytesLE (r.slot.data.take 8))) else s
      if g.left = 0 || closed then
        (s.modCore core (fun k => { k with groups := k.groups.filter (fun q => q.id != g.id) })).groupDone core g (r.at_ + r.len) closed slot.poison
      else s.modCore core (fun k => { k with groups := k.groups.map (fun q => if q.id = g.id then g else q) })

/-- A reply at its requester's station. -/
def State.replyArrives (s : State) (slot : Slot) : State :=
  s.takeSlot slot
    (fun s => ((s.twins (destCore slot) slot.job).foldl (fun t k => t.takeReply k slot) s).consumed slot)
    (fun s => s.consumed slot)

/-- REMOTE_READ_REPLY (02 R44, R62; 07 R185). -/
def execRemoteReadReply (s : State) : Host.Outcome State Fault Refusal :=
  match s.cur with
  | some (.remoteReadReply slot) =>
    match s.heldUntil (destCore slot) with
    | some e => .next (s.post e (.remoteReadReply slot))
    | none => .next (s.replyArrives slot)
  | _ => .next s

/-- REMOTE_ATOMIC_REPLY (02 R44, R62; 07 R185). -/
def execRemoteAtomicReply (s : State) : Host.Outcome State Fault Refusal :=
  match s.cur with
  | some (.remoteAtomicReply slot) =>
    match s.heldUntil (destCore slot) with
    | some e => .next (s.post e (.remoteAtomicReply slot))
    | none => .next (s.replyArrives slot)
  | _ => .next s

/-- REMOTE_ATOMIC_REQUEST (09 R240; 14 R328; 15 R366; 21 R419): done at the home. -/
def execRemoteAtomicRequest (s : State) : Host.Outcome State Fault Refusal :=
  match s.cur with
  | some (.remoteAtomicRequest slot) =>
    .next (s.takeSlot slot (fun s => s.performInOrder slot) (fun s => (s.reply slot 5 1 false []).consumed slot))
  | _ => .next s

/-- MIGRATION_DATA_ARRIVAL (02 R44; 21 R422): written at its destination; its command is owed it no longer. -/
def execMigrationDataArrival (s : State) : Host.Outcome State Fault Refusal :=
  match s.cur with
  | some (.migrationDataArrival slot) =>
    let core := srcCore slot
    let clear (s : State) : State := s.modCore core (fun k => { k with owed := k.owed.filter (fun o => o.tag != slot.tag.toNat) })
    .next (s.takeSlot slot
      (fun s => ((clear s).writeMem (s.platOf core slot.job) slot.dmod.toNat (ofBytesLE (slot.data.take 8)) (slot.data.drop 8)).consumed slot)
      (fun s => (clear s).consumed slot))
  | _ => .next s

/-! ## Mirrors and reset notices (01 R36 to R38, R442) -/

/-- MIRROR_ACCEPTANCE (01 R36, R38): the retained copy is let go, and loads that wait for it go to the mirror. -/
def execMirrorAcceptance (s : State) : Host.Outcome State Fault Refusal :=
  match s.cur with
  | some (.mirrorAcceptance slot) =>
    -- both members of a redundant pair retain the copy (04 R102)
    .next ((s.twins (destCore slot) slot.job).foldl (fun s core =>
      let s := s.modCore core (fun k => { k with mirrors := k.mirrors.filter (fun p => p.1 != slot.tag.toNat) })
      s.pod.mods.foldl (fun t n =>
        let (v, pl, m) := t.mirror (modOf core) n
        if v && pl then t.failOver core n m else t) s) s)
  | _ => .next s

/-- RESET_NOTICE_ARRIVAL (01 R37, R442; 02 R58): the module it comes from is declared lost; what its station owed is taken as
returned. -/
def execResetNoticeArrival (s : State) : Host.Outcome State Fault Refusal :=
  match s.cur with
  | some (.resetNoticeArrival sta slot) =>
    let mod := sta / 16
    let n := slot.smod.toNat
    let s := s.forgive mod (fun d => match d with
      | .window _ m t _ => m == n && t == slot.ssta.toNat
      | .global m t => m == n && t == slot.ssta.toNat)
    .next (if n = mod then s else s.declareLost mod n)
  | _ => .next s

/-! ## Timetabled slots (01 R26, R30; 08 R205) -/

/-- TIMETABLED_SLOT_ARRIVAL (01 R26): into the landing buffer, or discarded with TIMETABLE_OVERRUN. -/
def execTimetabledSlotArrival (s : State) : Host.Outcome State Fault Refusal :=
  match s.cur with
  | some (.timetabledSlotArrival core slot) =>
    .next ((s.twins core slot.job).foldl (fun s core =>
      if (s.core core).landing.length < 64 then s.modCore core (fun k => { k with landing := k.landing ++ [slot] })
      else match s.bankOfJob core slot.job with
        | some c => s.overrun c 3
        | none => s) s)
  | _ => .next s

/-- LANDING_BUFFER_DRAIN (01 R26, R30; 05 R140; 08 R193): the oldest slot into X, or to the chain command that takes it (log 25); with none there,
the oldest posted write of the inbound traffic, which the same port carries, and the requests behind it. -/
def execLandingBufferDrain (s : State) : Host.Outcome State Fault Refusal :=
  match s.cur with
  | some (.landingBufferDrain core) =>
    match (s.core core).landing, (s.core core).inbound, s.heldUntil core with
    | slot :: rest, _, none =>
      let s := s.modCore core (fun k => { k with landing := rest })
      match s.bankOfJob core slot.job with
      | none => .next s
      | some c =>
        if slot.tag.getLsbD 13 then .next ((s.chainArrive c slot).getD s)
        else
          let at_ := 256 * slot.arg.toNat
          .next (s.modCore core (fun k =>
            k.portWrite 2 1 at_ slot.data slot.poison))
    | [], slot :: rest, none =>
      .next (((s.modCore core (fun k => { k with inbound := rest })).writeX core slot).performFront core rest.length)
    | _, _, _ => .next s
  | _ => .next s

end Sys2Proof.Machine
end

