-- ==== Sys2Proof/Machine/Manifest.lean ====
section
/-! DEFINITION. Jobs and their manifests (02 R50, R52, R59 to R63; 14 R354), the muster waves (02 R53 to R57, R441), the station reset
(02 R58) and the mirror entries (01 R35, R39). -/

namespace Sys2Proof.Machine

/-! ## Registers of the management block -/

/-- MANSEL_WRITE (02 R50): one snapshot of the job's counters. -/
def execManselWrite (s : State) : Host.Outcome State Fault Refusal :=
  match s.cur with
  | some (.manselWrite sta v) =>
    let job := wfield v 0 12
    .next (s.modSta sta (fun t =>
      { t with manJob := BitVec.ofNat 12 job, manInj := Sp.get 0 t.inj job, manCon := Sp.get 0 t.con job, manLos := Sp.get 0 t.los job }))
  | _ => .next s

/-- Every station of the pod. -/
def State.allStations (s : State) : List Nat := s.pod.mods.flatMap (fun m => (List.range 12).map (fun n => 16 * m + n))

/-- A notice of a code for a job, to every station of the pod (02 R52, R61, R63; log 13). -/
def State.sendNotices (s : State) (sta code : Nat) (job : BitVec 12) : State :=
  s.allStations.foldl (fun t d => t.enqueue sta (stationSlot sta 12 job (d / 16) (d % 16) 0 0 code (bytesLE 8 job.toNat)) t.clk) s

/-- JOPEN_WRITE (02 R52): reads give the last value written (log 27). -/
def execJopenWrite (s : State) : Host.Outcome State Fault Refusal :=
  match s.cur with
  | some (.jopenWrite sta v) =>
    let job := BitVec.ofNat 12 (wfield v 0 12)
    let s := s.modSta sta (fun t => { t with jopenErr := t.jopenErr && !wbit v 12, jopen := job })
    if job = 0 then .next s else .next (s.sendNotices sta 2 job)
  | _ => .next s

/-- JCLOSE_WRITE (02 R52, R61). -/
def execJcloseWrite (s : State) : Host.Outcome State Fault Refusal :=
  match s.cur with
  | some (.jcloseWrite sta v) =>
    let job := BitVec.ofNat 12 (wfield v 0 12)
    let s := s.modSta sta (fun t => { t with jclose := job })
    if job = 0 then .next s else .next (s.sendNotices sta 3 job)
  | _ => .next s

/-- LOSSCNT_CLEAR (02 R49). -/
def execLosscntClear (s : State) : Host.Outcome State Fault Refusal :=
  match s.cur with
  | some (.losscntClear sta v) => .next (if wbit v 7 then s.modSta sta (fun t => { t with lossFull := false, losslog := [] }) else s)
  | _ => .next s

/-- MIRENT_WRITE (01 R35): V and MIRMOD of one entry, at all four waystations. -/
def execMirentWrite (s : State) : Host.Outcome State Fault Refusal :=
  match s.cur with
  | some (.mirentWrite sta n v) =>
    .next (s.modMod (sta / 16) (fun m => { m with mirent := Sp.set 0 m.mirent n ((Sp.get 0 m.mirent n &&& 0x4000) ||| (v &&& 0x803F)) }))
  | _ => .next s

/-- PLOST_CLEAR (01 R35, R39). -/
def execPlostClear (s : State) : Host.Outcome State Fault Refusal :=
  match s.cur with
  | some (.plostClear sta n v) =>
    .next (if wbit v 14 then s.modMod (sta / 16) (fun m => { m with mirent := Sp.set 0 m.mirent n (Sp.get 0 m.mirent n &&& ~~~0x4000) }) else s)
  | _ => .next s

/-! ## Notices (02 R52, R61 to R63) -/

/-- JOB_OPEN_NOTICE (02 R52). -/
def execJobOpenNotice (s : State) : Host.Outcome State Fault Refusal :=
  match s.cur with
  | some (.jobOpenNotice sta job) =>
    if s.jobState sta job = .free then
      .next (s.modSta sta (fun t => { t with
        jobs := Sp.set .free t.jobs job.toNat .opened
        inj := Sp.set 0 t.inj job.toNat 0, con := Sp.set 0 t.con job.toNat 0, los := Sp.set 0 t.los job.toNat 0 }))
    else .next (s.modSta sta (fun t => { t with jopenErr := true }))
  | _ => .next s

/-- The contexts of a job on the cores of a station. -/
def State.ctxsAt (s : State) (sta : Nat) (job : BitVec 12) : List CtxId :=
  s.residents.filter (fun c => stationOf c.core == sta && (s.ctx c).job == job)

/-- A context of a job that closes at its station (02 R62): its reply reservations complete with job-closed, its allowances return to
what was programmed. -/
def State.closeCtx (s : State) (c : CtxId) : State :=
  let gs := (s.core c.core).groups.filter (fun g => g.bank == c.bank)
  let s := gs.foldl (fun t g => (t.modCore c.core (fun k => { k with
    groups := k.groups.filter (fun q => q.id != g.id), reqs := k.reqs.filter (fun r => r.group != g.id) })).groupDone c.core g 0 true) s
  (s.modCore c.core (fun k => { k with owed := k.owed.filter (fun o => o.bank != c.bank || o.eng.isSome) })).modCtx c
    (fun x => { x with allow := x.allow.map (fun e => (e.1, withField e.2 8 8 (wfield e.2 0 8))) })

/-- JOB_CLOSE_NOTICE (02 R61, R62). -/
def execJobCloseNotice (s : State) : Host.Outcome State Fault Refusal :=
  match s.cur with
  | some (.jobCloseNotice sta job) =>
    if job = 0 then .next s
    else
      let s := s.modSta sta (fun t => { t with jobs := Sp.set .free t.jobs job.toNat .closing })
      -- open combining entries are discarded and counted consumed
      let cores := (s.cores.map Prod.fst).filter (fun k => stationOf k == sta)
      let s := cores.foldl (fun t k =>
        let gone := (t.core k).comb.filter (fun e => e.isOpen && e.job == job)
        gone.foldl (fun t _ => t.countTaken k job)
          (t.modCore k (fun x => { x with comb := x.comb.filter (fun e => !(e.isOpen && e.job == job)) }))) s
      .next ((s.ctxsAt sta job).foldl (fun t c => t.closeCtx c) s)
  | _ => .next s

/-- Whether every job of a function reads FREE at every station (03 R74). -/
def State.jobsFree (s : State) (mod f : Nat) : Bool :=
  let fn := (s.modu mod).fn f
  s.allStations.all (fun sta => (s.sta sta).jobs.all (fun j => !fn.owns j.1 || j.2 == .free))

/-- JOB_FREE_NOTICE (02 R63). A function whose reset waits for its last job has its reset completed (03 R74). -/
def execJobFreeNotice (s : State) : Host.Outcome State Fault Refusal :=
  match s.cur with
  | some (.jobFreeNotice sta job) =>
    if job = 0 then .next s
    else
      let s := s.modSta sta (fun t => { t with
        jobs := Sp.erase t.jobs job.toNat, inj := Sp.erase t.inj job.toNat, con := Sp.erase t.con job.toNat, los := Sp.erase t.los job.toNat })
      let waiting := s.modules.flatMap (fun m =>
        (m.2.fns.filter (fun f => f.2.rst && f.2.owns job.toNat && s.jobsFree m.1 f.1)).map (fun f => (m.1, f.1)))
      .next (waiting.foldl (fun t w => t.postNow (.functionResetComplete w.1 w.2)) s)
  | _ => .next s

/-! ## Station reset and repair (02 R58 to R60) -/

/-- Waves that pass a station: the module's, and every pod wave (02 R53, R57). -/
def Wave.passes (w : Wave) (sta : Nat) : Bool := w.id.pod || w.id.mod == sta / 16

/-- A hop emptied: its mail is logged with cause 1 (01 R442), nothing else is. -/
def State.emptyHop (s : State) (h : HopId) : State :=
  let mail := (s.hop h).kept.filter keptKind
  mail.foldl (fun t slot => t.logLoss h.sta slot 1)
    (s.modHop h (fun x => { x with kept := [], dead := x.dead ++ s.flying h x.kept }))

/-- Whether a station still holds the slot of an event: it is in ejection there (01 R13). -/
def inEjection (sta : Nat) : Event → Bool
  | .timetabledSlotArrival core _ => stationOf core == sta
  | .invalidationMarkerArrival core _ => stationOf core == sta
  | .activeMessageArrival t => destSta t == sta
  | .postedWriteArrival t => destSta t == sta
  | .remoteReadRequest t => destSta t == sta
  | .remoteReadReply t => destSta t == sta
  | .remoteAtomicRequest t => destSta t == sta
  | .remoteAtomicReply t => destSta t == sta
  | .migrationDataArrival t => destSta t == sta
  | .mirrorAcceptance t => destSta t == sta
  | .lossNoticeArrival t => destSta t == sta
  | .creditReturn t => destSta t == sta
  | .signalArrival t => destSta t == sta
  | .resetNoticeArrival n _ => n == sta
  | .readinessVerdict die _ frm _ _ => frm != die && 16 * (die / 8) + die % 8 == sta
  | .jobOpenNotice n _ => n == sta
  | .jobCloseNotice n _ => n == sta
  | .jobFreeNotice n _ => n == sta
  | .mrepairArrival n _ _ _ => n == sta
  | _ => false

/-- STATION_RESET (02 R58): every slot held in it is gone, and a reset notice goes to a waystation of every module (log 26). -/
def execStationReset (s : State) : Host.Outcome State Fault Refusal :=
  match s.cur with
  | some (.stationReset sta) =>
    let s : State := { s with
      agenda := s.agenda.filter (fun (e : Nat × Event) => !(inEjection sta e.2 && decide (e.1 ≤ s.clk + 4)))
      cores := s.cores.map (fun (e : Nat × CoreSt) => if stationOf e.1 = sta then (e.1, { e.2 with pairWait := [] }) else e) }
    let s := [HopId.mk sta false false, ⟨sta, false, true⟩, ⟨sta, true, false⟩, ⟨sta, true, true⟩].foldl (fun t h => t.emptyHop h) s
    let s := s.modSta sta (fun t => { t with inj := [], con := [], los := [], outq := [], refusing := [], unrepaired := true })
    let s := s.modWaves (fun w => w.passes sta) (fun w => { w with void := true })
    .next (s.pod.mods.foldl (fun t m =>
      t.enqueue sta (stationSlot sta 11 0 m (8 + (m + sta % 16) % 4) 0 0 3 []) t.clk) s)
  | _ => .next s

/-- A counter with a signed delta added, modulo 2^48 (14 R354). -/
def addDelta (t : Sp Nat) (job : Nat) (delta : Nat) : Sp Nat :=
  let d := if delta < 2 ^ 31 then delta else delta + 2 ^ 48 - 2 ^ 32
  Sp.set 0 t job ((Sp.get 0 t job + d) % 2 ^ 48)

/-- MREPAIR_ARRIVAL (02 R59, R60; 14 R354): the answer goes back by the way of free traffic. -/
def execMrepairArrival (s : State) : Host.Outcome State Fault Refusal :=
  match s.cur with
  | some (.mrepairArrival sta v i id) =>
    let job := wfield v 0 12
    let delta := wfield v 32 32
    let s := s.modSta sta (fun t =>
      let t := match wfield v 28 2 with
        | 0 => { t with inj := addDelta t.inj job delta }
        | 1 => { t with con := addDelta t.con job delta }
        | 2 => { t with los := addDelta t.los job delta }
        | _ => t
      if wbit v 31 then { t with unrepaired := false } else t)
    let s := s.modWaves (fun w => w.passes sta) (fun w => { w with void := true, gone := true })
    let home := stationOf i.ctx.core
    .next (s.arrive i id (s.clk + s.oneWay (sta / 16) (sta % 16) (home / 16) (home % 16)) (.word 0))
  | _ => .next s

/-- MREPAIR_NO_ANSWER (14 R354): no answer within 65,536 clk. -/
def execMrepairNoAnswer (s : State) : Host.Outcome State Fault Refusal :=
  match s.cur with
  | some (.mrepairNoAnswer i id) =>
    let y := s.strm i
    let waits (p : Pend) : Bool := p.id == id && p.inter && p.land == 0
    let saved := match (s.ctx i.ctx).saved with | some r => r.latch | none => []
    .next (if (y.pend ++ y.latch ++ saved).any waits then s.arrive i id s.clk (.word 2) else s)
  | _ => .next s

/-! ## Muster waves (02 R53 to R57, R441) -/

def State.wave (s : State) (id : WaveId) : Option Wave := s.pod.waves.find? (fun w => w.id == id)

/-- A new wave; an earlier one of the same leader is over. -/
def State.newWave (s : State) (id : WaveId) : State :=
  let w : Wave := { id := id, roll := [], taken := [], inj1 := [], con1 := [], los1 := [], inj2 := [], con2 := [], los2 := [],
                    quiet := [], void := false, gone := false }
  { s with pod := { s.pod with waves := w :: s.pod.waves.filter (fun v => v.id.pod != id.pod || (v.id.mod != id.mod && !id.pod)) } }

/-- The events by which a slot of a module wave passes every station of its module (02 R53). -/
def State.sendModule (s : State) (id : WaveId) (part place leave : Nat) : State :=
  (List.range 12).foldl (fun t p => t.post (leave + 4 * p) (.musterSlotMerge id part place (16 * id.mod + staAt p))) s

/-- The events by which a slot of a pod wave passes every station of the pod, and the clk of its return (02 R441). -/
def State.sendPod (s : State) (id : WaveId) (part place leave : Nat) : State × Nat :=
  (s.podPath (s.pod.ring.getD 0) id.mod leave).foldl (fun (a : State × Nat) v => match v with
    | .merge sta t => (a.1.post t (.musterSlotMerge id part place sta), a.2)
    | .hop _ _ => a
    | .trunk _ _ => a
    | .back t => (a.1, t)) (s, leave)

/-- MODULE_WAVE_BEGIN (02 R53): every 2,048 clk. -/
def execModuleWaveBegin (s : State) : Host.Outcome State Fault Refusal :=
  match s.cur with
  | some (.moduleWaveBegin mod) =>
    let id : WaveId := ⟨false, mod, s.clk⟩
    let s := (s.newWave id).post (s.clk + 2048) (.moduleWaveBegin mod)
    let s := (s.sendModule id 0 0 s.clk).sendModule id 0 1 (s.clk + 1)
    .next (s.post (s.clk + 49) (.musterRollReturn id))
  | _ => .next s

/-- Whether the ring of the pod wave is in service and in lock (02 R57). -/
def State.ringSound (s : State) (k : Nat) : Bool :=
  s.pod.mods.all (fun m => s.wayUp m k && (s.pod.mods.length ≤ 1 || (s.linkUp m k false && s.inLock m k false)))

/-- POD_WAVE_BEGIN (02 R57): every 32,768 clk; none where no ring was chosen. -/
def execPodWaveBegin (s : State) : Host.Outcome State Fault Refusal :=
  match s.cur with
  | some .podWaveBegin =>
    let s := s.post (s.clk + 32768) .podWaveBegin
    match s.pod.ring with
    | none => .next s
    | some _ =>
      let s := s.newWave ⟨true, s.podRoot, s.clk⟩
      .next (s.postNow (.podWavePart 0))
  | _ => .next s

/-- The pod wave under way. -/
def State.podWave (s : State) : Option Wave := s.pod.waves.find? (fun w => w.id.pod)

/-- The places that a part uses (02 R54, R441). -/
def Wave.places (w : Wave) (part : Nat) : Nat :=
  match part with
  | 0 => 2
  | 3 => 1
  | _ => (w.taken.length + 15) / 16

/-- POD_WAVE_PART (02 R441): the slots of a part leave, and the next part follows by D + 76 clk. -/
def execPodWavePart (s : State) : Host.Outcome State Fault Refusal :=
  match s.cur with
  | some (.podWavePart part) =>
    match s.podWave with
    | none => .next s
    | some w =>
      if w.gone then .next s
      else
        let r := (List.range (w.places part)).foldl (fun (a : State × Nat) i =>
          let (t, back) := a.1.sendPod w.id part i (s.clk + 5 * i)
          (t, Nat.max a.2 back)) (s, s.clk)
        let s := if part = 0 then r.1.post r.2 (.musterRollReturn w.id) else r.1
        .next (if part < 3 then s.post (w.id.w + (part + 1) * (s.pod.bound + 76)) (.podWavePart (part + 1)) else s)
  | _ => .next s

/-- The jobs whose bits a station sets in a roll: those with a pending QWAIT of the wave's scope; and, in a pod wave, those in CLOSING
(02 R54, R57). -/
def State.rollBits (s : State) (id : WaveId) (sta : Nat) : List Nat :=
  let t := s.sta sta
  ((t.qregs.filter (fun q => q.pod == id.pod)).map (fun q => q.job.toNat)) ++
  (if id.pod then (t.jobs.filter (fun j => j.2 == .closing)).map Prod.fst else [])

/-- Sums of a pass with a station's counters added, modulo 2^32 (02 R54). -/
def addSums (sums counters : Sp Nat) (jobs : List (Nat × Nat)) : Sp Nat :=
  jobs.foldl (fun t j => Sp.set 0 t j.2 ((Sp.get 0 t j.2 + Sp.get 0 counters j.1) % 2 ^ 32)) sums

/-- Whether the sums of both passes declare the job at a place quiet (02 R55). -/
def Wave.isQuiet (w : Wave) (i : Nat) : Bool :=
  let g (t : Sp Nat) := Sp.get 0 t i
  g w.inj1 == g w.inj2 && g w.con1 == g w.con2 && g w.los1 == g w.los2 && g w.inj2 == (g w.con2 + g w.los2) % 2 ^ 32

/-- The declaration of a wave, at its leader as the result leaves (02 R55, R60, R63): free notices go out for the jobs that are CLOSING at the
leader's station then (log 66). -/
def State.declare (s : State) (w : Wave) : State :=
  let sound := !w.void && !w.gone && (!w.id.pod || (match s.pod.ring with | some k => s.ringSound k | none => false))
  let quiet := if sound then (w.taken.zipIdx.filter (fun j => w.isQuiet j.2)).map Prod.fst else []
  let s := s.modWaves (fun v => v.id == w.id) (fun v => { v with quiet := quiet })
  if w.id.pod then
    let lead := 16 * w.id.mod
    (quiet.filter (fun j => s.jobState lead (BitVec.ofNat 12 j) == .closing)).foldl (fun t j => t.sendNotices lead 4 (BitVec.ofNat 12 j)) s
  else s

/-- MUSTER_SLOT_MERGE (02 R54 to R57, R60). -/
def execMusterSlotMerge (s : State) : Host.Outcome State Fault Refusal :=
  match s.cur with
  | some (.musterSlotMerge id part place sta) =>
    match s.wave id with
    | none => .next s
    | some w =>
      if w.gone then .next s
      else
        let t := s.sta sta
        let s := if t.unrepaired then s.modWaves (fun v => v.id == id) (fun v => { v with void := true }) else s
        let w := if t.unrepaired then { w with void := true } else w
        let mine := ((w.taken.zipIdx).drop (16 * place)).take 16
        match part with
        | 0 =>
          let bits := (s.rollBits id sta).filter (fun j => j / 2048 == place)
          .next (s.modWaves (fun v => v.id == id) (fun v => { v with roll := (v.roll ++ bits).eraseDups }))
        | 1 =>
          .next (s.modWaves (fun v => v.id == id) (fun v => { v with
            inj1 := addSums v.inj1 t.inj mine, con1 := addSums v.con1 t.con mine, los1 := addSums v.los1 t.los mine }))
        | 2 =>
          .next (s.modWaves (fun v => v.id == id) (fun v => { v with
            inj2 := addSums v.inj2 t.inj mine, con2 := addSums v.con2 t.con mine, los2 := addSums v.los2 t.los mine }))
        | _ =>
          let s := if sta = 16 * id.mod then s.declare w else s
          let quiet := match s.wave id with
            | some v => v.quiet
            | none => []
          let done := t.qregs.filter (fun q => q.pod == id.pod && decide (q.since < id.w) && quiet.contains q.job.toNat)
          .next (done.foldl (fun u q => u.post (u.clk + 4) (.qwaitComplete q.ctx id.pod id.w)) s)
  | _ => .next s

/-- Up to 256 jobs of a roll, from the job after the last one taken before, upward and round (02 R54). -/
def takeJobs (roll : List Nat) (last : Nat) : List Nat :=
  (((List.range 4096).map (fun i => (last + 1 + i) % 4096)).filter (fun j => roll.contains j)).take 256

/-- MUSTER_ROLL_RETURN (02 R54): the leader takes its jobs, from the one after the last that it took, in an older wave where the previous one took
none (log 66). A module wave's passes and result follow at their times (R53); a pod
wave's parts come by POD_WAVE_PART. -/
def execMusterRollReturn (s : State) : Host.Outcome State Fault Refusal :=
  match s.cur with
  | some (.musterRollReturn id) =>
    match s.wave id with
    | none => .next s
    | some w =>
      if w.gone then .next s
      else
        let last := if id.pod then s.pod.waveJob else (s.modu id.mod).waveJob
        let taken := takeJobs w.roll last
        let s := s.modWaves (fun v => v.id == id) (fun v => { v with taken := taken })
        let s : State := match taken.getLast? with
          | none => s
          | some j => if id.pod then { s with pod := { s.pod with waveJob := j } } else s.modMod id.mod (fun m => { m with waveJob := j })
        if id.pod then .next s
        else
          let places := List.range ((taken.length + 15) / 16)
          let s := places.foldl (fun t i => (t.sendModule id 1 i (id.w + 64 + i)).sendModule id 2 i (id.w + 128 + i)) s
          .next (s.sendModule id 3 0 (id.w + 192))
  | _ => .next s

end Sys2Proof.Machine
end

