-- ==== Sys2Proof/Machine/HostPort.lean ====
section
/-! DEFINITION. The host interface (03 R66 to R81, R84): semaphores, function blocks, attestation, BAR2, ports; and writes of registers
without a behaviour of their own (00 R4). -/

namespace Sys2Proof.Machine

/-! ## Semaphores (03 R70, R71) -/

/-- The requesters in round-robin order after one; a semaphore that has had no tie begins with port 0 (03 R71; log 70). -/
def tieOrder (last : Nat) : List Nat :=
  match last with
  | 1 => [2, 3, 1]
  | 2 => [3, 1, 2]
  | _ => [1, 2, 3]

/-- HSEM_ACQUIRE (03 R71): the acquires of one clk. -/
def execHsemAcquire (s : State) : Host.Outcome State Fault Refusal :=
  match s.cur with
  | some (.hsemAcquire m n who) =>
    let ws := (who.filter (fun w => within3 w)).eraseDups
    let x := s.modu m
    if Sp.get 0 x.hsem n != 0 then .next s
    else
      match (tieOrder (Sp.get 0 x.hsemTie n)).find? (fun w => ws.contains w) with
      | none => .next s
      | some w => .next (s.modMod m (fun x => { x with
          hsem := Sp.set 0 x.hsem n w, hsemTie := if 1 < ws.length then Sp.set 0 x.hsemTie n w else x.hsemTie }))
  | _ => .next s
where
  within3 (w : Nat) : Bool := decide (1 ≤ w) && decide (w ≤ 3)

/-- HSEM_RELEASE (03 R71). -/
def execHsemRelease (s : State) : Host.Outcome State Fault Refusal :=
  match s.cur with
  | some (.hsemRelease m n who) =>
    .next (s.modMod m (fun x => if Sp.get 0 x.hsem n = who then { x with hsem := Sp.set 0 x.hsem n 0 } else x))
  | _ => .next s

/-! ## Function control (03 R74 to R76) -/

def State.modFn (s : State) (m f : Nat) (g : FnSt → FnSt) : State := s.modMod m (fun x => x.modFn f g)

/-- The plats and the contexts without a plat of a function's jobs stopped, on every module (03 R74). -/
def State.stopFunction (s : State) (m f : Nat) : State :=
  let fn := (s.modu m).fn f
  let plats := ((s.dies.flatMap (fun d => d.2.plats.filter (fun p => fn.owns p.job.toNat && p.job != 0))).map PlatRec.plat).eraseDups
  let s := plats.foldl (fun t p => t.endPlat p 0x52) s
  (s.residents.filter (fun c => fn.owns (s.ctx c).job.toNat && (s.ctx c).job != 0)).foldl (fun t c => t.freeCtx c) s

/-- The semaphores that a port owns freed (03 R71). -/
def ModuleSt.dropSemaphores (x : ModuleSt) (p : Nat) : ModuleSt := { x with hsem := x.hsem.filter (fun e => e.2 != p + 1) }

/-- FNCTL_RST (03 R74): contexts and plats end, and closing notices go out for every job that is not FREE everywhere. The reset of a PF
frees its port's semaphores (R71). -/
def execFnctlRst (s : State) : Host.Outcome State Fault Refusal :=
  match s.cur with
  | some (.fnctlRst m f) =>
    let s := (s.stopFunction m f).modFn m f (fun x => { x with rst := true, go := false, en := false })
    let s := if f % 64 = 0 then s.modMod m (fun x => x.dropSemaphores (f / 64)) else s
    let fn := (s.modu m).fn f
    let jobs := ((s.allStations.flatMap (fun sta => ((s.sta sta).jobs.filter (fun j => fn.owns j.1 && j.2 != .free)).map Prod.fst))).eraseDups
    let s := jobs.foldl (fun t j => t.sendNotices (16 * m) 3 (BitVec.ofNat 12 j)) s
    .next (if s.jobsFree m f then s.postNow (.functionResetComplete m f) else s)
  | _ => .next s

/-- FUNCTION_RESET_COMPLETE (03 R74). -/
def execFunctionResetComplete (s : State) : Host.Outcome State Fault Refusal :=
  match s.cur with
  | some (.functionResetComplete m f) =>
    .next (if s.jobsFree m f then s.modFn m f (fun x => { x with rst := false }) else s)
  | _ => .next s

/-- FNCTL_GO (03 R74): FEATACC0 and FEATACC1 lock, until the next module reset (00 R4). -/
def execFnctlGo (s : State) : Host.Outcome State Fault Refusal :=
  match s.cur with
  | some (.fnctlGo m f) => .next (s.modFn m f (fun x => { x with go := true, accLock := true }))
  | _ => .next s

/-- FNCTL_EN (03 R74). -/
def execFnctlEn (s : State) : Host.Outcome State Fault Refusal :=
  match s.cur with
  | some (.fnctlEn m f on) => .next (s.modFn m f (fun x => { x with en := on }))
  | _ => .next s

/-- FNJOBS_WRITE (03 R75). -/
def execFnjobsWrite (s : State) : Host.Outcome State Fault Refusal :=
  match s.cur with
  | some (.fnjobsWrite m f v) =>
    let base := wfield v 0 12
    let cnt := wfield v 16 12
    let x := s.modu m
    let meets (g : Nat × FnSt) : Bool :=
      g.1 != f && g.2.cnt != 0 && decide (base < g.2.base.toNat + g.2.cnt.toNat) && decide (g.2.base.toNat < base + cnt)
    let bad := (x.fn f).en || (cnt != 0 && (base == 0 || decide (4095 < base + cnt - 1) || x.fns.any meets))
    .next (s.modFn m f (fun g => if bad then { g with jobErr := true }
      else { g with base := BitVec.ofNat 12 base, cnt := BitVec.ofNat 12 cnt }))
  | _ => .next s

/-- FEATACC_WRITE (03 R73, R76; 00 R4): read-only once GO has locked it; a bit that is not offered makes the write void. -/
def execFeataccWrite (s : State) : Host.Outcome State Fault Refusal :=
  match s.cur with
  | some (.feataccWrite m f hi v) =>
    .next (s.modFn m f (fun g =>
      if g.accLock then g
      else if v &&& ~~~(if hi = 0 then featOffered else 0) != 0 then { g with featErr := true }
      else if hi = 0 then { g with accLo := v } else { g with accHi := v }))
  | _ => .next s

/-- FEATMASK_WRITE (03 R73, R76): the block of a PF holds none. Contexts follow at their next bank activation. -/
def execFeatmaskWrite (s : State) : Host.Outcome State Fault Refusal :=
  match s.cur with
  | some (.featmaskWrite m f hi v) =>
    .next (if f % 64 = 0 then s else s.modFn m f (fun g => if hi = 0 then { g with maskLo := v } else { g with maskHi := v }))
  | _ => .next s

/-- FNNOTIFY_WRITE (03 R73): a port that takes no part sends nothing (R66). -/
def execFnnotifyWrite (s : State) : Host.Outcome State Fault Refusal :=
  match s.cur with
  | some (.fnnotifyWrite m f v) => .next (if v.toNat < 64 && (s.modu m).port (f / 64) then s.modFn m f (fun g => { g with msix := v.toNat :: g.msix }) else s)
  | _ => .next s

/-- FNERRCLR_WRITE (03 R77). -/
def execFnerrclrWrite (s : State) : Host.Outcome State Fault Refusal :=
  match s.cur with
  | some (.fnerrclrWrite m f v) => .next (s.modFn m f (fun g => { g with errs := g.errs.filter (fun e => !wbit v e.1) }))
  | _ => .next s

/-! ## Attestation (03 R84) -/

/-- ATTCTL_REQUEST (03 R84): the report is ready within 1 ms. A function of a port that takes no part requests none (R66). -/
def execAttctlRequest (s : State) : Host.Outcome State Fault Refusal :=
  match s.cur with
  | some (.attctlRequest m f) =>
    let g := (s.modu m).fn f
    if g.pending || !(s.modu m).port (f / 64) then .next s
    else
      let s := s.modFn m f (fun g => { g with pending := true, ready := false, asked := Memory.readN g.nonce 0 64 })
      let (d, s) := s.freeTime
      .next (s.post (s.clk + d % 1050001) (.attestReportReady m f))
  | _ => .next s

/-- The signed bytes of a report (03 R84). -/
def State.attestBytes (s : State) (m f : Nat) : List Byte :=
  let x := s.modu m
  let g := x.fn f
  bytesLE 4 1 ++ bytesLE 4 f ++ bytesLE 8 (Config.serial m).toNat ++ (x.image ++ List.replicate 64 0).take 64 ++ bytesLE 8 x.minVersion.toNat ++
  (List.range 8).flatMap (fun d => bytesLE 4 (s.die (8 * m + d)).survey.edition) ++ bytesLE 16 (x.effective f).toNat ++ g.asked ++
  bytesLE 8 (x.ptimeNow s.clk).toNat

/-- ATTEST_REPORT_READY (03 R84). -/
def execAttestReportReady (s : State) : Host.Outcome State Fault Refusal :=
  match s.cur with
  | some (.attestReportReady m f) =>
    if !((s.modu m).fn f).pending then .next s
    else
      let bs := s.attestBytes m f
      .next (s.modFn m f (fun g => { g with
        pending := false, ready := true, report := bs ++ ((Config.sign m bs) ++ List.replicate 132 0).take 132 }))
  | _ => .next s

/-! ## Registers without a behaviour of their own (00 R4; 03 R73; 09 R222, R230, R232) -/

/-- A register with the masked bits of a write. -/
def merged (old v mask fields : Word) : Word := (old &&& ~~~(mask &&& fields)) ||| (v &&& mask &&& fields)

/-- The fields of a range-table register (09 R230). -/
def rangeFields (n : Nat) : Word := if n % 3 = 0 then 0x0FFFFFFFFF00000F else 0x0000000FFFFFFFFF

/-- A write of a function block's plain registers; `pf` says whether the requester writes what in a VF's block its PF writes. -/
def FnSt.write (g : FnSt) (isPf pf : Bool) (o : Nat) (v mask : Word) : FnSt :=
  if o = 0x8 then
    { g with jobErr := g.jobErr && !wbit (v &&& mask) 3, featErr := g.featErr && !wbit (v &&& mask) 2 }
  else if o = 0x48 then (if pf then { g with hvec := merged g.hvec v mask 0xFFFF } else g)
  else if o = 0x58 then (if isPf then { g with apbase := merged g.apbase v mask 0x000FFFF000000000 } else g)
  else if o = 0x60 then (if isPf then { g with area := merged g.area v mask 0x000FFFFFFFFFF000 } else g)
  else if 0x100 ≤ o ∧ o < 0x140 then
    let a := (o - 0x100) / 8 * 8
    { g with nonce := Memory.writeLE g.nonce a 8 (merged (BitVec.ofNat 64 (Memory.readLE g.nonce a 8)) v mask (BitVec.allOnes 64)).toNat }
  else if 0x400 ≤ o ∧ o < 0x880 then
    let n := (o - 0x400) / 8
    if pf && !isPf then { g with ranges := Sp.set 0 g.ranges n (merged (Sp.get 0 g.ranges n) v mask (rangeFields n)) } else g
  else g

/-- An error of a host access counted for its function and, for a VF, its PF (03 R77, R78). -/
def State.countHost (s : State) (m f : Nat) : State :=
  let s := s.modFn m f (fun g => g.bumpErr 6)
  if f % 64 = 0 then s else s.modFn m (f - f % 64) (fun g => g.bumpErr 6)

/-- Whether a port takes part in host accesses: boot is complete, and it is trained and not in reset (03 R66, R67). -/
def ModuleSt.serves (x : ModuleSt) (f : Nat) : Bool := x.ready && (if f < 64 then x.port0 else x.port1)

/-- The register-space offset that a function reaches at an offset of its BAR0: a PF all of it, a VF its own block (03 R67). None for an access
that is not 4 or 8 bytes wide and naturally aligned. -/
def bar0 (f off n : Nat) : Option Nat :=
  if (n == 4 || n == 8) && off % n == 0 && decide (off < (if f % 64 = 0 then 0x2000000 else 0x10000)) then
    some (if f % 64 = 0 then off else 0x1000000 + 0x10000 * f + off)
  else none

/-- The bits of a register that an access at an offset covers (03 R67). -/
def halfMask (off n : Nat) : Word :=
  if n = 8 then BitVec.allOnes 64 else if off % 8 = 4 then 0xFFFFFFFF00000000 else 0x00000000FFFFFFFF

/-- A host's write through BAR0 (03 R67, R70): the bits of the addressed half, the others kept. -/
def State.hostWrite (s : State) (m f off n : Nat) (v : Word) : State :=
  if !(s.modu m).serves f then s
  else
    match bar0 f off n with
    | none => s.countHost m f
    | some o =>
      let mask := halfMask off n
      let v := if n = 8 then v else if off % 8 = 4 then v <<< 32 else v
      let old := s.regRead m (o / 8 * 8)
      s.writeReg m (o / 8 * 8) ((old &&& ~~~mask) ||| (v &&& mask)) mask (if f % 64 = 0 then f / 64 + 1 else 64 + f)

/-- REGISTER_WRITE (00 R4; 03 R67): fields of RW registers take the bits written; RO and reserved fields, and what is no register, take none.
A host's write through BAR0 becomes the events of the registers that it names. -/
def execRegisterWrite (s : State) : Host.Outcome State Fault Refusal :=
  match s.cur with
  | some (.hostBar0Write m f off n v) => .next (s.hostWrite m f off n v)
  | some (.registerWrite m off v mask who) =>
    if off < 0xC00000 then
      let o := off % 0x100000
      if 0x40000 ≤ o ∧ o < 0x48000 ∧ who < 64 then
        let j := (o - 0x40000) / 8
        .next (s.modSta (16 * m + off / 0x100000) (fun t =>
          { t with jroot := Sp.set 0 t.jroot j (merged (Sp.get 0 t.jroot j) v mask 0x000FFFFFFFFFFF01) }))
      else .next s
    else if 0x1000000 ≤ off ∧ off < 0x1800000 then
      let f := (off - 0x1000000) / 0x10000
      if 64 ≤ who && who - 64 != f then .next s
      else .next (s.modFn m f (fun g => g.write (f % 64 == 0) (pfWrites f who) (off % 0x10000) v mask))
    else .next s
  | _ => .next s

/-! ## BAR2 (03 R67, R80, R81; 09 R231) -/

/-- The physical address of a byte that a function reaches through BAR2 (03 R67), none where it completes with Unsupported Request:
what is no memory, register space among it, is reached through no BAR2 (log 70). -/
def State.bar2 (s : State) (m f off : Nat) (wr : Bool) : Option Nat :=
  let x := s.modu m
  if f % 64 = 0 then
    let pa := wfield (x.fn f).apbase 36 16 * 2 ^ 36 + off
    if off < 2 ^ 36 && (isHbm pa || isLpddr pa) then some pa else none
  else if off < 2 ^ 30 then
    match stage2 (x.fn f) (if wr then (false, true, false) else (false, false, true)) off with
    | .inr (pa, _) => some pa
    | .inl _ => none
  else none

/-- The addresses of the parts of an access within pages of 64 KiB; none where one cannot be reached. -/
def State.bar2Parts (s : State) (m f off n : Nat) (wr : Bool) : Option (List (Nat × Nat × Nat)) :=
  allPages ((List.range ((off % 65536 + n + 65535) / 65536)).map (fun i =>
    let lo := Nat.max off ((off / 65536 + i) * 65536)
    let hi := Nat.min (off + n) ((off / 65536 + i + 1) * 65536)
    (s.bar2 m f lo wr).map (fun pa => (pa, lo - off, hi - lo))))
where
  allPages : List (Option (Nat × Nat × Nat)) → Option (List (Nat × Nat × Nat))
    | [] => some []
    | none :: _ => none
    | some x :: xs => (allPages xs).map (fun ys => x :: ys)

/-- HOST_BAR2_WRITE (03 R67, R81): one write, visible before any later one of its port. -/
def execHostBar2Write (s : State) : Host.Outcome State Fault Refusal :=
  match s.cur with
  | some (.hostBar2Write m f off data) =>
    if !(s.modu m).serves f then .next s
    else
      match s.bar2Parts m f off data.length true with
      | none => .next (s.countHost m f)
      | some ps => .next (ps.foldl (fun t p => t.writeMem 0 m p.1 ((data.drop p.2.1).take p.2.2)) s)
  | _ => .next s

/-- HOST_BAR2_READ (03 R67, R86): the answer is noted for the port. A host's read of registers through BAR0 gives the register, or the half
addressed. -/
def execHostBar2Read (s : State) : Host.Outcome State Fault Refusal :=
  match s.cur with
  | some (.hostBar0Read m f off n) =>
    if !(s.modu m).serves f then .next s
    else
      match bar0 f off n with
      | none => .next ((s.countHost m f).modMod m (fun x => { x with notes := .bar0Read f off none :: x.notes }))
      | some o =>
        let w := s.regRead m (o / 8 * 8)
        let v := if n = 8 then w else (w >>> (8 * (off % 8))) &&& 0xFFFFFFFF
        .next (s.modMod m (fun x => { x with notes := .bar0Read f off (some v) :: x.notes }))
  | some (.hostBar2Read m f off n) =>
    if !(s.modu m).serves f then .next s
    else
      match s.bar2Parts m f off n false with
      | none => .next ((s.countHost m f).modMod m (fun x => { x with notes := .bar2Read f off none :: x.notes }))
      | some ps =>
        let bs := ps.flatMap (fun p => Memory.readN s.mem (memKey m p.1) p.2.2)
        .next (s.modMod m (fun x => { x with notes := .bar2Read f off (some bs) :: x.notes }))
  | _ => .next s

/-- HOST_CONFIG_REQUEST (03 R67, R81): retry status until boot is complete. -/
def execHostConfigRequest (s : State) : Host.Outcome State Fault Refusal :=
  match s.cur with
  | some (.hostConfigRequest m p) => .next (s.modMod m (fun x => { x with notes := .config p (!x.ready) :: x.notes }))
  | _ => .next s

/-! ## Ports (03 R66, R71) -/

def ModuleSt.setPort (x : ModuleSt) (p : Nat) (on : Bool) : ModuleSt := if p = 0 then { x with port0 := on } else { x with port1 := on }

/-- PORT_RESET (03 R66, R71): every semaphore that the port owns is freed. -/
def execPortReset (s : State) : Host.Outcome State Fault Refusal :=
  match s.cur with
  | some (.portReset m p) =>
    .next (s.modMod m (fun x => (x.setPort p false).dropSemaphores p))
  | _ => .next s

/-- HOST_PORT_TRAINED (03 R66). -/
def execHostPortTrained (s : State) : Host.Outcome State Fault Refusal :=
  match s.cur with
  | some (.hostPortTrained m p) => .next (s.modMod m (fun x => x.setPort p true))
  | _ => .next s

end Sys2Proof.Machine
end

