-- ==== Sys2Proof/Machine/Traps.lean ====
section
/-! DEFINITION. The events of results, waits, traps, faults and banks (07 R180 to R183; 09 R229 to R234; 12 R285 to R297; 14 R336 to R341). -/

namespace Sys2Proof.Machine

/-! ## Results and waits -/

/-- DIST_DEP pends from the landing of a conflicting pairing that finds DDE set, unless one is pending already (11 R276; 19 R411; log 53);
its TVAL is the stamp that the pairing took. -/
def State.depLanded (s : State) (c : CtxId) (p : Pend) : State :=
  match p.val with
  | .dist d =>
    if p.dst && p.fl.getLsbD 13 && wbit (s.ctx c).vf.dstat 16 && ((s.ctx c).pending.find? (fun q => q.1 == cDISTDEP)).isNone then
      s.raiseAsync c cDISTDEP (d.lin.setWidth 64)
    else s
  | _ => s

/-- A result in flight is written when its clk has passed; one in a latch is marked as come (07 R180, R183; 12 R293). A freeze
moves the landing (07 R185). -/
def State.landPend (s : State) (i : StreamId) (id : Nat) : State :=
  match (s.strm i).pend.find? (fun p => p.id == id) with
  | some p =>
    if s.clk ≤ p.land then s.post (p.land + 1) (if p.inter then .interlockedResultArrival i id else .resultLand i id)
    else (s.modCtx i.ctx (fun x =>
      (x.putStrm i.st { x.strm i.st with pend := (x.strm i.st).pend.filter (fun q => q.id != id) }).land i.st p)).depLanded i.ctx p
  | none =>
    let f (p : Pend) : Pend := if p.id = id && p.inter then { p with inter := false, land := 0 } else p
    let s := s.modStrm i (fun y => { y with latch := y.latch.map f })
    if i.st = .c then
      s.modCtx i.ctx (fun x => { x with saved := x.saved.map (fun r => { r with latch := r.latch.map f })
                                        handlerSaved := x.handlerSaved.map (fun r => { r with latch := r.latch.map f }) })
    else s

/-- RESULT_LAND (07 R180). -/
def execResultLand (s : State) : Host.Outcome State Fault Refusal :=
  match s.cur with
  | some (.resultLand i id) => .next (s.landPend i id)
  | _ => .next s

/-- INTERLOCKED_RESULT_ARRIVAL (07 R183). -/
def execInterlockedResultArrival (s : State) : Host.Outcome State Fault Refusal :=
  match s.cur with
  | some (.interlockedResultArrival i id) => .next (s.landPend i id)
  | _ => .next s

/-- LATCH_REINJECT (12 R293). -/
def execLatchReinject (s : State) : Host.Outcome State Fault Refusal :=
  match s.cur with
  | some (.latchReinject i id) => .next (s.landPend i id)
  | _ => .next s

/-- STALL_END (07 R180): the stream goes on after its STALL. -/
def execStallEnd (s : State) : Host.Outcome State Fault Refusal :=
  match s.cur with
  | some (.stallEnd i) => .next (s.modStrm i (fun y => if y.stall = 0 then y.advance 1 else y))
  | _ => .next s

/-- The instance of a scope that a core lies in (05 R118). -/
def scopeInst (core scope : Nat) : Nat :=
  match scope with
  | 1 => 2 * dieOf core + scoreOf core / 4
  | 2 => dieOf core
  | 3 => modOf core
  | _ => 0

def State.bar (s : State) (u : BarUnit) : Option BarState := (s.bars.find? (fun b => b.1 == u)).map Prod.snd

/-- The barrier unit that a scope and a BID name in a context (05 R118; 08 R218). -/
def State.barUnitOf (s : State) (c : CtxId) (scope bid : Nat) : BarUnit := ⟨(s.ctx c).plat, scope, scopeInst (s.partyCore c) scope, bid⟩

/-- The party's record of a unit: the phase it last arrived in, and whether a wait for it is owed. -/
def Ctx.party (x : Ctx) (u : BarUnit) : Option (Nat × Bool) := (x.parties.find? (fun p => p.1 == u)).map Prod.snd
def Ctx.setParty (x : Ctx) (u : BarUnit) (v : Nat × Bool) : Ctx :=
  { x with parties := (u, v) :: x.parties.filter (fun p => p.1 != u) }

/-- A wait that an event ends is over; the word runs again (14 R338, R339, R336). -/
def State.endHold (s : State) (i : StreamId) (p : Hold → Bool) : State :=
  s.modStrm i (fun y => if p y.hold then { y with hold := .no } else y)

/-- TWAIT_EXPIRY (14 R338; 07 R179, R186): the next word issues in this clk, or in the clk in which a late command completes. -/
def execTwaitExpiry (s : State) : Host.Outcome State Fault Refusal :=
  match s.cur with
  | some (.twaitExpiry i) =>
    (match (s.strm i).hold with
    | .cycle target tag since =>
      if s.clk < target then .next s
      else
        match tag with
        | none => .next (s.modStrm i (fun y => y.waitOver since s.clk))
        | some g => .next ((s.modStrm i (fun y => { y with hold := .promise g since })).promiseDone i.ctx)
    | _ => .next s)
  | _ => .next s

/-- WAITM_WAKE (14 R339): in both members of a redundant pair (04 R102). -/
def execWaitmWake (s : State) : Host.Outcome State Fault Refusal :=
  match s.cur with
  | some (.waitmWake i) =>
    .next ((i.ctx :: (s.partner i.ctx).toList).foldl (fun t c => t.endHold ⟨c, i.st⟩ (fun h => match h with | .memory _ => true | _ => false)) s)
  | _ => .next s

/-- QWAIT_COMPLETE (02 R56, R57): a wave that began after the registration declared the job quiet. -/
def execQwaitComplete (s : State) : Host.Outcome State Fault Refusal :=
  match s.cur with
  | some (.qwaitComplete c pod w) =>
    let sta := stationOf c.core
    let mine (q : QReg) : Bool := q.ctx == c && q.pod == pod && decide (q.since < w)
    if (s.sta sta).qregs.any mine then
      .next ((s.modSta sta (fun t => { t with qregs := t.qregs.filter (fun q => q.ctx != c) })).modStrm ⟨c, .c⟩
        (fun y => if y.hold = .quiet then { y with hold := .passed } else y))
    else .next s
  | _ => .next s

/-- A context that waits at a unit leaves it where its phase has completed: its next word issues in this clk (14 R336). -/
def State.leaveBarrier (s : State) (c : CtxId) (u : BarUnit) : State :=
  match (s.strm ⟨c, .c⟩).hold, s.bar u, (s.ctx c).party u with
  | .barrier scope bid, some b, some (p, true) =>
    if u == s.barUnitOf c scope bid && decide (p < b.phase) && decide (b.leave ≤ s.clk) then
      (s.modCtx c (fun x => x.setParty u (p, false))).modStrm ⟨c, .c⟩ (fun y => y.advance 2)
    else s
  | _, _, _ => s

/-- BARRIER_RELEASE (05 R118): the parties that wait leave in this clk. -/
def execBarrierRelease (s : State) : Host.Outcome State Fault Refusal :=
  match s.cur with
  | some (.barrierRelease u _) => .next (s.residents.foldl (fun t c => t.leaveBarrier c u) s)
  | _ => .next s

/-! ## Delivery (12 R285 to R287) -/

/-- The causes that one delivery chooses from, in the order of 12 R287: those before a precise cause, and those after. -/
def causesFirst : List Nat := [cCHECK, cOVERRUN, cSURVEY, cPOISON]
def causesLast : List Nat := [cENGERR, cPROMISE, cLOSS, cDISTDEP, cDEBUG, cTIMER, cSIGNAL]

/-- A C-stream boundary: a clk in which C issues, or waits to issue, or runs a later clk of a STALL (12 R285). -/
def Ctx.boundary (x : Ctx) : Bool := x.c.live && x.c.bubble == 0

/-- Whether a context can take a trap now. -/
def State.canDeliver (s : State) (c : CtxId) : Bool :=
  let x := s.ctx c
  x.resident && x.phase == .running && s.bankActive c

/-- The pending cause that is delivered first (12 R287); asynchronous causes wait for normal mode and a boundary. -/
def State.pendingCause (s : State) (c : CtxId) (cs : List Nat) : Option Nat :=
  let x := s.ctx c
  if s.canDeliver c && x.normal && x.boundary then cs.find? (fun k => x.pending.any (fun p => p.1 == k)) else none

/-- The TVAL of a pending cause at delivery (12 R281, R285). -/
def Ctx.pendingTval (x : Ctx) (cause : Nat) : Word × Bool :=
  match x.pending.find? (fun p => p.1 == cause) with
  | some p =>
    if cause = cLOSS then (BitVec.ofNat 64 (x.lossCount.toNat * 2 ^ 12 + wfield p.2.1 0 12), p.2.2) else p.2
  | none => (0, false)

/-- What a delivery of a pending cause leads to (12 R286, R289). -/
def State.asyncKind (s : State) (c : CtxId) (cause : Nat) : StopKind :=
  if cause = cCHECK then .endPlat
  else if cause = cDEBUG && s.hypervisorVector c != 0 then .hypervisor else .handler

/-- A stop of a context, and of the other member of its redundant pair (04 R102, 12 R287). -/
def State.stopPair (s : State) (c : CtxId) (e : Entry) : State :=
  let s := s.stopAt c s.clk e
  match s.partner c with
  | some d => if (s.ctx d).phase = .running then s.stopAt d s.clk e else s
  | none => s

/-- A pending cause delivered (12 R285). -/
def State.deliverPending (s : State) (c : CtxId) (cause : Nat) : State :=
  let x := s.ctx c
  let (tv, mrg) := x.pendingTval cause
  -- a cause of a redundant pair is delivered to both members at once (04 R102)
  let s := (c :: (s.partner c).toList).foldl (fun t d => t.modCtx d (fun x =>
    { x with pending := Sp.erase x.pending cause
             lossCount := if cause = cLOSS then 0 else x.lossCount
             dbgreq := if cause = cDEBUG then false else x.dbgreq })) s
  s.stopPair c { cause := cause, tval := tv, strm := 3, word := x.retrap.c.pc, mrg := mrg, kind := s.asyncKind c cause }

/-- The delivery of this clk that comes before the precise causes of words, if any; TRAP stands with those of C (12 R287). -/
def State.deliver (s : State) (c : CtxId) : State :=
  let x := s.ctx c
  match s.pendingCause c causesFirst with
  | some k => s.deliverPending c k
  | none =>
    match (if s.canDeliver c then x.sysTrap else none) with
    | some (code, _) =>
      s.stopPair c
        { cause := cTRAP, tval := code, strm := 0, word := x.c.pc, mrg := false, kind := stopKindOf x cTRAP }
    | none =>
      match s.pendingCause c causesLast with
      | some k => s.deliverPending c k
      | none => s

/-- TRAP_DELIVERY (12 R285, R287). -/
def execTrapDelivery (s : State) : Host.Outcome State Fault Refusal :=
  match s.cur with
  | some (.trapDelivery c) => .next (s.deliver c)
  | _ => .next s

/-- Whether a page fault of a context is due in this clk (12 R287). -/
def State.faultDue (s : State) (c : CtxId) : Bool :=
  s.agenda.any (fun (a : Nat × Event) => decide (a.1 ≤ s.clk) && (match a.2 with
    | .pageFault r _ _ => r.ctx == c
    | _ => false))

/-- TRAP_CAPTURE (12 R288, R296, R297; 09 R233): at t_c, and after the page faults of the clk. -/
def execTrapCapture (s : State) : Host.Outcome State Fault Refusal :=
  match s.cur with
  | some (.trapCapture c) =>
    let x := s.ctx c
    match x.phase, x.entry with
    | .stopping te, some e =>
      if !x.canCapture || s.frozen c.core then .next (s.post (s.clk + 1) (.trapCapture c))
      else if s.faultDue c then .next (s.postNow (.trapCapture c))
      else
        let s := s.modCtx c (fun x => { x.capture te s.clk e with sysTrap := none })
        match e.kind with
        | .forcedStop => .next ((s.modCtx c (fun x => { x with phase := .forced })).reconsider c.core s.clk)
        | .pageFault =>
          let s := s.modCtx c (fun x => { x with phase := .faulted })
          let s := match x.fault with
            | some f => s.reportFault f
            | none => s
          .next (s.reconsider c.core s.clk)
        | _ => .next ((s.modCtx c (fun x => { x with phase := .entering te s.clk })).post (s.clk + 24) (.handlerStart c))
    | _, _ => .next s
  | _ => .next s

/-- The handler's C stream starts at a block (12 R289). -/
def Ctx.enterHandler (x : Ctx) (mode off : Nat) : Ctx :=
  let w := withField x.trapc 44 2 mode
  { x with
    phase := .running, entry := none
    trapc := withField w 48 8 x.scause
    c := { x.c.emptied with pc := off, atHeader := true } }

/-- HANDLER_START (12 R289, R295; 04 R106; 03 R79): t_c + 24. -/
def execHandlerStart (s : State) : Host.Outcome State Fault Refusal :=
  match s.cur with
  | some (.handlerStart c) =>
    let x := s.ctx c
    match x.phase, x.entry with
    | .entering _ _, some e =>
      -- a walk of the C stream that is under way is not the handler's (12 R294)
      let s := s.modCtx c (fun x => { x with heldWalk := (s.core c.core).walks.find? (fun w => w.ctx == c && w.src == 0) })
      let ended : State := if e.cause = cCHECK && s.recoverable x.plat then s.rollback x.plat cCHECK else s.endPlatOf c e.cause
      match e.kind with
      | .hypervisor =>
        let v := s.hypervisorVector c
        if v = 0 then .next ended else .next (s.modCtx c (fun x => x.enterHandler 2 v))
      | .handler =>
        if wbit x.tvec 63 then .next (s.modCtx c (fun x => x.enterHandler 1 (wfield x.tvec 0 16))) else .next ended
      | _ => .next ended
    | _, _ => .next s
  | _ => .next s

/-- RTE_RESUME (12 R293, R294): t_r. -/
def execRteResume (s : State) : Host.Outcome State Fault Refusal :=
  match s.cur with
  | some (.rteResume c) =>
    match (s.ctx c).phase, (s.ctx c).secondary with
    | .returning _, none => .next (s.restore c)
    | .returning _, some _ =>
      -- a page fault came in the entry: the context waits for its answer (12 R294)
      .next (((s.restore c).modCtx c (fun x =>
        { x with secondary := none, phase := .faulted, saved := some (x.c.record s.clk s.clk), savedTe := s.clk,
                 c := x.c.emptied, a := x.a.latched s.clk, v := x.v.latched s.clk })).reconsider c.core s.clk)
    | _, _ => .next s
  | _ => .next s

/-- TIMER_MATCH (12 R286). -/
def execTimerMatch (s : State) : Host.Outcome State Fault Refusal :=
  match s.cur with
  | some (.timerMatch c) =>
    let x := s.ctx c
    if x.timecmp != 0 && s.cyc c.core == x.timecmp && wbit x.trapc 0 then .next (s.raiseAsync c cTIMER (s.cyc c.core)) else .next s
  | _ => .next s

/-- DBGREQ_REQUEST (12 R286): dropped where the bank holds no context. -/
def execDbgreqRequest (s : State) : Host.Outcome State Fault Refusal :=
  match s.cur with
  | some (.dbgreqRequest c) =>
    if (s.ctx c).resident then .next ((s.modCtx c (fun x => { x with dbgreq := true })).raiseAsync c cDEBUG 0) else .next s
  | _ => .next s

/-- DBGREQ_WITHDRAW (12 R286). -/
def execDbgreqWithdraw (s : State) : Host.Outcome State Fault Refusal :=
  match s.cur with
  | some (.dbgreqWithdraw c) => .next (s.modCtx c (fun x => { x with dbgreq := false, pending := Sp.erase x.pending cDEBUG }))
  | _ => .next s

/-- SIGNAL_ARRIVAL (14 R341, 12 R286): the target's bank stands in the payload (log 13). -/
def execSignalArrival (s : State) : Host.Outcome State Fault Refusal :=
  match s.cur with
  | some (.signalArrival slot) =>
    let core := 128 * slot.dmod.toNat + 16 * slot.dsta.toNat + slot.dcore.toNat
    let c : CtxId := ⟨core, ofBytesLE (slot.data.take 8) % 2⟩
    let x := s.ctx c
    let tv := slot.smod.toNat * 2 ^ 8 + slot.ssta.toNat * 2 ^ 5 + slot.score.toNat
    if x.resident && (x.job == slot.job || slot.job == 0) && wbit x.trapc 1 then .next (s.raiseAsync c cSIGNAL (BitVec.ofNat 64 tv))
    else .next s
  | _ => .next s

/-! ## Translation and faults -/

/-- The page-fault event of a walk's result. -/
def State.walkFault (s : State) (r : WalkReq) (kind level : Nat) : State := s.postNow (.pageFault r kind level)

/-- The end of the walk of a word that has issued: its leaf enters the TLB unless a marker has come since (09 R236), and the walk of the
word's next page begins. -/
def State.walkDone (s : State) (core : Nat) (r : WalkReq) (gen : Nat) (l : Leaf) : State :=
  let s := s.modCore core (fun k =>
    let k := { k with walkLeaf := k.walkLeaf.filter (fun w => w.1 != r) }
    if gen = k.gen r.job then k.tlbFill r.job r.va l else k)
  match (s.core core).walkLeaf.find? (fun w => w.1.ctx == r.ctx && w.1.src == r.src && w.1.acc == r.acc) with
  | some w => if (s.core core).walks.contains w.1 then s else s.beginWalk core w.1
  | none => s

/-- Whether a page fault of an access of the context is of account: it runs, or it has entered a trap (12 R294). -/
def Ctx.takesFault (x : Ctx) : Bool :=
  match x.phase with
  | .running => true
  | .stopping _ => true
  | .entering _ _ => true
  | .returning _ => true
  | _ => false

/-- Whether the word of an access runs again before its fault would be noted: it waits where its stream stands (09 R228). -/
def Ctx.runsAgain (x : Ctx) (r : WalkReq) : Bool := x.phase == .running && (x.normal || (r.src == 0 && x.heldWalk != some r))

/-- What a page forbids to a word of C or A before its permissions do: a precise cause, no fault (12 R284; 14 R328). -/
def Ctx.refuses (x : Ctx) (l : Leaf) (acc : Access) : Bool :=
  (l.mir && !x.hasFeature 5) || l.forbids acc x.job || acc == .atomic

/-- Whether a request is an access of before the handler that runs: of another stream, of an engine, or the held walk of C (12 R294). -/
def Ctx.beforeHandler (x : Ctx) (r : WalkReq) : Bool := !x.normal && (r.src != 0 || x.heldWalk == some r)

/-- Whether the entry under way goes to a handler (12 R289). -/
def Ctx.entersHandler (x : Ctx) : Bool := x.entry.any (fun e => e.kind == .handler || e.kind == .hypervisor)

/-- A page fault of an access pending at a trap's entry (12 R294): the first is recorded and noted; of the others the access runs again,
and faults again, after the return. -/
def State.secondFault (s : State) (f : FaultRec) : State :=
  if (s.ctx f.req.ctx).secondary.isSome then s
  else (s.modCtx f.req.ctx (fun x => { x.secondFault with heldWalk := none })).reportFault f

/-- TLB_WALK_COMPLETE (09 R229): the leaf enters the TLB, or the access faults; a PREF that would fault does nothing (R225). -/
def execTlbWalkComplete (s : State) : Host.Outcome State Fault Refusal :=
  match s.cur with
  | some (.tlbWalkComplete core r) =>
    if !(s.core core).walks.contains r then .next s
    else
      let s := (s.modCore core (fun k => { k with walks := k.walks.filter (fun w => w != r) })).beginWaiting (dieOf core)
      match (s.core core).walkLeaf.find? (fun w => w.1 == r) with
      | some (_, gen, l) => .next (s.walkDone core r gen l)
      | none =>
      match s.walk core r.job.toNat r.acc r.va with
      | .ok l => .next (s.modCore core (fun k => k.tlbFill r.job r.va l))
      | .fault kind level _ =>
        if r.acc = .prefetch || r.acc = .probe then .next s
        else if (s.ctx r.ctx).takesFault then
          -- PERM of an AMO or CAS, and what a page forbids, come before the fault (14 R328; 12 R284)
          match (if kind = 2 then s.walk core r.job.toNat .probe r.va else .fault kind level 0) with
          | .ok l =>
            let x := s.ctx r.ctx
            if 2 ≤ r.src || !(x.runsAgain r || x.refuses l r.acc) then .next (s.walkFault r kind level)
            else .next (s.modCore core (fun k => k.tlbFill r.job r.va l))
          | .fault .. => .next (s.walkFault r kind level)
        else .next s
  | _ => .next s

/-- An entry given up to a page fault of the same clk (12 R287): an asynchronous cause pends again, and a TRAP runs again. -/
def Ctx.giveWay (x : Ctx) : Ctx :=
  let x := match x.entry with
    | some e =>
      if 0x20 ≤ e.cause then
        let y := { x with
          pending := Sp.put x.pending e.cause (e.tval, e.mrg || x.pending.any (fun p => p.1 == e.cause))
          dbgreq := x.dbgreq || e.cause == cDEBUG }
        if e.cause = cLOSS then { y with lossCount := x.lossCount + BitVec.ofNat 32 (e.tval.toNat / 2 ^ 12) } else y
      else x
    | none => x
  { x.retrap with entry := some { cause := 0, tval := 0, strm := 3, word := x.retrap.c.pc, mrg := false, kind := .pageFault } }

/-- PAGE_FAULT (09 R232, R233; 12 R294). -/
def execPageFault (s : State) : Host.Outcome State Fault Refusal :=
  match s.cur with
  | some (.pageFault r kind level) =>
    let c := r.ctx
    let x := s.ctx c
    let gpa := if kind < 4 then 0 else match (s.core c.core).tlbHit r.job r.va with
      | some l => l.gpa r.va
      | none => match s.walk c.core r.job.toNat r.acc r.va with
        | .fault _ _ g => g
        | .ok _ => 0
    let f : FaultRec := ⟨0, r, kind, level, gpa, s.cyc c.core⟩
    if !x.resident then .next s
    else
      match x.phase with
      | .running =>
        if x.beforeHandler r then .next (s.secondFault f)
        else .next ((s.modCtx c (fun x => { x with fault := some f })).stopPair c
          { cause := 0, tval := 0, strm := 3, word := x.c.pc, mrg := false, kind := .pageFault })
      | .stopping te =>
        -- a fault in the clk of a trap takes precedence over it (12 R287)
        if x.entry.any (fun e => e.kind == .pageFault) then .next s
        else if s.clk = te then
          .next (((c :: (s.partner c).toList).foldl (fun t d => t.modCtx d (fun x => if x.phase = .stopping te then x.giveWay else x)) s).modCtx c
            (fun x => { x with fault := some f }))
        else .next (if x.entersHandler then s.secondFault f else s)
      | .entering _ _ => .next (if x.entersHandler then s.secondFault f else s)
      | .returning _ => .next (if x.beforeHandler r then s.secondFault f else s)
      | _ => .next s
  | _ => .next s

/-- Guarded timing of a context that an answered fault stopped; of one still in its entry or its handler, from its return on (09 R234; 12 R289). -/
def Ctx.guardOn (x : Ctx) : Ctx := if x.phase = .faulted then { x with guarded := true } else { x with guardLater := true }

/-- What an answer makes of the faulted context (09 R234): guarded timing until its next waypoint, and ready, with the other member of a
redundant pair, which stopped with it (04 R102). A context that is still in its entry or its handler, where the fault came (12 R294),
has its verdict when it goes on, and its guarded timing as it leaves the handler (12 R289). -/
def State.answered (s : State) (f : FaultRec) (g : Ctx → Ctx) : State :=
  let c := f.req.ctx
  -- the faulting word runs again with a fresh walk
  let s := s.modCore c.core (fun k => { k with tlb := k.tlb.filter (fun e => !e.hits f.req.job (k.gen f.req.job) f.req.va) })
  let fresh (r : Run) : Run := { r with c := { r.c with maps := r.c.maps.filter (fun m => m.1 != f.req.va / 65536) } }
  let s := s.modCtx c (fun x =>
    Ctx.guardOn (g { x with
               eng := { x.eng with loadRun := x.eng.loadRun.map fresh, storeRun := x.eng.storeRun.map fresh }
               fault := none, faultSlot := none, secondary := none }))
  let s := match s.partner c with
    | some d =>
      let t := s.modCtx d Ctx.guardOn
      if (s.ctx d).phase = .faulted then t.wake d else t
    | none => s
  if (s.ctx c).phase = .faulted then s.wake c else s

/-- FNFRES_RETRY (09 R234). -/
def execFnfresRetry (s : State) : Host.Outcome State Fault Refusal :=
  match s.cur with
  | some (.fnfresRetry m port slot) =>
    match s.takeAnswer m port slot.toNat 0 with
    | (some f, s) => .next (s.answered f id)
    | (none, s) => .next s
  | _ => .next s

/-- A copy command whose fault is answered with VERDICT 1 ends in copy error 1 (09 R234, 21 R424). -/
def Ctx.copyFault (x : Ctx) (src va : Nat) : Ctx :=
  let f (r : Run) : Run := { r with error := 1, errArg := va }
  match src with
  | 2 => { x with eng := { x.eng with loadRun := x.eng.loadRun.map f } }
  | 3 => { x with eng := { x.eng with storeRun := x.eng.storeRun.map f } }
  | _ => { x with eng := { x.eng with matrixRun := x.eng.matrixRun.map f } }

/-- FNFRES_RAISE_PERM (09 R234). -/
def execFnfresRaisePerm (s : State) : Host.Outcome State Fault Refusal :=
  match s.cur with
  | some (.fnfresRaisePerm m port slot) =>
    match s.takeAnswer m port slot.toNat 1 with
    | (some f, s) =>
      .next (s.answered f (fun x =>
        if f.req.src < 2 then { x with permAt := some (f.req.src, BitVec.ofNat 64 f.req.va, x.handlerSaved.isSome) } else x.copyFault f.req.src f.req.va))
    | (none, s) => .next s
  | _ => .next s

/-- FNFRES_END_PLAT (09 R234). -/
def execFnfresEndPlat (s : State) : Host.Outcome State Fault Refusal :=
  match s.cur with
  | some (.fnfresEndPlat m port slot) =>
    match s.takeAnswer m port slot.toNat 2 with
    | (some f, s) => .next (s.endPlatOf f.req.ctx cPERM)
    | (none, s) => .next s
  | _ => .next s

/-- FNFRES_ANSWER_NOTHING (09 R232). -/
def execFnfresAnswerNothing (s : State) : Host.Outcome State Fault Refusal :=
  match s.cur with
  | some (.fnfresAnswerNothing m port slot) => .next (s.takeAnswer m port slot.toNat 3).2
  | _ => .next s

/-- BANK_SWITCH_COMPLETE (05 R138; 03 R76): the new bank issues, with the features of its activation, where a change of FEATACC shows as one of
FEATMASK does (log 70). -/
def execBankSwitchComplete (s : State) : Host.Outcome State Fault Refusal :=
  match s.cur with
  | some (.bankSwitchComplete core) =>
    let k := s.core core
    match k.switching with
    | none => .next s
    | some b =>
      if s.clk < k.switchEnd then .next (s.post k.switchEnd (.bankSwitchComplete core))
      else
        let c : CtxId := ⟨core, b⟩
        let s := (s.modCore core (fun k => { k with active := b, switching := none })).swapIn c
        let s := s.modCtx c (fun x => { x with feat := (s.modu (modOf core)).features x.job.toNat })
        .next (if (s.ctx c).phase = .ready then s.restore c else s)
  | _ => .next s

end Sys2Proof.Machine
end

