-- ==== Sys2Proof/Machine/System.lean ====
section
/-! DEFINITION. Special registers, waits, barriers, signals, messages and the system words of the C stream but LAUNCH (14 R334 to R341,
R346 to R354). -/

namespace Sys2Proof.Machine

/-! ## Special registers (13 R313, 14 R334) -/

/-- A special register confined to the handler modes (12 R283, 07 R163). -/
def srHandler (n : Nat) : Bool :=
  n == 0x1B || n == 0x1C || (decide (0x20 ≤ n) && decide (n ≤ 0x22)) || (decide (0x24 ≤ n) && decide (n ≤ 0x26))

/-- Whether BPTSEL names a page that the core has (08 R197, R220). -/
def bptValid (k : CoreKind) (sel : Word) : Bool :=
  let b := wfield sel 7 2
  let p := wfield sel 0 7
  if k.ctl then b == 1 && p == 47 else decide (b < 3) && decide (p < bufPages b)

/-- The flags that the results in flight of a stream will raise, in DSTAT or in VSTAT. A read by the C stream shows them already: behind a
handoff by q3 it must (10 R251), and elsewhere it may. -/
def StreamSt.flying (y : StreamSt) (dst : Bool) : Flags := (y.pend.filter (fun p => p.dst == dst)).foldl (fun f p => f ||| p.fl) 0

/-- A special register of a context as it stands (13 R313). BPTENT with no page selected has free values in the fields
that R197 names (log 1), and 0 in the others. -/
def State.srRead (s : State) (c : CtxId) (n : Nat) : Word :=
  let x := s.ctx c
  let m := s.modu (modOf c.core)
  match n with
  | 0x000 => s.cyc c.core
  | 0x001 => m.ptimeNow s.clk
  | 0x002 => BitVec.ofNat 64 ((s.die (dieOf c.core)).survey.edition * 2 ^ 32 + x.edCode.toNat)
  | 0x003 => x.feat
  | 0x004 => x.job.setWidth 64
  | 0x005 => BitVec.ofNat 64 (2 * c.bank + c.bank)
  | 0x006 => x.timecmp
  | 0x010 => raiseFlags x.vf.vstat (x.v.flying false)
  | 0x011 => withField (raiseFlags x.vf.dstat (x.v.flying true)) 32 16 x.nextlAt.toNat
  | 0x018 => x.trapc
  | 0x019 => x.tval
  | 0x01A => x.tvec
  | 0x01B => x.fssel
  | 0x01C =>
    let i := wfield x.fssel 0 13
    if 6144 ≤ i then 0 else BitVec.ofNat 64 (Memory.readLE x.frame (8 * i) 8)
  | 0x020 => x.a.tripc
  | 0x021 => x.a.tailc.setWidth 64
  | 0x022 => x.a.swin.setWidth 64
  | 0x024 => x.v.tripc
  | 0x025 => x.v.tailc.setWidth 64
  | 0x026 => x.v.swin.setWidth 64
  | 0x030 => x.tokcntAt
  | 0x031 => x.engstepAt
  | 0x032 => x.bptsel
  | 0x033 =>
    if bptValid (kindOf c.core) x.bptsel then s.bptEntry c (wfield x.bptsel 7 2) (wfield x.bptsel 0 7)
    else Config.freeWord s.fresh &&& 0xFFFFFF00
  | _ =>
    if 0x40 ≤ n ∧ n ≤ 0x47 then Sp.get 0 x.stsel (n - 0x40)
    else if 0x48 ≤ n ∧ n ≤ 0x4F then Sp.get 0 x.stcntAt (n - 0x48)
    else if 0x100 ≤ n ∧ n ≤ 0x10F then Sp.get 0 x.win (n - 0x100)
    else if 0x110 ≤ n ∧ n ≤ 0x11F then Sp.get 0 x.allowAt (n - 0x110)
    else 0

/-- MFS (14 R334; 12 R283, R292). -/
def execMfs (sr : BitVec 12) (d : BitVec 5) (s : State) : Host.Outcome State Fault Refusal :=
  let n := sr.toNat
  let inter := n == 0 || n == 1 || n == 0x30
  word32 { priv := srHandler n && s.fctx.normal, dsts := if inter then [] else [(d.toNat, 2)], outs := if inter then [d.toNat] else [] }
    (fun s =>
      let v := s.srRead s.foc.ctx n
      let s := { s with fresh := s.fresh + 1 }
      let s := if n = 0x1C then s.modF (fun x => { x with fssel := BitVec.ofNat 64 ((wfield x.fssel 0 13 + 1) % 8192) }) else s
      .done (if inter then s.interlocked d.toNat (s.clk + 1) v else s.resWord d.toNat 2 v)) s

/-- The validity checks of a BPTENT write (08 R197). -/
def bptWriteOk (k : CoreKind) (sel v : Word) : Bool :=
  let fmt := wfield v 8 4
  let geom := wfield v 12 2
  let soff := wfield v 24 6
  let blocks := match geom with | 1 => 2048 | 2 => 4096 | 3 => 1024 | _ => 0
  bptValid k sel && wfield v 14 2 != 3 && decide (fmt ≤ 4) && !(geom != 0 && decide (fmt < 2)) &&
  !(wbit v 23 && decide (bufPages (wfield sel 7 2) ≤ wfield v 16 7)) && decide (1024 * soff + blocks ≤ 65536)

/-- A window's entries and credits (08 R211): whether any write of window n has not returned its credit. -/
def State.windowBusy (s : State) (c : CtxId) (n : Nat) : Bool :=
  let hit (d : Dest) : Bool := match d with | .window m .. => m == n | .global .. => false
  let k := s.core c.core
  k.comb.any (fun e => e.bank == c.bank && hit e.dest) || k.owed.any (fun o => o.bank == c.bank && hit o.dest) ||
  k.ap.any (fun w => w.ctx == c && w.kind == .store && w.units.any (fun u => u.spots.any (fun x => match x.place with | .win d _ _ => hit d | _ => false)))

/-- The open entries of a window sent (08 R211). -/
def State.flushWindow (s : State) (c : CtxId) (n : Nat) : State :=
  s.sendEntries c.core (fun e => e.bank == c.bank && (match e.dest with | .window m .. => m == n | .global .. => false))

/-- The effect of MTS (14 R334): field by field under 00 R4, R5. The write of STSELn and STCNTn, at the end of the clk, follows the
charge of the clk (05 R142, R143). -/
def mtsBody (n : Nat) (v : Word) (s : State) : Res :=
  let c := s.foc.ctx
  let kd := kindOf c.core
  let ill : Res := .trap cILLEGAL (s.firstHalf.setWidth 64)
  match n with
  | 0x006 =>
    .done ((s.modF (fun x => { x with timecmp := v, pending := Sp.erase x.pending cTIMER })).postTimer c)
  | 0x010 => .done (s.modF (fun x => { x with vf := { x.vf with vstat := writeVstat x.vf.vstat v } }))
  | 0x011 => .done (s.modF (fun x => { x with vf := { x.vf with dstat := writeDstat x.vf.dstat v } }))
  | 0x018 => .done (s.modF (fun x => { x with trapc := withField x.trapc 0 2 (wfield v 0 2) }))
  | 0x01A => .done (s.modF (fun x => { x with tvec := v &&& 0x800000000000FFFF }))
  | 0x01B => .done (s.modF (fun x => { x with fssel := v &&& 0x1FFF }))
  | 0x020 => .done (s.modF (fun x => { x with a := { x.a with tripc := v } }))
  | 0x021 => .done (s.modF (fun x => { x with a := { x.a with tailc := v.setWidth 4 } }))
  | 0x022 => .done (s.modF (fun x => { x with a := { x.a with swin := v.setWidth 4 } }))
  | 0x024 => .done (s.modF (fun x => { x with v := { x.v with tripc := v } }))
  | 0x025 => .done (s.modF (fun x => { x with v := { x.v with tailc := v.setWidth 4 } }))
  | 0x026 => .done (s.modF (fun x => { x with v := { x.v with swin := v.setWidth 4 } }))
  | 0x030 =>
    if !s.fctx.eng.idle then .wait 0x03 s
    else
      let f (i : Nat) : Nat := Nat.min (wfield v (4 * (i - 1)) 4) 8
      .done (s.modF (fun x => { x with tokens := Sp.setAll 0 [] [(1, f 1), (2, f 2), (3, f 3), (4, f 4)] }))
  | 0x032 => .done (s.modF (fun x => { x with bptsel := v &&& 0x1FF }))
  | 0x033 =>
    let sel := s.fctx.bptsel
    if !bptWriteOk kd sel v then ill
    else .done (s.modF (fun x =>
      { x with bpt := Sp.set bptRelease x.bpt (128 * wfield sel 7 2 + wfield sel 0 7) (v &&& 0xBFFFFF00) }))
  | _ =>
    if 0x40 ≤ n ∧ n ≤ 0x47 then .whole ((s.issued 2).modF (fun x => { x with stsel := Sp.set 0 x.stsel (n - 0x40) (v &&& 0x7FF) }))
    else if 0x48 ≤ n ∧ n ≤ 0x4F then
      .whole ((s.issued 2).modF (fun x => { x with stcnt := Sp.set 0 x.stcnt (n - 0x48) (v &&& 0xFFFFFFFFFFFF) }))
    else if 0x100 ≤ n ∧ n ≤ 0x11F then
      let w := n % 16
      if n < 0x110 && wfield v 61 2 == 3 then ill
      else
        let s := s.flushWindow c w
        if s.windowBusy c w then .wait 0x03 s
        else if n < 0x110 then .done (s.modF (fun x => { x with win := Sp.set 0 x.win w (v &&& 0xE00000000FFF003F) }))
        else .done (s.modF (fun x => { x with allow := Sp.set 0 x.allow w (BitVec.ofNat 64 (wfield v 0 8 * 257)) }))
    else .done s

/-- MTS (14 R334; 12 R283; 08 R211). A register all of whose fields are RO is left as it is (13 R313). -/
def execMts (sr : BitVec 12) (a : BitVec 5) (s : State) : Host.Outcome State Fault Refusal :=
  let n := sr.toNat
  word32 { feature := if 0x100 ≤ n ∧ n ≤ 0x11F then some 4 else none
           priv := (srHandler n && s.fctx.normal) || (n == 0x30 && !s.fctx.normal), srcs := [a.toNat] }
    (fun s => mtsBody n (s.rd a) s) s

/-! ## Barriers (14 R336, R337; 05 R117, R118) -/

/-- The completion latency of a scope (05 R117). -/
def barLatency (mod scope : Nat) : Nat :=
  match scope with
  | 1 => 3
  | 2 => 6
  | 3 => 24
  | _ => Nat.min (Config.podblatRaw mod) 8192

def State.putBar (s : State) (u : BarUnit) (b : BarState) : State :=
  { s with bars := s.bars.map (fun q => if q.1 = u then (u, b) else q) }

def State.barUnit (s : State) (scope bid : Nat) : BarUnit := s.barUnitOf s.foc.ctx scope bid

/-- The name of the redundant pair of a context: its member on the lower core. -/
def State.pairName (s : State) (c : CtxId) : Option CtxId := (s.partner c).map (fun d => if c.core < d.core then c else d)

/-- A phase of a unit with one more arrival: a redundant pair arrives as one party, with its second member (05 R118). -/
def BarState.arrived (b : BarState) (pair : Option CtxId) : BarState :=
  match pair with
  | none => { b with count := b.count + 1 }
  | some c => if b.halves.contains c then { b with count := b.count + 1, halves := b.halves.filter (fun d => d != c) } else { b with halves := c :: b.halves }

def misuse (scope bid : Nat) : Res := .trap cBARRIER (BitVec.ofNat 64 (256 * scope + bid))

/-- An arrival counted; with the last one the phase completes (14 R336; 05 R118). -/
def State.countArrival (s : State) (core : Nat) (u : BarUnit) (pair : Option CtxId) : State :=
  match s.bar u with
  | none => s
  | some b =>
    let b := b.arrived pair
    if b.nparty ≤ b.count then
      let t := s.clk + barLatency (modOf core) u.scope
      (s.putBar u { b with count := 0, phase := b.phase + 1, leave := t }).post t (.barrierRelease u b.phase)
    else s.putBar u b

/-- An arrival counted at once, or when its release has been performed (14 R337). -/
def State.arriveAt (s : State) (i : StreamId) (u : BarUnit) : State :=
  let pair := s.pairName i.ctx
  if s.performed i u.scope false then s.countArrival i.ctx.core u pair
  else
    let (id, s) := s.nextId
    s.modCore i.ctx.core (fun k => { k.nameBefore i u.scope id with arrivals := k.arrivals ++ [⟨id, i.ctx, u, pair, k.groupsOf i⟩] })

/-- The arrivals of a core whose releases have been performed, counted; those of contexts that `p` names. -/
def State.arrivalsDone (s : State) (core : Nat) (p : CtxId → Bool) : State :=
  let k := s.core core
  let (now, later) := k.arrivals.partition (fun a => p a.ctx && k.cleared a.id a.groups)
  if now.isEmpty then s
  else now.foldl (fun t a => t.countArrival core a.unit a.pair) (s.modCore core (fun k => { k with arrivals := later }))

/-- The arrivals of contexts that have ended, looked at as a clk begins. -/
def State.arrivalsTick (s : State) : State :=
  (s.cores.filter (fun (e : Nat × CoreSt) => !e.2.arrivals.isEmpty)).foldl
    (fun t e => t.arrivalsDone e.1 (fun c => !(t.ctx c).resident)) s

/-- The arrival of a party, which releases (14 R336, R337). `after` goes on in the same clk. -/
def barArrive (scope bid : Nat) (after : State → Res) (s : State) : Res :=
  let u := s.barUnit scope bid
  match s.bar u with
  | none => misuse scope bid
  | some b =>
    if (match s.fctx.party u with | some (p, _) => p == b.phase | none => false) then misuse scope bid
    else after (((s.flush s.foc.ctx).modF (fun x => x.setParty u (b.phase, true))).arriveAt s.foc u)

/-- The wait of a party (14 R336): 1 clk where it may leave, or else the word issues and the stream waits for BARRIER_RELEASE. -/
def barWait (scope bid : Nat) (s : State) : Res :=
  let u := s.barUnit scope bid
  match s.bar u, s.fctx.party u with
  | some b, some (p, true) =>
    if p < b.phase && decide (b.leave ≤ s.clk) then .done (s.modF (fun x => x.setParty u (p, false)))
    else .wait 0 (s.modFs (fun y => { y with hold := .barrier scope bid }))
  | _, _ => misuse scope bid

/-- BAR.arrive (14 R336). -/
def execBarArrive (sc : BitVec 3) (i : BitVec 5) (s : State) : Host.Outcome State Fault Refusal :=
  word32 { priv := !s.fctx.normal } (barArrive sc.toNat i.toNat .done) s

/-- BAR.wait (14 R336). -/
def execBarWait (sc : BitVec 3) (i : BitVec 5) (s : State) : Host.Outcome State Fault Refusal :=
  word32 { priv := !s.fctx.normal } (barWait sc.toNat i.toNat) s

/-- BAR.aw (14 R336): it arrives once, and then only waits. -/
def execBarAw (sc : BitVec 3) (i : BitVec 5) (s : State) : Host.Outcome State Fault Refusal :=
  word32 { priv := !s.fctx.normal }
    (fun s =>
      if s.fstrm.begun then barWait sc.toNat i.toNat s
      else barArrive sc.toNat i.toNat (fun s => barWait sc.toNat i.toNat (s.modFs (fun y => { y with begun := true }))) s) s

/-! ## Waits -/

/-- TWAIT (14 R338; 04 R112; 07 R186): it issues in this clk, the clk up to its target are waited (none where the target is the next
clk), and TWAIT_EXPIRY lets the next word issue in the target clk. One that waits at least 1 clk sets the slip to 0. -/
def execTwait (p : Bool) (a : BitVec 5) (s : State) : Host.Outcome State Fault Refusal :=
  word32 { srcs := [a.toNat] }
    (fun s =>
      let v := s.rd a
      let t := wfield v 0 48
      let tag := wfield v 48 16
      if p && t == 0xFFFFFFFFFFFF then .done s
      else
        let d := (t + 2 ^ 48 - wfield (s.cyc s.foc.ctx.core) 0 48) % 2 ^ 48
        let timed := !(p && s.fctx.guarded) && decide (1 ≤ d) && decide (d < 2 ^ 47)
        if timed && (p || decide (2 ≤ d)) then
          let s := s.modFs (fun y => { y with slip := if d = 1 then y.slip else 0
                                              hold := .cycle (s.clk + d) (if p then some tag else none) s.clk })
          .wait 0 (s.post (s.clk + d) (.twaitExpiry s.foc))
        else if p && s.fctx.copyPending tag then .wait 0 (s.modFs (fun y => { y with hold := .promise tag s.clk }))
        else .done s) s

/-- The memory word that WAITM reads, with its key: in the own module as it stands, elsewhere by a remote read, behind the stores of the core that
it may come from (08 R215; 09 R226, R241). -/
inductive Peek where
  | value (key : Nat) (v : Word)
  | wait (s : State)
deriving DecidableEq, Repr

def State.peek (s : State) (l : Leaf) (mod pa : Nat) : Peek :=
  let core := s.foc.ctx.core
  let v (m : Memory) (k : Nat) : Word := BitVec.ofNat 64 (Memory.readLE m k 8)
  if s.placeHeld s.foc false (.mem l mod pa) 8 then .wait s
  else match (if l.mir then s.mirrorSource core mod else some mod) with
  | none => .wait s
  | some m =>
    match s.forwardCase core (.global m (homeStation pa)) pa 8 with
    | .taken bs => .value (memKey m pa) (BitVec.ofNat 64 (ofBytesLE bs))
    | .wait => .wait s
    | .go =>
      if !s.byRing core l.mir m pa then .value (memKey m pa) (v s.mem (memKey m pa))
      else match s.fstrm.fetch with
        | some (_, some got) => .value (memKey m pa) (v got (memKey m pa))
        | some (_, none) => .wait s
        | none => .wait (s.beginFetch s.foc [(m, pa, 8, l.mir, m)])

/-- WAITM (14 R339). A remote word that has changed since it was read is read again at once. -/
def execWaitm (a d : BitVec 5) (s : State) : Host.Outcome State Fault Refusal :=
  word32 { srcs := [a.toNat, d.toNat], outs := [d.toNat] }
    (fun s =>
      let ea := s.rd a
      if ea.toNat % 8 ≠ 0 then .trap cALIGN ea
      else if wfield ea 56 8 ≠ 0 then .trap cPERM ea
      else if s.acquiring s.foc then .wait 0x03 s
      else
        match s.resolve .read 8 ea with
        | .stop (.wait _ s) => .wait 0x3B s
        | .stop r => r
        | .at (.mem l m pa) s =>
          match s.peek l m pa with
          | .wait s => .wait 0x3B s
          | .value key v =>
            if v != s.rd d then
              let (t, s) := s.freeTime
              .done (s.interlocked d.toNat (s.clk + t) v)
            else
              let stale := s.fstrm.fetch.isSome && BitVec.ofNat 64 (Memory.readLE s.mem key 8) != v
              .wait 0x3B (s.modFs (fun y => { y with hold := if stale then .no else .memory key, fetch := none }))
        -- register space is for LD and ST only (03 R69; log 77)
        | .at _ _ => .trap cPERM ea) s

/-- QWAIT (14 R340; 02 R56, R57). -/
def execQwait (sc : BitVec 3) (s : State) : Host.Outcome State Fault Refusal :=
  word32 { feature := some 3, priv := !s.fctx.normal }
    (fun s =>
      let c := s.foc.ctx
      if s.fctx.handler.isSome then .trap cLEAK 0
      else if s.fstrm.hold = .passed then .done s
      else
        let s := s.flush c
        let q : QReg := ⟨c, sc == 4, s.clk, s.fctx.job⟩
        let s := s.modSta (stationOf c.core) (fun t => { t with qregs := t.qregs.filter (fun q => q.ctx != c) ++ [q] })
        .wait 0x3A (s.modFs (fun y => { y with hold := .quiet }))) s

/-- SIGNAL (14 R341): an uncounted management slot; none for a core or a module that is not there. -/
def execSignal (a : BitVec 5) (s : State) : Host.Outcome State Fault Refusal :=
  word32 { srcs := [a.toNat] }
    (fun s =>
      let v := s.rd a
      let core := s.foc.ctx.core
      if 11 ≤ wfield v 0 4 || !s.pod.mods.contains (wfield v 8 6) then .done s
      else
        .done (s.egress core
          (mgmtSlot core s.fctx.job (wfield v 8 6) (wfield v 5 3) (wfield v 0 4) 7 [wfield v 4 1]) (s.clk + 1))) s

/-! ## Messages -/

/-- Messages of a core that its station has not injected yet (14 R346). -/
def State.unsent (s : State) (core : Nat) : Nat :=
  (s.core core).sends.length + ((s.sta (stationOf core)).outq.filter (fun q => q.2.kind == 2 && q.2.score.toNat == scoreOf core && !q.2.rtn)).length

/-- SEND (14 R346). -/
def execSend (g : Guard) (b a : BitVec 5) (s : State) : Host.Outcome State Fault Refusal :=
  word32 { feature := some 3, priv := !s.fctx.normal, guard := g, srcs := [a.toNat, b.toNat] }
    (fun s =>
      let c := s.foc.ctx
      let h := s.rd a
      let o := s.rd b
      let n := 64 * (wfield h 46 2 + 1)
      if o.toNat % 64 ≠ 0 then .trap cALIGN o
      else if 0x300000 < o.toNat + n || ((kindOf c.core).ctl && decide (o.toNat < 0x2F0000)) then .trap cPERM o
      else if !(linesOf o.toNat n).all (fun l => let e := s.entryAt c 1 (64 * l); entV e && entAv e) then .trap cPERM o
      else if 11 ≤ wfield h 0 4 || !s.pod.mods.contains (wfield h 8 6) then .trap cPERM o
      else if s.acquiring s.foc then .wait 0x03 s
      else
        let s := s.flush c
        if 16 ≤ s.unsent c.core then .wait 0x03 s
        else
          let k := s.core c.core
          let s := if k.poisoned 1 o.toNat n then s.raiseAsync c cPOISON o else s
          .done (s.sendMessage s.foc
            (slotFrom c.core 2 s.fctx.job (wfield h 8 6) (wfield h 5 3) (wfield h 0 4) (wfield h 46 2) 0 (wfield h 48 16)
              (Memory.readN k.memX o.toNat n)))) s

/-- HRET (14 R347; 02 R47). -/
def execHret (g : Guard) (s : State) : Host.Outcome State Fault Refusal :=
  word32 { feature := some 3, priv := !s.fctx.normal, guard := g }
    (fun s =>
      match s.fctx.handler with
      | none => .trap cLEAK 0
      | some e =>
        let s := s.flush s.foc.ctx
        if !s.performed s.foc 4 false then .wait 0x03 s
        else
          let s := s.modF (fun x => { x with handler := none, inbox := x.inbox.filter (fun i => i != e) })
          .done (s.countTaken s.foc.ctx.core s.fctx.job)) s

/-! ## Traps (14 R349) -/

/-- TRAP: it issues, and the cause is delivered in the next clk (12 R284). -/
def execTrap (code : BitVec 12) (s : State) : Host.Outcome State Fault Refusal :=
  word32 {}
    (fun s => .done ((s.modF (fun x => { x with sysTrap := some (code.setWidth 64, x.c.pc, x.c.reps) })).post (s.clk + 1) (.trapDelivery s.foc.ctx))) s

/-- The halfwords of the word at a position: 2 where bit 0 is set, 1 otherwise (13 R300). -/
def wordHalves (h : Half) : Nat := if h.getLsbD 0 then 2 else 1

/-- A stream's record moved past its trapping word; past the header where the cause was raised at one (12 R293; log 19). -/
def skipWord (k : CoreSt) (st : Stream) (y : StreamSt) : StreamSt :=
  if y.atHeader then
    let w0 := k.half st (y.pc + 1) ++ k.half st y.pc
    { y with blk := y.pc, len := (w0.extractLsb' 7 12).toNat, reps := (w0.extractLsb' 19 12).toNat, pc := y.pc + 4, atHeader := false }
  else y.advance (wordHalves (k.half st y.pc))

/-- The saved C record as a stream position, and back. -/
def StreamRec.skip (k : CoreSt) (r : StreamRec) : StreamRec :=
  let y := skipWord k .c { StreamSt.reset with pc := r.pc, blk := r.blk, len := r.len, reps := r.reps, atHeader := r.atHeader }
  { r with pc := y.pc, blk := y.blk, len := y.len, reps := y.reps, atHeader := y.atHeader, begun := false, stall := 0 }

/-- Whether the last cause was precise and not TRAP (12 R281, R293). -/
def skippable (trapc : Word) : Bool :=
  let c := wfield trapc 56 8
  decide (1 ≤ c) && decide (c ≤ 0x0B)

/-- RTE: the context resumes at u + 24 (12 R293); an EVAC's mark is cleared (05 R133). -/
def rteBody (skip : Bool) (s : State) : Res :=
  let c := s.foc.ctx
  let k := s.fcore
  let s := s.modF (fun x =>
    let x := { x with phase := .returning (s.clk + 24), evacuated := none }
    if skip && skippable x.trapc then
      match wfield x.trapc 46 2 with
      | 0 => { x with saved := x.saved.map (fun r => r.skip k) }
      | 1 => { x with a := skipWord k .a { x.a with stall := 0 } }
      | _ => { x with v := skipWord k .v { x.v with stall := 0 } }
    else x)
  .done (s.post (s.clk + 24) (.rteResume c))

/-- RTE (14 R349). -/
def execRte (s : State) : Host.Outcome State Fault Refusal := word32 { priv := s.fctx.normal } (rteBody false) s

/-- RTE.skip (14 R349). -/
def execRteSkip (s : State) : Host.Outcome State Fault Refusal := word32 { priv := s.fctx.normal } (rteBody true) s

/-! ## MREPAIR (14 R354) -/

def execMrepair (a d : BitVec 5) (s : State) : Host.Outcome State Fault Refusal :=
  word32 { priv := s.fctx.job != 0, srcs := [a.toNat], outs := [d.toNat] }
    (fun s =>
      let v := s.rd a
      let sta := wfield v 18 4
      let m := wfield v 22 6
      if wfield v 28 2 = 3 || decide (12 ≤ sta) || !s.pod.mods.contains m then .done (s.interlocked d.toNat s.clk 1)
      else
        let i := s.foc
        let core := i.ctx.core
        let (id, s) := s.awaited d.toNat
        let s := s.egress core (mgmtSlot core 0 m sta 0 6 [v.toNat, i.ctx.core, i.ctx.bank, id]) (s.clk + 1)
        .done (s.post (s.clk + 65536) (.mrepairNoAnswer i id))) s

end Sys2Proof.Machine
end

