-- ==== Sys2Proof/Machine/Waypoint.lean ====
section
/-! DEFINITION. Waypoints, evacuation records, checkpoints and retirement (14 R350 to R353; 04 R107, R113 to R115; 05 R133, R135;
06 R157, R158). -/

namespace Sys2Proof.Machine

/-! ## Retirement (05 R133) -/

/-- Dies that accepted a plat without parcels of their own keep it until the last die with parcels is done with it (05 R127; log 72): their
records take the code. -/
def State.finishGuests (s : State) (plat : Word) (code detail : Nat) : State :=
  if s.dies.any (fun d => d.2.plats.any (fun p => p.plat == plat && p.parcels.any (fun q => 8 * q.mod + q.die == d.1))) then s
  else (s.dies.map Prod.fst).foldl (fun t d => (t.setStatus d plat code detail).freeUnits d plat) s

/-- A die whose parcels of a plat have all retired records EVACUATED or RETIRED and frees what the plat held (05 R131, R133). -/
def State.finishDie (s : State) (die : Nat) (plat : Word) : State :=
  match (s.die die).plat plat with
  | none => s
  | some p =>
    if (s.ctxsOf plat).any (fun c => dieOf c.core == die) then s
    else
      let marks := p.ended.map Prod.snd
      let s := s.modDie die (fun d => { d with gone := (plat :: d.gone).take 256 })
      let s := match marks with
        | some id :: rest => if rest.all (fun m => m == some id) then s.setStatus die plat 0x05 id.toNat else s.setStatus die plat 0x04 0
        | _ => s.setStatus die plat 0x04 0
      (s.freeUnits die plat).finishGuests plat 0x04 0

/-- RETIRE (14 R353). -/
def execRetire (s : State) : Host.Outcome State Fault Refusal :=
  word32 {}
    (fun s =>
      let c := s.foc.ctx
      let x := s.fctx
      if x.handler.isSome then .trap cLEAK 0
      else
        let s := s.flush c
        let k := s.core c.core
        if !x.eng.idle || k.comb.any (fun q => q.bank == c.bank) ||
            k.mirrors.any (fun q => q.2.job == x.job) then .wait 0x03 s
        else
          let s := s.charge s.foc 0
          let s := s.modPlat (dieOf c.core) x.plat (fun p => { p with ended := p.ended ++ [(x.parcel, x.evacuated)] })
          .jumped ((s.freeCtx c).finishDie (dieOf c.core) x.plat)) s

/-! ## WAYPT (14 R350) -/

/-- The contexts that must reach a waypoint together (04 R114); a context without a plat is alone. -/
def State.fellows (s : State) (c : CtxId) : List CtxId :=
  match s.ctxsOf (s.ctx c).plat with
  | [] => [c]
  | cs => cs

/-- Whether the plat of a context ends at its next common waypoint (04 R113). -/
def State.isLate (s : State) (c : CtxId) : Bool := s.platLate (s.ctx c).plat

/-- Whether a fellow of a context has reached the waypoint at which the context stands: its own of the same number with the same id, or a later
one (04 R114). -/
def State.reached (s : State) (x : Ctx) (id : BitVec 12) (d : CtxId) : Bool :=
  let y := s.ctx d
  decide (x.ways < y.ways) || (x.ways == y.ways && y.waypoint == some id)

/-- Whether A and V stand where a context can stop: about to fetch a header, or without text; no result in flight (14 R350). WAYPT names
no map, so that any header counts as that of a RESUME block (log 20). -/
def Ctx.atRest (x : Ctx) : Bool :=
  (!x.a.live || x.a.atHeader) && (!x.v.live || x.v.atHeader) && x.c.pend.isEmpty && x.a.pend.isEmpty && x.v.pend.isEmpty

/-- What a stop at a waypoint must not find (14 R350). -/
def Ctx.waypointState (x : Ctx) : Bool :=
  !x.eng.idle || !x.q14.items.isEmpty || x.tokens.any (fun t => t.2 != 0)

/-- The current edition of a core's die (04 R111). -/
def State.curEdition (s : State) (core : Nat) : BitVec 32 := BitVec.ofNat 32 (s.die (dieOf core)).survey.edition

/-- Guarded timing ends at a common waypoint, and CODE takes CUR (04 R114). -/
def State.leaveGuarded (s : State) (c : CtxId) : State :=
  let cur := s.curEdition c.core
  s.modCtx c (fun x => if x.guarded then { x with guarded := false, edCode := cur, staleAt := true } else x)

/-- A plat stopped at a waypoint (05 R135): its record reads PREEMPTED and its resumption is tried from the next frame on (R137). -/
def State.platStopped (s : State) (plat : Word) (id : BitVec 12) : State :=
  (s.dies.map Prod.fst).foldl (fun t d =>
    match (t.die d).plat plat with
    | none => t
    | some p =>
      let t := t.setStatus d plat 0x03 id.toNat
      let t := t.modPlat d plat (fun p => { p with stopped := some (id, t.clk), asked := none, since := t.clk, age := 0 })
      (t.post (t.clk + p.frame) (.platResume d plat)).post (t.clk + 2 ^ 20) (.priorityAging d plat)) s

/-- Every context of a plat stops at its waypoint (14 R350). -/
def State.stopAll (s : State) (cs : List CtxId) (plat : Word) (id : BitVec 12) : State :=
  let s := cs.foldl (fun t c => (t.leaveGuarded c).modCtx c (fun x =>
    { x with phase := .atWaypoint, stopReq := false, atWay := none, c := x.c.advance 2 })) s
  let s := s.platStopped plat id
  cs.foldl (fun t c => t.reconsider c.core (t.clk + 1)) s

/-- A fellow that waits at the common waypoint leaves it: this clk is the last that it is charged, and its next word is the one after.
One that a handler holds leaves when it is back. -/
def State.leaveWay (s : State) (d : CtxId) : State :=
  let s := s.leaveGuarded d
  if (s.ctx d).phase != .running then s
  else
    let i : StreamId := ⟨d, .c⟩
    let s := if s.turn.contains (.issue i) then { s.charge i 0x44 with turn := s.turn.filter (fun u => u != .issue i) } else s
    s.modCtx d (fun x => { x with atWay := none, c := x.c.advance 2 })

def wayptBody (id : BitVec 12) (s : State) : Res :=
  let c := s.foc.ctx
  if s.fctx.handler.isSome then .trap cLEAK 0
  else
    let s := if s.fstrm.begun then s
      else
        let s := s.flush c
        let t := s.clk - s.fctx.origin - s.fstrm.slip
        (s.modF (fun x => { x with waypoint := some id, freezes := 0, evacuated := none, staleAt := false, atWay := some id, wayCyc := t, ways := x.ways + 1 })).modFs
          (fun y => { y with begun := true })
    let x := s.fctx
    let left : Res := .done (s.modF (fun x => { x with atWay := none }))
    let ends := s.isLate c && decide (x.stopNo ≤ x.ways)
    let stops := x.stopReq && decide (x.stopNo ≤ x.ways)
    if !x.guarded && !stops && !ends then left
    else
      let cs := s.fellows c
      if !cs.all (s.reached x id) then .wait 0x44 s
      else if ends then .jumped ((s.charge s.foc 0).endPlat x.plat cOVERRUN)
      else if stops then
        if !cs.all (fun d => (s.ctx d).atWay == some id && (s.ctx d).atRest) then .wait 0x44 s
        else if cs.any (fun d => (s.ctx d).waypointState) then .jumped (s.endPlatOf c 0x50)
        else .jumped (s.stopAll cs x.plat id)
      else
        -- the last one reached: all parcels go on with their next words in the next clk
        .done (cs.foldl (fun t d => if d = c then t.leaveGuarded d else if (t.ctx d).atWay == some id then t.leaveWay d else t)
          (s.modF (fun x => { x with atWay := none })))

/-- WAYPT (14 R350). -/
def execWaypt (id : BitVec 12) (s : State) : Host.Outcome State Fault Refusal :=
  word32 { priv := !s.fctx.normal }
    (fun s => wayptBody id s) s

/-! ## Evacuation records (06 R157, R158) -/

/-- Why a record is not written. -/
inductive EvacStop where
  | zero
  | masked
  | align (va : Nat)
  | perm (va : Nat)
  | fault (acc : Access) (va kind level : Nat)
deriving DecidableEq, Repr

/-- The page of an access of EVAC or CKPT in its job's space (14 R351): what a word of C raises there, this raises (03 R68, R69, R76; 08 R217,
R219; log 77). -/
def State.recordPage (s : State) (c : CtxId) (acc : Access) (va : Nat) : Except EvacStop Leaf :=
  let x := s.ctx c
  let here := modOf c.core
  let check (l : Leaf) : Option EvacStop :=
    if l.mir && !x.hasFeature 5 then some .masked
    else if l.home = 3 then some (.align va)
    else if l.forbids acc x.job || (l.mir && acc == .write && !(s.mirror here (l.homeMod here)).1) then some (.perm va)
    else none
  match s.walk c.core x.job.toNat acc va with
  | .ok l => (match check l with
    | some e => .error e
    | none => .ok l)
  | .fault 2 _ _ => .error (match s.walk c.core x.job.toNat .probe va with
    | .ok l => (check l).getD (.perm va)
    | .fault .. => .perm va)
  | .fault k l _ => .error (.fault acc va k l)

/-- Bytes that EVAC reads in its job's space, page by page (14 R351; 01 R38). -/
def State.evacRead (s : State) (c : CtxId) (va n : Nat) : Except EvacStop (List Byte) :=
  let last := (va + n - 1) / 65536
  (List.range (last - va / 65536 + 1)).foldl (fun acc i =>
    let lo := Nat.max va ((va / 65536 + i) * 65536)
    let hi := Nat.min (va + n) ((va / 65536 + i + 1) * 65536)
    match acc with
    | .error e => .error e
    | .ok bs =>
      match s.recordPage c .read lo with
      | .error e => .error e
      | .ok l =>
        let home := l.homeMod (modOf c.core)
        let m := if l.mir then (s.mirrorSource c.core home).getD home else home
        .ok (bs ++ Memory.readN s.mem (memKey m (l.pa lo)) (hi - lo))) (.ok [])

/-- A location record of a map (06 R157). -/
structure Loc where
  slot : Nat
  kind : Nat
  reg : Nat
  off : Nat
  len : Nat
deriving DecidableEq, Repr

/-- A map entry. -/
structure MapEntry where
  wpid : Nat
  strm : Nat
  resume : Nat
  locs : List Loc
deriving DecidableEq, Repr

def locOf (bs : List Byte) : Loc :=
  let f (o n : Nat) := ofBytesLE ((bs.drop o).take n)
  ⟨f 0 4, f 4 1, f 5 1, f 8 4, f 12 4⟩

/-- The map read entry by entry up to its terminator, within 1 MiB of its start (14 R351). -/
def State.readMap (s : State) (c : CtxId) (va : Nat) : Nat → Nat → List MapEntry → Except EvacStop (List MapEntry)
  | 0, _, _ => .error .zero
  | fuel + 1, off, acc =>
    if 2 ^ 20 < off + 16 then .error .zero
    else
      match s.evacRead c (va + off) 16 with
      | .error e => .error e
      | .ok h =>
        let wp := ofBytesLE (h.take 4)
        if wp = 0xFFFFFFFF then .ok acc
        else
          let n := ofBytesLE ((h.drop 6).take 2)
          match (if n = 0 then .ok [] else s.evacRead c (va + off + 16) (16 * n)) with
          | .error e => .error e
          | .ok bs =>
            s.readMap c va fuel (off + 16 + 16 * n) (acc ++ [⟨wp, ofBytesLE ((h.drop 4).take 1), ofBytesLE ((h.drop 8).take 8), (chunks 16 n bs).map locOf⟩])

/-- The data of a location of a stream; none where the core lacks it (06 R158, 14 R351). -/
def State.locData (s : State) (c : CtxId) (strm : Nat) (l : Loc) : Option (List Byte) :=
  let x := s.ctx c
  let kd := kindOf c.core
  match l.kind with
  | 1 => if l.reg < 32 then (match strm with
      | 0 => some (bytesLE 8 (x.c.reg l.reg).toNat)
      | 1 => some (bytesLE 8 (x.a.reg l.reg).toNat)
      | _ => none) else none
  | 2 => if l.reg < 48 then (match strm with
      | 0 => some (bytesLE 8 (bit (x.c.pred .c l.reg)))
      | 1 => some (bytesLE 8 (bit (x.a.pred .a l.reg)))
      | _ => some (bytesLE 128 (x.vmask l.reg).toNat)) else none
  | 3 => if strm = 2 && decide (l.reg < 32) then some ((x.vreg l.reg).flatMap (fun e => bytesLE 4 e.toNat)) else none
  | 4 =>
    if strm = 2 && decide (l.reg < 16) then
      some ((x.dreg l.reg).bytes ++ bytesLE 2 (x.dreg l.reg).tag.toNat ++ bytesLE 2 (x.dreg l.reg).lin.toNat)
    else none
  | 5 =>
    if l.reg < 4 || l.reg = 15 then
      if kd.ctl && (l.reg == 1 || l.reg == 3) then none
      else
        let q := (x.sq l.reg).items
        some (bytesLE 8 q.length ++ q.flatMap (fun e => bytesLE 8 e.1.toNat))
    else if 4 ≤ l.reg ∧ l.reg ≤ 9 ∧ !kd.ctl then
      let q := (x.dq l.reg).items
      some (bytesLE 8 q.length ++ q.flatMap (fun g => (g.data.getD []).flatMap (fun e => bytesLE 4 e.toNat)))
    else none
  | 6 =>
    if l.reg < 3 && decide (l.off + l.len ≤ bufSize l.reg) && (!kd.ctl || (l.reg == 1 && decide (0x2F0000 ≤ l.off))) then
      some (Memory.readN ((s.core c.core).buf l.reg) l.off l.len)
    else none
  | 7 => if srPresent kd l.reg then some (bytesLE 8 (s.srRead c l.reg).toNat) else none
  | _ => none

/-- Bytes padded to a multiple of 16 (06 R158). -/
def pad16 (bs : List Byte) : List Byte := bs ++ List.replicate ((16 - bs.length % 16) % 16) 0

/-- A record's entry (06 R158). -/
def State.recordEntry (s : State) (c : CtxId) (strm : Nat) (l : Loc) : Option (List Byte) :=
  (s.locData c strm l).map (fun d =>
    bytesLE 4 l.slot ++ bytesLE 1 l.kind ++ List.replicate 3 0 ++ bytesLE 8 d.length ++ pad16 d)

/-- All values, or none. -/
def allSome {α : Type} : List (Option α) → Option (List α)
  | [] => some []
  | none :: _ => none
  | some a :: xs => (allSome xs).map (fun l => a :: l)

/-- The edition that a context's code is built for: its plat's entry for the die, whatever CODE has become since (06 R158; log 62). -/
def State.codeEdition (s : State) (c : CtxId) : Nat :=
  match (s.platRec c).bind (fun p => p.edits.find? (fun e => 8 * e.1 + e.2.1 == dieOf c.core)) with
  | some e => e.2.2
  | none => (s.ctx c).edCode.toNat

/-- The record of R158 for the current waypoint, in the order C, A, V. -/
def State.evacRecord (s : State) (c : CtxId) (map : List MapEntry) : Option (List Byte) :=
  let x := s.ctx c
  match x.waypoint with
  | none => none
  | some wp =>
    let present := 0 :: (if x.a.live then [1] else []) ++ (if x.v.live then [2] else [])
    let entry (st : Nat) : Option MapEntry := map.find? (fun e => e.wpid == wp.toNat && e.strm == st)
    match allSome (present.map entry) with
    | none => none
    | some es =>
      let locs := es.flatMap (fun e => e.locs.map (fun l => (e.strm, l)))
      match allSome (locs.map (fun p => s.recordEntry c p.1 p.2)) with
      | none => none
      | some ds =>
        let body := ds.flatten
        some (bytesLE 4 1 ++ bytesLE 4 wp.toNat ++ bytesLE 8 x.plat.toNat ++ bytesLE 2 x.parcel ++ bytesLE 2 locs.length ++
          bytesLE 4 (s.codeEdition c) ++ bytesLE 8 (64 + body.length) ++ bytesLE 8 x.wayCyc ++ List.replicate 24 0 ++ body)

/-- The stores of a record (14 R351): its lines but for the FORMAT word, and that word last. -/
def recordPlan (va : Nat) (bs : List Byte) : List (Nat × List Byte) :=
  let body := bs.drop 4
  (va + 4, body.take 60) :: (chunks 64 ((body.length + 3) / 64) (body.drop 60)).zipIdx.map (fun p => (va + 64 * (p.2 + 1), p.1)) ++ [(va, bs.take 4)]

/-- What stops a record before its first store. -/
def State.recordStop (s : State) (c : CtxId) (ws : List (Nat × List Byte)) : Option EvacStop :=
  ws.findSome? (fun w => match s.recordPage c .write w.1 with
    | .error e => some e
    | .ok _ => none)

/-- One line of a record stored by the C stream; none while the store waits. -/
def State.recordStore (s : State) (c : CtxId) (w : Nat × List Byte) : Except EvacStop (Option State) :=
  match s.recordPage c .write w.1 with
  | .error e => .error e
  | .ok l => .ok (s.storeHome ⟨c, .c⟩ l (l.homeMod (modOf c.core)) (l.pa w.1) w.2)

/-- The lines of a record stored as far as none waits, with those left. The FORMAT word, the last, is a store-release at .pod: it waits until what
came before it has been performed (14 R327, R351). -/
def State.recordLines (c : CtxId) : State → List (Nat × List Byte) → Except EvacStop (State × List (Nat × List Byte))
  | s, [] => .ok (s, [])
  | s, w :: ws =>
    let s := if ws.isEmpty then s.flush c else s
    if ws.isEmpty && !s.performed ⟨c, .c⟩ 4 false then .ok (s, [w])
    else
      match s.recordStore c w with
      | .error e => .error e
      | .ok none => .ok (s, w :: ws)
      | .ok (some t) => t.recordLines c ws

/-- A clk of the writing of a record, and whether its store-release has been performed (14 R351). -/
def State.recordStep (s : State) (c : CtxId) (r : RecWrite) : Except EvacStop (Bool × State) :=
  match s.recordLines c r.left with
  | .error e => .error e
  | .ok (t, left) =>
    let t := (t.flush c).modStrm ⟨c, .c⟩ (fun y => { y with writing := some { r with left := left } })
    .ok (left.isEmpty && t.performed ⟨c, .c⟩ 4 false, t)

/-- A record that is to be written. -/
def State.recordBegin (s : State) (c : CtxId) (va : Nat) (bs : List Byte) : Except EvacStop (Bool × State) :=
  let ws := recordPlan va bs
  match s.recordStop c ws with
  | some e => .error e
  | none => s.recordStep c ⟨bs.length, ws⟩

/-- Whether a map's queues of the current waypoint have all their granules' data (06 R158). -/
def Ctx.granulesReady (x : Ctx) : Bool :=
  [x.q4, x.q5, x.q6, x.q7, x.q8, x.q9].all (fun q => q.items.all (fun g => g.data.isSome))

/-- What stopped a record, as the end of a word. -/
def State.evacStopped (s : State) (e : EvacStop) (zero : Res) : Res :=
  match e with
  | .zero => zero
  | .masked => .trap cMASKED 5
  | .align va => .trap cALIGN (BitVec.ofNat 64 va)
  | .perm va => .trap cPERM (BitVec.ofNat 64 va)
  | .fault acc va k l => s.pageFaults acc va k l

/-- What a request raises before the causes of the word's entry (12 R284): a masked feature, a misaligned request, a misaligned record; `at_`
is the record's address where the request does not give it. -/
def State.requestStop (s : State) (c : CtxId) (ra : Word) (at_ : Option Nat) : Option Res :=
  let record (va : Nat) : Option Res := if va % 64 ≠ 0 then some (.trap cALIGN (BitVec.ofNat 64 va)) else none
  if ra.toNat % 16 ≠ 0 then some (.trap cALIGN ra)
  else
    match s.evacRead c ra.toNat 16 with
    | .error .masked => some (.trap cMASKED 5)
    | .error (.align va) => some (.trap cALIGN (BitVec.ofNat 64 va))
    | .error _ => none
    | .ok rq => record (at_.getD (ofBytesLE (rq.take 8)))

/-- A request of EVAC and CKPT: the record's address, and the map; none without a terminator (14 R351). -/
def State.evacMap (s : State) (c : CtxId) (ra : Word) : Except EvacStop (Nat × Option (List MapEntry)) :=
  match s.evacRead c ra.toNat 16 with
  | .error e => .error e
  | .ok rq =>
    let rec_ := ofBytesLE (rq.take 8)
    match s.readMap c (ofBytesLE ((rq.drop 8).take 8)) 65537 0 [] with
    | .error .zero => .ok (rec_, none)
    | .error e => .error e
    | .ok m => .ok (rec_, some m)

/-- The record that a request asks for (14 R351). -/
def State.evacRequest (s : State) (c : CtxId) (ra : Word) : Except EvacStop (Nat × Option (List Byte)) :=
  match s.evacMap c ra with
  | .error e => .error e
  | .ok (va, m) => .ok (va, m.bind (s.evacRecord c))

/-- The RESUME blocks of the current waypoint in the map of a request (06 R157; log 20). -/
def State.resumeAt (s : State) (c : CtxId) (ra : Word) : List (Nat × Nat) :=
  match s.evacMap c ra, (s.ctx c).waypoint with
  | .ok (_, some m), some wp => (m.filter (fun e => e.wpid == wp.toNat && e.strm != 0)).map (fun e => (e.strm, e.resume))
  | _, _ => []

/-- Whether A and V are stopped at the current waypoint, before the headers of their RESUME blocks, or have no text (14 R351). -/
def Ctx.avStopped (x : Ctx) : Bool := (!x.a.live || (x.a.atHeader && x.avHeld .a)) && (!x.v.live || (x.v.atHeader && x.avHeld .v))

/-- EVAC (14 R351). In a handler it is a word of a context that stopped at a waypoint where it took CODE (04 R114, R115; 12 R283). -/
def execEvac (a d : BitVec 5) (s : State) : Host.Outcome State Fault Refusal :=
  let x := s.fctx
  word32 { priv := !x.normal && !(wfield x.trapc 56 8 == cSTALE && x.staleAt), srcs := [a.toNat], outs := [d.toNat] }
    (fun s =>
      let c := s.foc.ctx
      let ra := s.rd a
      let none_ (s : State) : Res := .done ((s.modF (fun x => { x with evacuated := none })).interlocked d.toNat s.clk 0)
      let went (s : State) (n : Nat) (w : Except EvacStop (Bool × State)) : Res :=
        match w with
        | .error e => s.evacStopped e (none_ s)
        | .ok (false, s) => .wait 0x03 s
        | .ok (true, s) =>
          let (t, s) := s.freeTime
          .done ((s.modF (fun x => { x with evacuated := x.waypoint })).interlocked d.toNat (s.clk + t) (BitVec.ofNat 64 n))
      match s.fstrm.writing with
      | some r => went s r.len (s.recordStep c r)
      | none =>
        match s.requestStop c ra none with
        | some r => r
        | none =>
          if s.fctx.handler.isSome then .trap cLEAK 0
          else
            let at_ := s.resumeAt c ra
            let s := s.modF (fun x => { x with avHold := true, avAt := at_ })
            let x := s.fctx
            if !(!x.normal || x.avStopped) || !x.granulesReady then .wait 0x44 s
            else
              let s := s.flush c
              if !s.performed s.foc 4 true then .wait 0x03 s
              else
                match s.evacRequest c ra with
                | .error e => s.evacStopped e (none_ s)
                | .ok (_, none) => none_ s
                | .ok (va, some bs) => went s bs.length (s.recordBegin c va bs)) s

/-! ## CKPT (14 R352, 04 R107) -/

/-- The checkpoint of a plat taken at a waypoint (04 R107): the previous log is discarded and a new interval opens. -/
def State.openInterval (s : State) (plat : Word) (wp : Option (BitVec 12)) : State :=
  { s with dies := s.dies.map (fun (d : Nat × DieSt) => (d.1,
      { d.2 with log := d.2.log.filter (fun l => l.plat != plat)
                 plats := d.2.plats.map (fun p => if p.plat = plat then { p with ckptAt := wp, recoverable := true } else p) })) }

/-- CKPT (14 R352): each parcel writes its record when all have come; where EVAC would write none, none is written (log 40). -/
def execCkpt (a : BitVec 5) (s : State) : Host.Outcome State Fault Refusal :=
  word32 { feature := some 9, priv := !s.fctx.normal, srcs := [a.toNat] }
    (fun s =>
      let c := s.foc.ctx
      let ra := s.rd a
      let x := s.fctx
      let p := s.platRec c
      let on := p.any (fun p => p.ckpt)
      let va := (p.elim 0 (fun p => p.ckptVa.toNat)) + 0x1000000 * x.parcel
      let cs := s.fellows c
      -- the interval opens when the last parcel has come so far
      let ended (s : State) : Res :=
        let s := s.modF (fun x => { x with avHold := false, ckptDone := true })
        if cs.all (fun d => (s.ctx d).ckptDone) then
          .done (cs.foldl (fun t d => t.modCtx d (fun x => { x with atCkpt := none, ckptDone := false }))
            (s.openInterval x.plat x.waypoint))
        else .done s
      let went (s : State) (w : Except EvacStop (Bool × State)) : Res :=
        match w with
        | .error e => s.evacStopped e (ended s)
        | .ok (false, s) => .wait 0x03 s
        | .ok (true, s) => ended s
      match s.fstrm.writing with
      | some r => went s (s.recordStep c r)
      | none =>
        match s.requestStop c ra (some (if on then va else 0)) with
        | some r => r
        | none =>
          if !on then .trap cPERM 0
          else
            let at_ := s.resumeAt c ra
            let s := s.modF (fun x => { x with atCkpt := x.waypoint, avHold := true, avAt := at_ })
            if !cs.all (fun d => ((s.ctx d).atCkpt == x.waypoint || (s.ctx d).ckptDone) && x.waypoint.isSome) then .wait 0x03 s
            else if !s.fctx.avStopped || !x.granulesReady then .wait 0x44 s
            else
              let s := s.flush c
              if !s.performed s.foc 4 true then .wait 0x03 s
              else
                match s.evacRequest c ra with
                | .error e => s.evacStopped e (ended s)
                | .ok (_, none) => ended s
                | .ok (_, some bs) =>
                  if 2 ^ 24 < bs.length then .jumped ((s.charge s.foc 0).endPlatOf c 0x51)
                  else went s (s.recordBegin c va bs)) s

end Sys2Proof.Machine
end

