-- ==== Sys2Proof/Machine/SurveyEv.lean ====
section
/-! DEFINITION. The survey of a die (04 R86 to R97, R100, R110, R115): records and editions, what a change touches, the resurvey; the
trunk links (01 R19, R31 to R34) and the junction sensors (R11). -/

namespace Sys2Proof.Machine

/-! ## Records (04 R88 to R91) -/

/-- The kinds of unit of a die with their counts (04 R89). -/
def unitKinds (die : Nat) : List (Nat × Nat) :=
  [(0x01, 8), (0x02, 8), (0x03, 128), (0x04, 64), (0x05, 64), (0x06, 64), (0x07, 64), (0x08, 1), (0x09, 2), (0x0A, 1), (0x0B, 2), (0x0C, 1)] ++
  (if die % 2 = 0 then [(0x0D, 1)] else [])

/-- Whether a unit exists on a die (04 R89). -/
def unitExists (die : Nat) (u : UnitId) : Bool := (unitKinds die).any (fun k => k.1 == u.kind && decide (u.index < k.2))

/-- The kinds with a speed class (04 R89). -/
def hasClass (kind : Nat) : Bool := kind == 0x03 || kind == 0x04

/-- The compute core of a unit of kind 0x01 to 0x07 (04 R89). -/
def coreOfUnit (u : UnitId) : Nat :=
  match u.kind with
  | 0x03 => u.index / 16
  | 0x01 => u.index
  | 0x02 => u.index
  | _ => u.index / 8

/-- A unit entry (04 R89). -/
def DieSt.unitWord (d : DieSt) (kind index : Nat) : Nat :=
  let u := d.unit kind index
  kind * 2 ^ 24 + index * 2 ^ 16 + u.1 * 2 ^ 14 + u.2 * 2 ^ 12

/-- A path entry (04 R90). -/
def PathEntry.word (p : PathEntry) : Nat :=
  p.pkind * 2 ^ 56 + p.frm * 2 ^ 48 + p.dst * 2 ^ 40 + p.lat % 2 ^ 16 * 2 ^ 16 + p.lanes * 2 ^ 8 + bit p.unlock * 2 ^ 7

/-- An edition-history entry (04 R91). INDEX has 8 bits, and a path entry's place may be 256 or more (04 R90): the low 8 bits stand in the
record then (log 78). -/
def HistEntry.word (h : HistEntry) : Nat := h.edition * 2 ^ 32 + h.kind * 2 ^ 24 + h.index % 256 * 2 ^ 16 + h.low % 2 ^ 16

/-- Unused history entries are 0 (04 R91). -/
def historyWords (hs : List HistEntry) : List Nat := (hs.take 16).map HistEntry.word ++ List.replicate (16 - hs.length) 0

/-- The record of a die's edition, with its signature (04 R88; log 5). -/
def State.surveyRecord (s : State) (die : Nat) : List Byte :=
  let d := s.die die
  let units := (unitKinds die).flatMap (fun k => (List.range k.2).map (fun i => d.unitWord k.1 i))
  let bs := bytesLE 4 1 ++ bytesLE 4 (die % 8) ++ bytesLE 8 (Config.serial (die / 8)).toNat ++ bytesLE 4 d.survey.edition ++
    bytesLE 8 s.clk ++ bytesLE 8 ((s.modu (die / 8)).ptimeNow s.clk).toNat ++ bytesLE 2 units.length ++ bytesLE 2 d.survey.paths.length ++
    (historyWords d.survey.history).flatMap (bytesLE 8) ++ units.flatMap (bytesLE 4) ++
    d.survey.paths.flatMap (fun p => bytesLE 8 p.word)
  bs ++ ((Config.sign (die / 8) bs) ++ List.replicate 132 0).take 132

/-- The record written whole into the area that AREA does not name, and AREA changed with EDITION (04 R87). -/
def State.publish (s : State) (die : Nat) : State :=
  let bs := s.surveyRecord die
  s.modDie die (fun d => { d with survey := { d.survey with
    areas := Memory.writeN d.survey.areas (if d.survey.area then 0x80000 else 0x90000) bs, area := !d.survey.area } })

/-- The edition after another (04 R92). -/
def nextEdition (e : Nat) : Nat := (if (e + 1) % 65536 = 0 then e + 2 else e + 1) % 2 ^ 32

/-- E of an edition signed at a cycle (04 R110). -/
def changeCycle (t : Nat) : Nat := (t + 8192 + 4095) / 4096 * 4096

/-- The plats of the pod, each once. -/
def State.allPlats (s : State) : List PlatRec :=
  s.dies.foldl (fun ps d => ps ++ d.2.plats.filter (fun p => !ps.any (fun q => q.plat == p.plat))) []

/-- The plats that are in guarded timing with every context (04 R115). -/
def State.guardedPlats (s : State) : List Word :=
  (s.allPlats.map (fun p => p.plat)).filter (fun p => s.ctxsOf p != [] && (s.ctxsOf p).all (fun c => (s.ctx c).guarded))

/-- A new edition with its changes (04 R91, R92); none without a change. The state keeps every history entry; a record shows the 16 newest.
At E the change is posted, but to no plat that is in guarded timing as the edition is signed (R110, R115). -/
def State.signEdition (s : State) (die : Nat) (changes : List HistEntry) : State :=
  if changes.isEmpty then s
  else
    let e := nextEdition (s.die die).survey.edition
    let s := s.modDie die (fun d => { d with survey := { d.survey with
      edition := e, history := changes.map (fun c => { c with edition := e }) ++ d.survey.history } })
    (s.publish die).post (changeCycle s.clk) (.surveyChangePost die (BitVec.ofNat 32 e) s.guardedPlats)

/-- A unit set to a STATUS and CLASS, with its history entry, which gets its edition when it is signed; none where nothing changes. -/
def State.setUnit (s : State) (die : Nat) (u : UnitId) (status cls : Nat) : State × List HistEntry :=
  if (s.die die).unit u.kind u.index = (status, cls) then (s, [])
  else
    (s.modDie die (fun d => { d with survey := { d.survey with
      units := Sp.set 0 d.survey.units (256 * u.kind + u.index) (4 * status + cls) } }),
     [⟨0, u.kind, u.index, status * 2 ^ 14 + cls * 2 ^ 12, false, false⟩])

/-! ## Lasting faults (04 R95 to R100) -/

/-- A compute core quarantined with a unit of it, unless it is already so or struck (04 R100). -/
def State.quarantineCore (s : State) (die core : Nat) : State × List HistEntry :=
  let u := (s.die die).unit 0x01 core
  if u.1 = 0 then s.setUnit die ⟨0x01, core⟩ 1 u.2 else (s, [])

/-- A unit struck with a CLASS; a struck check core quarantines its compute core (04 R100). -/
def State.strike (s : State) (die : Nat) (u : UnitId) (cls : Nat) : State × List HistEntry :=
  let (s, hs) := s.setUnit die u 2 cls
  if u.kind = 0x02 then
    let (s, gs) := s.quarantineCore die u.index
    (s, hs ++ gs)
  else (s, hs)

/-- A lasting fault of a unit (04 R100): it is kept apart from the survey, which does not tell it from a strike for speed (R112). -/
def State.lastingFault (s : State) (die : Nat) (u : UnitId) : State × List HistEntry :=
  let old := (s.die die).unit u.kind u.index
  let s := if unitExists die u then s.modDie die (fun d => { d with faulty := ((u.kind, u.index) :: d.faulty).eraseDups }) else s
  if !unitExists die u || old.1 = 2 then (s, [])
  else if u.kind ≤ 0x07 && old.1 == 0 then
    let (s, hs) := s.setUnit die u 1 old.2
    let (s, gs) := s.quarantineCore die (coreOfUnit u)
    (s, hs ++ gs)
  else s.strike die u old.2

/-- Whether a plat names a compute core of a die (05 R120). -/
def PlatRec.names (p : PlatRec) (die core : Nat) : Bool :=
  p.parcels.any (fun q => 8 * q.mod + q.die == die && (q.core == core || q.partner == some core))

/-- Whether a plat has an edition entry for a die (05 R121). -/
def PlatRec.hasEdit (p : PlatRec) (die : Nat) : Bool := p.edits.any (fun e => 8 * e.1 + e.2.1 == die)

/-- The local-core number of a dispatch or management core (01 R20; 04 R89); none of another unit. -/
def controlCore (u : UnitId) : Option Nat :=
  if u.kind = 0x08 then some 8 else if u.kind = 0x09 then some (9 + u.index) else none

/-- Whether a running or pre-empted plat uses a unit (04 R96, R97): a unit of a compute core, where it names the core; a dispatch or
management core, where a context of it is running; a station, memory controller, slice or waystation of a die, where the plat has an edition
entry for the die, the plats that a change of that unit touches (04 R93; log 78). -/
def State.inUse (s : State) (die : Nat) (u : UnitId) : Bool :=
  match controlCore u with
  | some k => s.residents.any (fun c => dieOf c.core == die && scoreOf c.core == k)
  | none => (s.die die).plats.any (fun p => (p.code == 2 || p.code == 3) &&
      (if u.kind ≤ 0x07 then p.names die (coreOfUnit u) else p.hasEdit die))

/-- One result of a resurvey (04 R95 to R97): a lasting fault that the self-test of a unit out of use found (STATUS 1), a unit measured slower
than class C (STATUS 2), which is struck with class C, the slowest there is (20 R412), or a class. -/
def State.resurveyUnit (s : State) (die : Nat) (c : UnitChange) : State × List HistEntry :=
  let old := (s.die die).unit c.unit.kind c.unit.index
  if !unitExists die c.unit || old.1 = 2 then (s, [])
  else match c.status with
    | 0 =>
      if hasClass c.unit.kind && decide (c.cls < 3) && (decide (old.2 < c.cls) || !s.inUse die c.unit) then s.setUnit die c.unit old.1 c.cls
      else (s, [])
    | 1 => if s.inUse die c.unit then (s, []) else s.lastingFault die c.unit
    | 2 => if hasClass c.unit.kind then s.strike die c.unit 2 else (s, [])
    | _ => (s, [])

/-- LAT of a path entry of PKIND 2 or 3 set, with its history entry: LANES 3, and LATCHG (04 R90, R91). -/
def State.setPathLat (s : State) (die : Nat) (c : Nat × Nat) : State × List HistEntry :=
  match (s.die die).survey.paths[c.1]? with
  | none => (s, [])
  | some p =>
    if p.pkind = 1 || p.lat == c.2 % 2 ^ 16 then (s, [])
    else
      (s.modDie die (fun d => { d with survey := { d.survey with paths := d.survey.paths.set c.1 { p with lat := c.2 % 2 ^ 16 } } }),
       [⟨0, 0, c.1, 3 * 2 ^ 14 + 2 ^ 13, false, false⟩])

/-- The next periodic resurvey of a die: as PTIME passes a multiple of 6 hours plus 5 minutes for each die before it (04 R97). -/
def State.postResurvey (s : State) (die : Nat) : State :=
  let p := ((s.modu (die / 8)).ptimeNow s.clk).toNat
  let period := 21600000000000
  let off := die % 8 * 300000000000
  let due := (p + period - off) / period * period + off
  let s : State := { s with agenda := s.agenda.filter (fun (e : Nat × Event) => e.2 != .periodicResurvey die) }
  s.post (s.clk + ((due - p) * 21 + 19) / 20) (.periodicResurvey die)

/-- What a resurvey measures of each unit of a die that is in service: STATUS and CLASS, free values (04 R97; log 68). -/
def State.measured (s : State) (die : Nat) : List UnitChange :=
  (unitKinds die).flatMap (fun k => (List.range k.2).map (fun i =>
    let v := Config.resurveyUnit s.fresh (256 * k.1 + i)
    ⟨⟨k.1, i⟩, v / 4 % 3, v % 4⟩))

/-- PERIODIC_RESURVEY (04 R97): it ends within 50 ms, which is 52,500,000 clk, and the next one follows 6 hours later. -/
def execPeriodicResurvey (s : State) : Host.Outcome State Fault Refusal :=
  match s.cur with
  | some (.periodicResurvey die) =>
    let (d, s) := s.freeTime
    let s := s.modDie die (fun d => { d with survey := { d.survey with running := true } })
    .next ((s.post (s.clk + 1 + d % 52500000) (.resurveyEnd die (s.measured die) [])).postResurvey die)
  | _ => .next s

/-- RESURVEY_END (04 R91, R95 to R97), of a resurvey that is under way: one new edition with every unit and path entry that changed. -/
def execResurveyEnd (s : State) : Host.Outcome State Fault Refusal :=
  match s.cur with
  | some (.resurveyEnd die changes lats) =>
    if !(s.die die).survey.running then .next s
    else
      let s := s.modDie die (fun d => { d with survey := { d.survey with running := false } })
      let r := changes.foldl (fun (a : State × List HistEntry) c =>
        let (t, gs) := a.1.resurveyUnit die c
        (t, a.2 ++ gs)) (s, [])
      let r := lats.foldl (fun (a : State × List HistEntry) c =>
        let (t, gs) := a.1.setPathLat die c
        (t, a.2 ++ gs)) r
      .next (r.1.signEdition die r.2)
  | _ => .next s

/-! ## What a change touches (04 R93) -/

/-- How an edition touches a plat (04 R93). -/
inductive Touch where
  | no
  | lock
  | change
deriving DecidableEq, Repr

def Touch.max (a b : Touch) : Touch :=
  match a, b with
  | .change, _ => .change
  | _, .change => .change
  | .lock, _ => .lock
  | _, b => b

/-- Whether a reservation crosses the trunk link on one side of a waystation; `own` counts only what that waystation transmits. -/
def State.crossesLink (s : State) (r : Resv) (mod k : Nat) (ccw own : Bool) : Bool :=
  let senders := if r.trunk && r.trk == k then (s.resvGroups r).map Prod.fst else []
  (r.ccw == ccw && senders.contains mod) || (!own && r.ccw != ccw && senders.contains (s.nextMod mod ccw))

/-- How a change of a path entry of a die touches a plat, by the fields of its history entry, LANES, LATCHG and UNLOCK (04 R91, R93). With
`fell` and `unlocks` false, what the fields show took no lanes out of service and set no UNLOCK. -/
def State.pathTouch (s : State) (die : Nat) (p : PlatRec) (i low : Nat) (fell unlocks : Bool) : Touch :=
  match (s.die die).survey.paths[i]? with
  | none => if p.hasEdit die then .change else .no
  | some e =>
    if e.pkind = 1 then
      let crosses (own : Bool) : Bool := p.res.any (fun r => s.crossesLink r (die / 8) e.frm (e.dst == 1) own)
      let lanes := fieldOf low 14 2
      if (fieldOf low 13 1 = 1 || (fell && lanes = 0)) && (p.hasEdit die || crosses false) then .change
      else if fell && lanes = 1 && p.res.any (fun r => r.pos == 8 && s.crossesLink r (die / 8) e.frm (e.dst == 1) true) then .change
      else if unlocks && fieldOf low 12 1 = 1 && crosses false then .lock
      else .no
    else if e.frm < 8 && p.names die e.frm then .change else .no

/-- How one history entry of a die touches a plat (04 R93): by what changed, or, with `fields`, by the fields of the entry alone, as R94
judges it. -/
def State.entryTouch (s : State) (die : Nat) (p : PlatRec) (fields : Bool) (h : HistEntry) : Touch :=
  if h.kind = 0 then s.pathTouch die p (if fields then h.index % 256 else h.index) h.low (fields || h.fell) (fields || h.unlocks)
  else if h.kind ≤ 0x07 then (if p.names die (coreOfUnit ⟨h.kind, h.index⟩) then .change else .no)
  else if 0x0A ≤ h.kind && h.kind ≤ 0x0D then (if p.hasEdit die then .change else .no)
  else .no

/-- How an edition touches a plat as it is posted (04 R93, R110). -/
def State.editionTouch (s : State) (die : Nat) (p : PlatRec) (hs : List HistEntry) : Touch :=
  hs.foldl (fun t h => t.max (s.entryTouch die p false h)) .no

/-- Whether a plat stands at a waypoint with its contexts stopped (04 R115). -/
def State.restsAt (s : State) (plat : Word) : Bool :=
  let cs := s.ctxsOf plat
  cs.all (fun c => (s.ctx c).phase == .atWaypoint)

/-- A plat touched by an edition at E (04 R110, R112, R115): its contexts take SURVEY_CHANGE and run in guarded timing; one that is stopped
at a waypoint has CODE set at once. -/
def State.touchPlat (s : State) (plat : Word) (edition : BitVec 32) : State :=
  let cs := s.ctxsOf plat
  let cur (t : State) (c : CtxId) : State := t.modCtx c (fun x => { x with edCode := t.curEdition c.core, staleAt := true })
  if s.restsAt plat then
    let s := cs.foldl cur s
    { s with dies := s.dies.map (fun (d : Nat × DieSt) => (d.1, { d.2 with
        kept := d.2.kept.map (fun k => if k.1 = plat then (k.1, k.2.1, { k.2.2 with edCode := BitVec.ofNat 32 d.2.survey.edition, staleAt := true }) else k) })) }
  else
    cs.foldl (fun t c => (t.raiseAsync c cSURVEY (edition.setWidth 64)).modCtx c (fun x => { x with guarded := true })) s

/-- SURVEY_CHANGE_POST (04 R110, R115; 01 R34): at E, for every plat that the edition touches and that has been released. One that was in guarded
timing as it was signed takes no second SURVEY_CHANGE; a link out of lock overruns it all the same. -/
def execSurveyChangePost (s : State) : Host.Outcome State Fault Refusal :=
  match s.cur with
  | some (.surveyChangePost die e skip) =>
    let hs := (s.die die).survey.history.filter (fun h => h.edition == e.toNat)
    .next (s.allPlats.foldl (fun t p =>
      if t.ctxsOf p.plat = [] && !t.dies.any (fun d => d.2.kept.any (fun k => k.1 == p.plat)) then t
      else
        match s.editionTouch die p hs with
        | .no => t
        | .change => if skip.contains p.plat then t else t.touchPlat p.plat e
        | .lock => t.overrunPlat p.plat 4) s)
  | _ => .next s

/-! ## Trunk links (01 R19, R31 to R34) -/

def State.modLink (s : State) (sta : Nat) (ccw : Bool) (f : LinkSt → LinkSt) : State :=
  s.modSta sta (fun t => if ccw then { t with linkCcw := f t.linkCcw } else { t with linkCw := f t.linkCw })

/-- LANES of a history entry (04 R91). -/
def lanesCode (lanes : Nat) : Nat := if lanes = 0 then 0 else if lanes < 18 then 1 else 2

/-- The path entry of a waystation's link taken from the link as it stands, with its history entry where it changes (04 R90, R91). -/
def State.setLinkPath (s : State) (sta : Nat) (ccw : Bool) : State × List HistEntry :=
  let die := dieAt sta
  let l := s.link (sta / 16) (sta % 16 - 8) ccw
  let e : PathEntry := ⟨1, sta % 16 - 8, bit ccw, l.lat, l.lanes, l.unlock⟩
  let ps := (s.die die).survey.paths
  match ps.zipIdx.find? (fun p => p.1.pkind == 1 && p.1.dst == bit ccw) with
  | none => (s, [])
  | some (old, i) =>
    if old = e then (s, [])
    else
      (s.modDie die (fun d => { d with survey := { d.survey with paths := d.survey.paths.set i e } }),
       [⟨0, 0, i, lanesCode l.lanes * 2 ^ 14 + bit (old.lat != l.lat) * 2 ^ 13 + bit l.unlock * 2 ^ 12, decide (l.lanes < old.lanes),
         l.unlock && !old.unlock⟩])

/-- A change of a link, published by its waystation's die. A link that leaves service takes both of its hops with it (01 R19, R442). -/
def State.linkChange (s : State) (sta : Nat) (ccw : Bool) (f : LinkSt → LinkSt) : State :=
  let up := s.linkUp (sta / 16) (sta % 16 - 8) ccw
  let (s, hs) := (s.modLink sta ccw f).setLinkPath sta ccw
  let s := s.signEdition (dieAt sta) hs
  if up && !s.linkUp (sta / 16) (sta % 16 - 8) ccw then
    let far := 16 * s.nextMod (sta / 16) ccw + sta % 16
    (s.hopLost ⟨sta, true, ccw⟩).hopLost ⟨far, true, !ccw⟩
  else s

/-- Whether a timetabled slot that is due at a clk crossed the trunk in group `g` of module `m`, on a booked position: the times of the three entries
of its path (05 R122) lead from the one to the other. -/
def State.carried (s : State) (b : Word × Resv) (m g due : Nat) (t : Slot) : Bool :=
  let r := b.2
  let loc (n a z : Nat) : List Resv := ((s.modu n).booked.filter (fun q => q.1 == b.1 && !q.2.trunk && q.2.smod == n && q.2.ssta == a && q.2.dsta == z)).map Prod.snd
  r.smod == t.smod.toNat && r.dmod == t.dmod.toNat &&
  (loc r.smod t.ssta.toNat r.ssta).any (fun f => (loc r.dmod r.dsta t.dsta.toNat).any (fun l =>
    let p := s.trunkResv f r l
    (s.resvSteps r).any (fun q => q.1 == m && (r.offset + q.2) % 4096 == g % 4096 &&
      due + p.lead == 5 * (g - q.2) + 5 * r.pos / 9 + p.travel)))

/-- A trunk group that fails its CRC-32 (01 R23, R29, R30): the nine slots that came in it fail with it. Free slots are retransmitted, and
timetabled and muster slots travel on poisoned. -/
def State.groupFails (s : State) (sta : Nat) (ccw : Bool) : State :=
  let m := s.nextMod (sta / 16) ccw
  let k := sta % 16 - 8
  let h : HopId := ⟨16 * m + sta % 16, true, !ccw⟩
  let s : State := { s with agenda := s.agenda.map (fun (e : Nat × Event) => match e.2 with
    | .slotHopArrival h' t _ => if h' = h && decide (e.1 ≤ s.clk + 4) then (e.1, .slotHopArrival h' t false) else e
    | _ => e) }
  let g := ((s.staCyc h.sta).toNat - (s.link m k !ccw).lat) / 5
  let s := if !ccw = false && s.pod.ring == some k && (s.podAll (5 * g / 32768 * 32768)).contains (.trunk m g) then
      s.modWaves (fun w => w.id.pod) (fun w => { w with void := true })
    else s
  let hit := (s.modu m).booked.filter (fun b => b.2.trunk && b.2.trk == k && b.2.ccw == !ccw)
  s.poisonTimed (fun due t => hit.any (fun b => s.carried b m g due t))

/-- The difference that a waystation measures of a group as it arrives (01 R32): 5g plus the link's one-way latency against its own CYC, g being
the number nearest to its expectation among those with the field's 16 bits. -/
def State.groupDiff (s : State) (sta : Nat) (ccw : Bool) (seq : BitVec 16) : Int :=
  let lat : Int := (s.link (sta / 16) (sta % 16 - 8) ccw).lat
  let now : Int := (s.staCyc sta).toNat
  let want : Int := (now - lat) / 5
  let off : Int := ((seq.toNat : Int) - want + 32768) % 65536 - 32768
  5 * (want + off) + lat - now

/-- TRUNK_GROUP_ARRIVAL (01 R23, R32, R34): a group that has come over the link on one side of a waystation. The difference is measured of
groups that pass their check (log 29); the steering of the clock generator changes no state. -/
def execTrunkGroupArrival (s : State) : Host.Outcome State Fault Refusal :=
  match s.cur with
  | some (.trunkGroupArrival sta ccw seq intact) =>
    let l := s.link (sta / 16) (sta % 16 - 8) ccw
    if !intact then .next (s.groupFails sta ccw)
    else if l.unlock then .next s
    else
      let diff := s.groupDiff sta ccw seq
      let bad := if diff < -2 ∨ 2 < diff then l.bad + 1 else 0
      let s := s.modLink sta ccw (fun l => { l with diff := diff, bad := bad })
      .next (if bad = 64 then s.postNow (.linkOutOfLock sta ccw) else s)
  | _ => .next s

/-- The groups that begin in this clk on links whose measured difference is out of bounds, or was in the last group (01 R32, R34). A group without
slots on any other link changes nothing as it is checked; those with slots are shown as the slots are placed. -/
def State.groupsTick (s : State) : State :=
  if s.pod.mods.length ≤ 1 || (s.dies.all (fun d => d.2.skew == 0) && s.stations.all (fun (t : Nat × Station) => t.2.linkCw.bad == 0 && t.2.linkCcw.bad == 0)) then s
  else
    s.pod.mods.foldl (fun s m => [0, 1, 2, 3].foldl (fun s k => [false, true].foldl (fun s ccw =>
      let h : HopId := ⟨16 * m + 8 + k, true, ccw⟩
      let far := s.hopEnd h
      let (a, b) := ((s.staCyc h.sta).toNat, (s.staCyc far).toNat)
      let l := s.link (far / 16) k (!ccw)
      if s.linkUp m k ccw && a % 5 == 0 && (decide (b + 2 < a) || decide (a + 2 < b) || l.bad != 0) then s.postGroup h (a / 5) (s.link m k ccw).lat
      else s) s) s) s

/-- LINK_OUT_OF_LOCK (01 R34). -/
def execLinkOutOfLock (s : State) : Host.Outcome State Fault Refusal :=
  match s.cur with
  | some (.linkOutOfLock sta ccw) => .next (s.linkChange sta ccw (fun l => { l with unlock := true }))
  | _ => .next s

/-- LANE_FAILURE (01 R19): one failed lane leaves 17, two or more none. -/
def execLaneFailure (s : State) : Host.Outcome State Fault Refusal :=
  match s.cur with
  | some (.laneFailure sta ccw failed) =>
    .next (s.linkChange sta ccw (fun l => { l with lanes := if l.lanes - failed = 18 then 18 else if l.lanes - failed = 17 then 17 else 0 }))
  | _ => .next s

/-- What bring-up finds of one side of a waystation (01 R19, R31; 02 R57): a link over 160 clk is not taken into service. -/
def linkOf (links : List LinkReport) (sta : Nat) (ccw : Bool) : LinkSt :=
  match links.find? (fun l => l.sta == sta && l.ccw == ccw) with
  | none => LinkSt.reset
  | some l =>
    let lat := (l.trip + 1) / 2
    { lat := lat, lanes := if 160 < lat then 0 else if 18 ≤ l.lanes then 18 else if l.lanes = 17 then 17 else 0,
      unlock := false, bad := 0, diff := 0 }

/-- Modules in ring order: by rising number (01 R17). -/
def sortMods (ms : List Nat) : List Nat := (List.range 32).filter (fun m => ms.contains m)

/-- D of the pod wave on a ring (02 R441): 4 clk for each position passed, and for each trunk crossing 12 clk of transit, the latency and
4 clk of alignment. A pod of one module has no crossing (log 23). -/
def State.waveBound (s : State) (k : Nat) : Nat :=
  let n := s.pod.mods.length
  48 * n + (if n ≤ 1 then 0 else s.pod.mods.foldl (fun d m => d + 16 + (s.link m k false).lat) 0)

/-- The ring of the pod wave chosen (02 R57); both host ports are told where none qualifies. -/
def State.chooseRing (s : State) : State :=
  match [0, 1, 2, 3].find? s.ringSound with
  | some k => { s with pod := { s.pod with ring := some k, bound := s.waveBound k } }
  | none =>
    let s : State := { s with pod := { s.pod with ring := none, bound := 0 } }
    s.pod.mods.foldl (fun t m => t.modMod m (fun x => { x with notes := .noWaveRing :: x.notes })) s

/-- The clk in which the root's CYC reaches a module after it was sent (01 R31): the latencies of the shorter path on trunk ring 0, and 6 clk
for each waystation on it. -/
def State.alignDelay (s : State) (m : Nat) : Nat :=
  let root := s.podRoot
  if m = root then 0
  else
    let ccw := s.trunkCcw root m
    (s.trunkSenders root m).foldl (fun d n => d + 6 + (s.link n 0 ccw).lat) 6

/-- The root sends its CYC to every module, which takes it at its next local frame boundary after it has come (01 R24, R31). -/
def State.alignCyc (s : State) : State :=
  let v := s.staCyc (16 * s.podRoot + 8)
  s.pod.mods.foldl (fun t m =>
    let come := t.clk + t.alignDelay m
    let now := (BitVec.ofNat 64 come + (t.modu m).cycOff).toNat
    t.post (come + (4096 - now % 4096) % 4096) (.podCycAlign m t.clk v)) s

/-- A module sets its CYC, at a local frame boundary, to the value that the root sent at a clk, plus the path's clk and those that it has
counted since (01 R31). Readings of CYC stay within the bounds of 01 R33: which they are is free (log 1). -/
def State.setCyc (s : State) (m sent : Nat) (v : Word) : State :=
  let (b, s) := s.free
  let base := if m = s.podRoot then 0 else b.toNat % 2
  let s := s.modMod m (fun x => { x with cycOff := v - BitVec.ofNat 64 sent })
  (List.range 8).foldl (fun t d =>
    let (e, t) := t.free
    t.modDie (8 * m + d) (fun x => { x with skew := base + e.toNat % 2 })) s

/-- The periods of the waves set going at their next cycles (02 R53, R57). Waves run from link bring-up on (log 66). -/
def State.startWaves (s : State) : State :=
  let s : State := { s with agenda := s.agenda.filter (fun (e : Nat × Event) => match e.2 with
    | .moduleWaveBegin _ => false
    | .podWaveBegin => false
    | _ => true) }
  (s.pod.mods.foldl (fun t m => t.post ((t.clk / 2048 + 1) * 2048) (.moduleWaveBegin m)) s).post
    ((s.clk / 32768 + 1) * 32768) .podWaveBegin

/-- LINK_BRING_UP (01 R31; 02 R57; 03 R82 step 5): the links train, and their hops go on; the root sends its CYC; the ring of the pod wave is
chosen, and modules whose boot has come so far read READY. Within it, each module sets its CYC at its own frame boundary. -/
def execLinkBringUp (s : State) : Host.Outcome State Fault Refusal :=
  match s.cur with
  | some (.podCycAlign m sent v) => .next (s.setCyc m sent v)
  | some (.linkBringUp mods links) =>
    let s : State := if sortMods mods = [] then s else { s with pod := { s.pod with mods := sortMods mods } }
    let s := s.pod.mods.foldl (fun t m =>
      [0, 1, 2, 3].foldl (fun t k =>
        let sta := 16 * m + 8 + k
        let t := (t.modLink sta false (fun _ => linkOf links sta false)).modLink sta true (fun _ => linkOf links sta true)
        let (t, h1) := t.setLinkPath sta false
        let (t, h2) := t.setLinkPath sta true
        t.signEdition (dieAt sta) (h1 ++ h2)) t) s
    let hops := s.pod.mods.flatMap (fun m => [8, 9, 10, 11].flatMap (fun n => [HopId.mk (16 * m + n) true false, ⟨16 * m + n, true, true⟩]))
    let s := (hops.filter (fun h => (s.hop h).down && s.linkUp (h.sta / 16) (h.sta % 16 - 8) h.ccw)).foldl (fun t h =>
      t.postNow (.hopRetrained h)) s
    -- a link that is out of service loses the mail of its hops (01 R442)
    let s := (hops.filter (fun h => !(s.hop h).kept.isEmpty && !s.linkUp (h.sta / 16) (h.sta % 16 - 8) h.ccw)).foldl (fun t h => t.hopLost h) s
    let s := (s.alignCyc.chooseRing).startWaves
    .next (s.pod.mods.foldl (fun t m =>
      if (t.modu m).stage = 5 && !(t.modu m).fail then
        (List.range 8).foldl (fun t d => t.postResurvey (8 * m + d)) (t.modMod m (fun x => { x with ready := true }))
      else t) s)
  | _ => .next s

/-! ## Time and temperature -/

/-- PTIME_SYNC (01 R32). -/
def execPtimeSync (s : State) : Host.Outcome State Fault Refusal :=
  match s.cur with
  | some (.ptimeSync m v) =>
    let s := s.modMod m (fun x => { x with ptime := v, ptimeAt := s.clk })
    .next (if (s.modu m).ready then (List.range 8).foldl (fun t d => t.postResurvey (8 * m + d)) s else s)
  | _ => .next s

/-- A stop at the next waypoint that all its contexts reach asked of a plat (05 R135, 01 R11). -/
def State.askStop (s : State) (plat : Word) : State :=
  (s.ctxsOf plat).foldl (fun t c => t.modCtx c (fun x => { x with stopReq := true })) (s.nameStop plat)

/-- THERMAL_STOP (01 R11): every plat with a context on the module stops at its next waypoint, and both host ports are told. Stopped plats
stay so until the module's next power-on (log 28). -/
def execThermalStop (s : State) : Host.Outcome State Fault Refusal :=
  match s.cur with
  | some (.thermalStop m) =>
    let s := s.modMod m (fun x => { x with hot := true, notes := .thermalStop :: x.notes })
    let ps := ((s.residents.filter (fun c => modOf c.core == m)).map (fun c => (s.ctx c).plat)).eraseDups
    .next (ps.foldl (fun t p => t.askStop p) s)
  | _ => .next s

/-- The cores of a module without power: what they held is gone. -/
def State.dropCores (s : State) (m : Nat) : State :=
  { s with
    ctxs := s.ctxs.filter (fun (e : Nat × Ctx) => e.1 / 2 / 128 != m)
    cores := s.cores.filter (fun (e : Nat × CoreSt) => e.1 / 128 != m) }

/-- THERMAL_POWER_OFF (01 R11): within 1 ms the core rails lose power. -/
def execThermalPowerOff (s : State) : Host.Outcome State Fault Refusal :=
  match s.cur with
  | some (.thermalPowerOff m) => .next ((s.dropCores m).modMod m (fun x => { x with powered := false }))
  | _ => .next s

end Sys2Proof.Machine
end

