-- ==== Sys2Proof/Machine/Boot.lean ====
section
/-! DEFINITION. Power-on, boot, firmware and the module reset (03 R82 to R85; 04 R92; 00 R4). -/

namespace Sys2Proof.Machine

/-! ## The initial survey (03 R82 step 5; 04 R90, R92) -/

/-- The path entries of a die: its waystation's links as they stand, then each core to each stack and to each slice (04 R90). -/
def State.initialPaths (s : State) (die : Nat) : List PathEntry :=
  let mod := die / 8
  let way : List PathEntry := if die % 2 = 0 then
      [false, true].map (fun ccw =>
        let l := s.link mod (die % 8 / 2) ccw
        ⟨1, die % 8 / 2, bit ccw, l.lat, l.lanes, l.unlock⟩)
    else []
  let reach (kind n : Nat) : List PathEntry :=
    (List.range 11).flatMap (fun c => (List.range n).map (fun t => ⟨kind, c, t, Config.pathLat die kind c t % 2 ^ 16, 0, false⟩))
  way ++ reach 2 16 ++ reach 3 8

/-- STATUS and CLASS as the initial survey finds them (04 R89, R95; log 5). -/
def initialEntry (die kind index : Nat) : Nat :=
  let v := Config.initialUnit die (256 * kind + index)
  4 * (v / 4 % 3) + (if hasClass kind then v % 4 % 3 else 0)

/-- The initial survey of a die: edition 1 (04 R92). -/
def State.surveyDie (s : State) (die : Nat) : State :=
  let keys := (unitKinds die).flatMap (fun k => (List.range k.2).map (fun i => (256 * k.1 + i, initialEntry die k.1 i)))
  (s.modDie die (fun d => { d with survey := { Survey.reset with
    edition := 1, units := Sp.setAll 0 [] keys, initial := Sp.setAll 0 [] keys, paths := s.initialPaths die } })).publish die

/-! ## Boot -/

/-- A module whose registers return to their reset values (00 R4): its cores hold no context, its stations restart. Fuses, the memory and
the links as they last trained stay (log 37). -/
def State.resetModule (s : State) (m : Nat) : State :=
  let s := s.dropCores m
  let old := s.modu m
  let s : State := { s with dies := s.dies.filter (fun (e : Nat × DieSt) => e.1 / 8 != m) }
  let s := s.modMod m (fun _ => { ModuleSt.reset with
    minVersion := old.minVersion, ptime := old.ptime, ptimeAt := old.ptimeAt, cycOff := old.cycOff })
  (List.range 12).foldl (fun t n => t.modSta (16 * m + n) (fun x => { Station.reset with linkCw := x.linkCw, linkCcw := x.linkCcw })) s

/-- POWER_ON (03 R82): management core 0 is started and begins step 1, on Ethernet port 0 first and then on port 1; with an address and an
image name step 2 begins. Step 5, the initial survey of every die, begins once the management cores of dies 1 to 7 run. -/
def execPowerOn (s : State) : Host.Outcome State Fault Refusal :=
  match s.cur with
  | some (.powerOn m) => .next ((s.resetModule m).modMod m (fun x => { x with powered := true, stage := 1, mgmt := [0] }))
  | some (.bootStep m step port) =>
    let x := s.modu m
    if step = 1 && x.stage = 1 && port = 0 && x.eth = 0 then .next (s.modMod m (fun x => { x with eth := 1, dhcp := false }))
    else if step = 2 && x.stage = 1 && port = x.eth then .next (s.modMod m (fun x => { x with stage := 2 }))
    else if step = 5 && x.stage = 4 then
      .next ((List.range 8).foldl (fun t d => t.surveyDie (8 * m + d)) (s.modMod m (fun x => { x with stage := 5 })))
    else .next s
  | _ => .next s

/-- Whether the management cores of a die run (03 R82). -/
def State.mgmtRuns (s : State) (die : Nat) : Bool := (s.modu (die / 8)).mgmt.contains (die % 8)

/-- DHCPV6_TIMEOUT (03 R82 step 1). -/
def execDhcpv6Timeout (s : State) : Host.Outcome State Fault Refusal :=
  match s.cur with
  | some (.dhcpv6Timeout m) => .next (s.modMod m (fun x => if x.stage = 1 then { x with dhcp := true } else x))
  | _ => .next s

/-- IMAGE_FETCH_COMPLETE (03 R82 steps 2 to 5): `keyHash` is the SHA-512 of the image's embedded key, `signed` whether its signature
verifies. An accepted image starts the management cores of dies 1 to 7, which takes a free time (log 70), and the initial survey follows; link
bring-up ends the boot. After a failure the fetch begins again; the third leaves the core in recovery. -/
def execImageFetchComplete (s : State) : Host.Outcome State Fault Refusal :=
  match s.cur with
  | some (.imageFetchComplete m keyHash imgHash version signed) =>
    let x := s.modu m
    if x.fail || x.stage != 2 then .next s
    else if keyHash == Config.keyHash m && decide (x.minVersion.toNat ≤ version.toNat) && signed then
      let s := s.modMod m (fun x =>
        { x with version := version, image := imgHash, passed := version :: x.passed, stage := 4, mgmt := List.range 8 })
      let (d, s) := s.freeTime
      .next (s.post (s.clk + 1 + d) (.bootStep m 5 0))
    else if 2 ≤ x.tries then .next (s.modMod m (fun x => { x with tries := 3, fail := true, stage := 3 }))
    else .next (s.modMod m (fun x => { x with tries := x.tries + 1, stage := 2 }))
  | _ => .next s

/-- FIRMWARE_UPDATE (03 R85, R72): under semaphore 1, upward only, and only to the version of an image that has passed. -/
def execFirmwareUpdate (s : State) : Host.Outcome State Fault Refusal :=
  match s.cur with
  | some (.firmwareUpdate m version) =>
    .next (s.modMod m (fun x =>
      if Sp.get 0 x.hsem 1 = 3 && decide (x.minVersion.toNat < version.toNat) && x.passed.contains version then
        { x with minVersion := version } else x))
  | _ => .next s

/-- MODULE_RESET (00 R4; 01 R37; 02 R58): every station of the module restarts with its reset notices. -/
def execModuleReset (s : State) : Host.Outcome State Fault Refusal :=
  match s.cur with
  | some (.moduleReset m) =>
    .next ((List.range 12).foldl (fun t n => t.postNow (.stationReset (16 * m + n))) (s.resetModule m))
  | _ => .next s

end Sys2Proof.Machine
end

