-- ==== Sys2Proof/Machine/Branch.lean ====
section
/-! DEFINITION. Block headers and fetch (13 R301, R302; 07 R165, R166; 04 R111), branches (14 R331, R332; 18 R399) and stage loops
(15 R371 to R374; 18 R400). -/

namespace Sys2Proof.Machine

/-- A 32-bit word of a scratchpad, low halfword first. -/
def CoreSt.word (k : CoreSt) (st : Stream) (h : Nat) : BitVec 32 := k.half st (h + 1) ++ k.half st h

/-- A block header (13 R301). -/
structure Header where
  len : Nat
  rep : Nat
  strm : Nat
  edition : Nat
  reserved : Bool
deriving DecidableEq, Repr

/-- Whether two words have the shape of a block header: majors 0x1F, H 0 and then 1 (13 R301). -/
def headerShape (w0 w1 : BitVec 32) : Bool :=
  w0.extractLsb' 0 6 == 0x3F#6 && w1.extractLsb' 0 6 == 0x3F#6 && !w0.getLsbD 6 && w1.getLsbD 6

/-- The fields of a header (13 R301). -/
def headerOf (w0 w1 : BitVec 32) : Header :=
  { len := (w0.extractLsb' 7 12).toNat, rep := (w0.extractLsb' 19 12).toNat, strm := (w1.extractLsb' 7 2).toNat,
    edition := (w1.extractLsb' 9 16).toNat, reserved := w0.getLsbD 31 || w1.extractLsb' 25 7 != 0 }

/-- Whether halfwords h to h + n - 1 lie in the loaded regions of a context's stream (05 R130). -/
def CoreSt.loaded (k : CoreSt) (bank : Nat) (st : Stream) (h n : Nat) : Bool :=
  (List.range n).all (fun i => k.regions.any (fun r =>
    r.bank == bank && r.st == st && !r.overwritten && decide (r.lo ≤ h + i) && decide (h + i ≤ r.hi)))

/-- Whether a halfword begins a block header; a target outside the loaded regions is left to the fetch (14 R332). -/
def State.isHeader (s : State) (t : Nat) : Bool :=
  let k := s.fcore
  let st := s.foc.st
  !k.loaded s.foc.ctx.bank st t 4 || headerShape (k.word st t) (k.word st (t + 2))

/-- BLOCK_FETCH: the stream in focus fetches the header at its position (07 R165; 13 R302; 04 R111). The header takes no issue
clk; the first word of the body issues in the same clk. -/
def execBlockFetch (s : State) : Host.Outcome State Fault Refusal :=
  let k := s.fcore
  let st := s.foc.st
  let h := s.fstrm.pc
  let x := s.fctx
  if !k.loaded s.foc.ctx.bank st h 4 then .next (s.raise cABSENT (BitVec.ofNat 64 h))
  else
    let w0 := k.word st h
    let w1 := k.word st (h + 2)
    let hd := headerOf w0 w1
    if !headerShape w0 w1 || hd.len == 0 || hd.strm != streamCode st || hd.reserved then
      .next (s.raise cILLEGAL ((k.half st h).setWidth 64))
    else if hd.edition != 0 && hd.edition != x.edCode.toNat % 65536 && !x.guarded then
      .next (s.raise cSTALE (BitVec.ofNat 64 hd.edition))
    else
      .next (s.modFs (fun y =>
        { y with pc := h + 4, blk := h, len := hd.len, reps := hd.rep, atHeader := false,
                 loopBuf := if hd.len ≤ 256 then some h else y.loopBuf }))

/-- PBR (14 R331): from the halfword of the PBR word itself. -/
def execPbr (o : BitVec 20) (t : BitVec 3) (s : State) : Host.Outcome State Fault Refusal :=
  word32 { dsts := [(codeB t.toNat, 1)] }
    (fun s => .done (s.modFs (fun y =>
      y.setBranch t.toNat (BitVec.ofNat 16 y.pc + (o.signExtend 32).setWidth 16) s.clk))) s

/-- PBRX (14 R331). -/
def execPbrx (a : BitVec 5) (g : Guard) (t : BitVec 3) (s : State) : Host.Outcome State Fault Refusal :=
  word32 { guard := g, srcs := [a.toNat], dsts := [(codeB t.toNat, 1)] }
    (fun s => .done (s.modFs (fun y => y.setBranch t.toNat ((s.rd a).setWidth 16) s.clk))) s

/-- The branch to the block in a branch register: the header check, the bubbles, the count afresh (14 R332). -/
def branchTo (t : Nat) (link : Option Half) (s : State) : Res :=
  let y := s.fstrm
  let target := (y.branch t).toNat
  if !s.isHeader target then .trap cILLEGAL (s.firstHalf.setWidth 64)
  else
    let d := s.clk - y.prepClk t
    .jumped (s.modFs (fun y =>
      let y := match link with
        | some l => y.setBranch 7 l s.clk
        | none => y
      y.jump target (6 - d)))

/-- BR (14 R332; 18 R399). -/
def execBr (g : Guard) (t : BitVec 3) (s : State) : Host.Outcome State Fault Refusal :=
  word32 { guard := g, srcs := [codeB t.toNat] } (branchTo t.toNat none) s

/-- Whether a word of `n` halfwords at the position is the last of its body. -/
def StreamSt.lastWord (y : StreamSt) (n : Nat) : Bool := y.pc + n == y.blk + 4 + y.len

/-- BRL (14 R332): the link is the halfword after the body. A BRL that is not the last word of its body raises ILLEGAL on fetch. -/
def execBrl (g : Guard) (t : BitVec 3) (s : State) : Host.Outcome State Fault Refusal :=
  if !s.fstrm.lastWord 2 then .next (s.raise cILLEGAL (s.firstHalf.setWidth 64))
  else
    word32 { guard := g, srcs := [codeB t.toNat], dsts := [(codeB 7, 1)] }
      (fun s => branchTo t.toNat (some (BitVec.ofNat 16 (s.fstrm.blk + 4 + s.fstrm.len))) s) s

/-- BRH: as BR (13 R307). -/
def execBrh (g : Guard) (t : BitVec 3) (s : State) : Host.Outcome State Fault Refusal :=
  word16 { guard := g, srcs := [codeB t.toNat] } (branchTo t.toNat none) s

/-- SLOOP of the A stream (15 R372). -/
def execSloop (e : BitVec 4) (a : BitVec 5) (s : State) : Host.Outcome State Fault Refusal :=
  word32 { srcs := [a.toNat], dsts := (List.range 16).map (fun i => (codeP (32 + i), 1)) }
    (fun s =>
      let n := s.rd a
      .done (s.modFs (fun y => (y.loopStart n e).loopPreds n))) s

/-- SLOOP q1, ec of the V stream (18 R400): the writes land at the end of the clk after the take, and interlock. As SLOOP of A, it writes p32
to p47 (07 R181). -/
def execVSloop (e : BitVec 4) (s : State) : Host.Outcome State Fault Refusal :=
  word32 { dsts := (List.range 16).map (fun i => (codeP (32 + i), 2)), outs := [200] }
    (fun s =>
      match s.fctx.q1.head s.clk with
      | none => .wait 0x11 s
      | some n =>
        let (id, s1) := (s.modF (fun x => { x with q1 := x.q1.take s.clk })).nextId
        .done (s1.fly s1.foc ⟨id, 200, .loop n e, s.clk + 1, true, maskAll, 0, false⟩)) s

/-- The window moves by one and p32 takes a value, named after the move (15 R373; 18 R400). -/
def State.rotate (s : State) (b : Bool) : State :=
  let s := s.modFs (fun y => { y with swin := y.swin + 1 })
  if s.foc.st = .v then s.modF (fun x => x.setPhysMask (physP x.v.swin.toNat 32) (if b then maskAll else 0))
  else s.modFs (fun y => y.setPhysPred (physP y.swin.toNat 32) b)

/-- SNEXT (15 R373): while passes remain, the window moves, p32 tells whether stage 0 runs, and the stream branches. -/
def execSnext (t : BitVec 3) (s : State) : Host.Outcome State Fault Refusal :=
  let y := s.fstrm
  -- p32 after the move, as a name before it
  let p32 := if y.tripc = 0 ∧ y.tailc = 0 then [] else [(codeP 47, 1)]
  word32 { srcs := [codeB t.toNat, 200], dsts := p32 }
    (fun s =>
      let y := s.fstrm
      if y.tripc ≠ 0 then
        branchTo t.toNat none ((s.modFs (fun y => { y with tripc := y.tripc - 1 })).rotate true)
      else if y.tailc ≠ 0 then
        branchTo t.toNat none ((s.modFs (fun y => { y with tailc := y.tailc - 1 })).rotate false)
      else .done s) s

end Sys2Proof.Machine
end

