-- ==== Sys2Proof/Machine/Vector.lean ====
section
/-! DEFINITION. The V stream's vector words (18 R380 to R398; latencies 07 R184). -/

namespace Sys2Proof.Machine

/-! ## Results -/

/-- The column of an element (07 R162). -/
def colOf (i : Nat) : Nat := i % 64

/-- The elements of one row as a mask. -/
def rowMask (r : Nat) : Mask := BitVec.ofNat 1024 ((2 ^ 64 - 1) * 2 ^ (64 * r))

/-- The values that a lane group struck for a lasting fault computes are free (04 R112; log 1). -/
def State.struckElems (s : State) (v : List Elem) : List Elem :=
  let gs := s.faultyGroups s.foc.ctx.core
  if gs.isEmpty then v
  else v.zipIdx.map (fun p => if gs.contains (colOf p.2 / 8) then Config.struckValue (1024 * s.fresh + p.2) else p.1)

/-- A vector result of the word in focus for `vd`: the elements of a mask, with the flags that they raise. -/
def State.vresult (s : State) (d lat : Nat) (v : List Elem) (m : Mask) (fl : Flags) : State :=
  if (s.faultyGroups s.foc.ctx.core).isEmpty then s.result d lat (.vec v) m fl false
  else (s.free).2.result d lat (.vec (s.struckElems v)) m fl false

/-- An operation on the active elements of a vector: the elements and the flags of the active ones (18 R381). -/
def vmap1 (m : Mask) (f : Elem → Elem × Flags) (a : List Elem) : List Elem × Flags :=
  let rs := a.zipIdx.map (fun p => if m.getLsbD p.2 then f p.1 else (0, 0))
  (rs.map Prod.fst, rs.foldl (fun x r => x ||| r.2) 0)

/-- The same on two vectors. -/
def vmap2 (m : Mask) (f : Elem → Elem → Elem × Flags) (a b : List Elem) : List Elem × Flags :=
  let rs := (a.zip b).zipIdx.map (fun p => if m.getLsbD p.2 then f p.1.1 p.1.2 else (0, 0))
  (rs.map Prod.fst, rs.foldl (fun x r => x ||| r.2) 0)

/-- The same on three vectors. -/
def vmap3 (m : Mask) (f : Elem → Elem → Elem → Elem × Flags) (a b c : List Elem) : List Elem × Flags :=
  let rs := (a.zip (b.zip c)).zipIdx.map (fun p => if m.getLsbD p.2 then f p.1.1 p.1.2.1 p.1.2.2 else (0, 0))
  (rs.map Prod.fst, rs.foldl (fun x r => x ||| r.2) 0)

/-- A guarded word with one vector source (18 R381). -/
def vword1 (feature : Option Nat) (lat : State → Nat) (f : RM → Elem → Elem × Flags) (g : Guard) (a d : BitVec 5) (s : State) :
    Host.Outcome State Fault Refusal :=
  word32 { feature := feature, guard := g, srcs := [a.toNat], dsts := [(d.toNat, lat s)] }
    (fun s =>
      let x := s.fctx
      let m := x.guardMask g
      let (v, fl) := vmap1 m (f x.rm) (x.vreg a.toNat)
      .done (s.vresult d.toNat (lat s) v m fl)) s

/-- A guarded word with two vector sources. -/
def vword2 (lat : State → Nat) (f : RM → Elem → Elem → Elem × Flags) (g : Guard) (b a d : BitVec 5) (s : State) :
    Host.Outcome State Fault Refusal :=
  word32 { guard := g, srcs := [a.toNat, b.toNat], dsts := [(d.toNat, lat s)] }
    (fun s =>
      let x := s.fctx
      let m := x.guardMask g
      let (v, fl) := vmap2 m (f x.rm) (x.vreg a.toNat) (x.vreg b.toNat)
      .done (s.vresult d.toNat (lat s) v m fl)) s

/-- The fused words (18 R384): their guard reaches p0 to p15 and has no negate bit. -/
def vword3 (np nc : Bool) (g : BitVec 4) (c b a d : BitVec 5) (s : State) : Host.Outcome State Fault Refusal :=
  let gd : Guard := ⟨false, g.setWidth 6⟩
  word32 { guard := gd, srcs := [a.toNat, b.toNat, c.toNat], dsts := [(d.toNat, s.lat 4)] }
    (fun s =>
      let x := s.fctx
      let m := x.guardMask gd
      let (v, fl) := vmap3 m (fFma np nc x.rm) (x.vreg a.toNat) (x.vreg b.toNat) (x.vreg c.toNat)
      .done (s.vresult d.toNat (s.lat 4) v m fl)) s

/-- A float latency of 4 for class A, and of 10. -/
def lat4 (s : State) : Nat := s.lat 4
def lat10 (s : State) : Nat := s.lat 10

/-- An integer latency. -/
def lat2 (_ : State) : Nat := 2

/-- An operation without flags. -/
def quiet2 (f : Elem → Elem → Elem) (_ : RM) (a b : Elem) : Elem × Flags := (f a b, 0)

/-! ## Float element operations (18 R383 to R385) -/

/-- VADD (18 R383). -/
def execVadd (g : Guard) (b a d : BitVec 5) (s : State) : Host.Outcome State Fault Refusal :=
  vword2 lat4 fAdd g b a d s

/-- VSUB (18 R383). -/
def execVsub (g : Guard) (b a d : BitVec 5) (s : State) : Host.Outcome State Fault Refusal :=
  vword2 lat4 fSub g b a d s

/-- VMUL (18 R383). -/
def execVmul (g : Guard) (b a d : BitVec 5) (s : State) : Host.Outcome State Fault Refusal :=
  vword2 lat4 fMul g b a d s

/-- VMIN (18 R383). -/
def execVmin (g : Guard) (b a d : BitVec 5) (s : State) : Host.Outcome State Fault Refusal :=
  vword2 lat4 (fun _ => fMin) g b a d s

/-- VMAX (18 R383). -/
def execVmax (g : Guard) (b a d : BitVec 5) (s : State) : Host.Outcome State Fault Refusal :=
  vword2 lat4 (fun _ => fMax) g b a d s

/-- VABS (18 R383). -/
def execVabs (g : Guard) (a d : BitVec 5) (s : State) : Host.Outcome State Fault Refusal :=
  vword1 none lat4 (fun _ a => (fAbs a, 0)) g a d s

/-- VNEG (18 R383). -/
def execVneg (g : Guard) (a d : BitVec 5) (s : State) : Host.Outcome State Fault Refusal :=
  vword1 none lat4 (fun _ a => (fNeg a, 0)) g a d s

/-- VMOV (18 R383). -/
def execVmov (g : Guard) (a d : BitVec 5) (s : State) : Host.Outcome State Fault Refusal :=
  vword1 none lat4 (fun _ a => (a, 0)) g a d s

/-- VFMA: a * b + c (18 R384). -/
def execVfma (g : BitVec 4) (c b a d : BitVec 5) (s : State) : Host.Outcome State Fault Refusal :=
  vword3 false false g c b a d s

/-- VFMS: a * b - c (18 R384). -/
def execVfms (g : BitVec 4) (c b a d : BitVec 5) (s : State) : Host.Outcome State Fault Refusal :=
  vword3 false true g c b a d s

/-- VFNMA: -(a * b) - c (18 R384). -/
def execVfnma (g : BitVec 4) (c b a d : BitVec 5) (s : State) : Host.Outcome State Fault Refusal :=
  vword3 true true g c b a d s

/-- VFNMS: -(a * b) + c (18 R384). -/
def execVfnms (g : BitVec 4) (c b a d : BitVec 5) (s : State) : Host.Outcome State Fault Refusal :=
  vword3 true false g c b a d s

/-- VRCP (18 R385). -/
def execVrcp (g : Guard) (a d : BitVec 5) (s : State) : Host.Outcome State Fault Refusal :=
  vword1 none lat10 fRcp g a d s

/-- VRSQ (18 R385). -/
def execVrsq (g : Guard) (a d : BitVec 5) (s : State) : Host.Outcome State Fault Refusal :=
  vword1 none lat10 fRsq g a d s

/-- VSQRT (18 R385). -/
def execVsqrt (g : Guard) (a d : BitVec 5) (s : State) : Host.Outcome State Fault Refusal :=
  vword1 none lat10 fSqrt g a d s

/-- VEXP2 (18 R385). -/
def execVexp2 (g : Guard) (a d : BitVec 5) (s : State) : Host.Outcome State Fault Refusal :=
  vword1 none lat10 fExp2 g a d s

/-- VLOG2 (18 R385). -/
def execVlog2 (g : Guard) (a d : BitVec 5) (s : State) : Host.Outcome State Fault Refusal :=
  vword1 none lat10 fLog2 g a d s

/-- VSIN (18 R385). -/
def execVsin (g : Guard) (a d : BitVec 5) (s : State) : Host.Outcome State Fault Refusal :=
  vword1 none lat10 (fTrig false) g a d s

/-- VCOS (18 R385). -/
def execVcos (g : Guard) (a d : BitVec 5) (s : State) : Host.Outcome State Fault Refusal :=
  vword1 none lat10 (fTrig true) g a d s

/-- VTANH (18 R385). -/
def execVtanh (g : Guard) (a d : BitVec 5) (s : State) : Host.Outcome State Fault Refusal :=
  vword1 none lat10 fTanh g a d s

/-! ## Integer element operations (18 R386) -/

/-- VIADD (18 R386). -/
def execViadd (g : Guard) (b a d : BitVec 5) (s : State) : Host.Outcome State Fault Refusal :=
  vword2 lat2 (quiet2 (fun a b => a + b)) g b a d s

/-- VISUB (18 R386). -/
def execVisub (g : Guard) (b a d : BitVec 5) (s : State) : Host.Outcome State Fault Refusal :=
  vword2 lat2 (quiet2 (fun a b => a - b)) g b a d s

/-- VIMUL (18 R386). -/
def execVimul (g : Guard) (b a d : BitVec 5) (s : State) : Host.Outcome State Fault Refusal :=
  vword2 lat2 (quiet2 (fun a b => a * b)) g b a d s

/-- VAND (18 R386). -/
def execVand (g : Guard) (b a d : BitVec 5) (s : State) : Host.Outcome State Fault Refusal :=
  vword2 lat2 (quiet2 (fun a b => a &&& b)) g b a d s

/-- VOR (18 R386). -/
def execVor (g : Guard) (b a d : BitVec 5) (s : State) : Host.Outcome State Fault Refusal :=
  vword2 lat2 (quiet2 (fun a b => a ||| b)) g b a d s

/-- VXOR (18 R386). -/
def execVxor (g : Guard) (b a d : BitVec 5) (s : State) : Host.Outcome State Fault Refusal :=
  vword2 lat2 (quiet2 (fun a b => a ^^^ b)) g b a d s

/-- VSHL (18 R386). -/
def execVshl (g : Guard) (b a d : BitVec 5) (s : State) : Host.Outcome State Fault Refusal :=
  vword2 lat2 (quiet2 (fun a b => a <<< (b.toNat % 32))) g b a d s

/-- VSHR (18 R386). -/
def execVshr (g : Guard) (b a d : BitVec 5) (s : State) : Host.Outcome State Fault Refusal :=
  vword2 lat2 (quiet2 (fun a b => a >>> (b.toNat % 32))) g b a d s

/-- VSAR (18 R386). -/
def execVsar (g : Guard) (b a d : BitVec 5) (s : State) : Host.Outcome State Fault Refusal :=
  vword2 lat2 (quiet2 (fun a b => a.sshiftRight (b.toNat % 32))) g b a d s

/-- VIMIN (18 R386). -/
def execVimin (g : Guard) (b a d : BitVec 5) (s : State) : Host.Outcome State Fault Refusal :=
  vword2 lat2 (quiet2 (fun a b => if b.slt a then b else a)) g b a d s

/-- VIMAX (18 R386). -/
def execVimax (g : Guard) (b a d : BitVec 5) (s : State) : Host.Outcome State Fault Refusal :=
  vword2 lat2 (quiet2 (fun a b => if a.slt b then b else a)) g b a d s

/-! ## Compares and select (18 R387, R389) -/

/-- VCMP (18 R387). -/
def vcmpWord (c : VCond) (n : Bool) (b a : BitVec 5) (p : BitVec 6) (s : State) : Host.Outcome State Fault Refusal :=
  let lat := if c.float then s.lat 4 else 2
  word32 { srcs := [a.toNat, b.toNat], dsts := [(codeP p.toNat, lat)] }
    (fun s =>
      let x := s.fctx
      let rs := ((x.vreg a.toNat).zip (x.vreg b.toNat)).map (fun q => c.holds q.1 q.2)
      let m := rs.zipIdx.foldl (fun m r => if r.1.1 != n then m ||| BitVec.twoPow 1024 r.2 else m) (0 : Mask)
      .done (s.result (codeP p.toNat) lat (.mask m) maskAll (rs.foldl (fun f r => f ||| r.2) 0) false)) s

/-- VCMP.eq (18 R387). -/
def execVcmpEq (n : Bool) (b a : BitVec 5) (p : BitVec 6) (s : State) : Host.Outcome State Fault Refusal :=
  vcmpWord .eq n b a p s

/-- VCMP.ne (18 R387). -/
def execVcmpNe (n : Bool) (b a : BitVec 5) (p : BitVec 6) (s : State) : Host.Outcome State Fault Refusal :=
  vcmpWord .ne n b a p s

/-- VCMP.lt (18 R387). -/
def execVcmpLt (n : Bool) (b a : BitVec 5) (p : BitVec 6) (s : State) : Host.Outcome State Fault Refusal :=
  vcmpWord .lt n b a p s

/-- VCMP.le (18 R387). -/
def execVcmpLe (n : Bool) (b a : BitVec 5) (p : BitVec 6) (s : State) : Host.Outcome State Fault Refusal :=
  vcmpWord .le n b a p s

/-- VCMP.gt (18 R387). -/
def execVcmpGt (n : Bool) (b a : BitVec 5) (p : BitVec 6) (s : State) : Host.Outcome State Fault Refusal :=
  vcmpWord .gt n b a p s

/-- VCMP.ge (18 R387). -/
def execVcmpGe (n : Bool) (b a : BitVec 5) (p : BitVec 6) (s : State) : Host.Outcome State Fault Refusal :=
  vcmpWord .ge n b a p s

/-- VCMP.ord (18 R387). -/
def execVcmpOrd (n : Bool) (b a : BitVec 5) (p : BitVec 6) (s : State) : Host.Outcome State Fault Refusal :=
  vcmpWord .ord n b a p s

/-- VCMP.uno (18 R387). -/
def execVcmpUno (n : Bool) (b a : BitVec 5) (p : BitVec 6) (s : State) : Host.Outcome State Fault Refusal :=
  vcmpWord .uno n b a p s

/-- VCMP.ieq (18 R387). -/
def execVcmpIeq (n : Bool) (b a : BitVec 5) (p : BitVec 6) (s : State) : Host.Outcome State Fault Refusal :=
  vcmpWord .ieq n b a p s

/-- VCMP.ilt (18 R387). -/
def execVcmpIlt (n : Bool) (b a : BitVec 5) (p : BitVec 6) (s : State) : Host.Outcome State Fault Refusal :=
  vcmpWord .ilt n b a p s

/-- VCMP.iltu (18 R387). -/
def execVcmpIltu (n : Bool) (b a : BitVec 5) (p : BitVec 6) (s : State) : Host.Outcome State Fault Refusal :=
  vcmpWord .iltu n b a p s

/-- VSEL (18 R389). -/
def execVsel (k : Guard) (b a d : BitVec 5) (s : State) : Host.Outcome State Fault Refusal :=
  word32 { srcs := [codeP k.p.toNat, a.toNat, b.toNat], dsts := [(d.toNat, 2)] }
    (fun s =>
      let x := s.fctx
      .done (s.vresult d.toNat 2 (blend (x.guardMask k) (x.vreg b.toNat) (x.vreg a.toNat)) maskAll 0)) s

/-! ## Conversions and narrow rounding (18 R390) -/

/-- VCVT.i32 (18 R390). -/
def execVcvtI32 (g : Guard) (a d : BitVec 5) (s : State) : Host.Outcome State Fault Refusal :=
  vword1 none lat4 fToI32 g a d s

/-- VCVT.f32 (18 R390). -/
def execVcvtF32 (g : Guard) (a d : BitVec 5) (s : State) : Host.Outcome State Fault Refusal :=
  vword1 none lat4 i32ToF g a d s

/-- VRND.bf16 (18 R390). -/
def execVrndBf16 (g : Guard) (a d : BitVec 5) (s : State) : Host.Outcome State Fault Refusal :=
  vword1 none lat4 (fun rm a => (widenBf16 (roundBf16 rm a).1, (roundBf16 rm a).2)) g a d s

/-- VRND.t8 (18 R390). -/
def execVrndT8 (g : Guard) (a d : BitVec 5) (s : State) : Host.Outcome State Fault Refusal :=
  vword1 none lat4 (fun _ => roundTapered t8) g a d s

/-- VRND.t6 (18 R390; feature 0, R382). -/
def execVrndT6 (g : Guard) (a d : BitVec 5) (s : State) : Host.Outcome State Fault Refusal :=
  vword1 (some 0) lat4 (fun _ => roundTapered t6) g a d s

/-! ## Moves across the register and reductions (18 R391, R392) -/

/-- A word without guard from one vector, every element written. -/
def vmoveWord (lat : Nat) (f : List Elem → List Elem) (a d : BitVec 5) (s : State) : Host.Outcome State Fault Refusal :=
  word32 { srcs := [a.toNat], dsts := [(d.toNat, lat)] }
    (fun s => .done (s.vresult d.toNat lat (f (s.fctx.vreg a.toNat)) maskAll 0)) s

/-- A vector by row and column. -/
def vbuild (f : Nat → Nat → Elem) : List Elem := (List.range 1024).map (fun i => f (i / 64) (i % 64))

/-- An element by row and column. -/
def vat (v : List Elem) (i j : Nat) : Elem := v.getD (64 * i + j) 0

/-- VROTR (18 R391). -/
def execVrotr (k : BitVec 4) (a d : BitVec 5) (s : State) : Host.Outcome State Fault Refusal :=
  vmoveWord 2 (fun v => vbuild (fun i j => vat v ((i + k.toNat) % 16) j)) a d s

/-- VROTC (18 R391). -/
def execVrotc (k : BitVec 6) (a d : BitVec 5) (s : State) : Host.Outcome State Fault Refusal :=
  vmoveWord 6 (fun v => vbuild (fun i j => vat v i ((j + k.toNat) % 64))) a d s

/-- VBCR (18 R391). -/
def execVbcr (k : BitVec 4) (a d : BitVec 5) (s : State) : Host.Outcome State Fault Refusal :=
  vmoveWord 2 (fun v => vbuild (fun _ j => vat v k.toNat j)) a d s

/-- VBCC (18 R391). -/
def execVbcc (k : BitVec 6) (a d : BitVec 5) (s : State) : Host.Outcome State Fault Refusal :=
  vmoveWord 5 (fun v => vbuild (fun i _ => vat v i k.toNat)) a d s

/-- VTRN16 (18 R391). -/
def execVtrn16 (a d : BitVec 5) (s : State) : Host.Outcome State Fault Refusal :=
  vmoveWord 8 (fun v => vbuild (fun i j => vat v (j % 16) (16 * (j / 16) + i))) a d s

/-- `reduce` (18 R392), `n` halvings: element k is paired with element k + n/2. -/
def reduceTree (f : Elem → Elem → Elem × Flags) : Nat → List Elem × Flags → Elem × Flags
  | 0, (xs, fl) => (xs.headD 0, fl)
  | n + 1, (xs, fl) =>
    let h := xs.length / 2
    let ys := ((xs.take h).zip (xs.drop h)).map (fun p => f p.1 p.2)
    reduceTree f n (ys.map Prod.fst, ys.foldl (fun a y => a ||| y.2) fl)

/-- VREDR and VREDC (18 R392). -/
def vredWord (cols : Bool) (f : RM → Elem → Elem → Elem × Flags) (a d : BitVec 5) (s : State) : Host.Outcome State Fault Refusal :=
  let lat := s.lat (if cols then 8 else 12)
  word32 { srcs := [a.toNat], dsts := [(d.toNat, lat)] }
    (fun s =>
      let x := s.fctx
      let v := x.vreg a.toNat
      let rs := if cols then (List.range 64).map (fun j => reduceTree (f x.rm) 4 ((List.range 16).map (fun i => vat v i j), 0))
        else (List.range 16).map (fun i => reduceTree (f x.rm) 6 ((List.range 64).map (fun j => vat v i j), 0))
      let out := vbuild (fun i j => (rs.getD (if cols then j else i) (0, 0)).1)
      .done (s.vresult d.toNat lat out maskAll (rs.foldl (fun fl r => fl ||| r.2) 0))) s

/-- VREDR.sum (18 R392). -/
def execVredrSum (a d : BitVec 5) (s : State) : Host.Outcome State Fault Refusal :=
  vredWord true fAdd a d s

/-- VREDR.max (18 R392). -/
def execVredrMax (a d : BitVec 5) (s : State) : Host.Outcome State Fault Refusal :=
  vredWord true (fun _ => fMax) a d s

/-- VREDR.min (18 R392). -/
def execVredrMin (a d : BitVec 5) (s : State) : Host.Outcome State Fault Refusal :=
  vredWord true (fun _ => fMin) a d s

/-- VREDC.sum (18 R392). -/
def execVredcSum (a d : BitVec 5) (s : State) : Host.Outcome State Fault Refusal :=
  vredWord false fAdd a d s

/-- VREDC.max (18 R392). -/
def execVredcMax (a d : BitVec 5) (s : State) : Host.Outcome State Fault Refusal :=
  vredWord false (fun _ => fMax) a d s

/-- VREDC.min (18 R392). -/
def execVredcMin (a d : BitVec 5) (s : State) : Host.Outcome State Fault Refusal :=
  vredWord false (fun _ => fMin) a d s

/-- VLI (18 R393). -/
def execVli (i : BitVec 20) (d : BitVec 5) (s : State) : Host.Outcome State Fault Refusal :=
  word32 { dsts := [(d.toNat, 2)] } (fun s => .done (s.vresult d.toNat 2 (List.replicate 1024 (i ++ 0#12)) maskAll 0)) s

/-! ## Queues (18 R394 to R397) -/

/-- Rows from `r` up, `n` of them, as a mask. -/
def rowsMask (r n : Nat) : Mask := (List.range n).foldl (fun m i => m ||| rowMask (r + i)) 0

/-- A vector that holds granules in rows from `r` up. -/
def rowsVec (r : Nat) (gs : List (List Elem)) : List Elem :=
  vbuild (fun i j => if r ≤ i then (gs.getD (i - r) []).getD j 0 else 0)

/-- A row of a vector as a granule. -/
def rowOf (v : List Elem) (i : Nat) : List Elem := (v.drop (64 * i)).take 64

/-- An interlocked result of the V stream, readable 2 clk after the take (07 R183). -/
def State.taken (s : State) (code : Nat) (v : RVal) (m : Mask) (fl : Flags) (dst : Bool) : State :=
  let reg := physCode s.foc.st s.fstrm.swin.toNat code
  let (id, s) := s.nextId
  s.fly s.foc ⟨id, reg, v, s.clk + 1, true, m, fl, dst⟩

/-- VPOP (18 R395). -/
def execVpop (c r q : BitVec 4) (d : BitVec 5) (s : State) : Host.Outcome State Fault Refusal :=
  word32 { outs := [d.toNat] }
    (fun s =>
      let n := c.toNat + 1
      match (s.fctx.dq q.toNat).heads n s.clk with
      | none => .wait (0x10 + q.toNat) s
      | some gs =>
        let s := s.modF (fun x => x.putDq q.toNat ((x.dq q.toNat).take n s.clk))
        .done (s.taken d.toNat (.vec (rowsVec r.toNat gs)) (rowsMask r.toNat n) 0 false)) s

/-- VPUSH (18 R395). -/
def execVpush (c r q : BitVec 4) (a : BitVec 5) (s : State) : Host.Outcome State Fault Refusal :=
  word32 { srcs := [a.toNat] }
    (fun s =>
      let n := c.toNat + 1
      let x := s.fctx
      if !(x.dq q.toNat).room n s.clk then .wait (0x20 + q.toNat) s
      else
        let gs := (List.range n).map (fun i => rowOf (x.vreg a.toNat) (r.toNat + i))
        .done (s.modF (fun x => x.putDq q.toNat ((x.dq q.toNat).push gs (s.clk + 1))))) s

/-- VTOS (18 R396). -/
def execVtos (j : BitVec 5) (r : BitVec 4) (a : BitVec 5) (s : State) : Host.Outcome State Fault Refusal :=
  word32 { srcs := [a.toNat] }
    (fun s =>
      let x := s.fctx
      let v := x.vreg a.toNat
      if x.q3.full 8 s.clk then .wait 0x23 s
      else .done (s.modF (fun x => { x with q3 := x.q3.add (vat v r.toNat (2 * j.toNat + 1) ++ vat v r.toNat (2 * j.toNat)) (s.clk + 2) }))) s

/-- VFRS (18 R396). -/
def execVfrs (h : Bool) (d : BitVec 5) (s : State) : Host.Outcome State Fault Refusal :=
  word32 { outs := [d.toNat] }
    (fun s =>
      match s.fctx.q1.head s.clk with
      | none => .wait 0x11 s
      | some e =>
        let s := s.modF (fun x => { x with q1 := x.q1.take s.clk })
        let v : Elem := if h then e.extractLsb' 32 32 else e.extractLsb' 0 32
        .done (s.taken d.toNat (.vec (List.replicate 1024 v)) maskAll 0 false)) s

/-! ## Spill (18 R398) -/

/-- VLDL (18 R398). -/
def execVldl (o : BitVec 12) (d : BitVec 5) (s : State) : Host.Outcome State Fault Refusal :=
  word32 { dsts := [(d.toNat, 3)] }
    (fun s =>
      if 304 < o.toNat then .trap cPERM (o.setWidth 64)
      else
        let v := (elemsLE 4 1024 (Memory.readN s.fctx.spillV (256 * o.toNat) 4096)).map (BitVec.ofNat 32)
        .done (s.result d.toNat 3 (.vec v) maskAll 0 false)) s

/-- VSTL (18 R398). -/
def execVstl (o : BitVec 12) (a : BitVec 5) (s : State) : Host.Outcome State Fault Refusal :=
  word32 { srcs := [a.toNat] }
    (fun s =>
      if 304 < o.toNat then .trap cPERM (o.setWidth 64)
      else
        let bs := (s.fctx.vreg a.toNat).flatMap (fun e => bytesLE 4 e.toNat)
        .done (s.modF (fun x => { x with spillV := Memory.writeN x.spillV (256 * o.toNat) bs }))) s

end Sys2Proof.Machine
end

