-- ==== Sys2Proof/Machine/DistWords.lean ====
section
/-! DEFINITION. The distribution words of the V stream (18 R401 to R408; 11 R270 to R280). -/

namespace Sys2Proof.Machine

/-- A distribution result; in guarded timing the values of lanes struck for a lasting fault are free (04 R112; log 1). -/
def State.dresult (s : State) (d lat : Nat) (v : DReg) (fl : Flags) : State :=
  let gs := s.faultyGroups s.foc.ctx.core
  if gs.isEmpty then s.result (codeD d) lat (.dist v) maskAll fl true
  else
    let lanes := v.lanes.zipIdx.map (fun p => if gs.contains (p.2 / 8) then
        { p.1 with v := p.1.v.zipIdx.map (fun q => Config.struckValue (1024 * s.fresh + 8 * p.2 + q.2)) } else p.1)
    (s.free).2.result (codeD d) lat (.dist { v with lanes := lanes }) maskAll fl true

/-- A pairing word (18 R402; 11 R275, R276). -/
def pairWord (op : DOp) (b a d : BitVec 5) (s : State) : Host.Outcome State Fault Refusal :=
  let cs := dCase (s.fctx.dreg a.toNat) (s.fctx.dreg b.toNat)
  let lock := cs == .lockstep
  let lat := s.lat (if lock then 8 else 24)
  word32 { feature := some 2, srcs := [codeD a.toNat, codeD b.toNat], dsts := [(codeD d.toNat, lat)], pairing := !lock }
    (fun s =>
      let x := s.fctx
      let ra := x.dreg a.toNat
      let rb := x.dreg b.toNat
      let (stamp, x') := if lock then (0, x) else x.takeStamp
      let (r, fl) := pairRegs op x.drm stamp ra rb
      let s := if lock then s else (s.modF (fun _ => x')).modFs (fun y => { y with lastPair := some s.clk })
      .done (s.dresult d.toNat lat r fl)) s

/-- DADD (18 R402). -/
def execDadd (b a d : BitVec 5) (s : State) : Host.Outcome State Fault Refusal := pairWord .add b a d s

/-- DSUB (18 R402). -/
def execDsub (b a d : BitVec 5) (s : State) : Host.Outcome State Fault Refusal := pairWord .sub b a d s

/-- DMUL (18 R402). -/
def execDmul (b a d : BitVec 5) (s : State) : Host.Outcome State Fault Refusal := pairWord .mul b a d s

/-- DMIX (18 R402). -/
def execDmix (b a d : BitVec 5) (s : State) : Host.Outcome State Fault Refusal := pairWord .mix b a d s

/-- DMULS, DADDS and DMAXS (18 R403): the scalar of lane c stands in row 0, column c of vb. -/
def dscalarWord (f : RM → Elem → Elem → Elem × Flags) (b a d : BitVec 5) (s : State) : Host.Outcome State Fault Refusal :=
  let lat := s.lat 6
  word32 { feature := some 2, srcs := [codeD a.toNat, b.toNat], dsts := [(codeD d.toNat, lat)] }
    (fun s =>
      let x := s.fctx
      let (r, fl) := mapReg (f x.drm) (x.dreg a.toNat) (rowOf (x.vreg b.toNat) 0)
      .done (s.dresult d.toNat lat r fl)) s

/-- DMULS (18 R403). -/
def execDmuls (b a d : BitVec 5) (s : State) : Host.Outcome State Fault Refusal := dscalarWord fMul b a d s

/-- DADDS (18 R403). -/
def execDadds (b a d : BitVec 5) (s : State) : Host.Outcome State Fault Refusal := dscalarWord fAdd b a d s

/-- DMAXS (18 R403). -/
def execDmaxs (b a d : BitVec 5) (s : State) : Host.Outcome State Fault Refusal := dscalarWord (fun _ => fMax) b a d s

/-- DMAP (18 R403). -/
def dmapWord (f : RM → Elem → Elem × Flags) (a d : BitVec 5) (s : State) : Host.Outcome State Fault Refusal :=
  let lat := s.lat 6
  word32 { feature := some 2, srcs := [codeD a.toNat], dsts := [(codeD d.toNat, lat)] }
    (fun s =>
      let x := s.fctx
      let (r, fl) := mapReg1 (f x.drm) (x.dreg a.toNat)
      .done (s.dresult d.toNat lat r fl)) s

/-- DMAP.exp2 (18 R403). -/
def execDmapExp2 (a d : BitVec 5) (s : State) : Host.Outcome State Fault Refusal := dmapWord fExp2 a d s

/-- DMAP.log2 (18 R403). -/
def execDmapLog2 (a d : BitVec 5) (s : State) : Host.Outcome State Fault Refusal := dmapWord fLog2 a d s

/-- DMAP.tanh (18 R403). -/
def execDmapTanh (a d : BitVec 5) (s : State) : Host.Outcome State Fault Refusal := dmapWord fTanh a d s

/-- DMAP.sigmoid (18 R403). -/
def execDmapSigmoid (a d : BitVec 5) (s : State) : Host.Outcome State Fault Refusal := dmapWord fSigmoid a d s

/-- A register built of lanes with T 0 and a fresh stamp (11 R271; 18 R404). -/
def buildWord (lat : Nat) (lanes : RM → List Elem → List (Lane × Flags)) (a d : BitVec 5) (s : State) :
    Host.Outcome State Fault Refusal :=
  word32 { feature := some 2, srcs := [a.toNat], dsts := [(codeD d.toNat, lat)] }
    (fun s =>
      let x := s.fctx
      let (stamp, x') := x.takeStamp
      let ls := lanes x.drm (x.vreg a.toNat)
      .done ((s.modF (fun _ => x')).dresult d.toNat lat ⟨ls.map Prod.fst, 0, stamp⟩ (ls.foldl (fun f l => f ||| l.2) 0))) s

/-- DPT (18 R404). -/
def execDpt (r : BitVec 4) (a d : BitVec 5) (s : State) : Host.Outcome State Fault Refusal :=
  buildWord 2 (fun _ v => (rowOf v r.toNat).map dptLane) a d s

/-- DGAUSS (18 R404, R405). -/
def execDgauss (r : BitVec 4) (a d : BitVec 5) (s : State) : Host.Outcome State Fault Refusal :=
  buildWord (s.lat 6) (fun rm v => ((rowOf v r.toNat).zip (rowOf v (r.toNat + 1))).map (fun p => gaussLane rm p.1 p.2)) a d s

/-- DPOP (18 R404; 11 R272, R273). The stamp is taken at issue. -/
def execDpop (q : BitVec 4) (d : BitVec 5) (s : State) : Host.Outcome State Fault Refusal :=
  word32 { feature := some 2, outs := [codeD d.toNat] }
    (fun s =>
      match (s.fctx.dq q.toNat).heads 12 s.clk with
      | none => .wait (0x10 + q.toNat) s
      | some gs =>
        let s := s.modF (fun x => x.putDq q.toNat ((x.dq q.toNat).take 12 s.clk))
        let (stamp, x') := s.fctx.takeStamp
        .done ((s.modF (fun _ => x')).taken (codeD d.toNat) (.dist ⟨(dregOfRow gs).map normalise, 0, stamp⟩) maskAll 0 true)) s

/-- DPUSH (18 R404; 11 R272). -/
def execDpush (q : BitVec 4) (a : BitVec 5) (s : State) : Host.Outcome State Fault Refusal :=
  word32 { feature := some 2, srcs := [codeD a.toNat] }
    (fun s =>
      let x := s.fctx
      if !(x.dq q.toNat).room 12 s.clk then .wait (0x20 + q.toNat) s
      else
        let gs := rowOfLanes ((x.dreg a.toNat).lanes.map Lane.read)
        .done (s.modF (fun x => x.putDq q.toNat ((x.dq q.toNat).push gs (s.clk + 1))))) s

/-- One row of a vector from 64 elements. -/
def oneRow (r : Nat) (es : List Elem) : List Elem := rowsVec r [es]

/-- A row of statistics written to a vector; flags go to DSTAT. -/
def State.statResult (s : State) (d lat r : Nat) (es : List (Elem × Flags)) : State :=
  s.result d lat (.vec (s.struckElems (oneRow r (es.map Prod.fst)))) (rowMask r) (es.foldl (fun f e => f ||| e.2) 0) true

/-- DMOM (18 R406; 11 R279). -/
def execDmom (k : BitVec 2) (r : BitVec 4) (a d : BitVec 5) (s : State) : Host.Outcome State Fault Refusal :=
  let lat := s.lat 12
  word32 { feature := some 2, srcs := [codeD a.toNat], dsts := [(d.toNat, lat)] }
    (fun s =>
      let x := s.fctx
      .done (s.statResult d.toNat lat r.toNat ((x.dreg a.toNat).lanes.map (momentLane x.drm k.toNat)))) s

/-- DQNT (18 R406; 11 R280). -/
def execDqnt (r : BitVec 4) (a d : BitVec 5) (s : State) : Host.Outcome State Fault Refusal :=
  let lat := s.lat 14
  word32 { feature := some 2, srcs := [codeD a.toNat, d.toNat], dsts := [(d.toNat, lat)] }
    (fun s =>
      let x := s.fctx
      let ps := rowOf (x.vreg d.toNat) r.toNat
      .done (s.statResult d.toNat lat r.toNat (((x.dreg a.toNat).lanes.zip ps).map (fun p => quantileLane x.drm p.1 p.2)))) s

/-- DTAG (18 R407): the values, masses and L of the register, read at issue, stay. -/
def execDtag (i : BitVec 16) (d : BitVec 5) (s : State) : Host.Outcome State Fault Refusal :=
  word32 { feature := some 2, srcs := [codeD d.toNat], dsts := [(codeD d.toNat, 2)] }
    (fun s => .done (s.result (codeD d.toNat) 2 (.dist { (s.fctx.dreg d.toNat).read with tag := i }) maskAll 0 true)) s

/-- DLIN (18 R407): a stamp of its own where imm16 is 0. -/
def execDlin (i : BitVec 16) (d : BitVec 5) (s : State) : Host.Outcome State Fault Refusal :=
  word32 { feature := some 2, srcs := [codeD d.toNat], dsts := [(codeD d.toNat, 2)] }
    (fun s =>
      let x := s.fctx
      let (stamp, x') := if i = 0 then x.takeStamp else (i, x)
      .done ((s.modF (fun _ => x')).result (codeD d.toNat) 2 (.dist { (x.dreg d.toNat).read with lin := stamp }) maskAll 0 true)) s

/-- The clear and the write of RM and DDE that a DFLG makes at the end of clk t + 1 (18 R408). -/
def Ctx.dflgLater (x : Ctx) (clk : Nat) (i : BitVec 16) : Ctx :=
  { x with vf := { x.vf with dflg := x.vf.dflg ++ [(clk + 1, i &&& 0x3D00, if i.getLsbD 15 then some (i.extractLsb' 0 3) else none)] } }

/-- DSTAT after a DFLG has taken effect (18 R408). -/
def dflgApply (w : Word) (clear : Flags) (set : Option (BitVec 3)) : Word :=
  let w := w &&& ~~~(clear.setWidth 64)
  match set with
  | some v => withField (withField w 0 2 v.toNat) 16 1 (bit (v.getLsbD 2))
  | none => w

/-- The DFLG writes due before a clk begins, applied (18 R408). -/
def Ctx.dflgDue (x : Ctx) (clk : Nat) : Ctx :=
  let due := x.vf.dflg.filter (fun e => decide (e.1 < clk))
  if due.isEmpty then x
  else { x with vf := { x.vf with
    dstat := due.foldl (fun w e => dflgApply w e.2.1 e.2.2) x.vf.dstat
    dflg := x.vf.dflg.filter (fun e => !decide (e.1 < clk)) } }

/-- DFLG (18 R408). -/
def execDflg (i : BitVec 16) (s : State) : Host.Outcome State Fault Refusal :=
  word32 { feature := some 2 } (fun s => .done (s.modF (fun x => x.dflgLater s.clk i))) s

/-- DFLG.rd (18 R408). -/
def execDflgRd (i : BitVec 16) (s : State) : Host.Outcome State Fault Refusal :=
  word32 { feature := some 2 }
    (fun s =>
      let x := s.fctx
      if x.q3.full 8 s.clk then .wait 0x23 s
      else .done (s.modF (fun x =>
        ({ x with q3 := x.q3.add (x.vf.dstat &&& 0xFFFFFFFFFFFF) (s.clk + 2) }).dflgLater s.clk i))) s

end Sys2Proof.Machine
end

