-- ==== Sys2Proof/Machine/Errors.lean ====
section
/-! DEFINITION. Errors of the hardware: freezes (07 R185 to R187), self-tests (04 R98 to R100), uncorrectable errors (R109). -/

namespace Sys2Proof.Machine

/-! ## What a freeze moves (07 R185) -/

/-- A clk that is not over at `t`, moved. -/
def later (t shift clk : Nat) : Nat := if t ≤ clk then clk + shift else clk

/-- Results in flight of a stream pause, and its prepared branches where it runs; those of a stopped one keep their distance (12 R293). -/
def StreamSt.pause (y : StreamSt) (t shift : Nat) (runs : Bool) : StreamSt :=
  { y with pend := y.pend.map (fun p => { p with land := later t shift p.land })
           prep := if runs then y.prep.map (fun e => (e.1, e.2 + shift)) else y.prep
           lastPair := y.lastPair.map (fun c => if t < c + 4 then c + shift else c) }

def ScalarQ.pause (q : ScalarQ) (t shift : Nat) : ScalarQ := { q with items := q.items.map (fun e => (e.1, later t shift e.2)) }

def DataQ.pause (q : DataQ) (t shift : Nat) : DataQ := { q with items := q.items.map (fun g => { g with ready := later t shift g.ready }) }

/-- A micro-step and the completion of a command pause. -/
def Run.pause (r : Run) (t shift : Nat) : Run := { r with due := later t shift r.due, done := r.done.map (later t shift) }

/-- A command on its way to the head pauses with the check core (04 R104). -/
def Command.pause (c : Command) (t shift : Nat) : Command := { c with elig := later t shift c.elig }

def Engines.pause (g : Engines) (t shift : Nat) : Engines :=
  { g with
    loadQ := g.loadQ.map (fun c => c.pause t shift), storeQ := g.storeQ.map (fun c => c.pause t shift)
    matrixQ := g.matrixQ.map (fun c => c.pause t shift), rowQ := g.rowQ.map (fun c => c.pause t shift)
    loadRun := g.loadRun.map (fun r => r.pause t shift), storeRun := g.storeRun.map (fun r => r.pause t shift)
    matrixRun := g.matrixRun.map (fun r => r.pause t shift), rowRun := g.rowRun.map (fun r => r.pause t shift)
    drain := g.drain.map (fun d => (d.1, d.2.pause t shift))
    rowsOut := g.rowsOut.map (fun e => (e.1, e.2.1, later t shift e.2.2)) }

def Ctx.pause (x : Ctx) (t shift : Nat) : Ctx :=
  { x with
    c := x.c.pause t shift (x.phase == .running), a := x.a.pause t shift x.onTime, v := x.v.pause t shift x.onTime
    vf := { x.vf with dflg := x.vf.dflg.map (fun e => (later t shift e.1, e.2)) }
    q0 := x.q0.pause t shift, q1 := x.q1.pause t shift, q2 := x.q2.pause t shift, q3 := x.q3.pause t shift
    q4 := x.q4.pause t shift, q5 := x.q5.pause t shift, q6 := x.q6.pause t shift, q7 := x.q7.pause t shift
    q8 := x.q8.pause t shift, q9 := x.q9.pause t shift, q14 := x.q14.pause t shift, q15 := x.q15.pause t shift
    eng := x.eng.pause t shift }

/-- A core whose pipelines and bank switch pause. -/
def CoreSt.pause (k : CoreSt) (t shift : Nat) : CoreSt :=
  { k with
    switchEnd := later t shift k.switchEnd, apFree := later t shift k.apFree
    ap := k.ap.map (fun w => { w with fin := later t shift w.fin }), matrixFree := later t shift k.matrixFree
    portW := k.portW.map (fun w => if w.due = 0 then w else { w with due := later t shift w.due }) }

/-- A stream behind by more clk (07 R186). -/
def StreamSt.slipBy (y : StreamSt) (n : Nat) : StreamSt := { y with slip := y.slip + n }

/-- The context of a core's active bank, or of the bank that a switch under way activates (07 R189). -/
def State.issuing (s : State) (core : Nat) : CtxId := ⟨core, (s.core core).switching.getD (s.core core).active⟩

/-- The slip of every stream of a core's active context rises; of a stopped context, or one in a handler, the clk are added as it goes on
(12 R293). -/
def State.slipActive (s : State) (core n : Nat) : State :=
  s.modCtx (s.issuing core) (fun x =>
    if x.onTime then { x with c := x.c.slipBy n, a := x.a.slipBy n, v := x.v.slipBy n } else x)

/-- A core frozen for 40 clk, or longer where it is frozen already (07 R185): the clk that an extension adds raise S at once, the 40 of
R186 at the end. -/
def State.freezeCore (s : State) (core : Nat) : State :=
  let e := s.clk + 40
  let old := (s.core core).freeze.getD 0
  let again := s.frozen core
  let shift := if again then e - old else 40
  let s := s.modCore core (fun k => { k.pause s.clk shift with freeze := some e })
  let s := [0, 1].foldl (fun t b => t.modCtx ⟨core, b⟩ (fun x => if x.resident then x.pause s.clk shift else x)) s
  let s := if again then s.slipActive core shift else s
  s.post e (.eccFreezeEnd core)

/-- The cores that freeze with one: the other member of a redundant pair (04 R102). -/
def State.frozenWith (s : State) (core : Nat) : List Nat :=
  match s.partner ⟨core, (s.core core).active⟩ with
  | some d => [core, d.core]
  | none => [core]

/-- ECC_FREEZE_BEGIN (07 R185; 04 R98, R102; 03 R77): the self-test ends with the freeze. -/
def execEccFreezeBegin (s : State) : Host.Outcome State Fault Refusal :=
  match s.cur with
  | some (.eccFreezeBegin core unit passes) =>
    let x := s.ctx ⟨core, (s.core core).active⟩
    let s := s.countErr (modOf core) (if x.resident then x.job.toNat else 0) 0
    let s := (s.frozenWith core).foldl (fun t k => t.freezeCore k) s
    .next (s.post (s.clk + 40) (.selfTestEnd (dieOf core) unit passes))
  | _ => .next s

/-- The part of a STALL still to run in catch-up: max(1, n - S) clk (07 R186). -/
def StreamSt.shorten (y : StreamSt) : StreamSt :=
  if y.stall = 0 then y
  else
    let t := Nat.max 1 (y.stall - y.slip)
    { y with stall := t, slip := y.slip - (y.stall - t) }

/-- ECC_FREEZE_END (07 R186, R187): S rises by 40; a second freeze in a waypoint interval raises TIMETABLE_OVERRUN. -/
def execEccFreezeEnd (s : State) : Host.Outcome State Fault Refusal :=
  match s.cur with
  | some (.eccFreezeEnd core) =>
    if (s.core core).freeze != some s.clk then .next s
    else
      let c := s.issuing core
      let s := (s.modCore core (fun k => { k with freeze := none })).slipActive core 40
      let x := s.ctx c
      if !x.resident then .next s
      else
        let s := s.modCtx c (fun x =>
          let x := if x.guarded || !x.onTime then x else { x with c := x.c.shorten, a := x.a.shorten, v := x.v.shorten }
          { x with freezes := x.freezes + 1 })
        .next (if 1 ≤ x.freezes then s.overrun c 1 else s)
  | _ => .next s

/-- SELF_TEST_END (04 R99, R100): a soft error changes no survey; one of a memory controller, which no freeze has counted, is counted
(03 R77, R78; log 31). -/
def execSelfTestEnd (s : State) : Host.Outcome State Fault Refusal :=
  match s.cur with
  | some (.selfTestEnd die u passes) =>
    if passes then .next (if u.kind = 0x0B || u.kind = 0x0C then s.countErr (die / 8) 0 1 else s)
    else
      let (s, hs) := s.lastingFault die u
      .next (s.signEdition die hs)
  | _ => .next s

/-- UNCORRECTABLE_ERROR_CONSUMED (04 R98, R109; 12 R281): rollback in a recoverable interval, POISON otherwise. An error of an SRAM of the
core comes with the unit whose word is tested inside the error's freeze, and what the test finds. -/
def execUncorrectableErrorConsumed (s : State) : Host.Outcome State Fault Refusal :=
  match s.cur with
  | some (.uncorrectableErrorConsumed c addr test) =>
    let s := match test with
      | some (u, passes) =>
        ((s.frozenWith c.core).foldl (fun t k => t.freezeCore k) s).post (s.clk + 40) (.selfTestEnd (dieOf c.core) u passes)
      | none => s
    let x := s.ctx c
    if !x.resident then .next s
    else if s.recoverable x.plat then .next ((s.countErr (modOf c.core) x.job.toNat 1).rollback x.plat cPOISON)
    else .next (s.raiseAsync c cPOISON addr)
  | _ => .next s

/-- MEMORY_UNCORRECTABLE_ERROR (04 R98): a test of the row, which ends within 2 ms. -/
def execMemoryUncorrectableError (s : State) : Host.Outcome State Fault Refusal :=
  match s.cur with
  | some (.memoryUncorrectableError die u passes) =>
    let (d, s) := s.freeTime
    .next (s.post (s.clk + d % 2100001) (.selfTestEnd die u passes))
  | _ => .next s

end Sys2Proof.Machine
end

