-- ==== Sys2Proof/Machine/Launch.lean ====
section
/-! DEFINITION. LAUNCH (05 R119 to R127; 08 R218; 14 R355): the plat image read, its checks in their order, and the acceptance of a plat. -/

namespace Sys2Proof.Machine

/-! ## The image (05 R119 to R122) -/

/-- The value of `n` bytes at an offset of a list. -/
def leAt (bs : List Byte) (off n : Nat) : Nat := ofBytesLE ((bs.drop off).take n)

/-- A field of an image with what it must be: whether it is so, and its offset from the header. -/
abbrev Field := Bool × Nat

/-- The offset of the first bad field. -/
def firstBad (fs : List Field) : Option Nat := (fs.find? (fun f => !f.1)).map Prod.snd

def within (lo x hi : Nat) : Bool := decide (lo ≤ x) && decide (x ≤ hi)

/-- The checks of a header (05 R119). -/
def headerFields (h : List Byte) : List Field :=
  let u := leAt h
  let npred := u 0x16 1
  [(u 0 4 == 1, 0), (u 4 4 / 16 == 0, 4), (u 8 8 != 0, 8), (u 0x10 2 / 4096 == 0, 0x10), (within 1 (u 0x12 2) 2048, 0x12),
   (within 1 (u 0x14 2) 256, 0x14), (decide (npred ≤ 8), 0x16), (u 0x17 1 == 0, 0x17), (decide (u 0x18 4 ≤ 65536), 0x18),
   (within 1 (u 0x1C 4) 65536, 0x1C), (u 0x20 8 % 64 == 0, 0x20), (u 0x28 8 % 8 == 0, 0x28), (u 0x30 8 % 8 == 0, 0x30),
   (u 4 4 / 4 % 2 == 1 || u 0x38 8 == 0, 0x38)] ++
  (List.range 8).map (fun i => (decide (i < npred) || u (0x40 + 8 * i) 8 == 0, 0x40 + 8 * i)) ++
  (List.range 8).map (fun i => (u (0xC0 + 8 * i) 8 == 0, 0xC0 + 8 * i))

/-- A scratchpad region of a parcel entry (05 R120). -/
def padReg (w : Nat) : PadReg := ⟨fieldOf w 0 16, fieldOf w 16 10, fieldOf w 32 16⟩

def padRegOk (w : Nat) : Bool :=
  let r := padReg w
  fieldOf w 26 6 == 0 && fieldOf w 48 16 == 0 && r.off % 128 == 0 && decide (r.off + 128 * r.len ≤ 65536) &&
  (r.len == 0 || decide (r.entry < 128 * r.len))

/-- A parcel entry (05 R120). -/
def parcelOf (i : Nat) (bs : List Byte) : Parcel :=
  let u (o : Nat) : Nat := leAt bs o 8
  let p := u 0
  { index := i, mod := fieldOf p 0 6, die := fieldOf p 8 3, core := fieldOf p 12 3,
    partner := if fieldOf p 16 4 = 15 then none else some (fieldOf p 16 4),
    pparam := BitVec.ofNat 64 (u 8), csrc := BitVec.ofNat 64 (u 0x10), asrc := BitVec.ofNat 64 (u 0x18), vsrc := BitVec.ofNat 64 (u 0x20),
    creg := padReg (u 0x28), areg := padReg (u 0x30), vreg := padReg (u 0x38) }

/-- The checks of a parcel entry at an offset: one without C text is malformed (05 R120). -/
def parcelFields (mods : List Nat) (off : Nat) (bs : List Byte) : List Field :=
  let u (o : Nat) : Nat := leAt bs o 8
  let p := u 0
  let partner := fieldOf p 16 4
  [(fieldOf p 6 2 == 0 && fieldOf p 11 1 == 0 && fieldOf p 15 1 == 0 && p / 2 ^ 20 == 0 && mods.contains (fieldOf p 0 6) &&
      (partner == 15 || (decide (partner < 8) && partner != fieldOf p 12 3)), off),
   (padRegOk (u 0x28) && fieldOf (u 0x28) 16 10 != 0, off + 0x28), (padRegOk (u 0x30), off + 0x30), (padRegOk (u 0x38), off + 0x38)]

/-- An edition entry (05 R121): module, die, edition. -/
def editOf (w : Nat) : Nat × Nat × Nat := (fieldOf w 8 6, fieldOf w 0 3, fieldOf w 32 32)

def editOk (w : Nat) : Bool := fieldOf w 14 18 == 0 && fieldOf w 3 5 == 0

/-- A reservation entry (05 R122). -/
def resvOf (w : Nat) : Resv :=
  { trunk := fieldOf w 63 1 == 1, ccw := fieldOf w 62 1 == 1, trk := fieldOf w 60 2, pos := fieldOf w 56 4, offset := fieldOf w 44 12,
    ssta := fieldOf w 40 4, smod := fieldOf w 34 6, dsta := fieldOf w 30 4, dmod := fieldOf w 24 6 }

/-- The form of a reservation: a local one stays in its module, a trunk one joins two waystations of its ring (05 R122). -/
def resvOk (mods : List Nat) (w : Nat) : Bool :=
  let r := resvOf w
  fieldOf w 0 24 == 0 && decide (r.ssta < 12) && decide (r.dsta < 12) && mods.contains r.smod && mods.contains r.dmod &&
  (if r.trunk then decide (r.pos ≤ 8) && r.ssta == 8 + r.trk && r.dsta == 8 + r.trk else r.pos == 0 && r.smod == r.dmod)

/-- A barrier record (08 R218): SCOPE, BID, NPARTY. -/
abbrev BarRec := Nat × Nat × Nat

/-- The barrier configuration of a plat (08 R218), none where a record is bad. -/
def barRecords (h recs : List Byte) : Option (List BarRec) :=
  let n := leAt h 0 2
  let rs := (chunks 8 n recs).map (fun b => (leAt b 0 1, leAt b 1 1, leAt b 2 2))
  let keys := rs.map (fun r => (r.1, r.2.1))
  if decide (128 < n) || leAt h 2 6 != 0 || (chunks 8 n recs).any (fun b => leAt b 4 4 != 0) ||
      rs.any (fun r => !within 1 r.1 4 || decide (31 < r.2.1)) || keys.eraseDups.length != keys.length then none
  else some rs

/-- An image read: the plat's record and its barrier configuration. -/
structure Image where
  rec_ : PlatRec
  bars : List BarRec
deriving DecidableEq, Repr

/-- Why an image is not one: the byte offset of its first bad field, from the header (05 R126). -/
inductive Parsed where
  | bad (off : Nat)
  | ok (i : Image)
deriving DecidableEq, Repr

/-- The barrier page of a plat (08 R218): the page below the one that holds the header. -/
def State.barrierPage (s : State) (core va plat : Nat) : Option (List BarRec) :=
  let page := va / 65536 * 65536
  if page < 65536 then some []
  else
    let b := page - 65536
    match s.walk core 0 .read b, s.readVirt core 0 .read b 16 with
    | .ok l, some h =>
      if !l.bar || leAt h 0 8 != plat then some []
      else
        match s.readVirt core 0 .read (b + 16) (8 * Nat.min (leAt h 8 2) 128) with
        | some rs => barRecords (h.drop 8) rs
        | none => none
    | _, _ => some []

/-- The image read through the dispatch context's own translation (05 R119); what does not translate is a bad field (log 33). -/
def State.readImage (s : State) (c : CtxId) (va start : Nat) : Parsed :=
  let rd (off n : Nat) : Option (List Byte) := s.readVirt c.core 0 .read (va + off) n
  match rd 0 0x100 with
  | none => .bad 0
  | some h =>
    match firstBad ((va % 4096 == 0, 0) :: headerFields h) with
    | some off => .bad off
    | none =>
      let u := leAt h
      let (np, ne, nr) := (u 0x12 2, u 0x14 2, u 0x18 4)
      let (op, oe, or_) := (u 0x20 8, u 0x28 8, u 0x30 8)
      match rd op (64 * np), rd oe (8 * ne), rd or_ (8 * nr) with
      | some ps, some es, some rs =>
        let pbs := (chunks 64 np ps).zipIdx
        let ews := elemsLE 8 ne es
        let rws := elemsLE 8 nr rs
        let edits := ews.map editOf
        let parcels := pbs.map (fun p => parcelOf p.2 p.1)
        let dies := edits.map (fun e => 8 * e.1 + e.2.1)
        match firstBad (pbs.flatMap (fun p => parcelFields s.pod.mods (op + 64 * p.2) p.1) ++
            ews.zipIdx.map (fun e => (editOk e.1, oe + 8 * e.2)) ++
            rws.zipIdx.map (fun r => (resvOk s.pod.mods r.1, or_ + 8 * r.2)) ++
            -- one entry for each die that holds a parcel or whose station or waystation a reservation uses (05 R121)
            [(dies.eraseDups.length == dies.length && parcels.all (fun p => dies.contains (8 * p.mod + p.die)) &&
              (rws.map resvOf).all (fun r => dies.contains (dieAt (16 * r.smod + r.ssta)) && dies.contains (dieAt (16 * r.dmod + r.dsta))), oe)]) with
        | some off => .bad off
        | none =>
          match s.barrierPage c.core va (u 8 8) with
          | none => .bad (8 * 0xFFFF)
          | some bars =>
            let flags := u 4 4
            .ok ⟨{ plat := BitVec.ofNat 64 (u 8 8), bank := c.bank, core := c.core, va := va, job := BitVec.ofNat 12 (u 0x10 2),
                   prio := flags % 4, ckpt := flags / 4 % 2 == 1, frame := if flags / 8 % 2 = 1 then 20480 else 4096, start := start,
                   params := (List.range 8).map (fun i => BitVec.ofNat 64 (u (0x80 + 8 * i) 8)),
                   preds := (List.range (u 0x16 1)).map (fun i => BitVec.ofNat 64 (u (0x40 + 8 * i) 8)),
                   ckptVa := BitVec.ofNat 64 (u 0x38 8), parcels := parcels, edits := edits, res := rws.map resvOf, code := 1, detail := 0,
                   k := 0, since := s.clk, age := 0, asked := none, verdicts := [], ended := [], stopped := none, late := false,
                   ckptAt := none, recoverable := true, wpmax := u 0x1C 4, banks := [], loads := [] }, bars⟩
      | none, _, _ => .bad 0x20
      | _, none, _ => .bad 0x28
      | _, _, none => .bad 0x30

/-! ## The checks (05 R125) -/

/-- The parcels of a plat on a die. -/
def PlatRec.here (p : PlatRec) (die : Nat) : List Parcel := p.parcels.filter (fun q => 8 * q.mod + q.die == die)

/-- The dies that hold parcels. -/
def PlatRec.diesOf (p : PlatRec) : List Nat := (p.parcels.map (fun q => 8 * q.mod + q.die)).eraseDups

/-- The cores that run a parcel: its core, and its partner (04 R101). -/
def Parcel.cores (q : Parcel) : List Nat := q.core :: q.partner.toList

/-- The number of a core of a parcel. -/
def Parcel.coreId (q : Parcel) (core : Nat) : Nat := 128 * q.mod + 16 * q.die + core

/-- Whether an edition older than the current one is accepted for a plat (04 R94). -/
def State.acceptsEdition (s : State) (die : Nat) (p : PlatRec) (e : Nat) : Bool :=
  let sv := (s.die die).survey
  let hs := sv.history.take 16
  let whole (n : Nat) : Bool :=
    (hs.zipIdx.any (fun h => h.1.edition == n)) && !hs.zipIdx.any (fun h => h.1.edition == n && decide (15 ≤ h.2))
  e == sv.edition ||
  (decide (e < sv.edition) && decide (sv.edition - e ≤ 32) &&
    ((List.range (sv.edition - e)).map (fun i => e + 1 + i)).all (fun n => n % 65536 == 0 || whole n) &&
    !hs.any (fun h => decide (e < h.edition) && s.entryTouch die p true h != .no))

/-- Whether a core can run a parcel (04 R100, R101; 05 R125 check 4). -/
def State.unitsOk (s : State) (die : Nat) (p : PlatRec) (q : Parcel) : Bool :=
  let d := s.die die
  let st (k : Nat) : Nat := (d.unit 0x01 k).1
  let noV := q.vreg.len != 0 && q.cores.any (fun k => (List.range 8).any (fun g => d.struck 0x04 (8 * k + g)))
  let shared := p.parcels.any (fun r => r.index != q.index && 8 * r.mod + r.die == die && (r.partner.isSome || q.partner.isSome) &&
    r.cores.any (fun k => q.cores.contains k))
  -- nor a core in two pairs of two plats
  let crossed := q.partner.isSome && d.plats.any (fun o => o.plat != p.plat && (o.code == 1 || o.code == 2 || o.code == 3) && (o.here die).any (fun r =>
    r.partner.isSome && r.cores.any (fun k => q.cores.contains k) && !r.cores.all (fun k => q.cores.contains k)))
  (match q.partner with
    | none => st q.core == 0
    | some k => decide (st q.core ≤ 1) && decide (st k ≤ 1) && !(st q.core == 1 && st k == 1)) &&
  !noV && !shared && !crossed && (s.modu (die / 8)).powered

/-- The barrier units that a LAUNCH on a die takes: one in every instance of a scope that holds parcels there (08 R218). -/
def barUnits (p : PlatRec) (die : Nat) (bars : List BarRec) : List (BarUnit × BarState) :=
  bars.flatMap (fun b =>
    let inst (q : Parcel) : Nat := scopeInst (q.coreId q.core) b.1
    ((p.here die).map inst).eraseDups.map (fun i =>
      (⟨p.plat, b.1, i, b.2.1⟩,
       ⟨if b.2.2 = 0 then (p.parcels.filter (fun q => inst q == i)).length else b.2.2, 0, 0, 0, []⟩)))

/-- The first scope whose 32 units of an instance do not suffice (05 R118, R125 check 5). -/
def State.barRoom (s : State) (us : List (BarUnit × BarState)) : Option Nat :=
  let fresh := us.filter (fun u => !s.bars.any (fun b => b.1 == u.1))
  let count (u : BarUnit) : Nat :=
    (s.bars.filter (fun b => b.1.scope == u.scope && b.1.inst == u.inst)).length +
    (fresh.filter (fun b => b.1.scope == u.scope && b.1.inst == u.inst)).length
  (fresh.find? (fun u => decide (32 < count u.1))).map (fun u => u.1.scope)

/-- The clk that a plat needs between its LAUNCH and its start (05 R125 check 7). -/
def PlatRec.lead (p : PlatRec) : Nat :=
  if (p.parcels.map Parcel.mod).eraseDups.length > 1 then 32768 else if p.diesOf.length > 1 then 8192 else 1024

/-- The hops of a local reservation: stations and clk in the frame (05 R122). -/
def Resv.hops (r : Resv) : List (Nat × Nat) :=
  (List.range (dirHops r.ccw r.ssta r.dsta)).map (fun j =>
    (staAt (if r.ccw then posOf r.ssta + 12 - j else posOf r.ssta + j), (r.first + 2 * j) % 4096))

/-- The visits of five pod waves, after which trunk positions repeat (02 R441). -/
def State.fiveWaves (s : State) : List PodVisit := (List.range 5).flatMap (fun i => s.podAll (32768 * i))

/-- Whether two reservations meet at a hop of a module. -/
def State.meets (s : State) (mod : Nat) (r q : Resv) : Bool :=
  if r.trunk then
    q.trunk && q.trk == r.trk && q.ccw == r.ccw && q.pos == r.pos &&
    (s.resvGroups r).any (fun g => g.1 == mod && (s.resvGroups q).contains g)
  else !q.trunk && q.smod == r.smod && r.hops.any (fun h => q.takes r.ccw r.trk h.1 h.2)

/-- Whether a reservation names a slot that is withheld for muster waves (02 R53, R441). -/
def State.meetsWave (s : State) (mod : Nat) (r : Resv) : Bool :=
  if r.trunk then
    !r.ccw && r.pos == 7 && s.pod.ring == some r.trk &&
    s.fiveWaves.any (fun v => match v with
      | .trunk m g => m == mod && (s.resvGroups r).contains (m, g % 4096)
      | _ => false)
  else
    !r.ccw && ((r.trk == 3 && r.hops.any (fun h => musterClk (h.2 + 2048 - 4 * posOf h.1))) ||
      (r.trk == 2 && s.fiveWaves.any (fun v => match v with
        | .hop sta t => sta / 16 == mod && r.hops.contains (sta % 16, t % 4096)
        | _ => false)))

/-- Whether a reservation crosses a link that is out of service or out of lock, or takes position 8 of one with 17 lanes (05 R125
check 9). -/
def State.badLink (s : State) (r : Resv) : Bool :=
  r.trunk && (s.resvGroups r).any (fun g =>
    let l := s.link g.1 r.trk r.ccw
    !s.linkUp g.1 r.trk r.ccw || !s.inLock g.1 r.trk r.ccw ||
    (r.pos == 8 && l.lanes == 17))

/-- The hops that a module books: its local ring, and the trunk hops that its waystations transmit onto (05 R122). -/
def State.isMine (s : State) (mod : Nat) (r : Resv) : Bool :=
  if r.trunk then (s.resvGroups r).any (fun g => g.1 == mod) else r.smod == mod

/-- The first reservation that conflicts (05 R122, R125 check 9). A module that has booked the plat already books nothing more. -/
def State.resConflict (s : State) (mod : Nat) (p : PlatRec) : Option Nat :=
  let booked := (s.modu mod).booked
  if booked.any (fun b => b.1 == p.plat) then (p.res.zipIdx.find? (fun r => s.badLink r.1)).map Prod.snd
  else
    (p.res.zipIdx.find? (fun r =>
      s.badLink r.1 || (s.isMine mod r.1 && (s.meetsWave mod r.1 || booked.any (fun b => s.meets mod r.1 b.2) ||
        (p.res.take r.2).any (fun q => s.isMine mod q && s.meets mod r.1 q))))).map Prod.snd

/-- The code and DETAIL of a LAUNCH on a die (05 R125, R126). -/
def State.launchCode (s : State) (die : Nat) (i : Image) : Nat × Nat :=
  let p := i.rec_
  let m := s.modu (die / 8)
  let mine := p.here die
  if !(s.jobState (stationOf p.core) p.job == .opened && (match m.owner p.job.toNat with | some f => f / 64 == p.bank | none => false)) then (0x11, 0)
  else if p.edits.any (fun e => 8 * e.1 + e.2.1 == die && !s.acceptsEdition die p e.2.2) then (0x12, die)
  else match mine.find? (fun q => !s.unitsOk die p q) with
    | some q => (0x13, q.index)
    | none =>
      match s.barRoom (barUnits p die i.bars) with
      | some scope => (0x1A, scope)
      | none =>
        if 16 ≤ ((s.die die).plats.filter (fun q => q.bank == p.bank)).length then (0x18, 0)
        else if p.start < s.clk + p.lead then (0x15, 0)
        else if p.res.length != 0 && p.start % p.frame != 0 then (0x19, 0)
        else match s.resConflict (die / 8) p with
          | some n => (0x14, Nat.min n 0xFFFF)
          | none => (0x01, 0)

/-! ## Waiting plats (05 R128, R134, R135) -/

/-- D_k (05 R128). -/
def PlatRec.deadline (p : PlatRec) (k : Nat) : Nat :=
  let sk := p.start + k * p.frame
  if (p.parcels.map Parcel.mod).eraseDups.length > 1 then sk - 16384 else if p.diesOf.length > 1 then sk - 4096 else sk

/-- The effective priority of a plat: its PRIO and, while it waits, its age, up to 3 (05 R134). -/
def PlatRec.rank (p : PlatRec) : Nat := if p.code = 2 then p.prio else Nat.min 3 (p.prio + p.age)

/-- The plats that run on the cores of a die that a plat needs. -/
def State.occupants (s : State) (die : Nat) (p : PlatRec) : List PlatRec :=
  (s.die die).plats.filter (fun o => o.plat != p.plat && o.code == 2 &&
    (s.ctxsOf o.plat).any (fun c => dieOf c.core == die && p.names die (scoreOf c.core)))

/-- A request to pre-empt a plat (05 R135): its contexts stop at their next common waypoint; a forced stop follows after 2^20 clk. -/
def State.preempt (s : State) (plat : Word) : State :=
  let s := s.askStop plat
  (s.dies.map Prod.fst).foldl (fun t d =>
    match (t.die d).plat plat with
    | some o => if o.asked.isSome then t
        else (t.modPlat d plat (fun p => { p with asked := some t.clk })).post (t.clk + 2 ^ 20) (.forcedStop d plat)
    | none => t) s

/-- Whether a waiting plat pre-empts one that runs (05 R135). -/
def State.outranks (s : State) (rank : Nat) (o : PlatRec) : Bool :=
  decide (o.prio < rank) || (decide (rank = o.prio) && decide (o.since + 2 ^ 20 ≤ s.clk))

/-- The requests that a waiting plat makes on a die. -/
def State.requestCores (s : State) (die : Nat) (p : PlatRec) : State :=
  ((s.occupants die p).filter (s.outranks p.rank)).foldl (fun t o => t.preempt o.plat) s

/-! ## Acceptance -/

/-- The regions that a parcel's cores have to load (05 R130). -/
def Parcel.regions (q : Parcel) : List Load :=
  q.cores.flatMap (fun k =>
    ([(Stream.c, q.creg), (.a, q.areg), (.v, q.vreg)].filter (fun r => r.2.len != 0)).map (fun r => ⟨q.coreId k, r.1, none, 0⟩))

/-- A plat accepted by a die (05 R125 to R128): its reservations and barrier units are taken, and an entry of the launch table; a die with parcels
of it sets its deadline. A plat that the die holds already is answered alike and takes no second entry (log 83). -/
def State.acceptPlat (s : State) (die : Nat) (i : Image) : State :=
  let p := i.rec_
  let mod := die / 8
  let s := if (s.modu mod).booked.any (fun b => b.1 == p.plat) then s
    else s.modMod mod (fun m => { m with booked := m.booked ++ (p.res.filter (s.isMine mod)).map (fun r => (p.plat, r)) })
  let us := (barUnits p die i.bars).filter (fun u => !s.bars.any (fun b => b.1 == u.1))
  let s : State := { s with bars := s.bars ++ us }
  let s := s.writeStatus die p 0x01 0 s.clk
  if ((s.die die).plat p.plat).isSome then s
  else
    let p := { p with loads := (p.here die).flatMap Parcel.regions }
    let s := s.modDie die (fun d => { d with plats := d.plats ++ [p] })
    if p.here die = [] then s
    else
    let s := (s.post (Nat.max s.clk (p.deadline 0)) (.readinessDeadline die p.plat 0)).post (s.clk + 2 ^ 20) (.priorityAging die p.plat)
    s.requestCores die p

/-- LAUNCH (05 R125; 14 R355): a store-release at .pod of the earlier stores, then the checks; rd takes the code. -/
def execLaunch (g : Guard) (b a d : BitVec 5) (s : State) : Host.Outcome State Fault Refusal :=
  word32 { guard := g, priv := s.fctx.job != 0 || kindOf s.foc.ctx.core != .dispatch, srcs := [a.toNat, b.toNat], outs := [d.toNat] }
    (fun s =>
      let c := s.foc.ctx
      let s := s.flush c
      if !s.performed s.foc 4 false then .wait 0x03 s
      else
        let va := wfield (s.rd a) 0 56
        let die := dieOf c.core
        let (code, s) : Nat × State := match s.readImage c va (s.rd b).toNat with
          | .bad off =>
            let t := va + 0x100 + 16 * (die % 8)
            let detail := Nat.min (off / 8) 0xFFFF
            (0x10, (s.writeVirt c.core 0 (t + 8) (bytesLE 8 s.clk)).writeVirt c.core 0 t (bytesLE 8 (0x10 * 2 ^ 56 + detail * 2 ^ 40)))
          | .ok i =>
            let r := s.launchCode die i
            (r.1, if r.1 = 1 then s.acceptPlat die i else s.writeStatus die i.rec_ r.1 r.2 s.clk)
        let (t, s) := s.freeTime
        .done (s.interlocked d.toNat (s.clk + t) (BitVec.ofNat 64 code))) s

end Sys2Proof.Machine
end

