-- ==== Sys2Proof/Machine/Loader.lean ====
section
/-! DEFINITION. Code objects: the two translation passes as far as they write memory (06 R147, R148), and the loader, its checks and
its result (06 R149 to R154, R161). The readings of the loader are log 39. -/

namespace Sys2Proof.Machine

/-! ## The object (06 R150 to R152) -/

/-- A section entry. -/
structure Sect where
  kind : Nat
  align : Nat
  kernel : Nat
  foff : Nat
  size : Nat
  ok : Bool
deriving DecidableEq, Repr

def sectOf (bs : List Byte) : Sect :=
  let u := leAt bs
  { kind := u 0 1, align := u 1 1, kernel := u 2 2, foff := u 8 8, size := u 0x10 8,
    ok := within 1 (u 0 1) 7 && within 3 (u 1 1) 16 && u 4 4 == 0 && (u 0 1 != 5 || u 0x10 8 % 8 == 0) }

/-- The stream of a text section. -/
def Sect.stream? (x : Sect) : Option Stream :=
  match x.kind with
  | 1 => some .c
  | 2 => some .a
  | 3 => some .v
  | _ => none

/-- A relocation entry. -/
structure Reloc where
  off : Nat
  sect : Nat
  kind : Nat
  sym : Nat
  add : Int
  ok : Bool
deriving DecidableEq, Repr

def relocOf (bs : List Byte) : Reloc :=
  let u := leAt bs
  { off := u 0 4, sect := u 4 2, kind := u 6 1, sym := u 8 4, add := sextInt 32 (u 12 4), ok := within 1 (u 6 1) 7 && u 7 1 == 0 }

/-- upper(V) and lower(V) (06 R153). -/
def upperPart (v : Int) : Int := Int.fdiv (v + 2048) 4096
def lowerPart (v : Int) : Int := v - 4096 * upperPart v

/-- Whether a value fits a signed field of 20 bits. -/
def fits20 (v : Int) : Bool := decide (-524288 ≤ v) && decide (v ≤ 524287)

/-- Whether a word is one that the field of a relocation kind names (06 R152). -/
def namedBy (kind : Nat) (i : Instr) : Bool :=
  match kind, i with
  | 2, .lui .. => true
  | 6, .auib .. => true
  | 4, .pbr .. => true
  | 3, .addi .. | 3, .ldB .. | 3, .ldH .. | 3, .ldW .. | 3, .ld .. | 3, .ldSb .. | 3, .ldSh .. | 3, .ldSw .. | 3, .ldAcq .. => true
  | 3, .stB .. | 3, .stH .. | 3, .stW .. | 3, .st .. | 3, .stRel .. => true
  | 7, .addi .. | 7, .ldB .. | 7, .ldH .. | 7, .ldW .. | 7, .ld .. | 7, .ldSb .. | 7, .ldSh .. | 7, .ldSw .. | 7, .ldAcq .. => true
  | 7, .stB .. | 7, .stH .. | 7, .stW .. | 7, .st .. | 7, .stRel .. => true
  | _, _ => false

/-- The offset in a text section of the block that holds a byte offset: blocks stand one behind the other (07 R165). -/
def blockAt (text : List Byte) (off : Nat) : Nat → Nat → Option Nat
  | _, 0 => none
  | p, fuel + 1 =>
    let w0 := BitVec.ofNat 32 (leAt text p 4)
    let w1 := BitVec.ofNat 32 (leAt text (p + 4) 4)
    let stop := p + 8 + 2 * (headerOf w0 w1).len
    if !headerShape w0 w1 || decide (text.length < stop) then none
    else if off < stop then (if p + 8 ≤ off then some p else none)
    else blockAt text off stop fuel

/-- Whether a word of two halfwords stands at a byte offset, in the words of a block from offset `p` to `stop` (06 R154; 13 R300). -/
def wordAtIn (text : List Byte) (off stop : Nat) : Nat → Nat → Bool
  | _, 0 => false
  | p, fuel + 1 =>
    let n := if leAt text p 1 % 2 = 1 then 4 else 2
    if p = off then n == 4 && decide (p + 4 ≤ stop)
    else if off < p then false
    else wordAtIn text off stop (p + n) fuel

/-- Whether the reserved bytes of a waypoint map are 0 (06 R154, R157). A map that ends without a terminator is judged as far as it goes. -/
def mapClean (m : List Byte) : Nat → Nat → Bool
  | _, 0 => true
  | p, fuel + 1 =>
    if m.length < p + 16 then true
    else if leAt m p 4 = 0xFFFFFFFF then leAt m (p + 4) 8 == 0 && leAt m (p + 12) 4 == 0
    else
      let n := leAt m (p + 6) 2
      leAt m (p + 5) 1 == 0 && (List.range n).all (fun i => leAt m (p + 16 + 16 * i + 6) 2 == 0) && mapClean m (p + 16 + 16 * n) fuel

/-- An object as the loader has read it: its VA, sections, the contents and ADDR of each, relocations, edition records, and the
contents of its symbol-name sections. -/
structure CodeObject where
  va : Nat
  sects : List Sect
  texts : List (List Byte)
  addrs : List Nat
  rels : List Reloc
  edits : List Nat
  names : List Byte
deriving DecidableEq, Repr

/-- The block of a relocation's field. -/
def CodeObject.block (o : CodeObject) (r : Reloc) : Option Nat :=
  let t := o.texts.getD r.sect []
  blockAt t r.off 0 (t.length + 1)

/-- Whether the field of a relocation stands in a word of two halfwords of its block (06 R154). -/
def CodeObject.inWord (o : CodeObject) (r : Reloc) (b : Nat) : Bool :=
  let t := o.texts.getD r.sect []
  let stop := b + 8 + 2 * (headerOf (BitVec.ofNat 32 (leAt t b 4)) (BitVec.ofNat 32 (leAt t (b + 4) 4))).len
  wordAtIn t r.off stop (b + 8) (t.length + 1)

def CodeObject.symbol (o : CodeObject) (r : Reloc) : Int := Config.symbolAddr o.names o.addrs r.sym + r.add

/-- The values of B and of P: halfword offsets in the instruction scratchpad (06 R152). -/
def CodeObject.half (o : CodeObject) (r : Reloc) (off : Nat) : Int := (o.addrs.getD r.sect 0 + off / 2 : Nat)

/-- The value that a relocation puts into its field (06 R152, R153); `none` where the loader rejects the object, with the code. -/
def CodeObject.value (o : CodeObject) (r : Reloc) : Except Nat Int :=
  let v := o.symbol r
  let split (v : Int) : Except Nat Int := if fits20 (upperPart v) then .ok (upperPart v) else .error 0x22
  match o.sects[r.sect]? with
  | none => .error 0x20
  | some x =>
    let width := if r.kind = 1 ∨ r.kind = 5 then 8 else 4
    if !r.ok || decide (x.size < r.off + width) then .error 0x20
    else
      match r.kind with
      | 1 => if x.kind = 4 then .ok v else .error 0x20
      | 5 => if x.kind = 5 ∧ r.off % 8 = 0 then .ok (Config.stubAddr o.names o.addrs r.sym).toNat else .error 0x20
      | k =>
        match x.stream?, o.block r with
        | some st, some b =>
          match parse32 st (BitVec.ofNat 32 (leAt (o.texts.getD r.sect []) r.off 4)) with
          | .error _ => .error 0x20
          | .ok i =>
            if !namedBy k i || !o.inWord r b then .error 0x20
            else
              match k with
              | 2 => split v
              | 3 => (split v).map (fun _ => lowerPart v)
              | 4 => let p := v - o.half r r.off; if fits20 p then .ok p else .error 0x22
              | 6 => split (v - o.half r b)
              | _ =>
                if o.rels.any (fun q => q.kind == 6 && q.sect == r.sect && q.sym == r.sym && q.add == r.add && decide (q.off < r.off) &&
                    o.block q == some b) then (split (v - o.half r b)).map (fun _ => lowerPart (v - o.half r b))
                else .error 0x23
        | _, _ => .error 0x20

/-- The first failing relocation, with its code. -/
def CodeObject.failure (o : CodeObject) : Option (Nat × Nat) :=
  (o.rels.zipIdx).findSome? (fun r => match o.value r.1 with
    | .error c => some (c, r.2)
    | .ok _ => none)

/-- The bytes of a field with its value put in (06 R152). -/
def relocated (kind : Nat) (v : Int) (old : List Byte) : List Byte :=
  let w := BitVec.ofNat 64 (ofBytesLE old)
  let x := (BitVec.ofInt 64 v).toNat
  match kind with
  | 2 | 6 => bytesLE 4 (withField w 11 20 x).toNat
  | 3 | 7 => bytesLE 4 (withField w 16 12 x).toNat
  | 4 => bytesLE 4 (withField w 9 20 x).toNat
  | _ => bytesLE 8 x

/-! ## The loader (06 R161) -/

/-- The source address and region of a stream of a parcel. -/
def Parcel.source (q : Parcel) : Stream → Nat × Nat
  | .c => (q.csrc.toNat, q.creg.off)
  | .a => (q.asrc.toNat, q.areg.off)
  | .v => (q.vsrc.toNat, q.vreg.off)

/-- The parcels and edition words of a plat image. -/
def State.platTables (s : State) (core va : Nat) : Option (List Parcel × List Nat × Nat) :=
  match s.readVirt core 0 .read va 0x100 with
  | none => none
  | some h =>
    let u := leAt h
    match s.readVirt core 0 .read (va + u 0x20 8) (64 * u 0x12 2), s.readVirt core 0 .read (va + u 0x28 8) (8 * u 0x14 2) with
    | some ps, some es =>
      some ((chunks 64 (u 0x12 2) ps).zipIdx.map (fun p => parcelOf p.2 p.1), elemsLE 8 (u 0x14 2) es, va + u 0x28 8)
    | _, _ => none

/-- What the checks of an object's form give (06 R150 to R152, R154). -/
structure ObjectForm where
  sects : List Sect
  texts : List (List Byte)
  rels : List Reloc
  edits : List Nat
deriving DecidableEq, Repr

/-- Whether a section is as R151 and R154 say: its fields, its bytes readable through `rd`, and the reserved bytes of a waypoint map 0. -/
def Sect.sound (rd : Nat → Nat → Option (List Byte)) (x : Sect) : Bool :=
  x.ok && (match rd x.foff x.size with
    | none => false
    | some bs => x.kind != 6 || mapClean bs 0 (bs.length + 1))

/-- An object's form judged, read through `rd`: its header, sections, edition records, serial number and editions, in this order (06 R149 to
R151, R154; log 39). The code and index of a failure otherwise. -/
def State.objectForm (s : State) (mod : Nat) (rd : Nat → Nat → Option (List Byte)) : Except (Nat × Nat) ObjectForm :=
  match rd 0 64 with
  | none => .error (0x20, 0)
  | some h =>
    let u := leAt h
    let (ns, nr, ne) := (u 6 2, u 0x10 4, u 0x14 2)
    if !(u 0 4 == 0x5A4E4F42 && u 4 2 == 1 && within 1 ns 1024 && within 1 ne 256 && u 0x16 2 == 0 && u 0x18 8 % 32 == 0 &&
        u 0x20 8 % 16 == 0 && u 0x30 8 == 0 && u 0x38 8 == 0) then .error (0x20, 0)
    else
      match rd (u 0x18 8) (32 * ns), rd (u 0x20 8) (16 * nr), rd (u 0x28 8) (8 * ne) with
      | some sb, some rb, some eb =>
        let sects := (chunks 32 ns sb).map sectOf
        let edits := elemsLE 8 ne eb
        match sects.zipIdx.find? (fun x => !x.1.sound rd) with
        | some x => .error (0x20, x.2)
        | none =>
          if edits.any (fun e => !editOk e) then .error (0x20, 0)
          else if u 8 8 != (Config.serial mod).toNat then .error (0x21, 0)
          else if edits.any (fun e => let d := editOf e; d.2.2 != (s.die (8 * d.1 + d.2.1)).survey.edition) then .error (0x24, 0)
          else .ok ⟨sects, sects.map (fun x => (rd x.foff x.size).getD []), (chunks 16 nr rb).map relocOf, edits⟩
      | _, _, _ => .error (0x20, 0)

/-- ADDR of a section of an object at `va` (06 R151): the virtual address, or of text the halfword offset of the region whose source it is; where no
parcel has it, a free one, aligned. -/
def State.sectAddr (s : State) (va : Nat) (parcels : List Parcel) (x : Sect) (n : Nat) : Nat :=
  match x.stream? with
  | none => va + x.foff
  | some st =>
    match parcels.find? (fun q => (q.source st).1 == va + x.foff) with
    | some q => (q.source st).2
    | none => (Config.freeWord (s.fresh + n)).toNat % 65536 / 2 ^ (x.align - 1) * 2 ^ (x.align - 1)

/-- Whether an ADDR has the alignment of its section, in bytes (06 R151; log 39). -/
def Sect.aligned (x : Sect) (addr : Nat) : Bool := (if x.stream?.isSome then 2 * addr else addr) % 2 ^ x.align == 0

/-- The object read and checked as far as its form, serial number, editions and the alignment of its sections: the code and index of a failure
otherwise. -/
def State.readObject (s : State) (core va plat : Nat) : Except (Nat × Nat) (CodeObject × List Nat × Nat) :=
  match s.objectForm (modOf core) (fun off n => s.readVirt core 0 .read (va + off) n), s.platTables core plat with
  | .error e, _ => .error e
  | .ok _, none => .error (0x20, 0)
  | .ok f, some (parcels, pe, pva) =>
    let addrs := f.sects.zipIdx.map (fun x => s.sectAddr va parcels x.1 x.2)
    match (f.sects.zip addrs).zipIdx.find? (fun x => !x.1.1.aligned x.1.2) with
    | some x => .error (0x20, x.2)
    | none =>
      .ok ({ va := va, sects := f.sects, texts := f.texts, addrs := addrs, rels := f.rels, edits := f.edits,
             names := ((f.sects.zip f.texts).filter (fun x => x.1.kind == 7)).flatMap Prod.snd }, pe, pva)

/-- A plat's edition table with the records of an object in the place of its entries for the same dies, and after them (06 R149). -/
def mergeEdits (plat obj : List Nat) : List Nat :=
  let die (e : Nat) : Nat × Nat := ((editOf e).1, (editOf e).2.1)
  plat.map (fun e => ((obj.find? (fun o => die o == die e)).getD e)) ++ obj.filter (fun o => !plat.any (fun e => die e == die o))

/-- The object bound: its fields relocated, the ADDR of its sections filled, its edition records in the plat's table (06 R149, R151,
R152). -/
def State.bindObject (s : State) (core plat : Nat) (o : CodeObject) (pe : List Nat) (pva sectVa : Nat) : State :=
  let put (t : State) (va : Nat) (bs : List Byte) : State := t.writeVirt core 0 va bs
  let s := o.rels.foldl (fun t r => match o.value r, o.sects[r.sect]? with
    | .ok v, some x =>
      let va := o.va + x.foff + r.off
      match t.readVirt core 0 .read va 4 with
      | some old => put t va (relocated r.kind v old)
      | none => t
    | _, _ => t) s
  let s := o.addrs.zipIdx.foldl (fun t (a : Nat × Nat) => put t (sectVa + 32 * a.2 + 0x18) (bytesLE 8 a.1)) s
  let es := mergeEdits pe o.edits
  let s := es.zipIdx.foldl (fun t (e : Nat × Nat) => put t (pva + 8 * e.2) (bytesLE 8 e.1)) s
  put s (plat + 0x14) (bytesLE 2 es.length)

/-! ## The translation passes -/

/-- Bytes placed at physical addresses of a module, as its management cores write. -/
def State.writeAll (s : State) (mod : Nat) (out : List (Nat × List Byte)) : State :=
  out.foldl (fun t (w : Nat × List Byte) => t.writeMem 0 mod w.1 w.2) s

/-- The output of a pass as a code object that records the current editions of the dies it is for (06 R147, R148): its bytes, one piece
behind the other, have the form of R150, with the module's serial number and those editions. -/
def State.passOutput (s : State) (mod : Nat) (out : List (Nat × List Byte)) : Option ObjectForm :=
  let bs := out.flatMap Prod.snd
  match s.objectForm mod (fun off n => if off + n ≤ bs.length then some ((bs.drop off).take n) else none) with
  | .ok f => some f
  | .error _ => none

/-- Whether an object is one for given editions, each of its die, and for no others (06 R148). -/
def ObjectForm.madeFor (f : ObjectForm) (editions : List (Nat × BitVec 32)) : Bool :=
  let es := f.edits.map (fun e => let d := editOf e; (8 * d.1 + d.2.1, d.2.2))
  let ws := editions.map (fun e => (e.1, e.2.toNat))
  es.all ws.contains && ws.all es.contains

/-- An object written by a pass at physical addresses of a module. -/
def State.writeObject (s : State) (mod : Nat) (out : List (Nat × List Byte)) : State :=
  (s.writeAll mod out).modMod mod (fun m => { m with objects := out.map (fun w => (mod, w.1, w.2.length)) :: m.objects })

/-- Whether any management core of a module runs (03 R82), so that a translator does (06 R148). -/
def State.translates (s : State) (mod : Nat) : Bool := !(s.modu mod).mgmt.isEmpty

/-- TEMPLATE_PASS (06 R147; 04 R116): the code object that the pass emits. What the pass makes of a kernel's templates, of the speed classes and
latencies, is not given, and comes with the event; what is no object for the current editions is not its output (log 71). -/
def execTemplatePass (s : State) : Host.Outcome State Fault Refusal :=
  match s.cur with
  | some (.templatePass m out) => .next (if s.translates m && (s.passOutput m out).isSome then s.writeObject m out else s)
  | _ => .next s

/-- Where bytes of a job stand in memory: home module, physical address and length in each page. -/
def State.physRanges (s : State) (core job : Nat) (acc : Access) (va n : Nat) : List (Nat × Nat × Nat) :=
  (List.range ((va % 65536 + n + 65535) / 65536)).filterMap (fun i =>
    let lo := Nat.max va (va / 65536 * 65536 + 65536 * i)
    let hi := Nat.min (va + n) (va / 65536 * 65536 + 65536 * (i + 1))
    match s.walk core job acc lo with
    | .ok l => some (l.homeMod (modOf core), l.pa lo, hi - lo)
    | .fault .. => none)

/-- The text of the plats in the launch tables. -/
def State.textRanges (s : State) : List (Nat × Nat × Nat) :=
  s.dies.flatMap (fun (d : Nat × DieSt) => d.2.plats.flatMap (fun p => (p.here d.1).flatMap (fun q =>
    [(q.creg, q.csrc), (q.areg, q.asrc), (q.vreg, q.vsrc)].flatMap (fun (r : PadReg × Word) =>
      s.physRanges (q.coreId q.core) p.job.toNat .overlay r.2.toNat (256 * r.1.len)))))

/-- Whether two ranges of memory have a byte in common. -/
def rangesMeet (a b : Nat × Nat × Nat) : Bool := a.1 == b.1 && decide (a.2.1 < b.2.1 + b.2.2) && decide (b.2.1 < a.2.1 + a.2.2)

/-- The memory that the plats in the launch tables keep (06 R148): their text, and all of each object that it stands in, with its constants, linkage
table and waypoint map. -/
def State.keptObjects (s : State) : List (Nat × Nat × Nat) :=
  let text := s.textRanges
  text ++ ((s.modules.flatMap (fun (m : Nat × ModuleSt) => m.2.objects)).filter (fun o => o.any (fun a => text.any (rangesMeet a)))).flatten

/-- PROFILE_PASS (06 R148): a new code object for the same editions; its output is discarded when one of them has changed. Plats that have been
launched keep the object that they were launched with, so that the output lies nowhere in it (log 71). -/
def execProfilePass (s : State) : Host.Outcome State Fault Refusal :=
  match s.cur with
  | some (.profilePass m editions out) =>
    let current := editions.all (fun e => e.2.toNat == (s.die e.1).survey.edition)
    let made := (s.passOutput m out).any (fun f => f.madeFor editions)
    let kept := s.keptObjects
    let apart := out.all (fun w => !kept.any (rangesMeet (m, w.1, w.2.length)))
    .next (if s.translates m && current && made && apart then s.writeObject m out else s)
  | _ => .next s

/-- The memory of an object that the loader has read: its header, tables and sections. -/
def State.objectRanges (s : State) (core va : Nat) (o : CodeObject) : List (Nat × Nat × Nat) :=
  let h := (s.readVirt core 0 .read va 64).getD []
  let u := leAt h
  ([(0, 64), (u 0x18 8, 32 * o.sects.length), (u 0x20 8, 16 * o.rels.length), (u 0x28 8, 8 * o.edits.length)] ++
    o.sects.map (fun x => (x.foff, x.size))).flatMap (fun r => s.physRanges core 0 .read (va + r.1) r.2)

/-- LOADER_REQUEST (06 R161): management core 0 of a die answers a request of a job-0 dispatch context. R161 gives the SIGNAL no word that says where
the request lies: the event carries the die and the VA, and no SIGNAL posts it (log 39). A request whose 40 last bytes are not all 0 is answered
with the code of a bad form and index 0 (log 39). -/
def execLoaderRequest (s : State) : Host.Outcome State Fault Refusal :=
  match s.cur with
  | some (.loaderRequest die va) =>
    let core := 16 * die + 9
    match (if s.mgmtRuns die then s.readVirt core 0 .read va.toNat 64 else none) with
    | none => .next s
    | some q =>
      let u := leAt q
      let (obj, plat, res) := (u 0 8, u 8 8, u 0x10 8)
      let (code, index, s) : Nat × Nat × State :=
        if (q.drop 0x18).any (fun b => b != 0) then (0x20, 0, s)
        else
          match s.readObject core obj plat with
          | .error (c, i) => (c, i, s)
          | .ok (o, pe, pva) =>
            match o.failure with
            | some (c, i) => (c, i, s)
            | none =>
              let sectVa := obj + ofBytesLE ((s.readVirt core 0 .read (obj + 0x18) 8).getD [])
              let t := (s.bindObject core plat o pe pva sectVa).modMod (modOf core) (fun m => { m with objects := s.objectRanges core obj o :: m.objects })
              (1, 0, { t with fresh := t.fresh + o.sects.length })
      let s := s.writeVirt core 0 (res + 4) (bytesLE 4 index ++ bytesLE 8 s.clk)
      .next (s.writeVirt core 0 res [BitVec.ofNat 8 code, 0, 0, 0])
  | _ => .next s

end Sys2Proof.Machine
end

