-- ==== Sys2Proof/Machine/Overlay.lean ====
section
/-! DEFINITION. What the scheduler moves on the copy engine of a core, as overlays (05 R130, R140; 08 R204): the text of parcels, and the state
of stopped contexts. -/

namespace Sys2Proof.Machine

/-! ## Text (05 R130) -/

/-- The pad region and the text of a parcel's stream. -/
def Parcel.text (q : Parcel) : Stream → PadReg × Word
  | .c => (q.creg, q.csrc)
  | .a => (q.areg, q.asrc)
  | .v => (q.vreg, q.vsrc)

/-- The parcel of a plat that runs on a core. -/
def PlatRec.parcelAt (p : PlatRec) (core : Nat) : Option Parcel := (p.here (dieOf core)).find? (fun q => q.cores.contains (scoreOf core))

/-- A context that has stopped, so that its regions may be overwritten (05 R130). -/
def Ctx.stopped (x : Ctx) : Bool := x.phase == .atWaypoint || x.phase == .forced

/-- The mark of a plat's regions on a core: its bank where its context is resident. -/
def State.regionBank (s : State) (plat : Word) (core : Nat) : Nat :=
  match (s.ctxsOf plat).find? (fun c => c.core == core) with
  | some c => c.bank
  | none => waitBank plat

/-- Regions of a core that an overlay would overlap, of other contexts or plats. -/
def State.overlaps (s : State) (plat : Word) (core : Nat) (st : Stream) (lo hi : Nat) : List Region :=
  (s.core core).regions.filter (fun r => r.st == st && decide (r.lo ≤ hi) && decide (lo ≤ r.hi) && r.bank != s.regionBank plat core)

/-- The region of a load set in the place of what the plat had there. -/
def CoreSt.putRegion (k : CoreSt) (r : Region) : CoreSt :=
  { k with regions := r :: k.regions.filter (fun q => !(q.bank == r.bank && q.st == r.st && q.lo == r.lo && q.hi == r.hi)) }

/-- Whether every byte of a text is local to a core's module. -/
def State.textLocal (s : State) (core job va n : Nat) : Bool :=
  (List.range (ceilDiv (va % 65536 + n) 65536)).all (fun i => match s.walk core job .overlay (va / 65536 * 65536 + 65536 * i) with
    | .ok l => l.homeMod (modOf core) == modOf core
    | .fault .. => true)

/-- Whether one waiting plat comes before another (05 R134): by effective priority, then by the longer wait. -/
def PlatRec.before (q p : PlatRec) : Bool := decide (p.rank < q.rank) || (decide (p.rank = q.rank) && decide (q.since < p.since))

/-- Whether a plat's overlays come before another's (05 R130, R134, R141; log 80): one whose time is near, which waits for its resumption or starts
within 2^21 clk, before one that is not; then by R134, and by PLATID between equals. -/
def PlatRec.loadsBefore (q p : PlatRec) (clk : Nat) : Bool :=
  let near (x : PlatRec) : Bool := x.code == 3 || decide (x.start ≤ clk + 2 ^ 21)
  if near q != near p then near q else q.before p || (!p.before q && decide (q.plat.toNat < p.plat.toNat))

/-- Whether an owner keeps a region from a plat's overlay (05 R130; log 80): a context that has not stopped, or a plat that waits, for its release or
its resumption, and has its banks already or comes before. -/
def State.keepsRegion (s : State) (core : Nat) (p : PlatRec) (r : Region) : Bool :=
  (decide (r.bank < 2) && !(s.ctx ⟨core, r.bank⟩).stopped) ||
  (match (s.die (dieOf core)).plat (s.regionOwner core r) with
  | none => false
  | some q => !q.banks.isEmpty || q.loadsBefore p s.clk)

/-- A load that waits begins when no owner stands in its way: the other owners' regions are overwritten, and the region is taken from here on.
Text of a remote home has come after a free time (log 35). -/
def State.loadBegin (s : State) (die : Nat) (plat : Word) (l : Load) : State :=
  match (s.die die).plat plat with
  | none => s
  | some p =>
    match p.parcelAt l.core with
    | none => s
    | some q =>
      let (g, src) := q.text l.st
      let (lo, hi) := (g.off, g.off + 128 * g.len - 1)
      let rs := s.overlaps plat l.core l.st lo hi
      if rs.any (s.keepsRegion l.core p) then s
      else
        let s := rs.foldl (fun t r => t.overwrite l.core r) s
        let bank := s.regionBank plat l.core
        let s := s.modCore l.core (fun k => k.putRegion ⟨bank, l.st, lo, hi, true⟩)
        let (d, s) := s.freeTime
        let t := if s.textLocal l.core p.job.toNat src.toNat (256 * g.len) then s.clk else s.clk + d
        s.modPlat die plat (fun p => { p with loads := p.loads.map (fun m => if m = l then { l with from_ := some t } else m) })

/-- One beat of a load, up to 1,024 bytes (05 R140): it empties the loop buffers of the stream (07 R166), and with its last the region is loaded.
Text that does not translate loads nothing (log 35). -/
def State.loadBeat (s : State) (die : Nat) (plat : Word) (l : Load) : State :=
  match (s.die die).plat plat with
  | none => s
  | some p =>
    match p.parcelAt l.core with
    | none => s
    | some q =>
      let (g, src) := q.text l.st
      let (lo, hi) := (g.off, g.off + 128 * g.len - 1)
      let bank := s.regionBank plat l.core
      let total := 256 * g.len
      let off := 1024 * l.beat
      let n := Nat.min 1024 (total - off)
      let last := decide (total ≤ off + n)
      let drop (s : State) : State := s.modPlat die plat (fun p => { p with loads := p.loads.filter (fun m => m != l) })
      match s.readVirt l.core p.job.toNat .overlay (src.toNat + off) n with
      | none => (drop s).modCore l.core (fun k => { k with
          regions := k.regions.filter (fun r => !(r.bank == bank && r.st == l.st && r.lo == lo && r.hi == hi)) })
      | some bs =>
        let s := s.modCore l.core (fun k =>
          let at_ := 2 * lo + off
          let k := match l.st with
            | .c => { k with padC := Memory.writeN k.padC at_ bs }
            | .a => { k with padA := Memory.writeN k.padA at_ bs }
            | .v => { k with padV := Memory.writeN k.padV at_ bs }
          if last then k.putRegion ⟨bank, l.st, lo, hi, false⟩ else k)
        let s := [0, 1].foldl (fun s b => s.modStrm ⟨⟨l.core, b⟩, l.st⟩ (fun y => { y with loopBuf := none })) s
        if last then drop s
        else s.modPlat die plat (fun p => { p with loads := p.loads.map (fun m => if m = l then { l with beat := l.beat + 1 } else m) })

/-- The load of a core whose beat is next, the oldest plat's first. -/
def State.nextLoad (s : State) (core : Nat) : Option (Word × Load) :=
  ((s.die (dieOf core)).plats.flatMap (fun p => p.loads.map (fun l => (p.plat, l)))).find? (fun l =>
    l.2.core == core && l.2.from_.any (fun t => decide (t ≤ s.clk)))

/-! ## The state of stopped contexts (08 R204) -/

/-- The beats of a copy of a context's pages, slots and sign store. -/
def State.moveBeats (s : State) (c : CtxId) : Nat :=
  let pages := [0, 1, 2].map (fun b => ((List.range (bufPages b)).filter (fun p => entV (s.bptEntry c b p))).length)
  let slots := ((s.core c.core).slots.filter (fun e => e.2.holder == some c.bank)).length
  64 * pages.foldl (· + ·) 0 + 68 * slots + 9

/-- What has to move before a context is released or resumed in a bank: the state of the other bank's stopped context away, its own back. -/
def State.movesFor (s : State) (c : CtxId) (plat : Word) : List (Nat × Bool × Nat) :=
  let o := otherBank c
  (if (s.ctx o).resident && (s.ctx o).stopped && !(s.ctx o).displaced then [(o.bank, false, s.moveBeats o)] else []) ++
  (if (s.ctx c).plat == plat && (s.ctx c).displaced then [(c.bank, true, s.moveBeats c)] else [])

/-- One beat of the copies of a core; with its last, what it copies is there. -/
def State.moveBeat (s : State) (core : Nat) : State :=
  match (s.core core).moves with
  | [] => s
  | (b, back, n) :: rest =>
    if 1 < n then s.modCore core (fun k => { k with moves := (b, back, n - 1) :: rest })
    else
      let s := s.modCore core (fun k => { k with moves := rest })
      if back then s.swapIn ⟨core, b⟩ else s.displace ⟨core, b⟩

/-! ## Class 0 of the copy engine (05 R140) -/

/-- Whether the scheduler has a beat to be granted on a core. -/
def State.overlayDue (s : State) (core : Nat) : Bool :=
  !s.frozen core && (!(s.core core).moves.isEmpty || (s.nextLoad core).isSome)

/-- A beat of the scheduler granted: copies of contexts stand before text. -/
def State.overlayBeat (s : State) (core : Nat) : State :=
  if !(s.core core).moves.isEmpty then s.moveBeat core
  else match s.nextLoad core with
    | some (plat, l) => s.loadBeat (dieOf core) plat l
    | none => s

end Sys2Proof.Machine
end

