-- ==== Sys2Proof/Machine/MatrixEngine.lean ====
section
/-! DEFINITION. The steps of the matrix and row engines, and the micro-step of every engine (21 R425 to R432; 10 R261 to R265). -/

namespace Sys2Proof.Machine

/-! ## Z -/

/-- The error code of Z rows that a command needs and the first byte that meets it, none where they are in order (21 R426): RAW32 pages with V
and AV set. -/
def Run.zCode (r : Run) (zrow n : Nat) : Option (Nat × Nat) :=
  let pages := (List.range ((zrow + n + 63) / 64 - zrow / 64)).map (fun i =>
    (Nat.max (1024 * zrow) (65536 * (zrow / 64 + i)), r.snapEntry 2 (zrow / 64 + i)))
  match pages.find? (fun p => !entV p.2 || !entAv p.2) with
  | some p => some (5, p.1)
  | none => (pages.find? (fun p => entFmt p.2 != 0)).map (fun p => (4, p.1))

/-- An element of Z. -/
def CoreSt.z (k : CoreSt) (row j : Nat) : Elem := BitVec.ofNat 32 (Memory.readLE k.memZ (1024 * row + 4 * j) 4)

/-- Elements of a row of Z from column 0. -/
def CoreSt.zRow (k : CoreSt) (row n : Nat) : List Elem := (List.range n).map (k.z row)

/-- Whether an element of Z holds the INT32 of a product of INT8 (10 R263). -/
def CoreSt.zInt (k : CoreSt) (row j : Nat) : Bool := Memory.read k.memZ (zKindAt + 256 * row + j) == 1

/-- Elements written to a row of Z, as INT32 or not. -/
def CoreSt.putZ (k : CoreSt) (row : Nat) (es : List Elem) (int : Bool := false) : CoreSt :=
  let k := k.portWrite 4 2 (1024 * row) (es.flatMap (fun e => bytesLE 4 e.toNat))
  if int then k.portWrite 4 2 (zKindAt + 256 * row) (List.replicate es.length 1) else k

/-! ## MMA (21 R426) -/

/-- FMT of a matrix word as a format (21 R414). -/
def mmaFmt (code : Nat) : Fmt := match code with | 0 => .bf16 | 1 => .t8 | 2 => .t6 | _ => .int8

/-- The FMT code of R199 that a slot must record. -/
def slotFmt (code : Nat) : Nat := match code with | 0 => 1 | 1 => 2 | 2 => 3 | _ => 4

/-- The scale of a byte of a slot (08 R201, R203). -/
def CoreSt.slotScale (k : CoreSt) (n off : Nat) : Byte :=
  let g := (Sp.get SlotInfo.reset k.slots n).geom
  if g = 0 then 0 else Memory.read k.slotMem (slotAt n + 0x10000 + blockOf g off)

/-- An element of a slot at a byte offset, decoded (21 R426; 10 R259). -/
def CoreSt.slotVal (k : CoreSt) (fmt n off : Nat) : Val :=
  let f := mmaFmt fmt
  decodeElem f (Memory.readLE k.slotMem (slotAt n + off) f.bytes) (k.slotScale n off)

/-- An INT8 element of a slot. -/
def CoreSt.slotInt (k : CoreSt) (n off : Nat) : Int := (Memory.read k.slotMem (slotAt n + off)).toInt

/-- The offset of B[k][j] (21 R426). -/
def bOffset (tb : Bool) (e n kk k j : Nat) : Nat := if tb then (j * kk + k) * e else (k * n + j) * e

/-- The metadata byte of group `g` of row `i` in slot A of MMAS (21 R426). -/
def CoreSt.metaByte (k : CoreSt) (slot m kk i g : Nat) : Nat := (Memory.read k.slotMem (slotAt slot + m * kk / 2 + i * (kk / 4) + g)).toNat

/-- Bad 2:4 metadata: positions that do not rise, or a reserved bit (21 R426). -/
def badMeta (b : Nat) : Bool := decide (b / 4 % 4 ≤ b % 4) || decide (16 ≤ b)

/-- Row `i` of A expanded from its kept values (21 R426). -/
def CoreSt.sparseRow (k : CoreSt) (slot m kk i : Nat) : List Val :=
  (List.range (kk / 4)).flatMap (fun g =>
    let b := k.metaByte slot m kk i g
    (List.range 4).map (fun p =>
      if p = b % 4 then k.slotVal 1 slot (i * (kk / 2) + 2 * g)
      else if p = b / 4 % 4 then k.slotVal 1 slot (i * (kk / 2) + 2 * g + 1)
      else Val.fin false 0 0))

/-- One row of the product accumulated in Z (21 R426; 10 R262 to R264). -/
def CoreSt.mmaRow (k : CoreSt) (sparse tb : Bool) (fmt sa sb zrow m n kk i : Nat) : CoreSt :=
  let e := mmaEsz fmt
  let plain := fmt == 3 && (Sp.get SlotInfo.reset k.slots sa).geom == 0 && (Sp.get SlotInfo.reset k.slots sb).geom == 0
  let a : List Val := if sparse then k.sparseRow sa m kk i else (List.range kk).map (fun x => k.slotVal fmt sa ((i * kk + x) * e))
  k.putZ (zrow + i) ((List.range n).map (fun j =>
    let c := k.z (zrow + i) j
    if plain then
      mmaElementInt c ((List.range kk).map (fun x => (k.slotInt sa ((i * kk + x) * e), k.slotInt sb (bOffset tb e n kk x j))))
    else
      mmaElement (mmaFmt fmt) c (a.zip ((List.range kk).map (fun x => k.slotVal fmt sb (bOffset tb e n kk x j)))))) plain

/-- The rows that step `i` of `steps` finishes, of `m` (log 21). -/
def rowsOfStep (i steps m : Nat) : List Nat := (List.range (i * m / steps - (i - 1) * m / steps)).map (fun x => (i - 1) * m / steps + x)

/-- One step of MMA or MMAS. -/
def State.mmaStep (s : State) (c : CtxId) (r : Run) : State :=
  let sparse := r.c.cmd == 1
  let fmt := r.c.flags.toNat % 8
  let tb := r.c.flags.getLsbD 3
  let sa := wfield r.c.va 0 5
  let sb := wfield r.c.va 8 5
  let zrow := wfield r.c.vb 0 11
  let m := setM r.words
  let n := setN r.words
  let kk := setK r.words
  let k := s.core c.core
  let ok (i : SlotInfo) : Bool := i.fmt == slotFmt fmt && (i.geom == 0 || decide (2 ≤ i.fmt))
  let z := r.zCode zrow m
  -- a slot's bytes are named by their offset in it (log 74)
  if !(ok (Sp.get SlotInfo.reset k.slots sa) && ok (Sp.get SlotInfo.reset k.slots sb)) then s.failed c .matrix r 4 0
  else if z.isSome then s.failed c .matrix r (z.getD (0, 0)).1 (z.getD (0, 0)).2
  else
    let rows := rowsOfStep r.step r.steps m
    match (if sparse then (rows.flatMap (fun i => (List.range (kk / 4)).map (fun g => (i, g)))).find? (fun q => badMeta (k.metaByte sa m kk q.1 q.2))
      else none) with
    | some q => s.failed c .matrix r 8 (m * kk / 2 + q.1 * (kk / 4) + q.2)
    | none =>
      (s.modCore c.core (fun k => rows.foldl (fun k i => k.mmaRow sparse tb fmt sa sb zrow m n kk i) k)).stepped c .matrix r

/-! ## MROT, MCLR, MSGN (21 R427) -/

/-- The offset of a sign matrix in the sign store. -/
def signAt (order : Nat) : Nat := match order with | 16 => 0 | 64 => 0x20 | _ => 0x220

/-- Row `j` of a sign matrix: true for -1 (21 R427). -/
def CoreSt.signRow (k : CoreSt) (n j : Nat) : List Bool :=
  (List.range n).map (fun i => (Memory.read k.sign (signAt n + (n * j + i) / 8)).getLsbD ((n * j + i) % 8))

/-- log2 of the square root of an order (10 R265). -/
def orderHalf (n : Nat) : Nat := match n with | 16 => 2 | 64 => 3 | _ => 4

/-- A row of Z rotated, segment by segment (21 R427; 10 R265). -/
def CoreSt.rotRow (k : CoreSt) (n row cols : Nat) : CoreSt :=
  let segs := chunks n (cols / n) (k.zRow row cols)
  k.putZ row (segs.flatMap (fun x => (List.range n).map (fun j => hadamardOut (orderHalf n) (k.signRow n j) x)))

/-- One step of MROT or MCLR: one row. -/
def State.zRowStep (s : State) (c : CtxId) (r : Run) : State :=
  let zrow := wfield r.c.vb 0 11
  let z := r.zCode zrow (setM r.words)
  let row := zrow + r.step - 1
  if z.isSome then s.failed c .matrix r (z.getD (0, 0)).1 (z.getD (0, 0)).2
  else if r.c.cmd = 2 then (s.modCore c.core (fun k => k.rotRow (orderOf (setOrd r.words)) row (setN r.words))).stepped c .matrix r
  else (s.modCore c.core (fun k => k.putZ row (List.replicate 256 0))).stepped c .matrix r

/-- The step of MSGN. -/
def State.msgnStep (s : State) (c : CtxId) (r : Run) : State :=
  let n := orderOf (wfield r.c.vb 0 2)
  (s.modCore c.core (fun k => { k with
    sign := Memory.writeN k.sign (signAt n) (Memory.readN k.slotMem (slotAt (wfield r.c.va 0 5)) (n * n / 8)) })).stepped c .matrix r

/-! ## MDRN (21 R428) -/

/-- The elements of drain row `i` that lie inside the tensor: how many (21 R428). -/
def drainCount (r : Run) (i : Nat) : Nat :=
  if r.row0 + i < recRows r.shape then Nat.min (setN r.words) (recCols r.shape - r.col0) else 0

/-- The size of the page of a leaf. -/
def Leaf.size (l : Leaf) : Nat := if l.big then 2 ^ 28 else 65536

/-- Where a block of a page begins, and the bytes from its first to behind its last (08 R201). -/
def blockSpan (geom b : Nat) : Nat × Nat :=
  match geom with
  | 1 => (32 * b, 32)
  | 2 => (16 * b, 16)
  | _ => (2048 * (b / 32) + 8 * (b % 32), 7 * 256 + 8)

/-- The elements that a drain into 1-byte elements writes into a block of a page, of every row of its tile (21 R428). -/
def CoreSt.blockEls (k : CoreSt) (r : Run) (zrow : Nat) (l : Leaf) (page b : Nat) : List Elem :=
  let lo := page * l.size + (blockSpan l.geom b).1
  (List.range (setM r.words)).flatMap (fun t =>
    let a := tileAddr r t 0
    let n := drainCount r t
    if a + n ≤ lo || lo + (blockSpan l.geom b).2 ≤ a then []
    else (List.range n).filterMap (fun j =>
      if (a + j) / l.size = page ∧ blockOf l.geom ((a + j) % l.size) = b then some (k.z (zrow + t) j) else none))

/-- The bytes of row elements in a format without blocks: of INT8, an INT32 narrows as such (10 R258). -/
def CoreSt.drainBytes (k : CoreSt) (fmt row lo n : Nat) : List Byte :=
  (List.range n).flatMap (fun j =>
    if fmtOf fmt = .int8 && k.zInt row (lo + j) then [int8OfInt32 (k.z row (lo + j))]
    else bytesLE (fmtOf fmt).bytes (storeElem (fmtOf fmt) (k.z row (lo + j)) 0))

/-- A stretch of a drain row stored at its home. In a page of blocks each block has the scale that drain_block chooses for all that it receives, and
k = 0 and no scale where SV is 0 (21 R428; 10 R261): the bytes go out as one store, and the scales, which lie side by side, as another. None
while mirror copies are full (08 R219). -/
def State.drainPiece (s : State) (c : CtxId) (r : Run) (fmt i : Nat) (p : Piece) (l : Leaf) (mod pa : Nat) : Option State :=
  let k := s.core c.core
  let zrow := wfield r.c.vb 0 11
  if l.geom = 0 then s.engineStore c .matrix r.c.seq l mod pa (k.drainBytes fmt (zrow + i) (p.off / r.esz) (p.len / r.esz))
  else
    let f := fmtOf fmt
    let block (j : Nat) : Nat := blockOf l.geom ((p.ea + j) % l.size)
    let bs := ((List.range p.len).map block).eraseDups
    let scales : List (Nat × Byte) := bs.map (fun b => (b, if l.sv then (drainBlock f (k.blockEls r zrow l (p.ea / l.size) b)).1 else 0))
    let scale (b : Nat) : Byte := ((scales.find? (fun q => q.1 == b)).map Prod.snd).getD 0
    (s.engineStore c .matrix r.c.seq l mod pa ((List.range p.len).flatMap (fun j =>
      bytesLE 1 (storeElem f (k.z (zrow + i) (p.off + j)) (scale (block j)))))).bind (fun t =>
      if l.sv then t.engineStore c .matrix r.c.seq l mod (l.scb + bs.headD 0) (scales.map Prod.snd) else some t)

/-- The stretches of a drain row. -/
def drainPieces (r : Run) (i : Nat) : List Piece :=
  if drainCount r i = 0 then [] else cutPages (tileAddr r i 0) (drainCount r i * r.esz) 0 0

/-- One step of MDRN: one row. -/
def State.mdrnStep (s : State) (c : CtxId) (r : Run) : State :=
  let fmt := setDfmt r.words
  let zrow := wfield r.c.vb 0 11
  let i := r.step - 1
  let z := r.zCode zrow (setM r.words)
  if z.isSome then s.failed c .matrix r (z.getD (0, 0)).1 (z.getD (0, 0)).2
  else if !globalTensor r then s.failed c .matrix r 1 (recBase r.shape).toNat
  else
    match s.locateBeat c .matrix r .write (fun _ => false) (drainPieces r i) with
    | .go xs s =>
      match xs.find? (fun x => x.2.attrs.1 != fmt), scalesGone r xs 2 0 0 with
      | some x, _ => s.failed c .matrix r 4 x.1.ea
      | none, some a => s.failed c .matrix r 5 a
      | none, none =>
        match xs.foldl (fun (t : Option State) x => match t, x.2 with
          | some t, .mem l mod pa => t.drainPiece c r fmt i x.1 l mod pa
          | t, _ => t) (some s) with
        | none => s.putRun c .matrix { r with due := s.clk + 1 }
        | some s => s.stepped c .matrix r
    | b => s.beatStop c .matrix r .write b

/-! ## The row engine (21 R430, R431) -/

/-- Statistic a (0) or b (1) of row `i` in X. -/
def statAt (r : Run) (i which : Nat) : Nat := wfield r.c.vb 24 24 + 8 * i + 4 * which
def CoreSt.stat (k : CoreSt) (r : Run) (i which : Nat) : Elem := BitVec.ofNat 32 (Memory.readLE k.memX (statAt r i which) 4)
def CoreSt.putStat (k : CoreSt) (due : Nat) (r : Run) (i which : Nat) (v : Elem) : CoreSt :=
  k.portWrite 3 1 (statAt r i which) (bytesLE 4 v.toNat) false due

/-- The exact quotient of a finite value by n, rounded RNE; zero keeps its sign. -/
def divRound (v : Val) (n : Nat) : Elem :=
  match v with
  | .fin s m e => (roundRat .rne s (m * 2 ^ e.toNat) (2 ^ (-e).toNat * n)).1
  | v => (roundV .rne v).1

/-- The mean and the variance of a row (21 R430): the exact sum over C; the exact sum of squares of differences from the exact mean,
over C, taken as the sum of (C y - S)^2 over C^3. -/
def rowMoments (ys : List Elem) : Elem × Elem :=
  let vs := ys.map valOf
  let c := ys.length
  let sum := sumVals vs
  match sum with
  | .fin .. =>
    let d (v : Val) : Val := (v.mul (Val.ofInt (c : Int) 0)).add .rne sum.neg
    let sq := sumVals (vs.map (fun v => (d v).mul (d v)))
    (divRound sum c, divRound sq (c * c * c))
  | _ => ((roundV .rne sum).1, canonNaN)

/-- 1 / sqrt of an exact value, rounded RNE (21 R430). -/
def rsqrtVal (v : Val) : Elem :=
  match v with
  | .nan _ => canonNaN
  | .inf s => if s then canonNaN else 0
  | .fin s m e =>
    if m = 0 then packF s 0x7F800000
    else if s then canonNaN
    else let (n, d) := ratOf m e; (sqrtQ .rne d n).1

/-- The destination row's elements, decoded (10 R260). -/
def State.rowElems (s : State) (core : Nat) (r : Run) (entry : Word) (off n : Nat) : List Elem :=
  let f := fmtOf (entFmt entry)
  let k := s.core core
  (List.range n).map (fun j =>
    let o := off + j * f.bytes
    let sc : Byte := match scaleOffset (r.snapAt 1 o) o with | some p => Memory.read k.memX p | none => 0
    loadElem f (Memory.readLE k.memX o f.bytes) sc)

/-- Bytes of rows written to the destination page under its format (21 R430), at the end of a clk. -/
def State.putRow (s : State) (due core : Nat) (r : Run) (entry : Word) (off : Nat) (es : List Elem) : State :=
  let f := fmtOf (entFmt entry)
  let geom := entGeom entry
  if geom = 0 then s.modCore core (fun k => k.portWrite 3 1 off (es.flatMap (fun x => bytesLE f.bytes (storeElem f x 0))) false due)
  else
    let at_ := es.zipIdx.map (fun p => (off + p.2, p.1))
    (((at_.map (fun p => p.1 / blockWidth geom)).eraseDups)).foldl (fun s b =>
      let mine := at_.filter (fun p => p.1 / blockWidth geom == b)
      let o := (mine.headD (off, 0)).1
      let sc := scaleOffset (r.snapAt 1 o) o
      let (kk, codes) : Byte × List Nat := match sc with
        | some _ => drainBlock f (mine.map Prod.snd)
        | none => (0, mine.map (fun p => storeElem f p.2 0))
      let s := s.modCore core (fun k => k.portWrite 3 1 o (codes.flatMap (bytesLE 1)) false due)
      match sc with
      | some p => s.modCore core (fun k => k.portWrite 3 1 p [kk] false due)
      | none => s) s

/-- Whether a row command writes rows, and whether it writes statistics (21 R430). -/
def Run.writesRow (r : Run) : Bool := r.c.cmd == 1 || r.c.cmd == 2 || r.c.cmd == 4
def Run.writesStat (r : Run) : Bool := r.c.cmd == 0 || r.c.cmd == 1 || r.c.cmd == 3

/-- The error code and address of a row command's pages, none where they are in order (21 R430, R424). Statistics that it only reads may lie in
an inbox; the geometry of the destination counts for a command that writes no row too. -/
def Run.rowCode (r : Run) (core : Nat) (off n : Nat) : Option (Nat × Nat) :=
  let st := wfield r.c.vb 24 24
  let rows := setR r.words
  match r.zCode (wfield r.c.va 0 11) rows with
  | some q => some q
  | none =>
    match r.localPage core 1 st (8 * rows) r.writesStat with
    | .inl q => some q
    | .inr w =>
      let es := r.localEntries 1 off n
      if w.any (fun w => entFmt w != 0) then some (4, st)
      else
        match es.find? (fun e => entV e.2 && entGeom e.2 == 3) with
        | some e => some (4, e.1)
        | none =>
          if !r.writesRow then none
          else
            match r.localPage core 1 off n true with
            | .inl q => some q
            | .inr _ => (es.find? (fun e => !r.scalesThere 1 e.2)).map (fun e => (5, e.1))

/-- The element size of a row command's destination, and the first byte of row `i` there (21 R430). -/
def Run.rowEsz (r : Run) : Nat := (fmtOf (entFmt (r.snapAt 1 (wfield r.c.vb 0 24)))).bytes
def Run.rowAt (r : Run) (i : Nat) : Nat := wfield r.c.vb 0 24 + i * setC r.words * r.rowEsz

/-- The stretch of the destination that row `i` has written: its own bytes, but that a block which it shares with the next row is written with that
row, whole (log 74). -/
def Run.rowDst (r : Run) (i : Nat) : Nat × Nat :=
  let off := r.rowAt i
  let n := setC r.words * r.rowEsz
  let geom := entGeom (r.snapAt 1 off)
  let w := if geom = 0 then 1 else blockWidth geom
  let lo := if i = 0 then off else off / w * w
  let hi := if i + 1 = setR r.words then off + n else (off + n) / w * w
  if r.writesRow then (lo, hi - lo) else (off, 0)

/-- The stretches of X that row `i` names: what it writes of its destination, where the command has one, and its statistics (21 R430). -/
def Run.rowNames (r : Run) (i : Nat) : List (Nat × Nat) :=
  (statAt r i 0, 8) :: (if r.writesRow then [((r.rowDst i).1, r.rowAt i + setC r.words * r.rowEsz - (r.rowDst i).1)] else [])

/-- Those that it writes. -/
def Run.rowWrites (r : Run) (i : Nat) : List (Nat × Nat) :=
  (if r.writesStat then [(statAt r i 0, 8)] else []) ++ (if r.writesRow then [r.rowDst i] else [])

/-- The scaled elements of row `i` (21 R430). -/
def CoreSt.rowYs (k : CoreSt) (r : Run) (i : Nat) : List Elem :=
  let sc := valOf ((Sp.get 0 r.words 1).setWidth 32)
  (k.zRow (wfield r.c.va 0 11 + i) (setC r.words)).map (fun z => (roundV .rne (sc.mul (valOf z))).1)

/-- The elements that a command writes to row `i` of its destination (21 R430). -/
def State.rowOut (s : State) (core : Nat) (r : Run) (i : Nat) : List Elem :=
  let k := s.core core
  let ys := k.rowYs r i
  let a := k.stat r i 0
  let b := k.stat r i 1
  match r.c.cmd with
  | 1 => ys.map (fun y => (fExp2 .rne (fSub .rne y a).1).1)
  | 2 =>
    let q := (fRcp .rne b).1
    (s.rowElems core r (r.snapAt 1 (r.rowAt i)) (r.rowAt i) (setC r.words)).map (fun x => (fMul .rne x q).1)
  | _ =>
    let g := rsqrtVal ((valOf b).add .rne (valOf ((Sp.get 0 r.words 2).setWidth 32)))
    ys.map (fun y => (roundV .rne (((valOf y).add .rne (valOf a).neg).mul (valOf g))).1)

/-- One row of a row-engine command (21 R430, R431). Its data stand from the clk at which the rule has them written. -/
def State.rowStep (s : State) (c : CtxId) (r : Run) : State :=
  let i := r.step - 1
  let e := r.rowEsz
  let off := r.rowAt i
  let n := setC r.words * e
  let out := (s.ctx c).eng.rowsOut.filter (fun p => decide (s.clk ≤ p.2.2))
  let at_ := s.clk + s.tailOf c .row r
  let due := at_ - 1
  -- a row is held until every earlier command has written the same row's destination and statistics (R431)
  if out.any (fun p => (r.rowNames i).any (fun q => decide (p.1 < q.1 + q.2) && decide (q.1 < p.1 + p.2.1))) then
    s.putRun c .row { r with due := s.clk + 1 }
  else
    match r.rowCode c.core off n with
    | some (code, a) => s.failed c .row r code a
    | none =>
      let k := s.core c.core
      if r.c.cmd == 2 && k.poisoned 1 off n then s.failed c .row r 6 (k.poisonAt 1 off n)
      else if r.writesRow && k.poisoned 1 (statAt r i 0) 8 then s.failed c .row r 6 (k.poisonAt 1 (statAt r i 0) 8)
      else
        let s := match r.c.cmd with
          | 0 => let ys := k.rowYs r i
            s.modCore c.core (fun k => k.putStat due r i 0 (ys.tail.foldl (fun m y => (fMax m y).1) (ys.headD 0)))
          | 1 => s.modCore c.core (fun k => k.putStat due r i 1 (roundV .rne (sumVals ((s.rowOut c.core r i).map valOf))).1)
          | 3 => let (mu, v) := rowMoments (k.rowYs r i)
            s.modCore c.core (fun k => (k.putStat due r i 0 mu).putStat due r i 1 v)
          | _ => s
        let (lo, len) := r.rowDst i
        let s := if len = 0 then s
          else
            let before := if lo < off then (s.rowOut c.core r (i - 1)).drop ((n - (off - lo)) / e) else []
            s.putRow due c.core r (r.snapAt 1 off) lo ((before ++ s.rowOut c.core r i).take (len / e))
        let s := s.modCtx c (fun x => { x with eng := { x.eng with rowsOut := out ++ (r.rowWrites i).map (fun q => (q.1, q.2, at_)) } })
        s.stepped c .row r

/-! ## The micro-step -/

/-- ENGINE_MICRO_STEP (21 R432; 07 R174): one step of a command whose engine may act; a run that has met an error takes none. -/
def execEngineMicroStep (s : State) : Host.Outcome State Fault Refusal :=
  match s.cur with
  | some (.engineMicroStep c e) =>
    match (s.ctx c).eng.run e with
    | none => .next s
    | some r =>
      if !s.engineLive c || (s.ctx c).engineFault e || r.done.isSome || decide (r.steps < r.step) || decide (s.clk < r.due) then .next s
      else
        let s := s.modCore c.core (fun k => { k with owner := Sp.set 0 k.owner (engIndex e) c.bank })
        let r := if isCopy e && r.step == 1 then s.sized c e r else r
        if r.error ≠ 0 then .next (s.failed c e r r.error r.errArg)
        else .next (match e, r.c.cmd with
          | .load, 0 => s.cldBeat c r
          | .load, 3 => s.chainStep c r
          | .load, 5 => s.covlBeat c r
          | .load, 6 => s.cmigBeat c r
          | .load, _ => s.cinvStep c r
          | .store, 1 => s.cstBeat c r
          | .store, 2 => s.cstaBeat c r
          | .store, _ => s.cslcStep c r
          | .matrix, 0 => s.mmaStep c r
          | .matrix, 1 => s.mmaStep c r
          | .matrix, 3 => s.mdrnStep c r
          | .matrix, 5 => s.msgnStep c r
          | .matrix, _ => s.zRowStep c r
          | .row, _ => s.rowStep c r)
  | _ => .next s

/-! ## What the engines of a core may do in a clk -/

/-- Whether a run has a step to take in this clk. An engine whose two banks both have a command under way, one of them suspended for a time,
goes on with the one it took last until that is complete (05 R139). -/
def State.stepDue (s : State) (c : CtxId) (e : EngQ) : Bool :=
  let o := otherBank c
  s.engineLive c && !(s.ctx c).engineFault e && (((s.ctx o).eng.run e).isNone || !s.engineLive o || Sp.get 0 (s.core c.core).owner (engIndex e) == c.bank) && (match (s.ctx c).eng.run e with
    | some r => r.done.isNone && decide (r.step ≤ r.steps) && decide (r.due ≤ s.clk) &&
      (e != .load || r.c.cmd != 3 || r.c.flags.getLsbD 3)
    | none => false)

/-- The banks of a core. -/
def banksOf (core : Nat) : List CtxId := [⟨core, 0⟩, ⟨core, 1⟩]

/-- Whether a command that begins in this clk has a step: not a member of a chain, nor a multicast of nothing. -/
def hasStep (e : EngQ) (cm : Command) : Bool :=
  match e, cm.cmd with
  | .load, 3 => cm.flags.getLsbD 3
  | .store, 4 => wfield cm.va 24 16 + wfield cm.va 40 16 != 0
  | _, _ => true

/-- The command of a copy queue that has a step in this clk: the one in progress, or one that begins in it. -/
def State.copyDue (s : State) (c : CtxId) (e : EngQ) : Option Command :=
  if s.stepDue c e then ((s.ctx c).eng.run e).map Run.c
  else if s.mayBegin c e then ((s.ctx c).eng.queue e).head?.filter (hasStep e)
  else none

/-- The bank whose command of a class has a step in this clk: 0 an overlay, 1 a store, 2 a load (05 R140). -/
def State.bankDue (s : State) (core cls : Nat) : Option CtxId :=
  (banksOf core).find? (fun c => (s.copyDue c (if cls = 1 then .store else .load)).any (fun cm => cls == 1 || ((cm.cmd == 5) == (cls == 0))))

/-- The classes of the copy engine that are pending (05 R140): 0 overlays, 1 stores, 2 loads, 3 inbound traffic. -/
def State.classPending (s : State) (core cls : Nat) : Bool :=
  match cls with
  | 0 => s.overlayDue core || (s.bankDue core 0).isSome
  | 3 => (!(s.core core).landing.isEmpty || !(s.core core).inbound.isEmpty) && !s.frozen core
  | _ => (s.bankDue core cls).isSome

/-- The class that the copy engine grants in this clk: the highest pending, or after 16 consecutive grants of one class the first
pending after it (05 R140). -/
def State.copyGrant (s : State) (core : Nat) : Option Nat :=
  let k := s.core core
  let first := (List.range 4).find? (fun i => s.classPending core i)
  match first with
  | none => none
  | some f =>
    if k.grantRun < 16 || k.grantFrom != s.clk then some f
    else match ((List.range 3).map (fun i => (k.grantClass + 1 + i) % 4)).find? (fun i => s.classPending core i) with
      | some j => some j
      | none => some f

/-- The grant of a clk, where none has been made in it, recorded, and the step or the drain that it lets go. In class 0 the scheduler's
overlays stand before a program's COVL, and a clk without a grant ends a run of grants (log 35). -/
def State.grantCopy (s : State) (core : Nat) : State :=
  if s.clk < (s.core core).grantFrom then s
  else
    match s.copyGrant core with
    | none => s
    | some g =>
      let due := s.bankDue core g
      let ovl := s.overlayDue core
      let s := s.modCore core (fun k => k.grant g s.clk)
      if g = 3 then s.postNow (.landingBufferDrain core)
      else if g = 0 && ovl then s.overlayBeat core
      else match due with
        | some c => s.postNow (.engineMicroStep c (if g = 1 then .store else .load))
        | none => s

/-- The engines of a core looked at when a clk begins: completions, beginnings, steps. -/
def State.enginesTick (s : State) (core : Nat) : State :=
  let es := [EngQ.load, .store, .matrix, .row]
  if (banksOf core).all (fun c => (s.ctx c).eng.idle) && (s.core core).landing.isEmpty && (s.core core).inbound.isEmpty && !s.overlayDue core then s
  else
    let s := (banksOf core).foldl (fun s c => es.foldl (fun s e =>
      (((s.ctx c).eng.live e).filter (s.mayEndRun c e)).foldl (fun s _ => s.postNow (.engineCommandComplete c e)) s) s) s
    let s := (banksOf core).foldl (fun s c => es.foldl (fun s e =>
      if s.mayBegin c e then s.postNow (.engineCommandBegin c e) else s) s) s
    let s := (banksOf core).foldl (fun s c => [EngQ.matrix, .row].foldl (fun s e =>
      if s.stepDue c e then s.postNow (.engineMicroStep c e) else s) s) s
    s.grantCopy core

/-! ## Beginning -/

/-- ENGINE_COMMAND_BEGIN (07 R171, R172, R176, R178; 04 R105, R106; 21 R423). -/
def execEngineCommandBegin (s : State) : Host.Outcome State Fault Refusal :=
  match s.cur with
  | some (.engineCommandBegin c e) =>
    if !s.mayBegin c e then .next s
    else
      match (s.ctx c).eng.queue e with
      | [] => .next s
      | cm :: rest =>
        if cm.chk ≠ cm.own then .next (s.copyMismatch c e)
        else
        let s := (s.modCore c.core (fun k => { k with owner := Sp.set 0 k.owner (engIndex e) c.bank })).modCtx c (fun x =>
          let x := if cm.wait = 0 then x else x.setToken cm.wait (x.token cm.wait - 1)
          let g := x.eng.putQueue e rest
          { x with eng := if cm.sw then g.swap e else g })
        let r := s.newRun c e cm
        -- a record that the copy set live at the MDRN's own beginning reserves ends it in code 4 (21 R415)
        let r := if e = .matrix && cm.cmd == 3 && recBad r.shape then { r with error := 4, errArg := (recBase r.shape).toNat } else r
        let amount := s.promiseOf c e r
        let at_ := (s.cyc c.core + BitVec.ofNat 64 amount).toNat % 2 ^ 48
        let r := { r with promise := at_, done := if r.error ≠ 0 then some (s.clk + 1) else r.done }
        let s := s.modCtx c (fun x => { x with eng := x.eng.putRun e (some r) })
        let s := if isCopy e then
            (s.modCtx c (fun x => { x with q14 := x.q14.add (BitVec.ofNat 64 (cm.tag * 2 ^ 48 + at_)) (s.clk + 2) })).post
              (s.clk + amount) (.promiseMiss c (BitVec.ofNat 16 cm.tag))
          else s
        .next (if isCopy e then s.grantCopy c.core else s.postNow (.engineMicroStep c e))
  | _ => .next s

end Sys2Proof.Machine
end

