-- ==== Sys2Proof/Machine/Sched.lean ====
section
/-! DEFINITION. The scheduler of a die (05 R128 to R137): overlays, readiness and verdicts, release, priorities, forced stops, resumption. -/

namespace Sys2Proof.Machine

/-! ## Banks and cores (05 R129, R134, R137) -/

/-- The predecessor that does not pass (05 R131). -/
def State.latePred (s : State) (die : Nat) (p : PlatRec) : Option Nat :=
  let d := s.die die
  let had (w : Word) : Bool := d.seen.contains w || d.plats.any (fun q => q.plat == w && !(q.here die).isEmpty)
  (p.preds.zipIdx.find? (fun w => !(d.gone.contains w.1 || !had w.1))).map Prod.snd

/-- Whether a bank holds no context and is kept for no other plat. -/
def State.bankFree (s : State) (plat : Word) (c : CtxId) : Bool :=
  !(s.ctx c).resident && !(s.die (dieOf c.core)).plats.any (fun q => q.plat != plat && q.banks.contains c)

/-- Whether a bank holds a context that can be evacuated for another plat (05 R137). -/
def State.bankStopped (s : State) (c : CtxId) : Bool := (s.ctx c).resident && (s.ctx c).phase == .atWaypoint

/-- The bank of a core that a plat takes (05 R129): bank 0 where it holds no context, bank 1 otherwise, where that one is free or its context,
stopped at a waypoint, is evacuated (R137); else bank 0 with such a context. -/
def State.bankFor (s : State) (plat : Word) (core : Nat) : Option Nat :=
  if s.bankFree plat ⟨core, 0⟩ then some 0
  else if s.bankFree plat ⟨core, 1⟩ || s.bankStopped ⟨core, 1⟩ then some 1
  else if s.bankStopped ⟨core, 0⟩ then some 0
  else none

/-- Whether a context of another plat issues on a core (05 R129; log 34), or is about to, after a fault's answer. -/
def State.coreBusy (s : State) (plat : Word) (core : Nat) : Bool :=
  [0, 1].any (fun b => (s.ctx ⟨core, b⟩).plat != plat && (s.ctx ⟨core, b⟩).issues)

/-- Whether a core's banks are kept for another plat's release (05 R128): no other takes the core before that (log 34). -/
def State.coreKept (s : State) (plat : Word) (core : Nat) : Bool :=
  (s.die (dieOf core)).plats.any (fun q => q.plat != plat && q.banks.any (fun c => c.core == core))

/-- Whether the contexts of other plats that issue on a core stop by a cycle (05 R129): their plats are outranked, and each parcel's next
waypoint comes in time by WPMAX, a freeze of 40 clk and the 8 clk of the switch allowed for (log 34). -/
def State.stopsBy (s : State) (p : PlatRec) (core sk : Nat) : Bool :=
  [0, 1].all (fun b =>
    let c : CtxId := ⟨core, b⟩
    let x := s.ctx c
    x.plat == p.plat || !x.issues || (match s.platRec c with
      | none => false
      | some o => o.code == 2 && s.outranks p.rank o && (s.ctxsOf o.plat).all (fun d =>
          let y := s.ctx d
          y.phase == .running && y.normal && !y.guarded && y.c.slip == 0 && decide (y.origin + y.wayCyc + o.wpmax + 48 ≤ sk))))

/-- The cores of a die that a plat names. -/
def PlatRec.coresOn (p : PlatRec) (die : Nat) : List Nat := (p.here die).flatMap (fun q => q.cores.map q.coreId)

/-- The banks that a plat would take on a die for a release at `sk`, where it is ready (05 R129). On one die every core is free of issuing
contexts by then; on several, those that issue still stop in time. `loaded` asks for its overlays too, `moved` for the copies of R204. -/
def State.couldTake (s : State) (die : Nat) (p : PlatRec) (sk : Nat) (loaded moved : Bool) : Option (List CtxId) :=
  let many := decide (1 < p.diesOf.length)
  let cores := p.coresOn die
  if (loaded && !p.loads.isEmpty) || (s.modu (die / 8)).hot || cores.any (fun k => s.coreKept p.plat k ||
      (if many then !s.stopsBy p k sk else s.coreBusy p.plat k) ||
      (s.core k).regions.any (fun r => r.bank == waitBank p.plat && r.overwritten)) then none
  else
    match allSome (cores.map (fun k => (s.bankFor p.plat k).map (fun b => (⟨k, b⟩ : CtxId)))) with
    | none => none
    | some cs => if moved && cs.any (fun c => !(s.movesFor c p.plat).isEmpty) then none else some cs

/-- Where the contexts of a stopped plat go on: those in banks there, those kept in banks that are free now. -/
def State.resumeBanks (s : State) (plat : Word) : Option (List (CtxId × Option Ctx)) :=
  let here := (s.ctxsOf plat).map (fun c => some (c, (none : Option Ctx)))
  let kept := s.dies.flatMap (fun d => (d.2.kept.filter (fun k => k.1 == plat)).map (fun k =>
    (s.bankFor plat k.2.1).map (fun b => ((⟨k.2.1, b⟩ : CtxId), some k.2.2))))
  allSome (here ++ kept)

/-- Whether every die of a stopped plat has what it goes on with (05 R129, R137): its regions loaded, its cores free of issuing contexts and kept
for no other, no context that still waits for a fault's answer; with `moved`, the copies of R204 done. -/
def State.couldResume (s : State) (p : PlatRec) (moved : Bool) : Bool :=
  p.diesOf.all (fun d => match (s.die d).plat p.plat with
    | some q => q.loads.isEmpty && !(s.modu (d / 8)).hot && (q.coresOn d).all (fun k => !s.coreBusy p.plat k && !s.coreKept p.plat k)
    | none => false) &&
  (s.ctxsOf p.plat).all (fun c => (s.ctx c).stopped) &&
  (match s.resumeBanks p.plat with
  | none => false
  | some cs => !moved || cs.all (fun c => (s.movesFor c.1 p.plat).isEmpty))

/-- Whether a waiting plat is judged in this clk (05 R128, R137). -/
def State.judgedNow (s : State) (die : Nat) (q : PlatRec) : Bool :=
  s.agenda.any (fun (e : Nat × Event) => decide (e.1 ≤ s.clk) && (match e.2 with
    | .readinessDeadline d w k => d == die && w == q.plat && decide (q.deadline k ≤ s.clk)
    | .platResume _ w => w == q.plat && q.stopped.any (fun st => (s.clk - st.2) % q.frame == 0)
    | _ => false))

/-- Whether another waiting plat of the die that is ready comes first for a core of a plat (05 R134): in this clk, or, before a plat that would go
on, whenever its turn is, the copies of R204 that it would still need left out (log 34). -/
def State.yields (s : State) (die : Nat) (p : PlatRec) (now : Bool) : Bool :=
  (s.die die).plats.any (fun q => q.plat != p.plat && q.before p && (!now || s.judgedNow die q) &&
    (q.coresOn die).any (fun k => (p.coresOn die).contains k) &&
    (if q.code = 1 then (s.latePred die q).isNone && (s.couldTake die q (q.start + q.k * q.frame) true now).isSome
     else q.code == 3 && s.couldResume q now))

/-- The banks that a plat takes on a die for a release, where it is ready (05 R129, R134). -/
def State.readyBanks (s : State) (die : Nat) (p : PlatRec) (sk : Nat) : Option (List CtxId) :=
  if s.yields die p true then none else s.couldTake die p sk true true

/-! ## The scheduler's work of a clk -/

/-- The copies that a core's first waiting plat needs, begun where no context issues there (08 R204; 05 R129). -/
def State.moveStep (s : State) (core : Nat) : State :=
  let die := dieOf core
  if !(s.core core).moves.isEmpty || [0, 1].any (fun b => (s.ctx ⟨core, b⟩).issues) then s
  else
    let able (q : PlatRec) : Bool := (q.coresOn die).contains core &&
      (if q.code = 1 then !q.banks.isEmpty || (s.couldTake die q (q.start + q.k * q.frame) false false).isSome else q.code == 3 && s.couldResume q false)
    let first := ((s.die die).plats.filter able).foldl (fun (m : Option PlatRec) q => match m with
      | none => some q
      | some p => if q.before p then some q else m) none
    match first with
    | none => s
    | some p =>
      let bank : Option CtxId := match p.banks.find? (fun c => c.core == core), (s.ctxsOf p.plat).find? (fun c => c.core == core) with
        | some c, _ => some c
        | none, some c => some c
        | none, none => (s.bankFor p.plat core).map (fun b => ⟨core, b⟩)
      match bank with
      | none => s
      | some c => s.modCore core (fun k => { k with moves := s.movesFor c p.plat })

/-- The scheduler's work of a clk: overlays and copies that begin, and answered contexts that ask for their core (09 R234; 05 R135). -/
def State.schedTick (s : State) : State :=
  let work := s.dies.flatMap (fun (d : Nat × DieSt) => d.2.plats.flatMap (fun p => (p.loads.filter (fun l => l.from_.isNone)).map (fun l => (d.1, p.plat, l))))
  let s := work.foldl (fun t w => t.loadBegin w.1 w.2.1 w.2.2) s
  let named := s.dies.flatMap (fun (d : Nat × DieSt) => (d.2.plats.filter (fun p => p.code == 1 || p.code == 3)).flatMap (fun p => p.coresOn d.1))
  let s := named.eraseDups.foldl (fun t k => t.moveStep k) s
  let asks := s.residents.filter (fun c => (s.ctx c).phase == .ready && (s.core c.core).active != c.bank)
  asks.foldl (fun t c =>
    match t.platRec c, t.platRec ⟨c.core, 1 - c.bank⟩ with
    | some p, some o => if o.code == 2 && o.asked.isNone && t.outranks p.prio o then t.preempt o.plat else t
    | _, _ => t) s

/-- The requests that the waiting plats of a die make of one that has just been released or resumed there (05 R135). -/
def State.askAgain (s : State) (die : Nat) (plat : Word) : State :=
  ((s.die die).plats.filter (fun w => w.plat != plat && (w.code == 1 || w.code == 3))).foldl (fun t w => t.requestCores die w) s

/-- A context stopped at a waypoint whose record is written into memory kept by the scheduler (05 R137; log 36): its bank is free, and its
operand slots, which no record holds (06 R157), are released. -/
def State.keepAway (s : State) (c : CtxId) : State :=
  let x := s.ctx c
  if !x.resident then s
  else
    let s := s.displace c
    let x := s.ctx c
    let die := dieOf c.core
    let s := s.modDie die (fun d => { d with kept := d.kept ++ [(x.plat, c.core, { x with dispSlots := [] })] })
    let regs := ((s.core c.core).regions.filter (fun r => r.bank == c.bank)).map (fun r => r.st)
    let s := s.modPlat die x.plat (fun p => { p with
      loads := p.loads ++ (regs.filter (fun st => !p.loads.any (fun l => l.core == c.core && l.st == st))).map (fun st => ⟨c.core, st, none, 0⟩) })
    let s := s.modCore c.core (fun k => { k with
      regions := k.regions.filter (fun r => r.bank != c.bank)
      slots := k.slots.map (fun e => if e.2.holder = some c.bank then (e.1, { e.2 with holder := none, last := some x.job }) else e) })
    s.putCtx c { Ctx.reset with frame := x.frame }

/-- The banks taken, and kept until S_k (05 R128). -/
def State.takeBanks (s : State) (die : Nat) (plat : Word) (cs : List CtxId) : State :=
  (cs.foldl (fun t c => if (t.ctx c).plat = plat then t else t.keepAway c) s).modPlat die plat (fun p => { p with banks := cs })

/-- The switches to the banks of a plat, which end 8 clk later (05 R138). -/
def State.switchTo (s : State) (cs : List CtxId) : State :=
  cs.foldl (fun t c => if (t.core c.core).active = c.bank && (t.core c.core).switching.isNone then t else t.beginSwitch c.core c.bank t.clk) s

/-! ## Verdicts (05 R128) -/

/-- A plat withdrawn by a die with a code (05 R126, R128). -/
def State.withdraw (s : State) (die : Nat) (plat : Word) (code detail : Nat) : State :=
  let s := s.modPlat die plat (fun p => { p with banks := [] })
  ((s.setStatus die plat code detail).freeUnits die plat).finishGuests plat 0x17 die

/-- A die's verdict sent to every other die of a plat, and noted at home (05 R128). -/
def State.sendVerdict (s : State) (die : Nat) (p : PlatRec) (k verdict : Nat) : State :=
  let s := (p.diesOf.filter (fun d => d != die)).foldl (fun t d =>
    t.enqueue (16 * (die / 8) + die % 8) (stationSlot (16 * (die / 8) + die % 8) 12 0 (d / 8) (d % 8) 0 0 1
      ([p.plat.toNat, die, k, verdict].flatMap (bytesLE 8))) t.clk) s
  s.modPlat die p.plat (fun q => { q with verdicts := (die, k, verdict) :: q.verdicts })

/-- Whether the release of a plat is settled and to come (05 R128). -/
def State.releaseDue (s : State) (die : Nat) (plat : Word) : Bool :=
  s.agenda.any (fun (e : Nat × Event) => match e.2 with
    | .platRelease d w _ => d == die && w == plat
    | _ => false)

/-- Whether a context released or resumed in this clk issues at once in a bank: the bank is active, or the 8 clk of the switch lie behind the core,
clk in which no context of it could issue (05 R138; log 34). -/
def State.bankSet (s : State) (c : CtxId) : Bool :=
  let k := s.core c.core
  (k.active == c.bank && k.switching.isNone) || decide (k.busyAt + 8 < s.clk)

/-- A candidate missed: the next is looked at in its time (05 R128). -/
def State.nextCandidate (s : State) (die : Nat) (p : PlatRec) (k : Nat) : State :=
  (s.modPlat die p.plat (fun q => { q with k := k + 1 })).post (Nat.max (s.clk + 1) (p.deadline (k + 1))) (.readinessDeadline die p.plat (k + 1))

/-- READINESS_DEADLINE (05 R128, R129, R131): D_k. On one die, where D_k is S_k, a core is ready whose bank can issue in that clk (R138;
log 34). -/
def execReadinessDeadline (s : State) : Host.Outcome State Fault Refusal :=
  match s.cur with
  | some (.readinessDeadline die plat k) =>
    match (s.die die).plat plat with
    | none => .next s
    | some p =>
      if p.code != 1 || s.releaseDue die plat then .next s
      else
        let s := s.requestCores die p
        let many := decide (1 < p.diesOf.length)
        let sk := p.start + k * p.frame
        match s.latePred die p with
        | some i =>
          let s := if many then s.sendVerdict die p k 0 else s
          .next (s.withdraw die plat 0x16 i)
        | none =>
          match (s.readyBanks die p sk).filter (fun cs => many || cs.all s.bankSet) with
          | none =>
            -- neither ready nor failed: tried again for S_(k+1) (log 32)
            let kept := p.verdicts.any (fun v => v.1 == die && v.2.2 == 1 && decide (s.clk < p.start + v.2.1 * p.frame))
            let s := if kept then s else s.modPlat die plat (fun p => { p with banks := [] })
            let s := if many then (s.sendVerdict die p k 2).post (sk - 1024) (.verdictTimeout die plat k) else s
            .next (s.nextCandidate die p k)
          | some cs =>
            let s := s.takeBanks die plat cs
            if many then .next (((s.sendVerdict die p k 1).post (sk - 1024) (.verdictTimeout die plat k)).nextCandidate die p k)
            else .next (s.postNow (.platRelease die plat k))
  | _ => .next s

/-- READINESS_VERDICT (05 R128): a failed verdict withdraws the plat. -/
def execReadinessVerdict (s : State) : Host.Outcome State Fault Refusal :=
  match s.cur with
  | some (.readinessVerdict die plat frm k v) =>
    match (s.die die).plat plat with
    | none => .next s
    | some p =>
      if p.code != 1 then .next s
      else if v = 0 then .next (s.withdraw die plat 0x17 frm)
      else .next (s.modPlat die plat (fun q => { q with verdicts := (frm, k, v) :: q.verdicts }))
  | _ => .next s

/-- VERDICT_TIMEOUT (05 R128): S_k - 1,024. A verdict that is missing withdraws the plat on every die; with all of them ready it is released
at S_k. -/
def execVerdictTimeout (s : State) : Host.Outcome State Fault Refusal :=
  match s.cur with
  | some (.verdictTimeout die plat k) =>
    match (s.die die).plat plat with
    | none => .next s
    | some p =>
      if p.code != 1 then .next s
      else
        let of (d : Nat) : Option Nat := (p.verdicts.find? (fun v => v.1 == d && v.2.1 == k)).map (fun v => v.2.2)
        match p.diesOf.find? (fun d => (of d).isNone) with
        | some d => .next (p.diesOf.foldl (fun t e => if ((t.die e).plat plat).isSome then t.withdraw e plat 0x17 d else t) s)
        | none =>
          if p.diesOf.all (fun d => of d == some 1) then .next (s.post (p.start + k * p.frame - 8) (.platRelease die plat k))
          else .next s
  | _ => .next s

/-! ## Release (05 R132) -/

/-- The registers of C or A at release. -/
def releaseRegs (p : PlatRec) (q : Parcel) (sk : Nat) : Sp Word :=
  Sp.setAll 0 [] ((p.params ++ [BitVec.ofNat 64 q.index, q.pparam, BitVec.ofNat 64 sk]).zipIdx.map (fun v => (v.2 + 1, v.1)))

/-- A stream at the ENTRY block of its region; without text it is absent. -/
def releaseStream (g : PadReg) (regs : Sp Word) : StreamSt :=
  { StreamSt.reset with regs := regs, pc := (g.off + g.entry) % 65536, live := g.len != 0 }

/-- A context in its release state (05 R132). Its frame store and spill memory hold what log 4 says. -/
def releaseCtx (old : Ctx) (p : PlatRec) (q : Parcel) (die sk : Nat) (feat : Word) : Ctx :=
  let regs := releaseRegs p q sk
  { Ctx.reset with
    resident := true, job := p.job, plat := p.plat, parcel := q.index, origin := sk, feat := feat, frame := old.frame
    edCode := BitVec.ofNat 32 (match p.edits.find? (fun e => 8 * e.1 + e.2.1 == die) with | some e => e.2.2 | none => 0)
    c := releaseStream q.creg regs, a := releaseStream q.areg regs, v := releaseStream q.vreg [] }

/-- The core made clean for a release (08 R204): what a context in the other bank has there is displaced, and no page or slot shows what another
job left; the sign store is all +1. Zeroing a slot clears its last holder (14 R345). The inboxes stay (R205). -/
def State.cleanCore (s : State) (c : CtxId) : State :=
  let other := otherBank c
  let s := s.displace other
  let held (e : Nat × SlotInfo) : Bool := (s.ctx other).resident && e.2.holder == some other.bank
  s.modCore c.core (fun k => { k with
    memW := [], memX := k.memX.filter (fun e => inInbox 1 e.1), memZ := [], slotMem := []
    slots := (k.slots.filter held).map (fun (e : Nat × SlotInfo) => (e.1, { e.2 with last := none })), sign := []
    poison := k.poison.filter (fun l => inInbox 1 (64 * l)) })

/-- The turns of a context that begins in this clk (log 7). -/
def State.joinTurn (s : State) (c : CtxId) : State :=
  { s with turn := s.turn.filter (fun t => match t with
      | .probe d => d != c
      | .issue i => i.ctx != c) ++ [.probe c, .issue ⟨c, .v⟩, .issue ⟨c, .a⟩, .issue ⟨c, .c⟩] }

/-- One context of a plat released. -/
def State.releaseOne (s : State) (p : PlatRec) (sk : Nat) (c : CtxId) : State :=
  match p.parcelAt c.core with
  | none => s
  | some q =>
    let s := s.cleanCore c
    let feat := (s.modu (modOf c.core)).features p.job.toNat
    let s := s.modCtx c (fun x => releaseCtx x p q (dieOf c.core) sk feat)
    let s := s.modCore c.core (fun k => { k with
      active := c.bank, switching := none
      regions := k.regions.map (fun r => if r.bank = waitBank p.plat then { r with bank := c.bank } else r) })
    s.joinTurn c

/-- The members of a redundant pair send with equal tags (log 24). -/
def State.pairTags (s : State) (p : PlatRec) (die : Nat) : State :=
  (p.here die).foldl (fun t q => match q.partner with
    | some k => t.modCore (q.coreId k) (fun x => { x with reqTag := (t.core (q.coreId q.core)).reqTag })
    | none => t) s

/-- PLAT_RELEASE (05 R132, R138, R141): the switches begin 8 clk before S_k, and every stream starts at S_k. -/
def execPlatRelease (s : State) : Host.Outcome State Fault Refusal :=
  match s.cur with
  | some (.platRelease die plat k) =>
    match (s.die die).plat plat with
    | none => .next s
    | some p =>
      let sk := p.start + k * p.frame
      if p.code != 1 then .next s
      else if s.clk < sk then .next ((s.switchTo p.banks).post sk (.platRelease die plat k))
      else
        let s := (p.banks.foldl (fun t c => t.releaseOne p sk c) s).pairTags p die
        let s := s.modDie die (fun d => { d with seen := if d.seen.contains plat then d.seen else plat :: d.seen })
        let s := s.modPlat die plat (fun q => { q with since := sk, age := 0, asked := none, banks := [], k := k, verdicts := [] })
        let s := match (s.die die).plat plat with
          | some q => (s.writeStatus die q 0x02 k sk).modPlat die plat (fun q => { q with code := 2, detail := k })
          | none => s
        .next ((s.post (s.clk + 2 ^ 20) (.runQuantumExpiry die plat)).askAgain die plat)
  | _ => .next s

/-! ## Priorities (05 R134 to R136) -/

/-- PRIORITY_AGING (05 R134): one more for each full 2^20 clk of waiting. -/
def execPriorityAging (s : State) : Host.Outcome State Fault Refusal :=
  match s.cur with
  | some (.priorityAging die plat) =>
    match (s.die die).plat plat with
    | none => .next s
    | some p =>
      if !((p.code == 1 || p.code == 3) && p.since + (p.age + 1) * 2 ^ 20 == s.clk) then .next s
      else
        let s := s.modPlat die plat (fun p => { p with age := p.age + 1 })
        let s := if p.age < 3 then s.post (s.clk + 2 ^ 20) (.priorityAging die plat) else s
        .next (s.requestCores die { p with age := p.age + 1 })
  | _ => .next s

/-- RUN_QUANTUM_EXPIRY (05 R135): a waiting plat of equal effective priority requests the pre-emption of one that has run 2^20 clk. -/
def execRunQuantumExpiry (s : State) : Host.Outcome State Fault Refusal :=
  match s.cur with
  | some (.runQuantumExpiry die plat) =>
    match (s.die die).plat plat with
    | none => .next s
    | some o =>
      if o.code = 2 && decide (o.since + 2 ^ 20 ≤ s.clk) &&
          (s.die die).plats.any (fun w => (w.code == 1 || w.code == 3) && s.outranks w.rank o &&
            (s.occupants die w).any (fun q => q.plat == plat)) then .next (s.preempt plat)
      else .next s
  | _ => .next s

/-- FORCED_STOP (05 R136; 12 R296; 04 R102): every parcel of the plat in the same clk. A context in a trap entry or return is stopped as soon
as it runs; one that waits for its bank after a fault stays stopped. DETAIL is the waypoint that the first context has recorded, 0 for none
(R126; log 83). -/
def execForcedStop (s : State) : Host.Outcome State Fault Refusal :=
  match s.cur with
  | some (.forcedStop die plat) =>
    match (s.die die).plat plat with
    | none => .next s
    | some o =>
      if !(o.code == 2 && o.asked.any (fun t => decide (t + 2 ^ 20 ≤ s.clk))) then .next s
      else
        let cs := s.ctxsOf plat
        let moving (x : Ctx) : Bool := match x.phase with
          | .stopping _ => true
          | .entering _ _ => true
          | .returning _ => true
          | _ => false
        if cs.any (fun c => moving (s.ctx c)) then .next (s.post (s.clk + 1) (.forcedStop die plat))
        else
          let wp := (match cs with | c :: _ => (s.ctx c).waypoint | [] => none).getD 0
          let s := cs.foldl (fun t c =>
            let x := t.ctx c
            match x.phase with
            | .running => t.stopAt c t.clk { cause := 0, tval := 0, strm := 3, word := x.c.pc, mrg := false, kind := .forcedStop }
            | .ready => (t.modCtx c (fun x => { x with phase := .forced })).reconsider c.core t.clk
            | _ => t) s
          let s := cs.foldl (fun t c => t.modCtx c (fun x => { x with stopReq := false, atWay := none })) s
          .next (s.platStopped plat wp)
  | _ => .next s

/-! ## Resumption (05 R137) -/

/-- The dies of a plat in their order; the first judges for all (log 36). -/
def PlatRec.lead? (p : PlatRec) : Option Nat := p.diesOf.foldl (fun m d => match m with | none => some d | some e => some (Nat.min d e)) none

/-- Whether a stopped plat is ready to go on (05 R129, R134, R137): nothing that it needs is missing, and no waiting plat that is ready comes
first. -/
def State.canResume (s : State) (p : PlatRec) : Bool :=
  s.couldResume p true && p.diesOf.all (fun d => match (s.die d).plat p.plat with
    | some q => !s.yields d q false
    | none => false)

/-- One context going on at a resumption: its timetable moves by whole frames; after a forced stop it runs in guarded timing (05 R136,
R137). -/
def State.resumeOne (s : State) (shift : Nat) (c : CtxId) (kept : Option Ctx) : State :=
  let s := match kept with
    | none => s
    | some x =>
      let s := if (s.ctx c).resident then s.keepAway c else s
      (s.putCtx c x).modCore c.core (fun k => { k with
        regions := k.regions.map (fun (r : Region) => if r.bank = waitBank x.plat then { r with bank := c.bank } else r) })
  let s := (s.displace ⟨c.core, 1 - c.bank⟩).swapIn c
  let s := s.modCore c.core (fun k => { k with active := c.bank, switching := none })
  let feat := (s.modu (modOf c.core)).features (s.ctx c).job.toNat
  let s := s.modCtx c (fun x => { x with origin := x.origin + shift, feat := feat }.countsAt)
  let s := if (s.ctx c).phase = .forced then
      (s.modCtx c (fun x => { x with guarded := true, savedTe := if x.handlerSaved.isSome then x.savedTe else s.clk })).restore c
    else s.modCtx c (fun x => { x with phase := .running })
  (s.postTimer c).joinTurn c

/-- PLAT_RESUME (05 R137, R138): the plat is judged at each candidate cycle, the stop cycle plus a multiple of F, and goes on at the first at which
it is ready. DETAIL of RUNNING counts the frames that this resumption moves it by (R126; log 34). -/
def execPlatResume (s : State) : Host.Outcome State Fault Refusal :=
  match s.cur with
  | some (.platResume die plat) =>
    match (s.die die).plat plat with
    | none => .next s
    | some p =>
      match p.stopped with
      | none => .next s
      | some (_, stop) =>
        if p.code != 3 || p.lead? != some die then .next s
        else
          let shift := s.clk - stop
          if shift % p.frame != 0 then .next (s.post (stop + ceilDiv shift p.frame * p.frame) (.platResume die plat))
          else
            match (if s.canResume p then s.resumeBanks plat else none).filter (fun cs => cs.all (fun c => s.bankSet c.1)) with
            | none => .next (s.post (s.clk + p.frame) (.platResume die plat))
            | some cs =>
              let s := cs.foldl (fun t c => t.resumeOne shift c.1 c.2) s
              let s : State := { s with dies := s.dies.map (fun (d : Nat × DieSt) =>
                (d.1, { d.2 with kept := d.2.kept.filter (fun k => k.1 != plat) })) }
              let s := p.diesOf.foldl (fun t d =>
                let t := t.setStatus d plat 0x02 (shift / p.frame)
                (t.modPlat d plat (fun q => { q with stopped := none, asked := none, since := t.clk, age := 0 })).post
                  (t.clk + 2 ^ 20) (.runQuantumExpiry d plat)) s
              .next (p.diesOf.foldl (fun t d => t.askAgain d plat) s)
  | _ => .next s

end Sys2Proof.Machine
end

