-- ==== Sys2Proof/Machine/Dispatch.lean ====
section
/-! DEFINITION. The meaning of every instruction: one arm for each constructor of `Instr`. -/

namespace Sys2Proof.Machine

/-- An instruction run in a state: a word of the stream in focus, or the event under way. -/
def exec (i : Instr) (s : State) : Host.Outcome State Fault Refusal :=
  match i with
  | .add g b a d => Sys2Proof.Machine.execAdd g b a d s
  | .sub g b a d => Sys2Proof.Machine.execSub g b a d s
  | .and g b a d => Sys2Proof.Machine.execAnd g b a d s
  | .or g b a d => Sys2Proof.Machine.execOr g b a d s
  | .xor g b a d => Sys2Proof.Machine.execXor g b a d s
  | .andn g b a d => Sys2Proof.Machine.execAndn g b a d s
  | .shl g b a d => Sys2Proof.Machine.execShl g b a d s
  | .shr g b a d => Sys2Proof.Machine.execShr g b a d s
  | .sar g b a d => Sys2Proof.Machine.execSar g b a d s
  | .rol g b a d => Sys2Proof.Machine.execRol g b a d s
  | .min g b a d => Sys2Proof.Machine.execMin g b a d s
  | .max g b a d => Sys2Proof.Machine.execMax g b a d s
  | .minu g b a d => Sys2Proof.Machine.execMinu g b a d s
  | .maxu g b a d => Sys2Proof.Machine.execMaxu g b a d s
  | .mul g b a d => Sys2Proof.Machine.execMul g b a d s
  | .mulhu g b a d => Sys2Proof.Machine.execMulhu g b a d s
  | .addi im a d => Sys2Proof.Machine.execAddi im a d s
  | .andi im a d => Sys2Proof.Machine.execAndi im a d s
  | .ori im a d => Sys2Proof.Machine.execOri im a d s
  | .xori im a d => Sys2Proof.Machine.execXori im a d s
  | .shli im a d => Sys2Proof.Machine.execShli im a d s
  | .shri im a d => Sys2Proof.Machine.execShri im a d s
  | .sari im a d => Sys2Proof.Machine.execSari im a d s
  | .muli im a d => Sys2Proof.Machine.execMuli im a d s
  | .lui im d => Sys2Proof.Machine.execLui im d s
  | .auib im d => Sys2Proof.Machine.execAuib im d s
  | .bext g b a d => Sys2Proof.Machine.execBext g b a d s
  | .bexts g b a d => Sys2Proof.Machine.execBexts g b a d s
  | .bins g b a d => Sys2Proof.Machine.execBins g b a d s
  | .clz g a d => Sys2Proof.Machine.execClz g a d s
  | .ctz g a d => Sys2Proof.Machine.execCtz g a d s
  | .popc g a d => Sys2Proof.Machine.execPopc g a d s
  | .bexti w o a d => Sys2Proof.Machine.execBexti w o a d s
  | .binsi w o a d => Sys2Proof.Machine.execBinsi w o a d s
  | .cmpEq n b a p => Sys2Proof.Machine.execCmpEq n b a p s
  | .cmpNe n b a p => Sys2Proof.Machine.execCmpNe n b a p s
  | .cmpLt n b a p => Sys2Proof.Machine.execCmpLt n b a p s
  | .cmpGe n b a p => Sys2Proof.Machine.execCmpGe n b a p s
  | .cmpLtu n b a p => Sys2Proof.Machine.execCmpLtu n b a p s
  | .cmpGeu n b a p => Sys2Proof.Machine.execCmpGeu n b a p s
  | .cmpiEq n im a p => Sys2Proof.Machine.execCmpiEq n im a p s
  | .cmpiNe n im a p => Sys2Proof.Machine.execCmpiNe n im a p s
  | .cmpiLt n im a p => Sys2Proof.Machine.execCmpiLt n im a p s
  | .cmpiGe n im a p => Sys2Proof.Machine.execCmpiGe n im a p s
  | .cmpiLtu n im a p => Sys2Proof.Machine.execCmpiLtu n im a p s
  | .cmpiGeu n im a p => Sys2Proof.Machine.execCmpiGeu n im a p s
  | .pand n b a p => Sys2Proof.Machine.execPand n b a p s
  | .por n b a p => Sys2Proof.Machine.execPor n b a p s
  | .pxor n b a p => Sys2Proof.Machine.execPxor n b a p s
  | .pandn n b a p => Sys2Proof.Machine.execPandn n b a p s
  | .pmov n a p => Sys2Proof.Machine.execPmov n a p s
  | .pnot n a p => Sys2Proof.Machine.execPnot n a p s
  | .movqPop g q d => Sys2Proof.Machine.execMovqPop g q d s
  | .movqPush g a q => Sys2Proof.Machine.execMovqPush g a q s
  | .trypopQueue g p q d => Sys2Proof.Machine.execTrypopQueue g p q d s
  | .ldB im b r => Sys2Proof.Machine.execLdB im b r s
  | .ldH im b r => Sys2Proof.Machine.execLdH im b r s
  | .ldW im b r => Sys2Proof.Machine.execLdW im b r s
  | .ld im b r => Sys2Proof.Machine.execLd im b r s
  | .ldSb im b r => Sys2Proof.Machine.execLdSb im b r s
  | .ldSh im b r => Sys2Proof.Machine.execLdSh im b r s
  | .ldSw im b r => Sys2Proof.Machine.execLdSw im b r s
  | .ldAcq sc im b r => Sys2Proof.Machine.execLdAcq sc im b r s
  | .stB im b r => Sys2Proof.Machine.execStB im b r s
  | .stH im b r => Sys2Proof.Machine.execStH im b r s
  | .stW im b r => Sys2Proof.Machine.execStW im b r s
  | .st im b r => Sys2Proof.Machine.execSt im b r s
  | .stRel sc im b r => Sys2Proof.Machine.execStRel sc im b r s
  | .amoAdd g b a d => Sys2Proof.Machine.execAmoAdd g b a d s
  | .amoAnd g b a d => Sys2Proof.Machine.execAmoAnd g b a d s
  | .amoOr g b a d => Sys2Proof.Machine.execAmoOr g b a d s
  | .amoXor g b a d => Sys2Proof.Machine.execAmoXor g b a d s
  | .amoMin g b a d => Sys2Proof.Machine.execAmoMin g b a d s
  | .amoMax g b a d => Sys2Proof.Machine.execAmoMax g b a d s
  | .amoMinu g b a d => Sys2Proof.Machine.execAmoMinu g b a d s
  | .amoMaxu g b a d => Sys2Proof.Machine.execAmoMaxu g b a d s
  | .amoSwap g b a d => Sys2Proof.Machine.execAmoSwap g b a d s
  | .cas g b a d => Sys2Proof.Machine.execCas g b a d s
  | .ldlB im r => Sys2Proof.Machine.execLdlB im r s
  | .ldlH im r => Sys2Proof.Machine.execLdlH im r s
  | .ldlW im r => Sys2Proof.Machine.execLdlW im r s
  | .ldl im r => Sys2Proof.Machine.execLdl im r s
  | .ldlSb im r => Sys2Proof.Machine.execLdlSb im r s
  | .ldlSh im r => Sys2Proof.Machine.execLdlSh im r s
  | .ldlSw im r => Sys2Proof.Machine.execLdlSw im r s
  | .stlB im r => Sys2Proof.Machine.execStlB im r s
  | .stlH im r => Sys2Proof.Machine.execStlH im r s
  | .stlW im r => Sys2Proof.Machine.execStlW im r s
  | .stl im r => Sys2Proof.Machine.execStl im r s
  | .fence u sc => Sys2Proof.Machine.execFence u sc s
  | .pbr o t => Sys2Proof.Machine.execPbr o t s
  | .pbrx a g t => Sys2Proof.Machine.execPbrx a g t s
  | .br g t => Sys2Proof.Machine.execBr g t s
  | .brl g t => Sys2Proof.Machine.execBrl g t s
  | .sloop e a => Sys2Proof.Machine.execSloop e a s
  | .snext t => Sys2Proof.Machine.execSnext t s
  | .div g b a d => Sys2Proof.Machine.execDiv g b a d s
  | .divu g b a d => Sys2Proof.Machine.execDivu g b a d s
  | .rem g b a d => Sys2Proof.Machine.execRem g b a d s
  | .remu g b a d => Sys2Proof.Machine.execRemu g b a d s
  | .mfs sc d => Sys2Proof.Machine.execMfs sc d s
  | .mts sc a => Sys2Proof.Machine.execMts sc a s
  | .barArrive sc im => Sys2Proof.Machine.execBarArrive sc im s
  | .barWait sc im => Sys2Proof.Machine.execBarWait sc im s
  | .barAw sc im => Sys2Proof.Machine.execBarAw sc im s
  | .twait p a => Sys2Proof.Machine.execTwait p a s
  | .waitm a d => Sys2Proof.Machine.execWaitm a d s
  | .qwait sc => Sys2Proof.Machine.execQwait sc s
  | .signal a => Sys2Proof.Machine.execSignal a s
  | .push g a => Sys2Proof.Machine.execPush g a s
  | .pop g t => Sys2Proof.Machine.execPop g t s
  | .trypopToken g p t => Sys2Proof.Machine.execTrypopToken g p t s
  | .setup g b a => Sys2Proof.Machine.execSetup g b a s
  | .oclaim im d => Sys2Proof.Machine.execOclaim im d s
  | .orelease im => Sys2Proof.Machine.execOrelease im s
  | .send g b a => Sys2Proof.Machine.execSend g b a s
  | .hret g => Sys2Proof.Machine.execHret g s
  | .trap c => Sys2Proof.Machine.execTrap c s
  | .waypt im => Sys2Proof.Machine.execWaypt im s
  | .evac a d => Sys2Proof.Machine.execEvac a d s
  | .mrepair a d => Sys2Proof.Machine.execMrepair a d s
  | .launch g b a d => Sys2Proof.Machine.execLaunch g b a d s
  | .ckpt a => Sys2Proof.Machine.execCkpt a s
  | .cld e => Sys2Proof.Machine.execCld e s
  | .cst e => Sys2Proof.Machine.execCst e s
  | .csta e => Sys2Proof.Machine.execCsta e s
  | .cchn e head last => Sys2Proof.Machine.execCchn e head last s
  | .cslc e => Sys2Proof.Machine.execCslc e s
  | .covl e => Sys2Proof.Machine.execCovl e s
  | .cmig e big => Sys2Proof.Machine.execCmig e big s
  | .cinv e all => Sys2Proof.Machine.execCinv e all s
  | .mma e tb fmt => Sys2Proof.Machine.execMma e tb fmt s
  | .mmas e tb fmt => Sys2Proof.Machine.execMmas e tb fmt s
  | .mrot e => Sys2Proof.Machine.execMrot e s
  | .mdrn e => Sys2Proof.Machine.execMdrn e s
  | .mclr e => Sys2Proof.Machine.execMclr e s
  | .msgn e => Sys2Proof.Machine.execMsgn e s
  | .wmax e => Sys2Proof.Machine.execWmax e s
  | .wexs e => Sys2Proof.Machine.execWexs e s
  | .wscl e => Sys2Proof.Machine.execWscl e s
  | .wmom e => Sys2Proof.Machine.execWmom e s
  | .wapl e => Sys2Proof.Machine.execWapl e s
  | .ldv n r b q => Sys2Proof.Machine.execLdv n r b q s
  | .stv n r b q => Sys2Proof.Machine.execStv n r b q s
  | .ldg n r b q => Sys2Proof.Machine.execLdg n r b q s
  | .stsc n r b q => Sys2Proof.Machine.execStsc n r b q s
  | .amovAdd n r b q => Sys2Proof.Machine.execAmovAdd n r b q s
  | .amovMax n r b q => Sys2Proof.Machine.execAmovMax n r b q s
  | .pref im a => Sys2Proof.Machine.execPref im a s
  | .tlbp a d => Sys2Proof.Machine.execTlbp a d s
  | .vadd g b a d => Sys2Proof.Machine.execVadd g b a d s
  | .vsub g b a d => Sys2Proof.Machine.execVsub g b a d s
  | .vmul g b a d => Sys2Proof.Machine.execVmul g b a d s
  | .vmin g b a d => Sys2Proof.Machine.execVmin g b a d s
  | .vmax g b a d => Sys2Proof.Machine.execVmax g b a d s
  | .vabs g a d => Sys2Proof.Machine.execVabs g a d s
  | .vneg g a d => Sys2Proof.Machine.execVneg g a d s
  | .vmov g a d => Sys2Proof.Machine.execVmov g a d s
  | .vfma g c b a d => Sys2Proof.Machine.execVfma g c b a d s
  | .vfms g c b a d => Sys2Proof.Machine.execVfms g c b a d s
  | .vfnma g c b a d => Sys2Proof.Machine.execVfnma g c b a d s
  | .vfnms g c b a d => Sys2Proof.Machine.execVfnms g c b a d s
  | .vrcp g a d => Sys2Proof.Machine.execVrcp g a d s
  | .vrsq g a d => Sys2Proof.Machine.execVrsq g a d s
  | .vsqrt g a d => Sys2Proof.Machine.execVsqrt g a d s
  | .vexp2 g a d => Sys2Proof.Machine.execVexp2 g a d s
  | .vlog2 g a d => Sys2Proof.Machine.execVlog2 g a d s
  | .vsin g a d => Sys2Proof.Machine.execVsin g a d s
  | .vcos g a d => Sys2Proof.Machine.execVcos g a d s
  | .vtanh g a d => Sys2Proof.Machine.execVtanh g a d s
  | .viadd g b a d => Sys2Proof.Machine.execViadd g b a d s
  | .visub g b a d => Sys2Proof.Machine.execVisub g b a d s
  | .vimul g b a d => Sys2Proof.Machine.execVimul g b a d s
  | .vand g b a d => Sys2Proof.Machine.execVand g b a d s
  | .vor g b a d => Sys2Proof.Machine.execVor g b a d s
  | .vxor g b a d => Sys2Proof.Machine.execVxor g b a d s
  | .vshl g b a d => Sys2Proof.Machine.execVshl g b a d s
  | .vshr g b a d => Sys2Proof.Machine.execVshr g b a d s
  | .vsar g b a d => Sys2Proof.Machine.execVsar g b a d s
  | .vimin g b a d => Sys2Proof.Machine.execVimin g b a d s
  | .vimax g b a d => Sys2Proof.Machine.execVimax g b a d s
  | .vcmpEq n b a p => Sys2Proof.Machine.execVcmpEq n b a p s
  | .vcmpNe n b a p => Sys2Proof.Machine.execVcmpNe n b a p s
  | .vcmpLt n b a p => Sys2Proof.Machine.execVcmpLt n b a p s
  | .vcmpLe n b a p => Sys2Proof.Machine.execVcmpLe n b a p s
  | .vcmpGt n b a p => Sys2Proof.Machine.execVcmpGt n b a p s
  | .vcmpGe n b a p => Sys2Proof.Machine.execVcmpGe n b a p s
  | .vcmpOrd n b a p => Sys2Proof.Machine.execVcmpOrd n b a p s
  | .vcmpUno n b a p => Sys2Proof.Machine.execVcmpUno n b a p s
  | .vcmpIeq n b a p => Sys2Proof.Machine.execVcmpIeq n b a p s
  | .vcmpIlt n b a p => Sys2Proof.Machine.execVcmpIlt n b a p s
  | .vcmpIltu n b a p => Sys2Proof.Machine.execVcmpIltu n b a p s
  | .vsel k b a d => Sys2Proof.Machine.execVsel k b a d s
  | .vcvtI32 g a d => Sys2Proof.Machine.execVcvtI32 g a d s
  | .vcvtF32 g a d => Sys2Proof.Machine.execVcvtF32 g a d s
  | .vrndBf16 g a d => Sys2Proof.Machine.execVrndBf16 g a d s
  | .vrndT8 g a d => Sys2Proof.Machine.execVrndT8 g a d s
  | .vrndT6 g a d => Sys2Proof.Machine.execVrndT6 g a d s
  | .vrotr k a d => Sys2Proof.Machine.execVrotr k a d s
  | .vrotc k a d => Sys2Proof.Machine.execVrotc k a d s
  | .vbcr k a d => Sys2Proof.Machine.execVbcr k a d s
  | .vbcc k a d => Sys2Proof.Machine.execVbcc k a d s
  | .vtrn16 a d => Sys2Proof.Machine.execVtrn16 a d s
  | .vredrSum a d => Sys2Proof.Machine.execVredrSum a d s
  | .vredrMax a d => Sys2Proof.Machine.execVredrMax a d s
  | .vredrMin a d => Sys2Proof.Machine.execVredrMin a d s
  | .vredcSum a d => Sys2Proof.Machine.execVredcSum a d s
  | .vredcMax a d => Sys2Proof.Machine.execVredcMax a d s
  | .vredcMin a d => Sys2Proof.Machine.execVredcMin a d s
  | .vli im d => Sys2Proof.Machine.execVli im d s
  | .vpop c r q d => Sys2Proof.Machine.execVpop c r q d s
  | .vpush c r q a => Sys2Proof.Machine.execVpush c r q a s
  | .vtos j r a => Sys2Proof.Machine.execVtos j r a s
  | .vfrs h d => Sys2Proof.Machine.execVfrs h d s
  | .vldl o d => Sys2Proof.Machine.execVldl o d s
  | .vstl o a => Sys2Proof.Machine.execVstl o a s
  | .vSloop e => Sys2Proof.Machine.execVSloop e s
  | .dadd b a d => Sys2Proof.Machine.execDadd b a d s
  | .dsub b a d => Sys2Proof.Machine.execDsub b a d s
  | .dmul b a d => Sys2Proof.Machine.execDmul b a d s
  | .dmix b a d => Sys2Proof.Machine.execDmix b a d s
  | .dmuls b a d => Sys2Proof.Machine.execDmuls b a d s
  | .dadds b a d => Sys2Proof.Machine.execDadds b a d s
  | .dmaxs b a d => Sys2Proof.Machine.execDmaxs b a d s
  | .dmapExp2 a d => Sys2Proof.Machine.execDmapExp2 a d s
  | .dmapLog2 a d => Sys2Proof.Machine.execDmapLog2 a d s
  | .dmapTanh a d => Sys2Proof.Machine.execDmapTanh a d s
  | .dmapSigmoid a d => Sys2Proof.Machine.execDmapSigmoid a d s
  | .dpt r a d => Sys2Proof.Machine.execDpt r a d s
  | .dgauss r a d => Sys2Proof.Machine.execDgauss r a d s
  | .dpop q d => Sys2Proof.Machine.execDpop q d s
  | .dpush q a => Sys2Proof.Machine.execDpush q a s
  | .dmom k r a d => Sys2Proof.Machine.execDmom k r a d s
  | .dqnt r a d => Sys2Proof.Machine.execDqnt r a d s
  | .dtag im d => Sys2Proof.Machine.execDtag im d s
  | .dlin im d => Sys2Proof.Machine.execDlin im d s
  | .dflg im => Sys2Proof.Machine.execDflg im s
  | .dflgRd im => Sys2Proof.Machine.execDflgRd im s
  | .stall n => Sys2Proof.Machine.execStall n s
  | .mvh a d => Sys2Proof.Machine.execMvh a d s
  | .addih im d => Sys2Proof.Machine.execAddih im d s
  | .brh g t => Sys2Proof.Machine.execBrh g t s
  | .rte => Sys2Proof.Machine.execRte s
  | .rteSkip => Sys2Proof.Machine.execRteSkip s
  | .retire => Sys2Proof.Machine.execRetire s
  | .blockFetch => Sys2Proof.Machine.execBlockFetch s
  | .stallEnd => Sys2Proof.Machine.execStallEnd s
  | .resultLand => Sys2Proof.Machine.execResultLand s
  | .interlockedResultArrival => Sys2Proof.Machine.execInterlockedResultArrival s
  | .granuleDataArrival => Sys2Proof.Machine.execGranuleDataArrival s
  | .twaitExpiry => Sys2Proof.Machine.execTwaitExpiry s
  | .waitmWake => Sys2Proof.Machine.execWaitmWake s
  | .qwaitComplete => Sys2Proof.Machine.execQwaitComplete s
  | .barrierRelease => Sys2Proof.Machine.execBarrierRelease s
  | .combiningEntrySend => Sys2Proof.Machine.execCombiningEntrySend s
  | .combiningEntryInject => Sys2Proof.Machine.execCombiningEntryInject s
  | .slotInject => Sys2Proof.Machine.execSlotInject s
  | .slotHopArrival => Sys2Proof.Machine.execSlotHopArrival s
  | .hopAcknowledge => Sys2Proof.Machine.execHopAcknowledge s
  | .hopRetransmit => Sys2Proof.Machine.execHopRetransmit s
  | .retryExhausted => Sys2Proof.Machine.execRetryExhausted s
  | .hopRetrained => Sys2Proof.Machine.execHopRetrained s
  | .returnedSlotReinject => Sys2Proof.Machine.execReturnedSlotReinject s
  | .timetabledSlotArrival => Sys2Proof.Machine.execTimetabledSlotArrival s
  | .landingBufferDrain => Sys2Proof.Machine.execLandingBufferDrain s
  | .trunkGroupArrival => Sys2Proof.Machine.execTrunkGroupArrival s
  | .linkOutOfLock => Sys2Proof.Machine.execLinkOutOfLock s
  | .laneFailure => Sys2Proof.Machine.execLaneFailure s
  | .linkBringUp => Sys2Proof.Machine.execLinkBringUp s
  | .mirrorAcceptance => Sys2Proof.Machine.execMirrorAcceptance s
  | .resetNoticeArrival => Sys2Proof.Machine.execResetNoticeArrival s
  | .activeMessageArrival => Sys2Proof.Machine.execActiveMessageArrival s
  | .postedWriteArrival => Sys2Proof.Machine.execPostedWriteArrival s
  | .remoteReadRequest => Sys2Proof.Machine.execRemoteReadRequest s
  | .remoteReadReply => Sys2Proof.Machine.execRemoteReadReply s
  | .remoteAtomicRequest => Sys2Proof.Machine.execRemoteAtomicRequest s
  | .remoteAtomicReply => Sys2Proof.Machine.execRemoteAtomicReply s
  | .migrationDataArrival => Sys2Proof.Machine.execMigrationDataArrival s
  | .lossNoticeArrival => Sys2Proof.Machine.execLossNoticeArrival s
  | .creditReturn => Sys2Proof.Machine.execCreditReturn s
  | .moduleWaveBegin => Sys2Proof.Machine.execModuleWaveBegin s
  | .podWaveBegin => Sys2Proof.Machine.execPodWaveBegin s
  | .podWavePart => Sys2Proof.Machine.execPodWavePart s
  | .musterSlotMerge => Sys2Proof.Machine.execMusterSlotMerge s
  | .musterRollReturn => Sys2Proof.Machine.execMusterRollReturn s
  | .jobOpenNotice => Sys2Proof.Machine.execJobOpenNotice s
  | .jobCloseNotice => Sys2Proof.Machine.execJobCloseNotice s
  | .jobFreeNotice => Sys2Proof.Machine.execJobFreeNotice s
  | .stationReset => Sys2Proof.Machine.execStationReset s
  | .mrepairArrival => Sys2Proof.Machine.execMrepairArrival s
  | .signalArrival => Sys2Proof.Machine.execSignalArrival s
  | .invalidationMarkerArrival => Sys2Proof.Machine.execInvalidationMarkerArrival s
  | .tlbWalkComplete => Sys2Proof.Machine.execTlbWalkComplete s
  | .pageFault => Sys2Proof.Machine.execPageFault s
  | .fnfresRetry => Sys2Proof.Machine.execFnfresRetry s
  | .fnfresRaisePerm => Sys2Proof.Machine.execFnfresRaisePerm s
  | .fnfresEndPlat => Sys2Proof.Machine.execFnfresEndPlat s
  | .fnfresAnswerNothing => Sys2Proof.Machine.execFnfresAnswerNothing s
  | .bankSwitchComplete => Sys2Proof.Machine.execBankSwitchComplete s
  | .trapDelivery => Sys2Proof.Machine.execTrapDelivery s
  | .trapCapture => Sys2Proof.Machine.execTrapCapture s
  | .handlerStart => Sys2Proof.Machine.execHandlerStart s
  | .rteResume => Sys2Proof.Machine.execRteResume s
  | .latchReinject => Sys2Proof.Machine.execLatchReinject s
  | .timerMatch => Sys2Proof.Machine.execTimerMatch s
  | .promiseMiss => Sys2Proof.Machine.execPromiseMiss s
  | .engineCommandBegin => Sys2Proof.Machine.execEngineCommandBegin s
  | .engineMicroStep => Sys2Proof.Machine.execEngineMicroStep s
  | .engineCommandComplete => Sys2Proof.Machine.execEngineCommandComplete s
  | .eccFreezeBegin => Sys2Proof.Machine.execEccFreezeBegin s
  | .eccFreezeEnd => Sys2Proof.Machine.execEccFreezeEnd s
  | .selfTestEnd => Sys2Proof.Machine.execSelfTestEnd s
  | .uncorrectableErrorConsumed => Sys2Proof.Machine.execUncorrectableErrorConsumed s
  | .memoryUncorrectableError => Sys2Proof.Machine.execMemoryUncorrectableError s
  | .pairSlotCompare => Sys2Proof.Machine.execPairSlotCompare s
  | .pairCompareTimeout => Sys2Proof.Machine.execPairCompareTimeout s
  | .periodicResurvey => Sys2Proof.Machine.execPeriodicResurvey s
  | .resurveyEnd => Sys2Proof.Machine.execResurveyEnd s
  | .surveyChangePost => Sys2Proof.Machine.execSurveyChangePost s
  | .thermalStop => Sys2Proof.Machine.execThermalStop s
  | .thermalPowerOff => Sys2Proof.Machine.execThermalPowerOff s
  | .readinessDeadline => Sys2Proof.Machine.execReadinessDeadline s
  | .readinessVerdict => Sys2Proof.Machine.execReadinessVerdict s
  | .verdictTimeout => Sys2Proof.Machine.execVerdictTimeout s
  | .platRelease => Sys2Proof.Machine.execPlatRelease s
  | .priorityAging => Sys2Proof.Machine.execPriorityAging s
  | .runQuantumExpiry => Sys2Proof.Machine.execRunQuantumExpiry s
  | .forcedStop => Sys2Proof.Machine.execForcedStop s
  | .platResume => Sys2Proof.Machine.execPlatResume s
  | .loaderRequest => Sys2Proof.Machine.execLoaderRequest s
  | .templatePass => Sys2Proof.Machine.execTemplatePass s
  | .profilePass => Sys2Proof.Machine.execProfilePass s
  | .manselWrite => Sys2Proof.Machine.execManselWrite s
  | .jopenWrite => Sys2Proof.Machine.execJopenWrite s
  | .jcloseWrite => Sys2Proof.Machine.execJcloseWrite s
  | .losscntClear => Sys2Proof.Machine.execLosscntClear s
  | .mirentWrite => Sys2Proof.Machine.execMirentWrite s
  | .plostClear => Sys2Proof.Machine.execPlostClear s
  | .hsemAcquire => Sys2Proof.Machine.execHsemAcquire s
  | .hsemRelease => Sys2Proof.Machine.execHsemRelease s
  | .fnctlRst => Sys2Proof.Machine.execFnctlRst s
  | .functionResetComplete => Sys2Proof.Machine.execFunctionResetComplete s
  | .fnctlGo => Sys2Proof.Machine.execFnctlGo s
  | .fnctlEn => Sys2Proof.Machine.execFnctlEn s
  | .fnjobsWrite => Sys2Proof.Machine.execFnjobsWrite s
  | .feataccWrite => Sys2Proof.Machine.execFeataccWrite s
  | .featmaskWrite => Sys2Proof.Machine.execFeatmaskWrite s
  | .fnnotifyWrite => Sys2Proof.Machine.execFnnotifyWrite s
  | .fnerrclrWrite => Sys2Proof.Machine.execFnerrclrWrite s
  | .attctlRequest => Sys2Proof.Machine.execAttctlRequest s
  | .attestReportReady => Sys2Proof.Machine.execAttestReportReady s
  | .dbgreqRequest => Sys2Proof.Machine.execDbgreqRequest s
  | .dbgreqWithdraw => Sys2Proof.Machine.execDbgreqWithdraw s
  | .registerWrite => Sys2Proof.Machine.execRegisterWrite s
  | .hostBar2Write => Sys2Proof.Machine.execHostBar2Write s
  | .hostBar2Read => Sys2Proof.Machine.execHostBar2Read s
  | .hostConfigRequest => Sys2Proof.Machine.execHostConfigRequest s
  | .portReset => Sys2Proof.Machine.execPortReset s
  | .powerOn => Sys2Proof.Machine.execPowerOn s
  | .dhcpv6Timeout => Sys2Proof.Machine.execDhcpv6Timeout s
  | .imageFetchComplete => Sys2Proof.Machine.execImageFetchComplete s
  | .firmwareUpdate => Sys2Proof.Machine.execFirmwareUpdate s
  | .moduleReset => Sys2Proof.Machine.execModuleReset s
  | .ptimeSync => Sys2Proof.Machine.execPtimeSync s
  | .mrepairNoAnswer => Sys2Proof.Machine.execMrepairNoAnswer s
  | .hostPortTrained => Sys2Proof.Machine.execHostPortTrained s

end Sys2Proof.Machine
end

