-- ==== Sys2Proof/Machine/Turn.lean ====
section
/-! DEFINITION. One step of the machine: an event that is due, the check of a context for a cause, the fetch or the issue of a stream, or
the next clk (log 7; 05 R142; 12 R284 to R289). -/

namespace Sys2Proof.Machine

/-! ## The word at a stream's position -/

/-- What stands at the position of the stream in focus: a word and its halfwords, or the precise cause that its fetch raises (07 R165;
12 R284; 13 R300). -/
inductive Fetched where
  | word (i : Instr) (halves : Nat)
  | bad (cause : Nat) (tval : Word)
deriving DecidableEq, Repr

/-- The halfwords of the word at the position: 1, or 2 where bit 0 is 1 (13 R300). -/
def State.halvesHere (s : State) : Nat := if s.firstHalf.getLsbD 0 then 2 else 1

/-- The first halfword of the word in focus that lies outside the loaded regions (05 R130). -/
def State.absentHalf (s : State) : Option Nat :=
  let gone (h : Nat) : Bool := !s.fcore.loaded s.foc.ctx.bank s.foc.st h 1
  if gone s.fstrm.pc then some s.fstrm.pc
  else if s.halvesHere == 2 && gone (s.fstrm.pc + 1) then some (s.fstrm.pc + 1)
  else none

/-- The word in focus decoded (13 R300). -/
def State.decodeHere (s : State) : Except Illegal Instr :=
  let k := kindOf s.foc.ctx.core
  let st := s.foc.st
  if s.firstHalf.getLsbD 0 then decode32 k st (s.fcore.word st s.fstrm.pc) else decode16 k st s.firstHalf

def State.fetchWord (s : State) : Fetched :=
  let y := s.fstrm
  match s.absentHalf with
  | some h => .bad cABSENT (BitVec.ofNat 64 h)
  | none =>
    if y.blk + 4 + y.len < y.pc + s.halvesHere then .bad cILLEGAL (s.firstHalf.setWidth 64)
    else
      match s.decodeHere with
      | .ok i => .word i s.halvesHere
      | .error _ => .bad cILLEGAL (s.firstHalf.setWidth 64)

/-! ## What a stream does in a clk -/

/-- The code charged to a stream that does not issue for a reason of its core or context (05 R142); none when it may issue. A context
that a forced stop holds, or that waits for its bank, is charged 0x44 while its bank is active (log 83). -/
def State.heldCode (s : State) (i : StreamId) : Option Nat :=
  let x := s.ctx i.ctx
  if s.frozen i.ctx.core then some 0x40
  else if !s.bankActive i.ctx then some 0x41
  else
    match x.phase with
    | .running =>
      let y := x.strm i.st
      if i.st != .c && !x.normal then some 0x43
      else if !y.live then some 0x3F
      else if i.st != .c && y.atHeader && (x.avHeld i.st || (x.stopReq && x.atWay.isSome && decide (x.stopNo ≤ x.ways))) then some 0x44
      else none
    | .atWaypoint => some 0x44
    | .faulted => some 0x44
    | .forced => some 0x44
    | .ready => some 0x44
    | _ => some 0x43

/-- The code of a wait that an event ends (05 R142). -/
def Hold.code : Hold → Option Nat
  | .no => none
  | .cycle _ _ _ => some 0x38
  | .promise _ _ => some 0x38
  | .memory _ => some 0x3B
  | .quiet => some 0x3A
  | .barrier _ _ => some 0x39
  | .passed => none

/-- Whether the word of a wait has issued (14 R336, R338). -/
def Hold.hasIssued : Hold → Bool
  | .cycle _ _ _ => true
  | .promise _ _ => true
  | .barrier _ _ => true
  | _ => false

/-- What the stream in focus has to do in this clk. -/
inductive Act where
  /-- Charge a code and go on in the next clk. -/
  | charge (code : Nat)
  | stallClk
  | bubbleClk
  | header
  | word
deriving DecidableEq, Repr

def State.act (s : State) (i : StreamId) : Act :=
  match s.heldCode i with
  | some code => .charge code
  | none =>
    let y := s.strm i
    if 0 < y.stall then .stallClk
    else if 0 < y.bubble then .bubbleClk
    else match y.hold.code with
      | some code => .charge code
      | none =>
        -- a foreground logic test stops the core's streams (04 R98, R106; the code is log 83)
        if s.clk < (s.core i.ctx.core).test then .charge 0x43
        else if y.atHeader then .header else .word

/-- Words after which A and V stay stopped as an EVAC left them (14 R351). -/
def keepsHold : Instr → Bool
  | .evac _ _ => true
  | .retire => true
  | .ckpt _ => true
  | _ => false

/-- The C stream has issued a word other than EVAC, CKPT and RETIRE: A and V go on (14 R351). -/
def State.afterWord (s : State) (i : Instr) : State :=
  if s.foc.st = .c && s.fctx.avHold && !keepsHold i && (!s.fstrm.waiting || s.fstrm.hold.hasIssued) && s.fctx.phase == .running then
    s.modF (fun x => { x with avHold := false })
  else s

/-- The next state, changed. -/
def mapNext (f : State → State) : Host.Outcome State Fault Refusal → Host.Outcome State Fault Refusal
  | .next s => .next (f s)
  | .fault r => .fault r
  | .refused r => .refused r

/-- The word at the position of the stream in focus run. -/
def runFetched (s : State) : Host.Outcome State Fault Refusal :=
  match s.fetchWord with
  | .bad c t => .next (s.raise c t)
  | .word i _ => mapNext (fun t => t.afterWord i) (exec i s)

/-- The state with stream `j` past the header at which it still stands, where stream `i` of the other member has passed it in this clk: the header
takes none (07 R180). -/
def State.pastHeader (s : State) (i j : StreamId) : State :=
  if (s.strm j).atHeader && !(s.strm i).atHeader && s.act j == .header then
    match exec .blockFetch { s with foc := j } with
    | .next u => { u with foc := s.foc }
    | _ => s
  else s

/-- Whether a stream of a redundant pair is held because the same stream of the other member, at the same word, is held or would wait
(04 R102). A word that issues and begins a wait (14 R336, R338) does so in both. -/
def State.pairHeld (s : State) (i : StreamId) : Bool :=
  match s.partner i.ctx with
  | none => false
  | some d =>
    let j : StreamId := ⟨d, i.st⟩
    let s := s.pastHeader i j
    let (y, z) := (s.strm i, s.strm j)
    if y.pc == z.pc && y.reps == z.reps && y.atHeader == z.atHeader && y.hold == z.hold then
      match s.act j with
      | .charge _ => true
      | .word =>
        (match runFetched { s with foc := j } with
        | .next u => (u.strm j).waiting && (u.strm j).hold == .no
        | _ => false)
      | _ => false
    else false

/-! ## The check of a context (12 R284 to R287) -/

/-- Whether the state has a trap of the context entered in this clk. -/
def State.entered (s : State) (c : CtxId) : Bool := (s.ctx c).phase == .stopping s.clk

/-- What the word at the position of a stream makes of this clk, the header before it included; none where the stream has no word in it. -/
def State.tried (s : State) (i : StreamId) : Option State :=
  let t := { s with foc := i }
  let word (t : State) : Option State :=
    match runFetched t with
    | .next u => some u
    | _ => none
  match s.act i with
  | .header =>
    (match exec .blockFetch t with
    | .next u => if u.entered i.ctx then some u else word u
    | _ => none)
  | .word => word t
  | _ => none

/-- The check of a context at the start of a clk (12 R287): a page fault of a word of C or A, then CHECK to POISON and TRAP, then precise causes in
the order C, A, V, then the other causes. Both members of a redundant pair enter together. -/
def State.check (s : State) (c : CtxId) : State :=
  if !s.canDeliver c then s
  else
    let c' := s.tried ⟨c, .c⟩
    let a' := s.tried ⟨c, .a⟩
    let fault (u : Option State) : Option State := u.filter (fun u => u.faultDue c)
    let trap (u : Option State) : Option State := u.filter (fun u => u.entered c)
    match (if (s.ctx c).sysTrap.isSome then none else fault c').or (fault a') with
    | some u => u
    | none =>
      if (s.pendingCause c causesFirst).isSome || (s.ctx c).sysTrap.isSome then s.postNow (.trapDelivery c)
      else
        match ((trap c').or (trap a')).or (trap (s.tried ⟨c, .v⟩)) with
        | some u =>
          (match s.partner c, (u.ctx c).entry with
          | some d, some e => if (u.ctx d).phase = .running then u.stopAt d u.clk e else u
          | _, _ => u)
        | none => if (s.pendingCause c causesLast).isSome then s.postNow (.trapDelivery c) else s

/-! ## The next clk -/

/-- The cores whose engines or landing buffers may have work. -/
def State.busyCores (s : State) : List Nat :=
  ((s.ctxs.map (fun (e : Nat × Ctx) => e.1 / 2)) ++ ((s.cores.filter (fun (e : Nat × CoreSt) => !e.2.landing.isEmpty || !e.2.inbound.isEmpty)).map Prod.fst) ++
    s.dies.flatMap (fun (e : Nat × DieSt) => e.2.plats.flatMap (fun p => p.loads.map Load.core))).eraseDups

/-- The cores on which a context can issue in this clk note it (05 R138). -/
def State.markBusy (s : State) : State :=
  (s.residents.filter (fun c => (s.ctx c).issues && decide (scoreOf c.core < 8))).foldl (fun t c => t.modCore c.core (fun k => { k with busyAt := t.clk })) s

/-- The next clk begins: what is due at its start, the engines, and the turns of every resident context. V stands before A and A before
C (log 7). -/
def State.tick (s : State) : State :=
  let s : State := { s with clk := s.clk + 1, cores := s.cores.map (fun (e : Nat × CoreSt) => (e.1, if e.2.portW.isEmpty then e.2 else e.2.settle (s.clk + 1))) }
  let s : State := { s with ctxs := s.ctxs.map (fun (e : Nat × Ctx) => (e.1, (e.2.dflgDue s.clk).countsAt)) }
  let s := s.markBusy.groupsTick.nearTick.schedTick.sendsTick.arrivalsTick
  let s := (s.busyCores.foldl (fun t k => if t.frozen k then t else t.enginesTick k) s).apTick
  { s with turn := s.residents.flatMap (fun c => [.probe c, .issue ⟨c, .v⟩, .issue ⟨c, .a⟩, .issue ⟨c, .c⟩]) }

/-! ## One step -/

/-- What is left of the clk goes on, or the next begins. -/
def turnStep (s : State) : Host.Outcome State Fault Refusal :=
  match s.turn with
  | [] => .next s.tick
  | .probe c :: rest => .next (({ s with turn := rest }.arrivalsDone c.core (fun d => d == c)).check c)
  | .issue i :: rest =>
    let t := { s with turn := rest, foc := i }
    if !(s.ctx i.ctx).resident then .next { s with turn := rest }
    else
      match s.act i with
      | .charge code => .next (t.charge i code)
      | .stallClk =>
        let t := (t.charge i 0x01).modFs (fun y => { y with stall := y.stall - 1 })
        .next (if t.fstrm.stall = 0 then t.post (t.clk + 1) (.stallEnd i) else t)
      | .bubbleClk => .next ((t.charge i 0x02).modFs (fun y => { y with bubble := y.bubble - 1 }))
      | .header => if s.pairHeld i then .next (t.charge i 0x03) else exec .blockFetch { s with foc := i }
      | .word => if s.pairHeld i then .next (t.charge i 0x03) else runFetched t

/-- An event that is due, or else the turn. -/
def stepOnce (s : State) : Host.Outcome State Fault Refusal :=
  match s.agenda with
  | (due, e) :: rest => if due ≤ s.clk then exec e.instr { s with agenda := rest, cur := some e } else turnStep s
  | [] => turnStep s

/-! ## The next instruction placed (log 7, log 9) -/

/-- A context bank of a core ready to issue one stream at a word: `n` halfwords at halfword `h`. -/
def Ctx.placed (x : Ctx) (st : Stream) (n : Nat) : Ctx :=
  let y := x.strm st
  let y := if y.atHeader then { y with blk := y.pc % 65532, pc := y.pc % 65532 + 4, len := n }
           else { y with len := Nat.max y.len (y.pc + n) }
  let y := { y with atHeader := false, live := true, stall := 0, bubble := 0, hold := .no }
  { x.putStrm st y with resident := true, phase := .running, trapc := if st = .c then x.trapc else withField x.trapc 44 2 0 }

/-- A core whose bank issues, with bytes at a halfword of a scratchpad inside a loaded region. -/
def CoreSt.placed (k : CoreSt) (bank : Nat) (st : Stream) (h : Nat) (bs : List Byte) : CoreSt :=
  let k := match st with
    | .c => { k with padC := Memory.writeN k.padC (2 * h) bs }
    | .a => { k with padA := Memory.writeN k.padA (2 * h) bs }
    | .v => { k with padV := Memory.writeN k.padV (2 * h) bs }
  { k with active := bank, switching := none, freeze := none, regions := ⟨bank, st, 0, 65535, false⟩ :: k.regions }

/-- The word placed where the next step takes it: context bank 0 of core 0, on the stream that decodes it, with nothing due and that
stream alone in turn. -/
def State.place (s : State) (bs : List Byte) : State :=
  let st := streamOfWord bs
  let c : CtxId := ⟨0, 0⟩
  let x := (s.ctx c).placed st (bs.length / 2)
  let s := (s.putCtx c x).modCore 0 (fun k => k.placed 0 st (x.strm st).pc bs)
  { s with agenda := [], turn := [.issue ⟨c, st⟩] }

end Sys2Proof.Machine
end

