-- ==== Sys2Proof/Machine/Step.lean ====
section
/-! DEFINITION. The step function of the pod, and a state whose next step runs a given word. -/

namespace Sys2Proof.Machine

/-- One step (log 7). -/
def step : State → Host.Outcome State Fault Refusal := stepOnce

/-- The state with a word of the opcode table where `step` takes its next instruction (log 9; the log also says how programs
come to run). -/
def State.withFetchWord (s : State) (_nbits w : Nat) : State := s.place (tableBytes w)

end Sys2Proof.Machine
end

