-- ==== Sys2Proof/Safety.lean ====
section
/-! DEFINITION. The terms in which claims are stated: runs that go on, words that issue, and what a word leaves unchanged. -/

namespace Sys2Proof

/-- The machine goes on from a state: its step is neither a fault nor a refusal. -/
def Machine.State.GoesOn (s : Machine.State) : Prop := ∃ t, Machine.step s = .next t

/-- A run of `n` steps goes on throughout. -/
def SafeFor (n : Nat) (s : Machine.State) : Prop := ∃ t, core.run n s = .next t

namespace Machine

/-! ## Words that issue -/

/-- The word in focus issues in this clk (12 R284 checks 3 to 5; 13 R304; 07 R181, R183): its feature is in force, its mode allows it, its
guard is no pending write of either kind and lets it take effect, no interlocked register that it names is outstanding, no fixed-latency hazard
stands, and no fault of it waits for a PERM. -/
structure State.Ready (s : State) (n : Need) : Prop where
  feature : ∀ f, n.feature = some f → s.fctx.hasFeature f = true
  allowed : n.priv = false
  guardFree : readHazard s.foc.st s.fstrm s.clk (codeP n.guard.p.toNat) = none
  guardCome : s.fstrm.interBusy (physCode s.foc.st s.fstrm.swin.toNat (codeP n.guard.p.toNat)) = false
  holds : s.guardHolds n.guard = true
  free : interlockWait s.foc.st s.fstrm n = false
  clear : hazard s.foc.st s.fstrm s.clk n = none
  answered : s.verdictPerm = none

/-! ## Frames -/

/-- The parts of the machine outside its context banks are unchanged: memory and every core, die, station and module, barriers, the
pod and the clock. -/
structure State.SameOutside (s t : State) : Prop where
  clk : t.clk = s.clk
  turn : t.turn = s.turn
  foc : t.foc = s.foc
  cur : t.cur = s.cur
  cores : t.cores = s.cores
  dies : t.dies = s.dies
  stations : t.stations = s.stations
  modules : t.modules = s.modules
  mem : t.mem = s.mem
  bars : t.bars = s.bars
  pod : t.pod = s.pod

/-- Every context bank but the one in focus is unchanged. -/
def State.SameOthers (s t : State) : Prop :=
  ∀ c : CtxId, 2 * c.core + c.bank ≠ 2 * s.foc.ctx.core + s.foc.ctx.bank → t.ctx c = s.ctx c

/-- The architectural registers of a stream are unchanged but those whose code (12 R440, physical numbers) `keep` names: scalar or A
registers, predicates, branch registers and the loop registers. -/
structure StreamSt.SameRegs (y z : StreamSt) (keep : Nat → Bool) : Prop where
  regs : ∀ n, keep n = false → z.reg n = y.reg n
  preds : ∀ n, keep (codeP n) = false → Sp.get false z.preds n = Sp.get false y.preds n
  branches : ∀ b, keep (codeB b) = false → z.branch b = y.branch b
  loops : z.swin = y.swin ∧ z.tripc = y.tripc ∧ z.tailc = y.tailc

/-- Every field of a context but its streams, its stall counters, the entry of a trap and the TRAP that it comes before is unchanged: special and exception registers,
queues, tokens, the vector file, scratchpads of spills, the frame store. -/
def Ctx.SameState (x y : Ctx) : Prop :=
  y = { x with c := y.c, a := y.a, v := y.v, stcnt := y.stcnt, phase := y.phase, entry := y.entry, permAt := y.permAt, sysTrap := y.sysTrap }

/-- What a word of a stream leaves unchanged when it writes the registers that `keep` names and nothing else. -/
structure State.RegFrame (s t : State) (keep : Nat → Bool) : Prop where
  outside : s.SameOutside t
  others : s.SameOthers t
  state : s.fctx.SameState t.fctx
  streams : ∀ st, st ≠ s.foc.st → (s.fctx.strm st).SameRegs (t.fctx.strm st) (fun _ => false)
  regs : s.fstrm.SameRegs t.fstrm keep

/-- The registers that a result for register `code` of the stream in focus may change. -/
def State.only (s : State) (codes : List Nat) : Nat → Bool := fun c => codes.any (fun d => c == physCode s.foc.st s.fstrm.swin.toNat d)

end Machine
end Sys2Proof
end

