-- ==== Sys2Proof/Certificates/Slice0/Obligations.lean ====
section
/-! DEFINITION. The statements about the machine. -/

open Sys2Proof Sys2Proof.Machine


/-! ## Control and access streams: registers (13 R307; 14 R318 to R324, R331 to R333; 07 R162, R167, R180) -/

/-- The words of major 0x00 and the register forms of major 0x03 compute as 14 R318 and R321 say and take 1 clk, MUL and MULHU 3. -/
def Obligations.ScalarRegisterResults : Prop :=
  ∀ (s : State) (g : Guard) (b a d : BitVec 5),
    let x := s.rd a
    let y := s.rd b
    (s.Ready { guard := g, srcs := [a.toNat, b.toNat], dsts := [(d.toNat, 1)] } →
      let one (i : Instr) (v : Word) : Prop := exec i s = .next ((s.resWord d.toNat 1 v).issued 2)
      one (.add g b a d) (x + y) ∧ one (.sub g b a d) (x - y) ∧ one (.and g b a d) (x &&& y) ∧ one (.or g b a d) (x ||| y) ∧
      one (.xor g b a d) (x ^^^ y) ∧ one (.andn g b a d) (x &&& ~~~y) ∧
      one (.shl g b a d) (x <<< (y.toNat % 64)) ∧ one (.shr g b a d) (x >>> (y.toNat % 64)) ∧
      one (.sar g b a d) (x.sshiftRight (y.toNat % 64)) ∧ one (.rol g b a d) (x.rotateLeft (y.toNat % 64)) ∧
      one (.min g b a d) (if y.toInt < x.toInt then y else x) ∧ one (.max g b a d) (if x.toInt < y.toInt then y else x) ∧
      one (.minu g b a d) (if y.toNat < x.toNat then y else x) ∧ one (.maxu g b a d) (if x.toNat < y.toNat then y else x) ∧
      -- BEXT and BEXTS: o = rb[13:8], wd = min(rb[6:0], 64), cut at bit 63
      (let o := y.toNat / 256 % 64
       let wt := Nat.min (Nat.min (y.toNat % 128) 64) (64 - o)
       one (.bext g b a d) (BitVec.ofNat 64 (x.toNat / 2 ^ o % 2 ^ wt)) ∧
       one (.bexts g b a d) (BitVec.ofInt 64 (sextInt wt (x.toNat / 2 ^ o % 2 ^ wt))))) ∧
    (s.Ready { guard := g, srcs := [a.toNat, b.toNat], dsts := [(d.toNat, 3)] } →
      let three (i : Instr) (v : Word) : Prop := exec i s = .next ((s.resWord d.toNat 3 v).issued 2)
      three (.mul g b a d) (BitVec.ofNat 64 (x.toNat * y.toNat)) ∧
      three (.mulhu g b a d) (BitVec.ofNat 64 (x.toNat * y.toNat / 2 ^ 64))) ∧
    (s.Ready { guard := g, srcs := [a.toNat, b.toNat, d.toNat], dsts := [(d.toNat, 1)] } →
      exec (.bins g b a d) s = .next ((s.resWord d.toNat 1
        (let o := y.toNat / 256 % 64
         withField (s.rd d) o (Nat.min (Nat.min (y.toNat % 128) 64) (64 - o)) x.toNat)).issued 2)) ∧
    (s.Ready { guard := g, srcs := [a.toNat], dsts := [(d.toNat, 1)] } →
      let one (i : Instr) (v : Word) : Prop := exec i s = .next ((s.resWord d.toNat 1 v).issued 2)
      one (.clz g a d) (BitVec.ofNat 64 (((List.range 64).takeWhile (fun i => !x.getLsbD (63 - i))).length)) ∧
      one (.ctz g a d) (BitVec.ofNat 64 (((List.range 64).takeWhile (fun i => !x.getLsbD i)).length)) ∧
      one (.popc g a d) (BitVec.ofNat 64 (((List.range 64).filter (fun i => x.getLsbD i)).length)))

/-- The immediate forms (14 R319 to R321; 13 R307). -/
def Obligations.ScalarImmediateResults : Prop :=
  ∀ (s : State) (m : BitVec 12) (k w o : BitVec 6) (u : BitVec 20) (a d : BitVec 5),
    let x := s.rd a
    let e : Word := m.signExtend 64
    (s.Ready { srcs := [a.toNat], dsts := [(d.toNat, 1)] } →
      let one (i : Instr) (v : Word) : Prop := exec i s = .next ((s.resWord d.toNat 1 v).issued 2)
      one (.addi m a d) (x + e) ∧ one (.andi m a d) (x &&& e) ∧ one (.ori m a d) (x ||| e) ∧ one (.xori m a d) (x ^^^ e) ∧
      one (.shli k a d) (x <<< k.toNat) ∧ one (.shri k a d) (x >>> k.toNat) ∧ one (.sari k a d) (x.sshiftRight k.toNat) ∧
      one (.bexti w o a d)
        (let wt := Nat.min (if w = 0 then 64 else w.toNat) (64 - o.toNat)
         BitVec.ofNat 64 (x.toNat / 2 ^ o.toNat % 2 ^ wt))) ∧
    (s.Ready { srcs := [a.toNat], dsts := [(d.toNat, 3)] } →
      exec (.muli m a d) s = .next ((s.resWord d.toNat 3 (x * e)).issued 2)) ∧
    (s.Ready { srcs := [a.toNat, d.toNat], dsts := [(d.toNat, 1)] } →
      exec (.binsi w o a d) s = .next ((s.resWord d.toNat 1
        (withField (s.rd d) o.toNat (Nat.min (if w = 0 then 64 else w.toNat) (64 - o.toNat)) x.toNat)).issued 2)) ∧
    (s.Ready { dsts := [(d.toNat, 1)] } →
      exec (.lui u d) s = .next ((s.resWord d.toNat 1 (u.signExtend 64 * 4096)).issued 2) ∧
      exec (.auib u d) s = .next ((s.resWord d.toNat 1 (BitVec.ofNat 64 s.fstrm.blk + u.signExtend 64 * 4096)).issued 2)) ∧
    (s.Ready { srcs := [d.toNat], dsts := [(d.toNat, 1)] } →
      exec (.addih k d) s = .next ((s.resWord d.toNat 1 (s.rd d + k.signExtend 64)).issued 1)) ∧
    (s.foc.st ≠ .v → s.Ready { srcs := [a.toNat], dsts := [(d.toNat, 1)] } →
      exec (.mvh a d) s = .next ((s.resWord d.toNat 1 x).issued 1))

/-- CMP, CMPI and predicate logic write pd, xor the negate bit: a predicate of C or A after 1 clk (14 R322, R323), a mask of V after 2 (18 R388); the words of their majors, other FN codes ILLEGAL; a write to p0 is discarded. -/
def Obligations.CompareAndPredicateResults : Prop :=
  (∀ (s : State) (n : Bool) (m : BitVec 11) (b a : BitVec 5) (p : BitVec 6),
       let x := s.rd a
       let y := s.rd b
       let e : Word := m.signExtend 64
       let one (i : Instr) (c : Bool) : Prop := exec i s = .next ((s.resPred p.toNat (c != n)).issued 2)
       (s.Ready { srcs := [a.toNat, b.toNat], dsts := [(codeP p.toNat, 1)] } →
         one (.cmpEq n b a p) (decide (x = y)) ∧ one (.cmpNe n b a p) (decide (x ≠ y)) ∧
         one (.cmpLt n b a p) (decide (x.toInt < y.toInt)) ∧ one (.cmpGe n b a p) (decide (y.toInt ≤ x.toInt)) ∧
         one (.cmpLtu n b a p) (decide (x.toNat < y.toNat)) ∧ one (.cmpGeu n b a p) (decide (y.toNat ≤ x.toNat))) ∧
       (s.Ready { srcs := [a.toNat], dsts := [(codeP p.toNat, 1)] } →
         one (.cmpiEq n m a p) (decide (x = e)) ∧ one (.cmpiNe n m a p) (decide (x ≠ e)) ∧
         one (.cmpiLt n m a p) (decide (x.toInt < e.toInt)) ∧ one (.cmpiGe n m a p) (decide (e.toInt ≤ x.toInt)) ∧
         one (.cmpiLtu n m a p) (decide (x.toNat < e.toNat)) ∧ one (.cmpiGeu n m a p) (decide (e.toNat ≤ x.toNat)))) ∧
  (∀ (s : State) (n : Bool) (b a : BitVec 5) (p : BitVec 6),
       (s.foc.st ≠ .v →
         let one (i : Instr) (c : Bool) : Prop := exec i s = .next ((s.resPred p.toNat (c != n)).issued 2)
         (s.Ready { srcs := [codeP a.toNat, codeP b.toNat], dsts := [(codeP p.toNat, 1)] } →
           one (.pand n b a p) (s.rdP a && s.rdP b) ∧ one (.por n b a p) (s.rdP a || s.rdP b) ∧
           one (.pxor n b a p) (s.rdP a != s.rdP b) ∧ one (.pandn n b a p) (s.rdP a && !s.rdP b)) ∧
         (s.Ready { srcs := [codeP a.toNat], dsts := [(codeP p.toNat, 1)] } →
           one (.pmov n a p) (s.rdP a) ∧ one (.pnot n a p) (!s.rdP a))) ∧
       (s.foc.st = .v →
         let two (i : Instr) (m : Mask) : Prop :=
           exec i s = .next ((s.result (codeP p.toNat) 2 (.mask (if n then ~~~m else m)) maskAll 0 false).issued 2)
         (s.Ready { srcs := [codeP a.toNat, codeP b.toNat], dsts := [(codeP p.toNat, 2)] } →
           two (.pand n b a p) (s.rdM a &&& s.rdM b) ∧ two (.por n b a p) (s.rdM a ||| s.rdM b) ∧
           two (.pxor n b a p) (s.rdM a ^^^ s.rdM b) ∧ two (.pandn n b a p) (s.rdM a &&& ~~~s.rdM b)) ∧
         (s.Ready { srcs := [codeP a.toNat], dsts := [(codeP p.toNat, 2)] } →
           two (.pmov n a p) (s.rdM a) ∧ two (.pnot n a p) (~~~s.rdM a)))) ∧
  (∀ (s : State) (kd : CoreKind) (st : Stream) (n c : Bool) (b a : BitVec 5) (p : BitVec 6) (m : BitVec 11),
       let wp (fn : BitVec 4) (b : BitVec 5) (major : BitVec 5) : BitVec 32 := 0#5 ++ BitVec.ofBool n ++ fn ++ b ++ a ++ p ++ major ++ 1#1
       let wpi (fn : BitVec 3) : BitVec 32 := BitVec.ofBool n ++ fn ++ m ++ a ++ p ++ 0x05#5 ++ 1#1
       (st ≠ .v → p.toNat < 48 →
         (∀ e ∈ [(0#4, Instr.cmpEq n b a p), (1#4, .cmpNe n b a p), (2#4, .cmpLt n b a p), (3#4, .cmpGe n b a p), (4#4, .cmpLtu n b a p),
             (5#4, .cmpGeu n b a p)], decode32 kd st (wp e.1 b 0x04) = .ok e.2) ∧
         (∀ e ∈ [(0#3, Instr.cmpiEq n m a p), (1#3, .cmpiNe n m a p), (2#3, .cmpiLt n m a p), (3#3, .cmpiGe n m a p), (4#3, .cmpiLtu n m a p),
             (5#3, .cmpiGeu n m a p)], decode32 kd st (wpi e.1) = .ok e.2)) ∧
       (st ≠ .v → (∀ fn, 6 ≤ fn.toNat → ∃ e, decode32 kd st (wp fn b 0x04) = .error e) ∧ (∀ fn, 6 ≤ fn.toNat → ∃ e, decode32 kd st (wpi fn) = .error e)) ∧
       ((st = .v → kd = .compute) → p.toNat < 48 →
         (∀ e ∈ [(0#4, b, Instr.pand n b a p), (1#4, b, .por n b a p), (2#4, b, .pxor n b a p), (3#4, b, .pandn n b a p), (4#4, 0#5, .pmov n a p),
             (5#4, 0#5, .pnot n a p)], decode32 kd st (wp e.1 e.2.1 0x06) = .ok e.2.2)) ∧
       (∀ fn, 6 ≤ fn.toNat → ∃ e, decode32 kd st (wp fn b 0x06) = .error e) ∧
       (s.foc.st ≠ .v → s.resPred 0 c = s))

/-- The divides (14 R333): major 0x10, FN 0 to 3; the quotient or remainder, interlocked, after 6 + ceil(k / 2) clk for a quotient of k bits;
a divide whose guard passes waits, charged INTERLOCK, until the stream's previous divide has written its result. -/
def Obligations.DivideResults : Prop :=
  ∀ (s : State) (g : Guard) (b a d : BitVec 5),
    let code (fn : BitVec 4) : BitVec 32 := fn ++ BitVec.ofBool g.neg ++ g.p ++ b ++ a ++ d ++ 0x10#5 ++ 1#1
    (g.p.toNat < 48 → ∀ kd,
      decode32 kd .c (code 0) = .ok (.div g b a d) ∧ decode32 kd .c (code 1) = .ok (.divu g b a d) ∧
      decode32 kd .c (code 2) = .ok (.rem g b a d) ∧ decode32 kd .c (code 3) = .ok (.remu g b a d)) ∧
    (s.Ready { guard := g, srcs := [a.toNat, b.toNat], outs := [d.toNat] } →
      (s.fstrm.pend.any (fun p => s.fstrm.divId == some p.id) = true →
        ∀ i ∈ [Instr.div g b a d, .divu g b a d, .rem g b a d, .remu g b a d], exec i s = .next (s.waits 0x03)) ∧
      (s.fstrm.pend.any (fun p => s.fstrm.divId == some p.id) = false →
        let x := s.rd a
        let y := s.rd b
        let qs : Int := if y = 0 then 0 else x.toInt.tdiv y.toInt
        let qu : Nat := if y = 0 then 0 else x.toNat / y.toNat
        let one (i : Instr) (v : Word) (q : Nat) : Prop :=
          exec i s = .next (((s.interlocked d.toNat (s.clk + (6 + (bitLen q + 1) / 2) - 1) v).modFs
            (fun y => { y with divId := some s.fresh })).issued 2)
        one (.div g b a d) (if y = 0 then BitVec.allOnes 64 else BitVec.ofInt 64 qs) qs.natAbs ∧
        one (.divu g b a d) (if y = 0 then BitVec.allOnes 64 else BitVec.ofNat 64 qu) qu ∧
        one (.rem g b a d) (if y = 0 then x else BitVec.ofInt 64 (x.toInt - y.toInt * qs)) qs.natAbs ∧
        one (.remu g b a d) (if y = 0 then x else BitVec.ofNat 64 (x.toNat % y.toNat)) qu))

/-- Every word with a guard, when its guard is false, issues in its clk, writes nothing, sets no pending write and takes no element (07 R167);
those that a mode, a job or a feature may refuse do so where it lets them (12 R284). -/
def Obligations.FalseGuardIssues : Prop :=
  ∀ (s : State) (g : Guard) (b a d p : BitVec 5) (t : BitVec 3),
    readHazard s.foc.st s.fstrm s.clk (codeP g.p.toNat) = none →
    s.fstrm.interBusy (physCode s.foc.st s.fstrm.swin.toNat (codeP g.p.toNat)) = false → s.guardHolds g = false →
    (∀ i ∈ [Instr.add g b a d, .sub g b a d, .and g b a d, .or g b a d, .xor g b a d, .andn g b a d, .shl g b a d, .shr g b a d,
        .sar g b a d, .rol g b a d, .min g b a d, .max g b a d, .minu g b a d, .maxu g b a d, .mul g b a d, .mulhu g b a d,
        .bext g b a d, .bexts g b a d, .bins g b a d, .clz g a d, .ctz g a d, .popc g a d, .div g b a d, .divu g b a d,
        .rem g b a d, .remu g b a d, .pbrx a g t, .br g t, .brl g t, .amoAdd g b a d, .amoAnd g b a d, .amoOr g b a d, .amoXor g b a d,
        .amoMin g b a d, .amoMax g b a d, .amoMinu g b a d, .amoMaxu g b a d, .amoSwap g b a d, .cas g b a d],
      exec i s = .next (s.issued 2)) ∧
    exec (.brh g t) s = .next (s.issued 1) ∧
    (∀ i ∈ [Instr.vadd g b a d, .vsub g b a d, .vmul g b a d, .vmin g b a d, .vmax g b a d, .vabs g a d, .vneg g a d, .vmov g a d,
        .vrcp g a d, .vrsq g a d, .vsqrt g a d, .vexp2 g a d, .vlog2 g a d, .vsin g a d, .vcos g a d, .vtanh g a d, .viadd g b a d,
        .visub g b a d, .vimul g b a d, .vand g b a d, .vor g b a d, .vxor g b a d, .vshl g b a d, .vshr g b a d, .vsar g b a d,
        .vimin g b a d, .vimax g b a d, .vcvtI32 g a d, .vcvtF32 g a d, .vrndBf16 g a d, .vrndT8 g a d],
      exec i s = .next (s.issued 2)) ∧
    (s.fctx.hasFeature 0 = true → exec (.vrndT6 g a d) s = .next (s.issued 2)) ∧
    (∀ (k : BitVec 4) (c : BitVec 5), g = ⟨false, k.setWidth 6⟩ →
      ∀ i ∈ [Instr.vfma k c b a d, .vfms k c b a d, .vfnma k c b a d, .vfnms k c b a d], exec i s = .next (s.issued 2)) ∧
    (s.fctx.normal = true →
      (∀ i ∈ [Instr.movqPop g a d, .movqPush g a d, .trypopQueue g b a d, .push g a, .pop g a, .trypopToken g p a, .setup g b a],
        exec i s = .next (s.issued 2)) ∧
      (s.fctx.hasFeature 3 = true → ∀ i ∈ [Instr.send g b a, .hret g], exec i s = .next (s.issued 2))) ∧
    (s.fctx.job = 0 → kindOf s.foc.ctx.core = .dispatch → exec (.launch g b a d) s = .next (s.issued 2))

/-- The scalar queues (14 R324; 07 R169; 09 R244): a pop gives the oldest element in the clk of its issue; a push, a store-release at the scope of
the core, sends the open combining entries, waits for what it releases and is readable from t + 2; TRYPOP tells whether an element was
there. -/
def Obligations.ScalarQueueWords : Prop :=
  ∀ (s : State) (g : Guard) (p b a d : BitVec 5) (e : Word),
    s.fctx.normal = true →
    -- MOVQ rd, qn: b names the queue
    (s.Ready { guard := g, dsts := [(d.toNat, 1)] } → (s.fctx.sq b.toNat).head s.clk = some e → (b = 15 → s.fctx.handler = none) →
      exec (.movqPop g b d) s = .next (((s.modF (fun x =>
        (x.putSq b.toNat ((x.sq b.toNat).take s.clk)).openHandler b.toNat e)).resWord d.toNat 1 e).issued 2)) ∧
    -- MOVQ qn, ra: d names the queue
    (s.Ready { guard := g, srcs := [a.toNat] } → (s.fctx.sq d.toNat).full (sqDepth d.toNat) s.clk = false →
      let t := s.flush s.foc.ctx
      (t.unreleased s.foc = false → exec (.movqPush g a d) s = .next ((t.modF (fun x =>
        x.putSq d.toNat ((x.sq d.toNat).add (t.rd a) (t.clk + 2)))).issued 2)) ∧
      (t.unreleased s.foc = true → exec (.movqPush g a d) s = .next (t.waits 0x03))) ∧
    (s.Ready { guard := g, dsts := [(d.toNat, 1), (codeP p.toNat, 1)] } →
      ((s.fctx.sq b.toNat).head s.clk = none → exec (.trypopQueue g p b d) s = .next ((s.resPred p.toNat false).issued 2)) ∧
      ((s.fctx.sq b.toNat).head s.clk = some e → (b = 15 → s.fctx.handler = none) →
        exec (.trypopQueue g p b d) s = .next ((((s.modF (fun x =>
          (x.putSq b.toNat ((x.sq b.toNat).take s.clk)).openHandler b.toNat e)).resWord d.toNat 1 e).resPred p.toNat true).issued 2)))

/-- Prepare and branch (14 R331, R332; 13 R307; 07 R165): PBR counts from its own halfword, PBRX takes a register, a branch d clk after its prepare runs max(0, 6 - d) bubble clk before the target's header, and a branch to a halfword that begins no header raises ILLEGAL precisely at the branch. -/
def Obligations.BranchWords : Prop :=
  (∀ (s : State) (g : Guard) (o : BitVec 20) (a : BitVec 5) (t : BitVec 3),
       (s.Ready { dsts := [(codeB t.toNat, 1)] } →
         exec (.pbr o t) s = .next ((s.modFs (fun y =>
           y.setBranch t.toNat (BitVec.ofNat 16 y.pc + (o.signExtend 32).setWidth 16) s.clk)).issued 2)) ∧
       (s.Ready { guard := g, srcs := [a.toNat], dsts := [(codeB t.toNat, 1)] } →
         exec (.pbrx a g t) s = .next ((s.modFs (fun y => y.setBranch t.toNat ((s.rd a).setWidth 16) s.clk)).issued 2)) ∧
       (s.isHeader (s.fstrm.branch t.toNat).toNat = true →
         let target := (s.fstrm.branch t.toNat).toNat
         let bubble := 6 - (s.clk - s.fstrm.prepClk t.toNat)
         (s.Ready { guard := g, srcs := [codeB t.toNat] } →
           exec (.br g t) s = .next ((s.modFs (fun y => y.jump target bubble)).charge s.foc 0) ∧
           exec (.brh g t) s = .next ((s.modFs (fun y => y.jump target bubble)).charge s.foc 0)) ∧
         (s.Ready { guard := g, srcs := [codeB t.toNat], dsts := [(codeB 7, 1)] } →
           s.fstrm.pc + 2 = s.fstrm.blk + 4 + s.fstrm.len →
           exec (.brl g t) s = .next ((s.modFs (fun y =>
             (y.setBranch 7 (BitVec.ofNat 16 (y.blk + 4 + y.len)) s.clk).jump target bubble)).charge s.foc 0)))) ∧
  (∀ (s : State) (g : Guard) (t : BitVec 3),
       s.Ready { guard := g, srcs := [codeB t.toNat] } → s.isHeader (s.fstrm.branch t.toNat).toNat = false →
       exec (.br g t) s = .next (s.raise 0x01 (s.firstHalf.setWidth 64)) ∧
       exec (.brh g t) s = .next (s.raise 0x01 (s.firstHalf.setWidth 64)))

/-- Stage loops and STALL (15 R371 to R374; 18 R400; 07 R180, R186): SLOOP sets TRIPC, TAILC, SWIN and the stage predicates; SNEXT moves the window and branches while passes remain, and falls through after the last; STALL n holds its stream for max(1, n - S) clk and lowers the slip S by the difference. -/
def Obligations.LoopAndStallWords : Prop :=
  (∀ (s : State) (e : BitVec 4) (a : BitVec 5) (t : BitVec 3) (n : Word),
       (s.Ready { srcs := [a.toNat], dsts := (List.range 16).map (fun i => (codeP (32 + i), 1)) } →
         exec (.sloop e a) s = .next ((s.modFs (fun y => (y.loopStart (s.rd a) e).loopPreds (s.rd a))).issued 2)) ∧
       (s.Ready { dsts := (List.range 16).map (fun i => (codeP (32 + i), 2)), outs := [200] } → s.fctx.q1.head s.clk = some n →
         exec (.vSloop e) s = .next (((
           (s.modF (fun x => { x with q1 := x.q1.take s.clk })).nextId.2).fly s.foc
             ⟨s.fresh, 200, .loop n e, s.clk + 1, true, maskAll, 0, false⟩).issued 2)) ∧
       (s.Ready { srcs := [codeB t.toNat, 200] } → s.fstrm.tripc = 0 → s.fstrm.tailc = 0 → exec (.snext t) s = .next (s.issued 2)) ∧
       (s.Ready { srcs := [codeB t.toNat, 200], dsts := [(codeP 47, 1)] } → s.isHeader (s.fstrm.branch t.toNat).toNat = true →
         let target := (s.fstrm.branch t.toNat).toNat
         let bubble := 6 - (s.clk - s.fstrm.prepClk t.toNat)
         (s.fstrm.tripc ≠ 0 → exec (.snext t) s = .next ((((s.modFs (fun y => { y with tripc := y.tripc - 1 })).rotate true).modFs
           (fun y => y.jump target bubble)).charge s.foc 0)) ∧
         (s.fstrm.tripc = 0 → s.fstrm.tailc ≠ 0 →
           exec (.snext t) s = .next ((((s.modFs (fun y => { y with tailc := y.tailc - 1 })).rotate false).modFs
             (fun y => y.jump target bubble)).charge s.foc 0)))) ∧
  (∀ (s : State) (n : BitVec 11),
       s.Ready {} →
       let k := n.toNat + 1
       let held := Nat.max 1 (k - s.fstrm.slip)
       let t := s.modFs (fun y => { y with stall := held - 1, waiting := false, slip := y.slip - (k - held) })
       exec (.stall n) s = .next (if held = 1 then t.issued 1 else t.charge s.foc 0))

/-- A scalar result of latency 1 reads as written in the next clk and one for register 0 is discarded; a longer one is in flight until
its landing at the end of clk t + L - 1, which RESULT_LAND then writes (07 R162, R180).
RESULT_LAND, INTERLOCKED_RESULT_ARRIVAL and LATCH_REINJECT write a result in flight to its register once its landing clk is over, and
it is then no longer pending (07 R180, R183; 12 R293); a conflicting pairing that finds DDE set raises DIST_DEP there (19 R411). -/
def Obligations.ResultsInFlight : Prop :=
  (∀ (s : State) (d : BitVec 5) (lat : Nat) (v : Word), s.foc.st ≠ .v →
       (∀ n, (s.resWord d.toNat 1 v).fstrm.reg n = if n = d.toNat ∧ n ≠ 0 then v else s.fstrm.reg n) ∧
       (s.resWord 0 lat v = s) ∧
       (2 ≤ lat → d ≠ 0 →
         let p : Pend := ⟨s.fresh, d.toNat, .word v, s.clk + lat - 1, false, maskAll, 0, false⟩
         (s.resWord d.toNat lat v).fstrm = { s.fstrm with pend := s.fstrm.pend ++ [p] } ∧
         (s.clk + lat, Event.resultLand s.foc s.fresh) ∈ (s.resWord d.toNat lat v).agenda)) ∧
  (∀ (s : State) (i : StreamId) (p : Pend),
       (s.strm i).pend.find? (fun q => q.id == p.id) = some p → p.land < s.clk →
       let t := (s.modCtx i.ctx (fun x =>
         (x.putStrm i.st { x.strm i.st with pend := (x.strm i.st).pend.filter (fun q => q.id != p.id) }).land i.st p)).depLanded i.ctx p
       (s.cur = some (.resultLand i p.id) → exec .resultLand s = .next t) ∧
       (s.cur = some (.interlockedResultArrival i p.id) → exec .interlockedResultArrival s = .next t) ∧
       (s.cur = some (.latchReinject i p.id) → exec .latchReinject s = .next t))

/-! ## Control and access streams: memory (14 R325 to R330; 08 R195, R215) -/

/-- A load takes its bytes, zero- or sign-extended, from a buffer of its core, which it reads in the clk after its issue, after 4 clk (16 R375), and from the module's memory after a time that the spec leaves open; from a remote home it asks with a read request and awaits its register (14 R325, R326; 08 R215; 02 R44). The address is base + sext(imm12). -/
def Obligations.LoadResults : Prop :=
  (∀ (s s' : State) (sc : BitVec 3) (m : BitVec 12) (b r : BitVec 5),
       s.Ready { srcs := [b.toNat], outs := [r.toNat] } → s.acquiring s.foc = false →
       let ea := s.rd b + m.signExtend 64
       let forms : List (Instr × Nat × Bool) := [(.ldB m b r, 1, false), (.ldH m b r, 2, false), (.ldW m b r, 4, false), (.ld m b r, 8, false),
         (.ldSb m b r, 1, true), (.ldSh m b r, 2, true), (.ldSw m b r, 4, true), (.ldAcq sc m b r, 8, false)]
       ∀ i n signed, (i, n, signed) ∈ forms → ea.toNat % n = 0 →
         let ext (v : Nat) : Word := if signed then BitVec.ofInt 64 (sextInt (8 * n) v) else BitVec.ofNat 64 (v % 2 ^ (8 * n))
         (∀ k off, s.resolve .read n ea = .at (.buf k off) s' → s'.placeHeld s'.foc false (.buf k off) n = false →
           exec i s = .next (((s'.interlocked r.toNat (s'.clk + 3) 0).modFcore (fun c =>
             { c with near := c.near ++ [⟨s'.foc, s'.fresh, .buf k off, n, signed⟩] })).issued 2)) ∧
         (∀ l pa, let here := modOf s'.foc.ctx.core
           s.resolve .read n ea = .at (.mem l here pa) s' → l.mir = false → s'.placeHeld s'.foc false (.mem l here pa) n = false →
           s'.forwardCase s'.foc.ctx.core (.global here (homeStation pa)) pa n = .go →
           exec i s = .next ((s'.freeTime.2.interlocked r.toNat (s'.clk + s'.freeTime.1)
             (ext (Memory.readLE s'.mem (memKey here pa) n))).issued 2)) ∧
         -- an access that an earlier one of the stream holds (09 R241, R242) waits
         (∀ p, s.resolve .read n ea = .at p s' → s'.placeHeld s'.foc false p n = true → exec i s = .next (s'.waits 0x03))) ∧
  (∀ (s s' : State) (m : BitVec 12) (b r : BitVec 5) (l : Leaf) (home pa : Nat),
       s.Ready { srcs := [b.toNat], outs := [r.toNat] } → s.acquiring s.foc = false → (s.rd b + m.signExtend 64).toNat % 8 = 0 →
       s.resolve .read 8 (s.rd b + m.signExtend 64) = .at (.mem l home pa) s' → l.mir = false → home ≠ modOf s'.foc.ctx.core →
       s'.placeHeld s'.foc false (.mem l home pa) 8 = false →
       s'.forwardCase s'.foc.ctx.core (.global home (homeStation pa)) pa 8 = .go →
       let w := s'.awaited r.toNat
       let g := w.2.newGroup s'.foc.ctx s'.foc.st false (.reg s'.foc w.1 8 false) [] (l.ord == 0)
       exec (.ld m b r) s = .next ((g.2.readRemote s'.foc.ctx g.1 0 (.global home (homeStation pa)) pa 8 false).issued 2)) ∧
  (∀ (s : State) (core k off : Nat) (l : NearLoad), l.src = .buf k off → (s.core core).poisoned k off l.n = false →
       let v := ofBytesLE (Memory.readN ((s.core core).buf k) off l.n)
       let w : Word := if l.signed then BitVec.ofInt 64 (sextInt (8 * l.n) v) else BitVec.ofNat 64 (v % 2 ^ (8 * l.n))
       s.nearRead core l = s.modStrm l.strm (fun y => { y with pend := y.pend.map (fun p => if p.id = l.id then { p with val := .word w } else p) }) ∧
       ((s.core core).near = [l] → s.nearDone core = (s.modCore core (fun c => { c with near := [] })).nearRead core l))

/-- A store writes its low bytes to a buffer of its core or to the module's memory, at base + sext(imm12); a store-release does so once every earlier access in its scope is performed (14 R325 to R327). -/
def Obligations.StoreResults : Prop :=
  (∀ (s s' : State) (m : BitVec 12) (b r : BitVec 5),
       s.Ready { srcs := [b.toNat, r.toNat] } → s.acquiring s.foc = false →
       let ea := s.rd b + m.signExtend 64
       ∀ i n, (i, n) ∈ [(Instr.stB m b r, 1), (.stH m b r, 2), (.stW m b r, 4), (.st m b r, 8)] → ea.toNat % n = 0 →
         (∀ k off, s.resolve .write n ea = .at (.buf k off) s' → s'.placeHeld s'.foc true (.buf k off) n = false →
           exec i s = .next ((s'.modCore s'.foc.ctx.core (fun c => c.writeBuf k off (bytesLE n (s.rd r).toNat))).issued 2)) ∧
         (∀ l pa, let here := modOf s'.foc.ctx.core
           s.resolve .write n ea = .at (.mem l here pa) s' → l.mir = false → s'.placeHeld s'.foc true (.mem l here pa) n = false →
           exec i s = .next ((s'.writeMem (s'.ctx s'.foc.ctx).plat here pa (bytesLE n (s.rd r).toNat)).issued 2)) ∧
         -- an access that an earlier one of the stream holds (09 R241, R242) waits
         (∀ p, s.resolve .write n ea = .at p s' → s'.placeHeld s'.foc true p n = true → exec i s = .next (s'.waits 0x03))) ∧
  (∀ (s s' : State) (sc : BitVec 3) (m : BitVec 12) (b r : BitVec 5) (l : Leaf) (pa : Nat),
       s.Ready { srcs := [b.toNat, r.toNat] } → s.acquiring s.foc = false →
       let ea := s.rd b + m.signExtend 64
       let u := s'.flush s'.foc.ctx
       let here := modOf u.foc.ctx.core
       ea.toNat % 8 = 0 → s.resolve .write 8 ea = .at (.mem l here pa) s' → l.mir = false →
       (u.performed u.foc sc.toNat false = true → u.placeHeld u.foc true (.mem l here pa) 8 = false →
         exec (.stRel sc m b r) s = .next ((u.writeMem (u.ctx u.foc.ctx).plat here pa (bytesLE 8 (s.rd r).toNat)).issued 2)) ∧
       (u.performed u.foc sc.toNat false = false → exec (.stRel sc m b r) s = .next (u.waits 0x03)))

/-- The misaligned accesses of the C and A streams raise ALIGN with their address (12 R281; 14 R325, R328). -/
def Obligations.MisalignedAccessTraps : Prop :=
  ∀ (s : State) (sc : BitVec 3) (m : BitVec 12) (g : Guard) (b r d : BitVec 5),
    let ea := s.rd b + m.signExtend 64
    (s.Ready { srcs := [b.toNat], outs := [r.toNat] } →
      ∀ i n, (i, n) ∈ [(Instr.ldH m b r, 2), (.ldW m b r, 4), (.ld m b r, 8), (.ldSh m b r, 2), (.ldSw m b r, 4), (.ldAcq sc m b r, 8)] →
        ea.toNat % n ≠ 0 → exec i s = .next (s.raise 0x07 ea)) ∧
    (s.Ready { srcs := [b.toNat, r.toNat] } →
      ∀ i n, (i, n) ∈ [(Instr.stH m b r, 2), (.stW m b r, 4), (.st m b r, 8), (.stRel sc m b r, 8)] →
        ea.toNat % n ≠ 0 → exec i s = .next (s.raise 0x07 ea)) ∧
    (s.Ready { guard := g, srcs := [b.toNat, r.toNat], outs := [d.toNat] } → (s.rd b).toNat % 8 ≠ 0 →
      ∀ i ∈ [Instr.amoAdd g r b d, .amoAnd g r b d, .amoOr g r b d, .amoXor g r b d, .amoMin g r b d, .amoMax g r b d,
        .amoMinu g r b d, .amoMaxu g r b d, .amoSwap g r b d], exec i s = .next (s.raise 0x07 (s.rd b)))

/-- An atomic at a local home replaces the word by its operation's result and gives the old word to rd (14 R328). -/
def Obligations.AtomicResults : Prop :=
  ∀ (s s' : State) (g : Guard) (b a d : BitVec 5) (l : Leaf) (pa : Nat),
    let here := modOf s'.foc.ctx.core
    let y := s.rd b
    let done (old new : Word) : State :=
      (((s'.freeTime.2.writeMem (s'.ctx s'.foc.ctx).plat here pa (bytesLE 8 new.toNat)).interlocked d.toNat (s'.clk + s'.freeTime.1) old).issued 2)
    let old := BitVec.ofNat 64 (Memory.readLE s'.mem (memKey here pa) 8)
    (s.rd a).toNat % 8 = 0 → s.acquiring s.foc = false → s.resolve .atomic 8 (s.rd a) = .at (.mem l here pa) s' →
    s'.forwardCase s'.foc.ctx.core (.global here (homeStation pa)) pa 8 = .go → s'.placeHeld s'.foc true (.mem l here pa) 8 = false →
    (s.Ready { guard := g, srcs := [a.toNat, b.toNat], outs := [d.toNat] } →
      let one (i : Instr) (new : Word) : Prop := exec i s = .next (done old new)
      one (.amoAdd g b a d) (old + y) ∧ one (.amoAnd g b a d) (old &&& y) ∧ one (.amoOr g b a d) (old ||| y) ∧
      one (.amoXor g b a d) (old ^^^ y) ∧ one (.amoMin g b a d) (if y.toInt < old.toInt then y else old) ∧
      one (.amoMax g b a d) (if old.toInt < y.toInt then y else old) ∧
      one (.amoMinu g b a d) (if y.toNat < old.toNat then y else old) ∧
      one (.amoMaxu g b a d) (if old.toNat < y.toNat then y else old) ∧ one (.amoSwap g b a d) y) ∧
    (s.Ready { guard := g, srcs := [a.toNat, b.toNat, d.toNat], outs := [d.toNat] } →
      exec (.cas g b a d) s = .next (done old (if old = s.rd d then y else old)))

/-- Spill memory (14 R329): offset imm12 * size; a read lands at the end of the second clk after its issue, and an access beyond 8 KiB
raises PERM.
FENCE sends the context's open combining entries and issues; the stream's accesses of the kinds that it orders, still to be performed in its
scope, are marked, and while one of them is outstanding a later load or store of the stream waits, charged INTERLOCK (14 R330). -/
def Obligations.SpillAndFenceWords : Prop :=
  (∀ (s : State) (m : BitVec 12) (r : BitVec 5),
       (s.Ready { outs := [r.toNat] } →
         ∀ i n signed, (i, n, signed) ∈ [(Instr.ldlB m r, 1, false), (.ldlH m r, 2, false), (.ldlW m r, 4, false), (.ldl m r, 8, false),
             (.ldlSb m r, 1, true), (.ldlSh m r, 2, true), (.ldlSw m r, 4, true)] →
           (m.toNat * n + n ≤ 8192 →
             let v := Memory.readLE (s.fctx.spill s.foc.st) (m.toNat * n) n
             exec i s = .next ((s.interlocked r.toNat (s.clk + 2)
               (if signed then BitVec.ofInt 64 (sextInt (8 * n) v) else BitVec.ofNat 64 (v % 2 ^ (8 * n)))).issued 2)) ∧
           (8192 < m.toNat * n + n → exec i s = .next (s.raise 0x08 (BitVec.ofNat 64 (m.toNat * n))))) ∧
       (s.Ready { srcs := [r.toNat] } →
         ∀ i n, (i, n) ∈ [(Instr.stlB m r, 1), (.stlH m r, 2), (.stlW m r, 4), (.stl m r, 8)] →
           (m.toNat * n + n ≤ 8192 →
             exec i s = .next ((s.modF (fun x => x.putSpill s.foc.st
               (Memory.writeN (x.spill s.foc.st) (m.toNat * n) (bytesLE n (s.rd r).toNat)))).issued 2)) ∧
           (8192 < m.toNat * n + n → exec i s = .next (s.raise 0x08 (BitVec.ofNat 64 (m.toNat * n)))))) ∧
  (∀ (s : State) (u : Bool) (sc : BitVec 3), s.Ready {} →
       exec (.fence u sc) s = .next (((s.flush s.foc.ctx).fenceOf s.foc sc.toNat u).issued 2)) ∧
  (∀ (s : State) (i : StreamId) (u : Bool) (sc : Nat) (o : Owed), o ∈ (s.core i.ctx.core).owed → o.bank = i.ctx.bank → o.eng = none →
       i.st ∈ o.by_ → destInScope i.ctx.core sc o.dest = true → (u = true ∨ o.ord ≠ 2) → (s.fenceOf i sc u).acquiring i = true) ∧
  (∀ (s : State) (m : BitVec 12) (b r : BitVec 5),
       (s.rd b + m.signExtend 64).toNat % 8 = 0 → s.acquiring s.foc = true →
       (s.Ready { srcs := [b.toNat], outs := [r.toNat] } → exec (.ld m b r) s = .next (s.waits 0x03)) ∧
       (s.Ready { srcs := [b.toNat, r.toNat] } → exec (.st m b r) s = .next (s.waits 0x03)))

/-- Loads and spill accesses write no byte of the modules' memory, and a store whose translation leads to a local home at most its own bytes there (14 R325, R326, R329). -/
def Obligations.MemoryFrame : Prop :=
  (∀ (s t : State) (sc : BitVec 3) (m : BitVec 12) (b r : BitVec 5),
       let ea := s.rd b + m.signExtend 64
       ∀ i n, (i, n) ∈ [(Instr.stB m b r, 1), (.stH m b r, 2), (.stW m b r, 4), (.st m b r, 8), (.stRel sc m b r, 8)] →
         exec i s = .next t → ∀ a : Nat,
           (∀ l pa s', s.resolve .write n ea = .at (.mem l (modOf s.foc.ctx.core) pa) s' → l.mir = false →
             a < memKey (modOf s.foc.ctx.core) pa ∨ memKey (modOf s.foc.ctx.core) pa + n ≤ a) →
           Memory.read t.mem a = Memory.read s.mem a) ∧
  (∀ (s t : State) (sc : BitVec 3) (m : BitVec 12) (b r : BitVec 5),
       ∀ i ∈ [Instr.ldB m b r, .ldH m b r, .ldW m b r, .ld m b r, .ldSb m b r, .ldSh m b r, .ldSw m b r, .ldAcq sc m b r, .ldlB m r,
           .ldlH m r, .ldlW m r, .ldl m r, .ldlSb m r, .ldlSh m r, .ldlSw m r, .stlB m r, .stlH m r, .stlW m r, .stl m r],
         exec i s = .next t → t.mem = s.mem)

/-! ## Control stream: special registers, waits, barriers, traps, waypoints (14 R334 to R355; 12 R281 to R293) -/

/-- MFS gives the register as it stands: CYC, PTIME and TOKCNT at the end of the clk after its issue, the others with latency 2; a read of FSWIN moves FSSEL on (14 R334; 12 R292). MFS and MTS of a register confined to the handler modes raise PRIV with the first halfword in normal mode (12 R283). MTS writes the fields that software may write: TRAPC its enables, TVEC its valid bit and offset, VSTAT and DSTAT their flags by clearing, STSEL and STCNT their low bits, a read-only register nothing, and in a handler mode FSSEL and the saved TRIPC of A and V their value (00 R4; 10 R250; 11 R274). -/
def Obligations.SpecialRegisterWords : Prop :=
  (∀ (s : State) (sr : BitVec 12) (d : BitVec 5),
       (srHandler sr.toNat = true → s.fctx.normal = false) →
       let v := s.srRead s.foc.ctx sr.toNat
       let t : State := { s with fresh := s.fresh + 1 }
       (sr.toNat ∈ [0x000, 0x001, 0x030] → s.Ready { outs := [d.toNat] } →
         exec (.mfs sr d) s = .next ((t.interlocked d.toNat (s.clk + 1) v).issued 2)) ∧
       (sr.toNat ∉ [0x000, 0x001, 0x030, 0x01C] → s.Ready { dsts := [(d.toNat, 2)] } →
         exec (.mfs sr d) s = .next ((t.resWord d.toNat 2 v).issued 2)) ∧
       (sr.toNat = 0x01C → s.Ready { dsts := [(d.toNat, 2)] } →
         exec (.mfs sr d) s = .next (((t.modF (fun x =>
           { x with fssel := BitVec.ofNat 64 ((wfield x.fssel 0 13 + 1) % 8192) })).resWord d.toNat 2 v).issued 2))) ∧
  (∀ (s : State) (sr : BitVec 12) (d : BitVec 5),
       srHandler sr.toNat = true → s.fctx.normal = true →
       exec (.mfs sr d) s = .next (s.raise 0x03 (s.firstHalf.setWidth 64)) ∧
       exec (.mts sr d) s = .next (s.raise 0x03 (s.firstHalf.setWidth 64))) ∧
  (∀ (s : State) (a : BitVec 5),
       s.Ready { srcs := [a.toNat] } →
       let v := s.rd a
       let one (n : BitVec 12) (f : Ctx → Ctx) : Prop := exec (.mts n a) s = .next ((s.modF f).issued 2)
       one 0x010 (fun x => { x with vf := { x.vf with vstat := writeVstat x.vf.vstat v } }) ∧
       one 0x011 (fun x => { x with vf := { x.vf with dstat := writeDstat x.vf.dstat v } }) ∧
       one 0x018 (fun x => { x with trapc := withField x.trapc 0 2 (v.toNat % 4) }) ∧
       one 0x01A (fun x => { x with tvec := v &&& 0x800000000000FFFF }) ∧
       (∀ n : BitVec 12, 0x40 ≤ n.toNat → n.toNat ≤ 0x47 →
         exec (.mts n a) s = .next ((s.issued 2).modF (fun x => { x with stsel := Sp.set 0 x.stsel (n.toNat - 0x40) (v &&& 0x7FF) }))) ∧
       (∀ n : BitVec 12, 0x48 ≤ n.toNat → n.toNat ≤ 0x4F →
         exec (.mts n a) s = .next ((s.issued 2).modF (fun x => { x with stcnt := Sp.set 0 x.stcnt (n.toNat - 0x48) (v &&& 0xFFFFFFFFFFFF) }))) ∧
       -- a register all of whose fields are read-only stays
       (∀ n ∈ [(0x000 : BitVec 12), 0x001, 0x002, 0x003, 0x004, 0x005, 0x019, 0x031], exec (.mts n a) s = .next (s.issued 2)) ∧
       (s.fctx.normal = false →
         one 0x01B (fun x => { x with fssel := v &&& 0x1FFF }) ∧
         one 0x020 (fun x => { x with a := { x.a with tripc := v } }) ∧
         one 0x024 (fun x => { x with v := { x.v with tripc := v } }))) ∧
  (∀ (old v : Word) (i : Nat),
       (8 ≤ i → i < 14 → (writeVstat old v).getLsbD i = (old.getLsbD i && !v.getLsbD i)) ∧
       (i < 2 → (writeVstat old v).getLsbD i = v.getLsbD i) ∧
       (i ∈ [8, 10, 11, 12, 13] → (writeDstat old v).getLsbD i = (old.getLsbD i && !v.getLsbD i)) ∧
       (i < 2 ∨ i = 16 ∨ (32 ≤ i ∧ i < 48) → (writeDstat old v).getLsbD i = v.getLsbD i))

/-- BAR.arrive counts a party of the current phase, a redundant pair once, or notes its arrival, which is counted when its release has been performed, while the stream continues; the last one starts the next phase, whose parties leave at T + L; BAR.wait takes 1 clk where its phase is over, and otherwise waits for that. A unit that is not configured, a second arrival in one phase and a wait without an arrival raise BARRIER_MISUSE with the scope and the BID (14 R336, R337; 05 R117, R118; 12 R281). -/
def Obligations.BarrierWords : Prop :=
  (∀ (s : State) (sc : BitVec 3) (i : BitVec 5) (b : BarState),
       let u := s.barUnit sc.toNat i.toNat
       s.fctx.normal = true → s.Ready {} → s.bar u = some b →
       let t := s.flush s.foc.ctx
       (((∀ p w, s.fctx.party u = some (p, w) → p ≠ b.phase) → t.performed s.foc sc.toNat false = true →
         let m := t.modF (fun x => x.setParty u (b.phase, true))
         -- a redundant pair arrives as one party, with its second member
         let b' : BarState := match m.pairName s.foc.ctx with
           | none => { b with count := b.count + 1 }
           | some c => if b.halves.contains c then { b with count := b.count + 1, halves := b.halves.filter (fun d => d != c) }
             else { b with halves := c :: b.halves }
         (b'.count < b.nparty → exec (.barArrive sc i) s = .next ((m.putBar u b').issued 2)) ∧
         (b.nparty ≤ b'.count →
           let leave := m.clk + barLatency (modOf s.foc.ctx.core) sc.toNat
           exec (.barArrive sc i) s = .next (((m.putBar u { b' with count := 0, phase := b.phase + 1, leave := leave }).post leave
             (.barrierRelease u b.phase)).issued 2))) ∧
        ((∀ p w, s.fctx.party u = some (p, w) → p ≠ b.phase) → t.performed s.foc sc.toNat false = false →
         let m := (t.modF (fun x => x.setParty u (b.phase, true))).arriveAt s.foc u
         exec (.barArrive sc i) s = .next (m.issued 2) ∧ m.bars = s.bars ∧
         ∃ a : HeldArrival, (m.core s.foc.ctx.core).arrivals = (t.core s.foc.ctx.core).arrivals ++ [a] ∧ a.unit = u)) ∧
       (∀ p, s.fctx.party u = some (p, true) → p < b.phase → b.leave ≤ s.clk →
         exec (.barWait sc i) s = .next ((s.modF (fun x => x.setParty u (p, false))).issued 2) ∧
         (s.fstrm.begun = true → exec (.barAw sc i) s = .next ((s.modF (fun x => x.setParty u (p, false))).issued 2))) ∧
       (∀ p, s.fctx.party u = some (p, true) → b.phase ≤ p ∨ s.clk < b.leave →
         exec (.barWait sc i) s = .next ((s.modFs (fun y => { y with hold := .barrier sc.toNat i.toNat })).waits 0) ∧
         (s.fstrm.begun = true →
           exec (.barAw sc i) s = .next ((s.modFs (fun y => { y with hold := .barrier sc.toNat i.toNat })).waits 0)))) ∧
  (∀ (s : State) (sc : BitVec 3) (i : BitVec 5),
       let u := s.barUnit sc.toNat i.toNat
       let t := s.raise 0x0A (BitVec.ofNat 64 (256 * sc.toNat + i.toNat))
       s.fctx.normal = true → s.Ready {} →
       (s.bar u = none → exec (.barArrive sc i) s = .next t ∧ exec (.barWait sc i) s = .next t) ∧
       (∀ b p w, s.bar u = some b → s.fctx.party u = some (p, w) → p = b.phase → exec (.barArrive sc i) s = .next t) ∧
       (s.fctx.party u = none → exec (.barWait sc i) s = .next t))

/-- TWAIT goes on at once when its cycle has come and no copy of its tag runs, otherwise it waits for CYC and, where it waits a clk, sets the slip to 0 (14 R338; 07 R186); WAITM of a word with a local home goes on with it where that differs from rd, and else waits for it to change (R339), and of register space raises PERM (03 R69; log 77); QWAIT registers its context and goes on after the declaration that it waited for (R340). -/
def Obligations.WaitWords : Prop :=
  (∀ (s : State) (p : Bool) (a : BitVec 5), s.Ready { srcs := [a.toNat] } →
       let t := (s.rd a).toNat % 2 ^ 48
       let d := (t + 2 ^ 48 - (s.cyc s.foc.ctx.core).toNat % 2 ^ 48) % 2 ^ 48
       (d = 0 ∨ 2 ^ 47 ≤ d → (p = true → s.fctx.copyPending (wfield (s.rd a) 48 16) = false) →
         exec (.twait p a) s = .next (s.issued 2)) ∧
       (p = false → d = 1 → exec (.twait p a) s = .next (s.issued 2)) ∧
       (p = false → 2 ≤ d → d < 2 ^ 47 → exec (.twait p a) s =
         .next (((s.modFs (fun y => { y with slip := 0, hold := .cycle (s.clk + d) none s.clk })).post (s.clk + d) (.twaitExpiry s.foc)).waits 0))) ∧
  (∀ (s s' : State) (a d : BitVec 5) (l : Leaf) (m pa : Nat),
       s.Ready { srcs := [a.toNat, d.toNat], outs := [d.toNat] } → (s.rd a).toNat % 8 = 0 → wfield (s.rd a) 56 8 = 0 →
       s.acquiring s.foc = false → s.resolve .read 8 (s.rd a) = .at (.mem l m pa) s' → l.mir = false → m = modOf s'.foc.ctx.core →
       s'.placeHeld s'.foc false (.mem l m pa) 8 = false → s'.forwardCase s'.foc.ctx.core (.global m (homeStation pa)) pa 8 = .go → s'.fstrm.fetch = none →
       let v := BitVec.ofNat 64 (Memory.readLE s'.mem (memKey m pa) 8)
       (v ≠ s'.rd d → exec (.waitm a d) s =
         .next ((s'.freeTime.2.interlocked d.toNat (s'.clk + s'.freeTime.1) v).issued 2)) ∧
       (v = s'.rd d → exec (.waitm a d) s = .next ((s'.modFs (fun y => { y with hold := .memory (memKey m pa), fetch := none })).waits 0x3B))) ∧
  (∀ (s s' : State) (a d : BitVec 5) (off : Nat),
       s.Ready { srcs := [a.toNat, d.toNat], outs := [d.toNat] } → (s.rd a).toNat % 8 = 0 → wfield (s.rd a) 56 8 = 0 →
       s.acquiring s.foc = false → s.resolve .read 8 (s.rd a) = .at (.regs off) s' → exec (.waitm a d) s = .next (s.raise 0x08 (s.rd a))) ∧
  (∀ (s : State) (sc : BitVec 3), s.fctx.normal = true → s.Ready { feature := some 3 } → s.fctx.handler = none →
       (s.fstrm.hold = .passed → exec (.qwait sc) s = .next (s.issued 2)) ∧
       (s.fstrm.hold ≠ .passed →
         let t := s.flush s.foc.ctx
         exec (.qwait sc) s = .next (((t.modSta (stationOf s.foc.ctx.core) (fun r =>
           { r with qregs := r.qregs.filter (fun q => q.ctx != s.foc.ctx) ++ [⟨s.foc.ctx, sc == 4, t.clk, t.fctx.job⟩] })).modFs
             (fun y => { y with hold := .quiet })).waits 0x3A)))

/-- SIGNAL sends an uncounted management slot (14 R341), SEND hands one to four lines of X to the egress as a counted message, which goes on at once where it is the only one and everything before it is performed, and else waits there for the posted writes before it (R346), and HRET closes the open handler, frees its inbox entry and counts its message consumed (R347; 02 R47). -/
def Obligations.MessageWords : Prop :=
  (∀ (s : State) (a : BitVec 5), s.Ready { srcs := [a.toNat] } →
       let v := s.rd a
       (11 ≤ wfield v 0 4 ∨ s.pod.mods.contains (wfield v 8 6) = false → exec (.signal a) s = .next (s.issued 2)) ∧
       (wfield v 0 4 ≤ 10 → s.pod.mods.contains (wfield v 8 6) = true →
         exec (.signal a) s = .next ((s.egress s.foc.ctx.core (mgmtSlot s.foc.ctx.core s.fctx.job (wfield v 8 6) (wfield v 5 3)
           (wfield v 0 4) 7 [wfield v 4 1]) (s.clk + 1)).issued 2))) ∧
  (∀ (s : State) (g : Guard) (b a : BitVec 5),
       let h := s.rd a
       let o := s.rd b
       let n := 64 * (wfield h 46 2 + 1)
       let c := s.foc.ctx
       let t := s.flush c
       s.fctx.normal = true → s.Ready { feature := some 3, guard := g, srcs := [a.toNat, b.toNat] } → o.toNat % 64 = 0 →
       o.toNat + n ≤ 0x300000 → (kindOf c.core).ctl = false →
       (linesOf o.toNat n).all (fun l => entV (s.entryAt c 1 (64 * l)) && entAv (s.entryAt c 1 (64 * l))) = true →
       wfield h 0 4 ≤ 10 → s.pod.mods.contains (wfield h 8 6) = true → s.acquiring s.foc = false →
       t.unsent c.core < 16 → (t.core c.core).poisoned 1 o.toNat n = false →
       exec (.send g b a) s = .next ((t.sendMessage t.foc (slotFrom c.core 2 t.fctx.job (wfield h 8 6) (wfield h 5 3) (wfield h 0 4)
         (wfield h 46 2) 0 (wfield h 48 16) (Memory.readN (t.core c.core).memX o.toNat n))).issued 2)) ∧
  (∀ (s : State) (i : StreamId) (slot : Slot),
       (s.performed i 4 false = true → (s.core i.ctx.core).sends = [] → s.sendMessage i slot = s.sendCounted i.ctx.core slot (s.clk + 1)) ∧
       (s.performed i 4 false = false → s.jobState (stationOf i.ctx.core) slot.job ≠ .closing →
         ∃ h, (((s.sendMessage i slot).core i.ctx.core).sends = (s.core i.ctx.core).sends ++ [h] ∧ h.slot = slot ∧
           ∀ o ∈ (s.core i.ctx.core).owed, o.bank = i.ctx.bank → o.eng = none → o.ord ≠ 2 →
             ((s.sendMessage i slot).core i.ctx.core).sendFree h = false))) ∧
  (∀ (s : State) (g : Guard), s.fctx.normal = true → s.Ready { feature := some 3, guard := g } →
       (s.fctx.handler = none → exec (.hret g) s = .next (s.raise 0x0B 0)) ∧
       (∀ e, s.fctx.handler = some e →
         let t := s.flush s.foc.ctx
         t.performed s.foc 4 false = true →
         exec (.hret g) s = .next (((t.modF (fun x => { x with handler := none, inbox := x.inbox.filter (fun i => i != e) })).countTaken
           s.foc.ctx.core (t.modF (fun x => { x with handler := none, inbox := x.inbox.filter (fun i => i != e) })).fctx.job).issued 2)))

/-- TRAP issues, and its code is delivered in the next clk; RTE and RTE.skip resume their context at u + 24, and raise PRIV in normal mode (14 R349; 12 R283, R284, R293). -/
def Obligations.TrapAndReturnWords : Prop :=
  (∀ (s : State) (code : BitVec 12), s.Ready {} →
       exec (.trap code) s = .next (((s.modF (fun x => { x with sysTrap := some (code.setWidth 64, x.c.pc, x.c.reps) })).post (s.clk + 1)
         (.trapDelivery s.foc.ctx)).issued 2)) ∧
  (∀ (s : State),
       (s.fctx.normal = true → exec .rte s = .next (s.raise 0x03 (s.firstHalf.setWidth 64)) ∧
         exec .rteSkip s = .next (s.raise 0x03 (s.firstHalf.setWidth 64))) ∧
       (s.fctx.normal = false → s.Ready {} →
         exec .rte s = .next (((s.modF (fun x => { x with phase := .returning (s.clk + 24), evacuated := none })).post (s.clk + 24)
           (.rteResume s.foc.ctx)).issued 2) ∧
         -- the trapping word of A is passed over
         (skippable s.fctx.trapc = true → wfield s.fctx.trapc 46 2 = 1 →
           exec .rteSkip s = .next (((s.modF (fun x => ({ x with phase := .returning (s.clk + 24), evacuated := none, a := skipWord s.fcore .a { x.a with stall := 0 } } : Ctx))).post (s.clk + 24) (.rteResume s.foc.ctx)).issued 2))))

/-- WAYPT outside guarded timing and with no stop asked for records its id and issues (14 R350). In guarded timing it waits until every
parcel of the plat has reached that id; then all leave, guarded timing ends, and CODE takes CUR (04 R114).
RETIRE ends its context when its engines and writes are done: the bank is empty but for its frame store (14 R353). -/
def Obligations.WaypointAndRetireWords : Prop :=
  (∀ (s : State) (id : BitVec 12), s.fctx.normal = true → s.Ready {} → s.fctx.handler = none →
       s.fstrm.begun = false →
       let t := s.flush s.foc.ctx
       t.fctx.guarded = false → t.fctx.stopReq = false → t.isLate s.foc.ctx = false →
       ∃ u, exec (.waypt id) s = .next u ∧ u.fctx.waypoint = some id ∧ u.fctx.freezes = 0 ∧ u.fctx.evacuated = none ∧ u.mem = t.mem ∧
         u.fstrm.regs = s.fstrm.regs) ∧
  (∀ (s : State) (id : BitVec 12), s.fctx.normal = true → s.Ready {} → s.fctx.handler = none → s.fstrm.begun = true →
       s.foc.ctx.bank < 2 → s.fctx.guarded = true → s.fctx.stopReq = false → s.isLate s.foc.ctx = false →
       ((s.fellows s.foc.ctx).all (s.reached s.fctx id) = false → exec (.waypt id) s = .next (s.waits 0x44)) ∧
       ((s.fellows s.foc.ctx).all (s.reached s.fctx id) = true →
         ∃ u, exec (.waypt id) s = .next u ∧ u.mem = s.mem ∧ u.fstrm.waiting = false ∧
           ∀ d ∈ s.fellows s.foc.ctx, d = s.foc.ctx ∨ (s.ctx d).atWay = some id →
             (u.ctx d).guarded = false ∧ ((s.ctx d).guarded = true → (u.ctx d).edCode = s.curEdition d.core))) ∧
  (∀ (s : State), s.Ready {} → s.fctx.handler = none →
       let c := s.foc.ctx
       let t := s.flush c
       s.fctx.eng.idle = true → (t.core c.core).comb.any (fun q => q.bank == c.bank) = false →
       (t.core c.core).mirrors.any (fun q => q.2.job == s.fctx.job) = false →
       ∃ u, exec .retire s = .next u ∧ u.ctx c = { Ctx.reset with frame := s.fctx.frame } ∧
         (∀ r ∈ (u.core c.core).regions, r.bank ≠ c.bank))

/-- LAUNCH waits until its earlier stores are performed at .pod, then gives the code of the first check that fails, or of acceptance (05 R125; 14 R355). MREPAIR of a station that is not there answers 1 at once; another is sent to the station, whose answer it awaits for at most 65,536 clk (14 R354). -/
def Obligations.LaunchAndRepairWords : Prop :=
  (∀ (s : State) (g : Guard) (b a d : BitVec 5) (im : Image),
       let c := s.foc.ctx
       let t := s.flush c
       let die := dieOf c.core
       s.fctx.job = 0 → kindOf c.core = .dispatch → s.Ready { guard := g, srcs := [a.toNat, b.toNat], outs := [d.toNat] } →
       (t.performed s.foc 4 false = true →
         t.readImage c (wfield (t.rd a) 0 56) (t.rd b).toNat = .ok im →
         let code := (t.launchCode die im).1
         let u := if code = 1 then t.acceptPlat die im else t.writeStatus die im.rec_ code (t.launchCode die im).2 t.clk
         exec (.launch g b a d) s = .next ((u.freeTime.2.interlocked d.toNat (u.clk + u.freeTime.1) (BitVec.ofNat 64 code)).issued 2)) ∧
       (t.performed s.foc 4 false = false → exec (.launch g b a d) s = .next (t.waits 0x03))) ∧
  (∀ (s : State) (a d : BitVec 5), s.fctx.job = 0 → s.Ready { srcs := [a.toNat], outs := [d.toNat] } →
       let v := s.rd a
       let absent := wfield v 28 2 = 3 ∨ 12 ≤ wfield v 18 4 ∨ s.pod.mods.contains (wfield v 22 6) = false
       (absent → exec (.mrepair a d) s = .next ((s.interlocked d.toNat s.clk 1).issued 2)) ∧
       (¬ absent →
         let w := s.awaited d.toNat
         exec (.mrepair a d) s = .next (((w.2.egress s.foc.ctx.core (mgmtSlot s.foc.ctx.core 0 (wfield v 22 6) (wfield v 18 4) 0 6
           [v.toNat, s.foc.ctx.core, s.foc.ctx.bank, w.1]) (w.2.clk + 1)).post
             ((w.2.egress s.foc.ctx.core (mgmtSlot s.foc.ctx.core 0 (wfield v 22 6) (wfield v 18 4) 0 6
               [v.toNat, s.foc.ctx.core, s.foc.ctx.bank, w.1]) (w.2.clk + 1)).clk + 65536) (.mrepairNoAnswer s.foc w.1)).issued 2)))

/-! ## Vector stream (18 R380 to R408; 11 R270 to R280) -/

/-- An active element of an element-wise result is the operation on the elements of the same place, and its flags are among those that
the word raises; a landing writes the active elements alone (18 R381, R382). -/
def Obligations.ActiveElements : Prop :=
  (∀ (m : Mask) (f : Elem → Elem → Elem × Flags) (a b : List Elem) (i : Nat) (x y : Elem),
    a[i]? = some x → b[i]? = some y → m.getLsbD i = true →
    (vmap2 m f a b).1[i]? = some (f x y).1 ∧ (f x y).2 ||| (vmap2 m f a b).2 = (vmap2 m f a b).2) ∧
  (∀ (m : Mask) (old new : List Elem) (i : Nat) (x y : Elem), old[i]? = some x → new[i]? = some y →
    (blend m old new)[i]? = some (if m.getLsbD i then y else x)) ∧
  (∀ (x : Ctx) (p : Pend) (v : List Elem), p.val = .vec v → p.elems ≠ maskAll → p.fl = 0 →
    (x.land .v p).vf.vregs = Sp.put x.vf.vregs p.reg (blend p.elems (Sp.get vzero x.vf.vregs p.reg) v))

/-- The float element words work on the active elements with VSTAT.RM and raise the flags of those (18 R381 to R385, R390): latency 4 for
class A, and 10 for the words of R385. -/
def Obligations.FloatElementWords : Prop :=
  ∀ (s : State) (g : Guard) (q : BitVec 4) (c b a d : BitVec 5),
    let x := s.fctx
    let va := x.vreg a.toNat
    let vb := x.vreg b.toNat
    let vc := x.vreg c.toNat
    let m := x.guardMask g
    (s.Ready { guard := g, srcs := [a.toNat, b.toNat], dsts := [(d.toNat, s.lat 4)] } →
      let two (i : Instr) (f : Elem → Elem → Elem × Flags) : Prop :=
        exec i s = .next ((s.vresult d.toNat (s.lat 4) (vmap2 m f va vb).1 m (vmap2 m f va vb).2).issued 2)
      two (.vadd g b a d) (fAdd x.rm) ∧ two (.vsub g b a d) (fSub x.rm) ∧ two (.vmul g b a d) (fMul x.rm) ∧
      two (.vmin g b a d) fMin ∧ two (.vmax g b a d) fMax) ∧
    (s.Ready { guard := g, srcs := [a.toNat], dsts := [(d.toNat, s.lat 4)] } →
      let one (i : Instr) (f : Elem → Elem × Flags) : Prop :=
        exec i s = .next ((s.vresult d.toNat (s.lat 4) (vmap1 m f va).1 m (vmap1 m f va).2).issued 2)
      one (.vabs g a d) (fun e => (fAbs e, 0)) ∧ one (.vneg g a d) (fun e => (fNeg e, 0)) ∧ one (.vmov g a d) (fun e => (e, 0)) ∧
      one (.vcvtI32 g a d) (fToI32 x.rm) ∧ one (.vcvtF32 g a d) (i32ToF x.rm) ∧
      one (.vrndBf16 g a d) (fun e => (widenBf16 (roundBf16 x.rm e).1, (roundBf16 x.rm e).2)) ∧
      one (.vrndT8 g a d) (roundTapered t8) ∧
      (x.hasFeature 0 = true → one (.vrndT6 g a d) (roundTapered t6))) ∧
    (s.Ready { guard := g, srcs := [a.toNat], dsts := [(d.toNat, s.lat 10)] } →
      let one (i : Instr) (f : Elem → Elem × Flags) : Prop :=
        exec i s = .next ((s.vresult d.toNat (s.lat 10) (vmap1 m f va).1 m (vmap1 m f va).2).issued 2)
      one (.vrcp g a d) (fRcp x.rm) ∧ one (.vrsq g a d) (fRsq x.rm) ∧ one (.vsqrt g a d) (fSqrt x.rm) ∧
      one (.vexp2 g a d) (fExp2 x.rm) ∧ one (.vlog2 g a d) (fLog2 x.rm) ∧ one (.vsin g a d) (fTrig false x.rm) ∧
      one (.vcos g a d) (fTrig true x.rm) ∧ one (.vtanh g a d) (fTanh x.rm)) ∧
    (let k : Guard := ⟨false, q.setWidth 6⟩
     s.Ready { guard := k, srcs := [a.toNat, b.toNat, c.toNat], dsts := [(d.toNat, s.lat 4)] } →
      -- a * b + c, a * b - c, -(a * b) - c, -(a * b) + c, each rounded once
      let three (i : Instr) (np nc : Bool) : Prop :=
        exec i s = .next ((s.vresult d.toNat (s.lat 4) (vmap3 (x.guardMask k) (fFma np nc x.rm) va vb vc).1 (x.guardMask k)
          (vmap3 (x.guardMask k) (fFma np nc x.rm) va vb vc).2).issued 2)
      three (.vfma q c b a d) false false ∧ three (.vfms q c b a d) false true ∧ three (.vfnma q c b a d) true true ∧
      three (.vfnms q c b a d) true false)

/-- The integer element words, compares and the select (18 R386, R387, R389): latency 2, and a float compare the float latency. -/
def Obligations.IntegerElementWords : Prop :=
  ∀ (s : State) (g : Guard) (n : Bool) (b a d : BitVec 5) (p : BitVec 6),
    let x := s.fctx
    let va := x.vreg a.toNat
    let vb := x.vreg b.toNat
    let m := x.guardMask g
    (s.Ready { guard := g, srcs := [a.toNat, b.toNat], dsts := [(d.toNat, 2)] } →
      let two (i : Instr) (f : Elem → Elem → Elem) : Prop :=
        exec i s = .next ((s.vresult d.toNat 2 (vmap2 m (fun e k => (f e k, 0)) va vb).1 m (vmap2 m (fun e k => (f e k, 0)) va vb).2).issued 2)
      two (.viadd g b a d) (fun e k => e + k) ∧ two (.visub g b a d) (fun e k => e - k) ∧ two (.vimul g b a d) (fun e k => e * k) ∧
      two (.vand g b a d) (fun e k => e &&& k) ∧ two (.vor g b a d) (fun e k => e ||| k) ∧ two (.vxor g b a d) (fun e k => e ^^^ k) ∧
      two (.vshl g b a d) (fun e k => e <<< (k.toNat % 32)) ∧ two (.vshr g b a d) (fun e k => e >>> (k.toNat % 32)) ∧
      two (.vsar g b a d) (fun e k => e.sshiftRight (k.toNat % 32)) ∧
      two (.vimin g b a d) (fun e k => if k.toInt < e.toInt then k else e) ∧
      two (.vimax g b a d) (fun e k => if e.toInt < k.toInt then k else e)) ∧
    (let out (c : VCond) : Mask :=
       (((va.zip vb).map (fun q => (c.holds q.1 q.2).1 != n)).zipIdx.filter (fun r => r.1)).foldl
         (fun w r => w ||| BitVec.twoPow 1024 r.2) 0
     let flags (c : VCond) : Flags := ((va.zip vb).map (fun q => (c.holds q.1 q.2).2)).foldl (fun f e => f ||| e) 0
     let one (i : Instr) (c : VCond) (lat : Nat) : Prop :=
       s.Ready { srcs := [a.toNat, b.toNat], dsts := [(codeP p.toNat, lat)] } →
       exec i s = .next ((s.result (codeP p.toNat) lat (.mask (out c)) maskAll (flags c) false).issued 2)
     one (.vcmpEq n b a p) .eq (s.lat 4) ∧ one (.vcmpNe n b a p) .ne (s.lat 4) ∧ one (.vcmpLt n b a p) .lt (s.lat 4) ∧
     one (.vcmpLe n b a p) .le (s.lat 4) ∧ one (.vcmpGt n b a p) .gt (s.lat 4) ∧ one (.vcmpGe n b a p) .ge (s.lat 4) ∧
     one (.vcmpOrd n b a p) .ord (s.lat 4) ∧ one (.vcmpUno n b a p) .uno (s.lat 4) ∧ one (.vcmpIeq n b a p) .ieq 2 ∧
     one (.vcmpIlt n b a p) .ilt 2 ∧ one (.vcmpIltu n b a p) .iltu 2) ∧
    (s.Ready { srcs := [codeP g.p.toNat, a.toNat, b.toNat], dsts := [(d.toNat, 2)] } →
      exec (.vsel g b a d) s = .next ((s.vresult d.toNat 2 (blend m vb va) maskAll 0).issued 2))

/-- Moves across the register and reductions (18 R391, R392; 13 R307): rows and columns rotate modulo 16 and 64, a
broadcast copies one row or column, VTRN16 transposes each block of 16 columns, and a reduction pairs element k with k + n / 2. -/
def Obligations.MoveAndReduceWords : Prop :=
  ∀ (s : State) (r : BitVec 4) (c : BitVec 6) (a d : BitVec 5),
    let x := s.fctx
    let v := x.vreg a.toNat
    let one (w : Instr) (lat : Nat) (f : Nat → Nat → Elem) : Prop :=
      s.Ready { srcs := [a.toNat], dsts := [(d.toNat, lat)] } →
      exec w s = .next ((s.vresult d.toNat lat (vbuild f) maskAll 0).issued 2)
    let cols (f : Elem → Elem → Elem × Flags) (j : Nat) : Elem × Flags := reduceTree f 4 ((List.range 16).map (fun k => vat v k j), 0)
    let rows (f : Elem → Elem → Elem × Flags) (k : Nat) : Elem × Flags := reduceTree f 6 ((List.range 64).map (fun j => vat v k j), 0)
    let red (w : Instr) (lat n : Nat) (f : Nat → Elem × Flags) (down : Bool) : Prop :=
      s.Ready { srcs := [a.toNat], dsts := [(d.toNat, lat)] } →
      exec w s = .next ((s.vresult d.toNat lat (vbuild (fun k j => (((List.range n).map f).getD (if down then j else k) (0, 0)).1)) maskAll
        (((List.range n).map f).foldl (fun fl e => fl ||| e.2) 0)).issued 2)
    one (.vrotr r a d) 2 (fun k j => vat v ((k + r.toNat) % 16) j) ∧ one (.vrotc c a d) 6 (fun k j => vat v k ((j + c.toNat) % 64)) ∧
    one (.vbcr r a d) 2 (fun _ j => vat v r.toNat j) ∧ one (.vbcc c a d) 5 (fun k _ => vat v k c.toNat) ∧
    one (.vtrn16 a d) 8 (fun k j => vat v (j % 16) (16 * (j / 16) + k)) ∧
    red (.vredrSum a d) (s.lat 8) 64 (cols (fAdd x.rm)) true ∧ red (.vredrMax a d) (s.lat 8) 64 (cols fMax) true ∧
    red (.vredrMin a d) (s.lat 8) 64 (cols fMin) true ∧ red (.vredcSum a d) (s.lat 12) 16 (rows (fAdd x.rm)) false ∧
    red (.vredcMax a d) (s.lat 12) 16 (rows fMax) false ∧ red (.vredcMin a d) (s.lat 12) 16 (rows fMin) false ∧
    (s.foc.st = .v → s.Ready { srcs := [a.toNat], dsts := [(d.toNat, 2)] } →
      exec (.mvh a d) s = .next ((s.result d.toNat 2 (.vec v) maskAll 0 false).issued 1))

/-- VLI (18 R393; 13 R303): major 0x0A with FN 0, FN 1 ILLEGAL; every element of vd becomes the 20 given bits over 12 zero bits, whatever they
are, with latency 2 and no flag; on a core with lanes struck for a lasting fault nothing assures the elements of those (04 R112). -/
def Obligations.VectorImmediateWords : Prop :=
  ∀ (s : State) (i : BitVec 20) (d : BitVec 5),
    let code (fn : BitVec 1) : BitVec 32 := fn ++ i ++ d ++ 0x0A#5 ++ 1#1
    decode32 .compute .v (code 0) = .ok (.vli i d) ∧ decode32 .compute .v (code 1) = .error .unallocatedFn ∧
    (s.Ready { dsts := [(d.toNat, 2)] } →
      exec (.vli i d) s = .next ((s.vresult d.toNat 2 (List.replicate 1024 (i ++ 0#12)) maskAll 0).issued 2)) ∧
    (s.faultyGroups s.foc.ctx.core = [] →
      s.vresult d.toNat 2 (List.replicate 1024 (i ++ 0#12)) maskAll 0 = s.result d.toNat 2 (.vec (List.replicate 1024 (i ++ 0#12))) maskAll 0 false)

/-- The queue words of V (18 R395, R396): VPOP takes granules into rows, readable 2 clk after the take; VPUSH appends rows; VTOS pushes two
neighbouring elements to q3; VFRS broadcasts a half of an element of q1. VLDL and VSTL move a register and spill memory (18 R398), and
raise PERM for an offset above 304. -/
def Obligations.VectorQueueAndSpillWords : Prop :=
  ∀ (s : State) (n r q : BitVec 4) (j : BitVec 5) (h : Bool) (o : BitVec 12) (a d : BitVec 5),
    let x := s.fctx
    let v := x.vreg a.toNat
    (s.Ready { outs := [d.toNat] } → ∀ gs, (x.dq q.toNat).heads (n.toNat + 1) s.clk = some gs →
      exec (.vpop n r q d) s = .next (((s.modF (fun x => x.putDq q.toNat ((x.dq q.toNat).take (n.toNat + 1) s.clk))).taken d.toNat
        (.vec (rowsVec r.toNat gs)) (rowsMask r.toNat (n.toNat + 1)) 0 false).issued 2)) ∧
    (s.Ready { srcs := [a.toNat] } → (x.dq q.toNat).room (n.toNat + 1) s.clk = true →
      exec (.vpush n r q a) s = .next ((s.modF (fun x => x.putDq q.toNat ((x.dq q.toNat).push
        ((List.range (n.toNat + 1)).map (fun i => rowOf v (r.toNat + i))) (s.clk + 1)))).issued 2)) ∧
    (s.Ready { srcs := [a.toNat] } → x.q3.full 8 s.clk = false →
      exec (.vtos j r a) s = .next ((s.modF (fun x => { x with
        q3 := x.q3.add (vat v r.toNat (2 * j.toNat + 1) ++ vat v r.toNat (2 * j.toNat)) (s.clk + 2) })).issued 2)) ∧
    (s.Ready { outs := [d.toNat] } → ∀ e, x.q1.head s.clk = some e →
      exec (.vfrs h d) s = .next (((s.modF (fun x => { x with q1 := x.q1.take s.clk })).taken d.toNat
        (.vec (List.replicate 1024 (if h then e.extractLsb' 32 32 else e.extractLsb' 0 32))) maskAll 0 false).issued 2)) ∧
    (s.Ready { dsts := [(d.toNat, 3)] } →
      (o.toNat ≤ 304 → exec (.vldl o d) s = .next ((s.result d.toNat 3
        (.vec ((elemsLE 4 1024 (Memory.readN x.spillV (256 * o.toNat) 4096)).map (BitVec.ofNat 32))) maskAll 0 false).issued 2)) ∧
      (304 < o.toNat → exec (.vldl o d) s = .next (s.raise 0x08 (o.setWidth 64)))) ∧
    (s.Ready { srcs := [a.toNat] } →
      (o.toNat ≤ 304 → exec (.vstl o a) s = .next ((s.modF (fun x => { x with
        spillV := Memory.writeN x.spillV (256 * o.toNat) (v.flatMap (fun e => bytesLE 4 e.toNat)) })).issued 2)) ∧
      (304 < o.toNat → exec (.vstl o a) s = .next (s.raise 0x08 (o.setWidth 64))))

/-- The distribution words that make a register (18 R402 to R404; 11 R271 to R276): a pairing of lockstep operands keeps the stamp rule of
11 R275 and takes 8 clk for class A, another takes a fresh stamp and 24; scalars stand in row 0; maps; points and normals; queues. -/
def Obligations.DistributionResults : Prop :=
  ∀ (s : State) (r q : BitVec 4) (b a d : BitVec 5),
    let x := s.fctx
    let da := x.dreg a.toNat
    let db := x.dreg b.toNat
    let stamped := s.modF (fun _ => x.takeStamp.2)
    (dCase da db = .lockstep → s.Ready { feature := some 2, srcs := [codeD a.toNat, codeD b.toNat], dsts := [(codeD d.toNat, s.lat 8)] } →
      let one (i : Instr) (o : DOp) : Prop :=
        exec i s = .next ((s.dresult d.toNat (s.lat 8) (pairRegs o x.drm 0 da db).1 (pairRegs o x.drm 0 da db).2).issued 2)
      one (.dadd b a d) .add ∧ one (.dsub b a d) .sub ∧ one (.dmul b a d) .mul ∧ one (.dmix b a d) .mix) ∧
    (dCase da db = .independent →
      s.Ready { feature := some 2, srcs := [codeD a.toNat, codeD b.toNat], dsts := [(codeD d.toNat, s.lat 24)], pairing := true } →
      let one (i : Instr) (o : DOp) : Prop :=
        exec i s = .next (((stamped.modFs (fun y => { y with lastPair := some s.clk })).dresult d.toNat (s.lat 24)
          (pairRegs o x.drm x.takeStamp.1 da db).1 (pairRegs o x.drm x.takeStamp.1 da db).2).issued 2)
      one (.dadd b a d) .add ∧ one (.dsub b a d) .sub ∧ one (.dmul b a d) .mul ∧ one (.dmix b a d) .mix) ∧
    (s.Ready { feature := some 2, srcs := [codeD a.toNat, b.toNat], dsts := [(codeD d.toNat, s.lat 6)] } →
      let one (i : Instr) (f : Elem → Elem → Elem × Flags) : Prop :=
        exec i s = .next ((s.dresult d.toNat (s.lat 6) (mapReg f da (rowOf (x.vreg b.toNat) 0)).1
          (mapReg f da (rowOf (x.vreg b.toNat) 0)).2).issued 2)
      one (.dmuls b a d) (fMul x.drm) ∧ one (.dadds b a d) (fAdd x.drm) ∧ one (.dmaxs b a d) fMax) ∧
    (s.Ready { feature := some 2, srcs := [codeD a.toNat], dsts := [(codeD d.toNat, s.lat 6)] } →
      let one (i : Instr) (f : Elem → Elem × Flags) : Prop :=
        exec i s = .next ((s.dresult d.toNat (s.lat 6) (mapReg1 f da).1 (mapReg1 f da).2).issued 2)
      one (.dmapExp2 a d) (fExp2 x.drm) ∧ one (.dmapLog2 a d) (fLog2 x.drm) ∧ one (.dmapTanh a d) (fTanh x.drm) ∧
      one (.dmapSigmoid a d) (fSigmoid x.drm)) ∧
    (s.Ready { feature := some 2, srcs := [a.toNat], dsts := [(codeD d.toNat, 2)] } →
      exec (.dpt r a d) s = .next ((stamped.dresult d.toNat 2
        ⟨(rowOf (x.vreg a.toNat) r.toNat).map (fun e => (dptLane e).1), 0, x.takeStamp.1⟩
        ((rowOf (x.vreg a.toNat) r.toNat).foldl (fun f e => f ||| (dptLane e).2) 0)).issued 2)) ∧
    (s.Ready { feature := some 2, srcs := [a.toNat], dsts := [(codeD d.toNat, s.lat 6)] } →
      let ls := ((rowOf (x.vreg a.toNat) r.toNat).zip (rowOf (x.vreg a.toNat) (r.toNat + 1))).map (fun p => gaussLane x.drm p.1 p.2)
      exec (.dgauss r a d) s = .next ((stamped.dresult d.toNat (s.lat 6) ⟨ls.map Prod.fst, 0, x.takeStamp.1⟩
        (ls.foldl (fun f l => f ||| l.2) 0)).issued 2)) ∧
    (s.Ready { feature := some 2, outs := [codeD d.toNat] } → ∀ gs, (x.dq q.toNat).heads 12 s.clk = some gs →
      ∃ t, exec (.dpop q d) s = .next t ∧ t.fctx.dq q.toNat = (x.dq q.toNat).take 12 s.clk ∧
        t.fctx.vf.dstat = withField x.vf.dstat 32 16 (freshStamp x.vf.dstat).toNat ∧
        ∃ p ∈ t.fstrm.pend, p.reg = codeD d.toNat ∧ p.land = s.clk + 1 ∧
          p.val = .dist ⟨(dregOfRow gs).map normalise, 0, freshStamp x.vf.dstat⟩) ∧
    (s.Ready { feature := some 2, srcs := [codeD a.toNat] } → (x.dq q.toNat).room 12 s.clk = true →
      exec (.dpush q a) s = .next ((s.modF (fun x => x.putDq q.toNat ((x.dq q.toNat).push
        (rowOfLanes (da.lanes.map Lane.read)) (s.clk + 1)))).issued 2))

/-- The distribution words that read statistics, tags and flags (18 R406 to R408; 11 R279, R280).
What DFLG does at the end of clk t + 1 (18 R408): it clears the flags NV, OF, UF, NX and DD that it names, and with bit 15 sets RM and
DDE; a fresh stamp is NEXTL + 1 modulo 65,535 from 1 up (11 R274). -/
def Obligations.DistributionReadsAndStatus : Prop :=
  (∀ (s : State) (k : BitVec 2) (r : BitVec 4) (i : BitVec 16) (a d : BitVec 5),
       let x := s.fctx
       let da := x.dreg a.toNat
       (s.Ready { feature := some 2, srcs := [codeD a.toNat], dsts := [(d.toNat, s.lat 12)] } →
         exec (.dmom k r a d) s = .next ((s.statResult d.toNat (s.lat 12) r.toNat (da.lanes.map (momentLane x.drm k.toNat))).issued 2)) ∧
       (s.Ready { feature := some 2, srcs := [codeD a.toNat, d.toNat], dsts := [(d.toNat, s.lat 14)] } →
         exec (.dqnt r a d) s = .next ((s.statResult d.toNat (s.lat 14) r.toNat
           ((da.lanes.zip (rowOf (x.vreg d.toNat) r.toNat)).map (fun p => quantileLane x.drm p.1 p.2))).issued 2)) ∧
       (s.Ready { feature := some 2, srcs := [codeD d.toNat], dsts := [(codeD d.toNat, 2)] } →
         exec (.dtag i d) s = .next ((s.result (codeD d.toNat) 2 (.dist { (x.dreg d.toNat).read with tag := i }) maskAll 0 true).issued 2) ∧
         (i ≠ 0 → exec (.dlin i d) s = .next (((s.modF (fun _ => x)).result (codeD d.toNat) 2
           (.dist { (x.dreg d.toNat).read with lin := i }) maskAll 0 true).issued 2)) ∧
         (i = 0 → exec (.dlin i d) s = .next (((s.modF (fun _ => x.takeStamp.2)).result (codeD d.toNat) 2
           (.dist { (x.dreg d.toNat).read with lin := x.takeStamp.1 }) maskAll 0 true).issued 2))) ∧
       (s.Ready { feature := some 2 } →
         exec (.dflg i) s = .next ((s.modF (fun x => x.dflgLater s.clk i)).issued 2) ∧
         (x.q3.full 8 s.clk = false → exec (.dflgRd i) s = .next ((s.modF (fun x =>
           ({ x with q3 := x.q3.add (x.vf.dstat &&& 0xFFFFFFFFFFFF) (s.clk + 2) }).dflgLater s.clk i)).issued 2)))) ∧
  ((∀ (w : Word) (clear : Flags) (i : Nat), i < 16 → (dflgApply w clear none).getLsbD i = (w.getLsbD i && !clear.getLsbD i)) ∧
     (∀ (w : Word) (clear : Flags) (v : BitVec 3),
       (dflgApply w clear (some v)).getLsbD 16 = v.getLsbD 2 ∧ (∀ i, i < 2 → (dflgApply w clear (some v)).getLsbD i = v.getLsbD i)) ∧
     (∀ w : Word, (freshStamp w).toNat = wfield w 32 16 % 65535 + 1 ∧ freshStamp w ≠ 0))

/-! ## Access stream (15 R358 to R370) and engine words (14 R342 to R345; 21 R414, R415) -/

/-- LDV and LDG, once the request order has room and after them their queues, locate all their pieces as one access, reserve one granule of their
queue for each row in queue order, LDG taking its index granules, and enter the request order (15 R360 to R362, R364; 07 R170); the granule of a row
that lies in a buffer of the core, started at once, is readable 6 clk later, with the conflict clk of its banks, and holds the elements that
its bytes and scales give; LDV and STV raise ALIGN with the lowest row address that the element size does not divide. -/
def Obligations.VectorLoadWords : Prop :=
  (∀ (s s' : State) (n : BitVec 6) (r b q : BitVec 5) (fmt : Nat) (xs : List Spot) (idx : List (List Elem)),
       let count := n.toNat + 1
       (s.Ready { srcs := [b.toNat, r.toNat] } →
         (s.orderFull = true → exec (.ldv n r b q) s = .next (s.waits 0x03)) ∧
         (s.orderFull = false → (s.fctx.dq q.toNat).room count s.clk = false → exec (.ldv n r b q) s = .next (s.waits (0x20 + q.toNat))) ∧
         (s.orderFull = false → (s.fctx.dq q.toNat).room count s.clk = true → s.locateRows .read b r count = (fmt, .at xs s') →
           exec (.ldv n r b q) s = .next ((s'.vectorLoad q.toNat fmt count xs (rowUnits count xs)).issued 2))) ∧
       (s.Ready { srcs := [b.toNat] } → s.orderFull = false →
         ((s.fctx.dq r.toNat).heads count s.clk = none → exec (.ldg n r b q) s = .next (s.waits (0x10 + r.toNat))) ∧
         ((s.fctx.dq r.toNat).heads count s.clk = some idx → (s.fctx.dq q.toNat).room count s.clk = true →
           s.locateLanes .read b idx = (fmt, .at xs s') →
           exec (.ldg n r b q) s = .next (((s'.modF (fun x => x.putDq r.toNat ((x.dq r.toNat).take count s.clk))).vectorLoad q.toNat fmt count xs
             (laneUnits count xs)).issued 2)))) ∧
  (∀ (s : State) (q fmt : Nat) (x : Spot) (k off : Nat),
       let i : StreamId := ⟨s.foc.ctx, .a⟩
       4 ≤ q → q ≤ 9 → x.place = .buf k off → x.p.g = 0 → s.fctx.displaced = false → s.fcore.poisoned k off x.p.len = false →
       s.fcore.ap = [] → s.fcore.apFree ≤ s.clk → (∀ g ∈ (s.fctx.dq q).items, g.data = none → g.ticket ≠ s.fctx.tickets) →
       s.soFlight i none = false → s.fcore.ownMeets i false x.place x.p.len = false →
       let t := s.vectorLoad q fmt 1 [x] (rowUnits 1 [x])
       ∃ g, (t.fctx.dq q).items = (s.fctx.dq q).items ++ [g] ∧ g.ready = s.clk + 6 + (bankClk [x] - 1) ∧
         g.data = some (granuleOf fmt ((List.range (x.p.len / elemSize fmt)).map (fun i =>
           (x.p.off / elemSize fmt + i, x.p.off + i * elemSize fmt, expAt (s.expsOf (elemSize fmt) [] [] [x]) (x.p.off + i * elemSize fmt))))
             (Memory.writeN [] x.p.off (Memory.readN (s.fcore.buf k) off x.p.len))) ∧ t.mem = s.mem) ∧
  (∀ (s : State) (n : BitVec 6) (r b q : BitVec 5) (fmt : Nat) (gs : List (List Elem)) (a : Word),
       s.Ready { srcs := [b.toNat, r.toNat] } → s.orderFull = false →
       ((s.fctx.dq q.toNat).room (n.toNat + 1) s.clk = true → s.locateRows .read b r (n.toNat + 1) = (fmt, .stop (.trap 0x07 a)) →
         exec (.ldv n r b q) s = .next (s.raise 0x07 a)) ∧
       ((s.fctx.dq q.toNat).heads (n.toNat + 1) s.clk = some gs → s.locateRows .write b r (n.toNat + 1) = (fmt, .stop (.trap 0x07 a)) →
         exec (.stv n r b q) s = .next (s.raise 0x07 a)))

/-- STV, STSC, AMOV.add and AMOV.max take their granules once all their pieces are located, and enter the request order (15 R360, R361, R363, R365,
R366); the access processor writes a row's bytes into a buffer of the core, and at a home of its own module an atomic's lanes one after the
other, each element the sum or the maximum of the old one and its own. -/
def Obligations.VectorStoreWords : Prop :=
  (∀ (s s' : State) (n : BitVec 6) (r b q : BitVec 5) (fmt : Nat) (xs : List Spot) (idx gs : List (List Elem)),
    let count := n.toNat + 1
    s.orderFull = false →
    (s.Ready { srcs := [b.toNat, r.toNat] } →
      ((s.fctx.dq q.toNat).heads count s.clk = none → exec (.stv n r b q) s = .next (s.waits (0x10 + q.toNat))) ∧
      ((s.fctx.dq q.toNat).heads count s.clk = some gs → s.locateRows .write b r count = (fmt, .at xs s') →
        exec (.stv n r b q) s = .next (((s'.modF (fun x => x.putDq q.toNat ((x.dq q.toNat).take count s.clk))).apEnter .store fmt 0 xs
          (rowUnits count xs) gs).issued 2))) ∧
    (s.Ready { srcs := [b.toNat] } → (s.fctx.dq r.toNat).heads count s.clk = some idx → (s.fctx.dq q.toNat).heads count s.clk = some gs →
      (s.locateLanes .write b idx = (fmt, .at xs s') →
        exec (.stsc n r b q) s = .next (((s'.modF (fun x => x.takeBoth r.toNat q.toNat count s.clk)).apEnter .store fmt 0 xs
          (laneUnits count xs) gs).issued 2)) ∧
      (s.locateLanes .atomic b idx = (fmt, .at xs s') →
        let done (mx : Bool) : State := ((s'.modF (fun x => x.takeBoth r.toNat q.toNat count s.clk)).apEnter (.atomic mx) fmt 0 xs
          (laneUnits count xs) gs).issued 2
        exec (.amovAdd n r b q) s = .next (done false) ∧ exec (.amovMax n r b q) s = .next (done true)))) ∧
  (∀ (s : State) (w : ApWord) (u : ApUnit) (rest : List ApUnit) (x : Spot) (gran : List Elem) (k off : Nat),
    w.units = u :: rest → u.spots = [x] → u.todo = none → w.data[u.g]? = some gran → s.foc = ⟨w.ctx, .a⟩ → w.exps = none → x.geom = 0 →
    (∀ v ∈ rest, v.g ≠ u.g) → s.soFlight s.foc (x.place.station (modOf w.ctx.core)) = false →
    (w.kind = .store → x.place = .buf k off → (s.core w.ctx.core).ownMeets s.foc true x.place x.p.len = false →
      s.apStart w u rest = (s.writeBufIn w.ctx k off (pieceBytes w.fmt [] gran x)).apNext w u rest (bankClk [x]) id) ∧
    (∀ mx l pa, w.kind = .atomic mx → x.place = .mem l (modOf w.ctx.core) pa →
      s.forwardCase w.ctx.core (.global (modOf w.ctx.core) (homeStation pa)) (pa / 64 * 64) 64 = .go →
      let old := BitVec.ofNat 32 (Memory.readLE s.mem (memKey (modOf w.ctx.core) pa) 4)
      let new := if mx then (fMax old ((gran[x.p.off / 4]?).getD 0)).1 else (fAdd .rne old ((gran[x.p.off / 4]?).getD 0)).1
      s.apStart w u rest = (s.writeMem (s.ctx w.ctx).plat (modOf w.ctx.core) pa (bytesLE 4 new.toNat)).apNext w u rest 1 id))

/-- PREF never faults, and does nothing for a selector other than the global one or a page that would fault (15 R369); TLBP gives the
translation that is held 4 clk later, and a fault code of 6 for another selector (R370). -/
def Obligations.TranslationProbes : Prop :=
  ∀ (s : State) (i : BitVec 12) (a d : BitVec 5),
    (s.Ready { srcs := [a.toNat] } →
      ((∀ va, decodeEa (kindOf s.foc.ctx.core) (s.rd a + i.signExtend 64) 1 ≠ .glob va) → exec (.pref i a) s = .next (s.issued 2)) ∧
      (∀ va kind level g, decodeEa (kindOf s.foc.ctx.core) (s.rd a + i.signExtend 64) 1 = .glob va →
        s.walk s.foc.ctx.core s.fctx.job.toNat .prefetch va = .fault kind level g → exec (.pref i a) s = .next (s.issued 2)) ∧
      (∀ va l t, decodeEa (kindOf s.foc.ctx.core) (s.rd a + i.signExtend 64) 1 = .glob va →
        s.walk s.foc.ctx.core s.fctx.job.toNat .prefetch va = .ok l → s.translate s.foc.ctx 1 .prefetch va = .leaf l t →
        exec (.pref i a) s = .next (t.issued 2))) ∧
    (s.Ready { srcs := [a.toNat], outs := [d.toNat] } →
      ((∀ va, decodeEa (kindOf s.foc.ctx.core) (s.rd a) 1 ≠ .glob va) →
        exec (.tlbp a d) s = .next ((s.interlocked d.toNat (s.clk + 3) (BitVec.ofNat 64 (6 * 2 ^ 60))).issued 2)) ∧
      (∀ va l, decodeEa (kindOf s.foc.ctx.core) (s.rd a) 1 = .glob va → s.acquiring s.foc = false → s.fcore.tlbHit s.fctx.job va = some l →
        exec (.tlbp a d) s = .next ((s.interlocked d.toNat (s.clk + 3)
          (if s.outOfMemory s.foc.ctx.core s.fctx.job l va then BitVec.ofNat 64 (5 * 2 ^ 60) else tlbpWord l va true)).issued 2)))

/-- A command word whose checks pass and whose queue has room, where the stores of its stream before it have been performed, appends its
command, eligible 4 clk later, with its place in program order, the copy that the check core has of it and, for a copy command, its tag and
the mapping of its pages (14 R342; 07 R171, R176, R178; 09 R245; 04 R105; 21 R415); a failed check raises its cause, and in a handler mode a word
that its other checks let pass raises PRIV (12 R283). PUSH ra pushes the word in ra. -/
def Obligations.EngineCommandWords : Prop :=
  ∀ (s : State) (e : EngArgs) (t : Bool) (f : BitVec 3) (h l : Bool),
    s.Ready { srcs := [e.sa.toNat, e.sb.toNat] } →
    (∀ (g : Guard) (a : BitVec 5), s.fctx.normal = false → exec (.push g a) s = .next (s.raise 0x03 (s.firstHalf.setWidth 64))) ∧
    ∀ i w, (i, w) ∈ [(Instr.cld e, (⟨.load, 0, 0, e⟩ : Cmd)), (.cst e, ⟨.store, 1, 0, e⟩), (.csta e, ⟨.store, 2, 0, e⟩),
        (.cchn e h l, ⟨.load, 3, BitVec.ofBool h ++ BitVec.ofBool l ++ 0#2, e⟩), (.cslc e, ⟨.store, 4, 0, e⟩), (.covl e, ⟨.load, 5, 0, e⟩),
        (.cmig e t, ⟨.load, 6, BitVec.ofBool t ++ 0#3, e⟩), (.cinv e t, ⟨.load, 7, BitVec.ofBool t ++ 0#3, e⟩),
        (.mma e t f, ⟨.matrix, 0, BitVec.ofBool t ++ f, e⟩), (.mmas e t f, ⟨.matrix, 1, BitVec.ofBool t ++ f, e⟩),
        (.mrot e, ⟨.matrix, 2, 0, e⟩), (.mdrn e, ⟨.matrix, 3, 0, e⟩), (.mclr e, ⟨.matrix, 4, 0, e⟩), (.msgn e, ⟨.matrix, 5, 0, e⟩),
        (.wmax e, ⟨.row, 0, 0, e⟩), (.wexs e, ⟨.row, 1, 0, e⟩), (.wscl e, ⟨.row, 2, 0, e⟩), (.wmom e, ⟨.row, 3, 0, e⟩),
        (.wapl e, ⟨.row, 4, 0, e⟩)] →
      (s.fctx.normal = false → s.cmdIllegal w (s.rd e.sa) (s.rd e.sb) = false → (s.cmdNeed w).feature = none →
        exec i s = .next (s.raise 0x03 (s.firstHalf.setWidth 64))) ∧
      -- the word completes, and so does PUSH ra with that word in ra
      (s.fctx.normal = true → s.fctx.eng.full w.eng s.clk = false → s.ownPending s.foc = false → s.acquirePending s.foc = false →
        s.pushCheck w (s.rd e.sa) (s.rd e.sb) = none →
        let copy := w.eng == .load || w.eng == .store
        let u := s.flush s.foc.ctx
        let own := (u.fctx.eng.setOf w.eng).after (u.fctx.eng.swaps w.eng + bit e.sw)
        let done := (u.modF (fun x =>
          let cm : Command := { cmd := w.cmd, flags := w.fl, sw := e.sw, sig := e.sig.toNat, wait := e.wait.toNat, va := s.rd e.sa,
                                vb := s.rd e.sb, tag := if copy then x.eng.tags % 65534 else 0, elig := u.clk + 4, seq := x.eng.order,
                                gen := u.fcore.gen u.fctx.job, maps := []
                                chk := ⟨w.cmd, w.fl, e.sw, e.sig.toNat, e.wait.toNat, s.rd e.sa, s.rd e.sb⟩ }
          { x with eng := { x.eng.putQueue w.eng (x.eng.queue w.eng ++ [u.mapped u.foc.ctx own w.eng cm]) with
              tags := if copy then x.eng.tags + 1 else x.eng.tags, order := x.eng.order + 1 } })).issued 2
        exec i s = .next done ∧
        (∀ (g : Guard) (a : BitVec 5), decode32 (kindOf s.foc.ctx.core) .c ((s.rd a).setWidth 32) = .ok i →
          s.Ready { guard := g, srcs := [a.toNat, e.sa.toNat, e.sb.toNat] } → exec (.push g a) s = .next done)) ∧
      (s.fctx.normal = true → s.pushCheck w (s.rd e.sa) (s.rd e.sb) = none →
        (s.fctx.eng.full w.eng s.clk = true → exec i s = .next (s.waits (0x20 + engNum w.eng))) ∧
        (s.fctx.eng.full w.eng s.clk = false → (s.ownPending s.foc || s.acquirePending s.foc) = true →
          exec i s = .next ((s.flush s.foc.ctx).waits 0x03))) ∧
      (∀ cause tval, s.fctx.normal = true → s.pushCheck w (s.rd e.sa) (s.rd e.sb) = some (cause, tval) →
        exec i s = .next (s.raise cause tval) ∧
        (∀ (g : Guard) (a : BitVec 5), decode32 (kindOf s.foc.ctx.core) .c ((s.rd a).setWidth 32) = .ok i →
          s.Ready { guard := g, srcs := [a.toNat, e.sa.toNat, e.sb.toNat] } → exec (.push g a) s = .next (s.raise cause tval)))

/-- In a handler mode POP, TRYPOP, SETUP, OCLAIM and ORELEASE raise PRIV (12 R283); in normal mode POP takes a token and TRYPOP tells whether one was there (14 R343); SETUP writes a word of a shadow set (R344); OCLAIM gives 1 for a slot that it takes or holds and 0 for one held by the other bank, and zeroes a slot last held by another job; ORELEASE frees a slot that no command names; a slot that is not there or not held raises SLOT (R345; 12 R281). -/
def Obligations.TokenSetupAndSlotWords : Prop :=
  (∀ (s : State) (g : Guard) (p t b a i d : BitVec 5), s.fctx.normal = false →
       ∀ w ∈ [Instr.pop g t, .trypopToken g p t, .setup g b a, .oclaim i d, .orelease i],
         exec w s = .next (s.raise 0x03 (s.firstHalf.setWidth 64))) ∧
  (∀ (s : State) (g : Guard) (p t : BitVec 5), s.fctx.normal = true →
       let have_ := s.fctx.token t.toNat ≠ 0 ∧ s.fctx.eng.claims t.toNat = false
       let took := s.modF (fun x => x.setToken t.toNat (s.fctx.token t.toNat - 1))
       (s.Ready { guard := g } → have_ → exec (.pop g t) s = .next (took.issued 2)) ∧
       (s.Ready { guard := g, dsts := [(codeP p.toNat, 1)] } →
         (have_ → exec (.trypopToken g p t) s = .next ((took.resPred p.toNat true).issued 2)) ∧
         (¬ have_ → exec (.trypopToken g p t) s = .next ((s.resPred p.toNat false).issued 2)))) ∧
  (∀ (s : State) (g : Guard) (b a i d : BitVec 5), s.fctx.normal = true →
       let n := i.toNat
       let bank := s.foc.ctx.bank
       let info := Sp.get SlotInfo.reset s.fcore.slots n
       (s.Ready { guard := g, srcs := [a.toNat, b.toNat] } →
         ∀ e k, setupWords (kindOf s.foc.ctx.core) (wfield (s.rd a) 8 4) = some (e, k) → wfield (s.rd a) 0 8 < k → s.fctx.eng.swaps e = 0 →
           exec (.setup g b a) s = .next ((s.modF (fun x => { x with eng := x.eng.setShadow e (wfield (s.rd a) 0 8) (s.rd b) })).issued 2)) ∧
       (s.Ready { dsts := [(d.toNat, 2)] } →
         (23 < n → info.holder ≠ none ∨ info.last = none → exec (.oclaim i d) s = .next (s.raise 0x09 (BitVec.ofNat 64 n))) ∧
         (n ≤ 23 → ∀ o, info.holder = some o →
           exec (.oclaim i d) s = .next ((s.resWord d.toNat 2 (if o = bank then 1 else 0)).issued 2)) ∧
         (n ≤ 23 → info.holder = none → info.last = none ∨ info.last = some s.fctx.job →
           exec (.oclaim i d) s = .next (((s.modFcore (fun k => { k with
             slots := Sp.put k.slots n { info with holder := some bank, last := some s.fctx.job } })).resWord d.toNat 2 1).issued 2))) ∧
       (s.Ready { dsts := [(d.toNat, 66)] } → n ≤ 23 → info.holder = none → ∀ j, info.last = some j → j ≠ s.fctx.job →
         exec (.oclaim i d) s = .next (((s.modFcore (fun k => { k with
           slots := Sp.put k.slots n ⟨0, 0, some bank, some s.fctx.job⟩,
           slotMem := Memory.clear k.slotMem (0x11000 * n) (0x11000 * (n + 1)) })).resWord d.toNat 66 1).issued 2)) ∧
       (s.Ready {} →
         (s.fcore.holds bank n = false → exec (.orelease i) s = .next (s.raise 0x09 (BitVec.ofNat 64 n))) ∧
         (s.fcore.holds bank n = true → s.fctx.eng.names n = false →
           exec (.orelease i) s = .next ((s.modFcore (fun k => { k with
             slots := Sp.put k.slots n { Sp.get SlotInfo.reset k.slots n with holder := none } })).issued 2))))

/-- EVAC, with A and V stopped or in the STALE handler of a context at a waypoint that took CODE there, writes its record and gives its size in rd
once the store-release of FORMAT, the last, is performed, or 0 where the map names none; a word that a store or the release holds goes on
with what is left; and CKPT the last parcel's opens the interval (14 R351, R352; 04 R107). -/
def Obligations.RecordWords : Prop :=
  ∀ (s : State) (a d : BitVec 5) (va : Nat) (bs : List Byte) (t : State),
    let c := s.foc.ctx
    let h := s.modF (fun x => { x with avHold := true, avAt := s.resumeAt c (s.rd a) })
    let done (t : State) (n : Nat) : State := ((t.freeTime.2.modF (fun x => { x with evacuated := x.waypoint })).interlocked d.toNat
      (t.freeTime.2.clk + t.freeTime.1) (BitVec.ofNat 64 n)).issued 2
    (s.fctx.normal = false ∧ wfield s.fctx.trapc 56 8 = 0x05 ∧ s.fctx.staleAt = true ∨ s.fctx.normal = true →
      s.Ready { srcs := [a.toNat], outs := [d.toNat] } →
      (s.fstrm.writing = none → s.requestStop c (s.rd a) none = none → s.fctx.handler = none →
        (s.fctx.normal = true → h.fctx.avStopped = true) → s.fctx.granulesReady = true →
        let u := h.flush c
        u.performed u.foc 4 true = true →
        (∀ v, u.evacRequest c (s.rd a) = .ok (v, none) →
          exec (.evac a d) s = .next (((u.modF (fun x => { x with evacuated := none })).interlocked d.toNat u.clk 0).issued 2)) ∧
        (u.evacRequest c (s.rd a) = .ok (va, some bs) →
          (u.recordBegin c va bs = .ok (true, t) → exec (.evac a d) s = .next (done t bs.length)) ∧
          (u.recordBegin c va bs = .ok (false, t) → exec (.evac a d) s = .next (t.waits 0x03)))) ∧
      (∀ r, s.fstrm.writing = some r →
        (s.recordStep c r = .ok (true, t) → exec (.evac a d) s = .next (done t r.len)) ∧
        (s.recordStep c r = .ok (false, t) → exec (.evac a d) s = .next (t.waits 0x03)))) ∧
    (∀ p, s.fctx.normal = true → s.Ready { feature := some 9, srcs := [a.toNat] } → s.platRec c = some p → p.ckpt = true →
      let at_ := p.ckptVa.toNat + 0x1000000 * s.fctx.parcel
      s.fstrm.writing = none → s.requestStop c (s.rd a) (some at_) = none →
      let k := s.modF (fun x => { x with atCkpt := x.waypoint, avHold := true, avAt := s.resumeAt c (s.rd a) })
      s.fctx.waypoint.isSome = true → s.fellows c = [c] → k.fctx.avStopped = true → s.fctx.granulesReady = true →
      let u := k.flush c
      u.performed u.foc 4 true = true → u.evacRequest c (s.rd a) = .ok (va, some bs) → bs.length ≤ 2 ^ 24 →
      u.recordBegin c at_ bs = .ok (true, t) →
      ∃ w, exec (.ckpt a) s = .next w ∧ w.mem = t.mem ∧ w.fctx.avHold = false ∧
        (∀ e ∈ w.dies, ∀ l ∈ e.2.log, l.plat ≠ s.fctx.plat))

/-! ## Events of streams and contexts (07 R165, R170, R180; 12 R284 to R297; 09 R229 to R237; 05 R138) -/

/-- Block fetch (13 R301, R302; 07 R165; 04 R111), with ABSENT, ILLEGAL and STALE where the header fails; and waits that an event ends: STALL (07 R180), TWAIT and WAITM (14 R338, R339), barriers (05 R118), QWAIT (02 R56), reserved granules (07 R170, R185). -/
def Obligations.FetchAndWaitEvents : Prop :=
  (∀ (s : State),
       let k := s.fcore
       let st := s.foc.st
       let h := s.fstrm.pc
       let w0 := k.word st h
       let w1 := k.word st (h + 2)
       let hd := headerOf w0 w1
       let good : Prop := headerShape w0 w1 = true ∧ 0 < hd.len ∧ hd.strm = streamCode st ∧ hd.reserved = false
       let current : Prop := hd.edition = 0 ∨ hd.edition = s.fctx.edCode.toNat % 65536 ∨ s.fctx.guarded = true
       (k.loaded s.foc.ctx.bank st h 4 = false → exec .blockFetch s = .next (s.raise 0x06 (BitVec.ofNat 64 h))) ∧
       (k.loaded s.foc.ctx.bank st h 4 = true →
         (¬ good → exec .blockFetch s = .next (s.raise 0x01 ((k.half st h).setWidth 64))) ∧
         (good → ¬ current → exec .blockFetch s = .next (s.raise 0x05 (BitVec.ofNat 64 hd.edition))) ∧
         (good → current → exec .blockFetch s = .next (s.modFs (fun y =>
           { y with pc := h + 4, blk := h, len := hd.len, reps := hd.rep, atHeader := false
                    loopBuf := if hd.len ≤ 256 then some h else y.loopBuf }))))) ∧
  (∀ (s : State) (i : StreamId),
       (s.cur = some (.stallEnd i) → (s.strm i).stall = 0 →
         exec .stallEnd s = .next (s.modStrm i (fun y => y.advance 1))) ∧
       (∀ key, s.cur = some (.waitmWake i) → (s.strm i).hold = .memory key → s.partner i.ctx = none →
         exec .waitmWake s = .next (s.modStrm i (fun y => { y with hold := .no }))) ∧
       (∀ target since, s.cur = some (.twaitExpiry i) → (s.strm i).hold = .cycle target none since → target ≤ s.clk →
         exec .twaitExpiry s = .next (s.modStrm i (fun y => { y.advance 2 with slip := if since + 1 < s.clk then 0 else y.slip }))) ∧
       (∀ u phase, s.cur = some (.barrierRelease u phase) → ∃ t, exec .barrierRelease s = .next t ∧ t.bars = s.bars ∧
         (∀ c ∈ s.residents, ∀ scope bid b p, (s.strm ⟨c, .c⟩).hold = .barrier scope bid → u = s.barUnitOf c scope bid → s.bar u = some b →
           (s.ctx c).party u = some (p, true) → p < b.phase → b.leave ≤ s.clk → t.strm ⟨c, .c⟩ = (s.strm ⟨c, .c⟩).advance 2)) ∧
       (∀ (c : CtxId) (pod : Bool) (w : Nat) (q : QReg), s.cur = some (.qwaitComplete c pod w) →
         q ∈ (s.sta (stationOf c.core)).qregs → q.ctx = c → q.pod = pod → q.since < w → (s.strm ⟨c, .c⟩).hold = .quiet →
         exec .qwaitComplete s = .next ((s.modSta (stationOf c.core) (fun t => { t with qregs := t.qregs.filter (fun q => q.ctx != c) })).modStrm
           ⟨c, .c⟩ (fun y => { y with hold := .passed }))) ∧
       (∀ (c : CtxId) (q ticket : Nat) (d : List Elem), s.cur = some (.granuleDataArrival c q ticket d) →
         (s.frozen c.core = false →
           exec .granuleDataArrival s = .next (s.modCtx c (fun x => x.putDq q ((x.dq q).fill ticket d s.clk)))) ∧
         (s.frozen c.core = true →
           exec .granuleDataArrival s = .next (s.post ((s.core c.core).freeze.getD s.clk) (.granuleDataArrival c q ticket d)))))

/-- Taking a trap (12 R288 to R291). Delivery of a pending cause stops its context at this clk, and the cause pends no more. At t_c, with at
most 8 results in flight on each stream, the frame is written, TRAPC and TVAL take the cause, the results stand in latches and the
handler follows 24 clk later. The handler starts in handler mode at the block that TVEC names; without one the plat ends, unless a CHECK
finds it recoverable. A return goes on at the stop points in normal mode, each slip raised by the clk since the stop (R293). -/
def Obligations.TrapEntry : Prop :=
  ∀ (s : State) (c : CtxId),
    let x := s.ctx c
    (∀ k, s.cur = some (.trapDelivery c) → s.pendingCause c causesFirst = some k → s.partner c = none →
      ∃ t, exec .trapDelivery s = .next t ∧ (t.ctx c).phase = .stopping s.clk ∧ (t.ctx c).pending = Sp.erase x.pending k ∧
        ((t.ctx c).entry.map (fun e => e.cause)) = some k ∧ (s.clk, Event.trapCapture c) ∈ t.agenda) ∧
    (∀ te e, s.cur = some (.trapCapture c) → x.phase = .stopping te → x.entry = some e → e.kind = .handler → x.canCapture = true →
      s.frozen c.core = false → s.faultDue c = false →
      ∃ t, exec .trapCapture s = .next t ∧ (t.ctx c).phase = .entering te s.clk ∧
        (t.ctx c).trapc = trapcOf x.trapc e.cause x.scause e.strm 0 e.mrg e.word ∧ (t.ctx c).tval = e.tval ∧
        (t.ctx c).saved = some (x.c.record te s.clk) ∧ (t.ctx c).a.latch = x.a.pend.map (latchOf s.clk) ∧
        (t.ctx c).v.latch = x.v.pend.map (latchOf s.clk) ∧ (t.ctx c).frame =
          ({ x with trapc := trapcOf x.trapc e.cause x.scause e.strm 0 e.mrg e.word, tval := e.tval } : Ctx).frameImage te s.clk ∧
        (s.clk + 24, Event.handlerStart c) ∈ t.agenda ∧ t.mem = s.mem) ∧
    (∀ te tc e, s.cur = some (.handlerStart c) → x.phase = .entering te tc → x.entry = some e → e.kind = .handler →
      (wbit x.tvec 63 = true → ∃ t, exec .handlerStart s = .next t ∧ (t.ctx c).phase = .running ∧ (t.ctx c).mode = 1 ∧
        (t.ctx c).c.pc = wfield x.tvec 0 16 ∧ (t.ctx c).c.atHeader = true ∧ (t.ctx c).tval = x.tval ∧ t.mem = s.mem) ∧
      (wbit x.tvec 63 = false → e.cause ≠ 0x20 → exec .handlerStart s = .next ((s.modCtx c (fun x =>
        { x with heldWalk := (s.core c.core).walks.find? (fun w => w.ctx == c && w.src == 0) })).endPlatOf c e.cause))) ∧
    (∀ tr r, s.cur = some (.rteResume c) → x.phase = .returning tr → x.secondary = none → x.displaced = false → x.handlerSaved = none →
      x.saved = some r → ∃ t, exec .rteResume s = .next t ∧ (t.ctx c).phase = .running ∧ (t.ctx c).normal = true ∧
        (t.ctx c).c.pc = r.pc ∧ (t.ctx c).c.blk = r.blk ∧ (t.ctx c).c.reps = r.reps ∧ (t.ctx c).c.stall = r.stall ∧
        (t.ctx c).c.slip = r.slip + (s.clk - x.savedTe) ∧ (t.ctx c).a.slip = x.a.slip + (s.clk - x.savedTe) ∧
        (t.ctx c).v.slip = x.v.slip + (s.clk - x.savedTe) ∧ (t.ctx c).c.regs = x.c.regs ∧ t.mem = s.mem)

/-- The asynchronous causes of timers, signals and debug requests (12 R286; 14 R341): TIMER at CYC = TIMECMP with TIE set, SIGNAL with SIE set
in the addressed context of the slot's job, DEBUG by request, which a withdrawal or an empty bank makes void. -/
def Obligations.InterruptEvents : Prop :=
  ∀ (s : State) (c : CtxId),
    let x := s.ctx c
    (s.cur = some (.timerMatch c) → x.timecmp ≠ 0 → s.cyc c.core = x.timecmp → wbit x.trapc 0 = true →
      exec .timerMatch s = .next (s.raiseAsync c 0x31 (s.cyc c.core))) ∧
    (s.cur = some (.timerMatch c) → wbit x.trapc 0 = false → exec .timerMatch s = .next s) ∧
    (∀ slot : Slot, s.cur = some (.signalArrival slot) → c.core = 128 * slot.dmod.toNat + 16 * slot.dsta.toNat + slot.dcore.toNat →
      c.bank = ofBytesLE (slot.data.take 8) % 2 →
      (x.resident = true → x.job = slot.job → wbit x.trapc 1 = true →
        exec .signalArrival s = .next (s.raiseAsync c 0x32
          (BitVec.ofNat 64 (slot.smod.toNat * 2 ^ 8 + slot.ssta.toNat * 2 ^ 5 + slot.score.toNat)))) ∧
      (x.resident = true → wbit x.trapc 1 = false → exec .signalArrival s = .next s) ∧
      (x.resident = false → exec .signalArrival s = .next s)) ∧
    (s.cur = some (.dbgreqRequest c) →
      (x.resident = true → exec .dbgreqRequest s = .next ((s.modCtx c (fun x => { x with dbgreq := true })).raiseAsync c 0x30 0)) ∧
      (x.resident = false → exec .dbgreqRequest s = .next s)) ∧
    (s.cur = some (.dbgreqWithdraw c) →
      exec .dbgreqWithdraw s = .next (s.modCtx c (fun x => { x with dbgreq := false, pending := Sp.erase x.pending 0x30 })))

/-- Translation and faults (09 R228, R229, R232 to R237): a word of a stream that misses, and whose walk gives a leaf, goes on with it, and the later accesses of its stream wait; a walk's leaf enters the TLB of its core, unless a marker has raised the generation since the word that needed it issued, a fault of a running context stops it in this clk with its record to be written, while one of an access from before the handler that runs is recorded and held (12 R294), an answer leaves VERDICT and slot in FNFRES and lets the context run the word again, raise PERM, or end with cause PERM; VERDICT 3 answers nothing; a marker raises the generation of its job. At the end of a bank switch the new bank is the active one, with the features that its function has in force (05 R138; 03 R76). -/
def Obligations.TranslationAndBankEvents : Prop :=
  (∀ (s : State) (c : CtxId) (st : Stream) (acc : Access) (va : Nat) (l : Leaf),
       (s.core c.core).tlbHit (s.ctx c).job va = none → (s.core c.core).walks = [] → s.walkerFull c.core = false → acc ≠ .prefetch →
       s.walk c.core (s.ctx c).job.toNat acc va = .ok l →
       ∃ u, s.translate c (srcCode st) acc va = .leaf l u ∧ u.acquiring ⟨c, st⟩ = true ∧ u.mem = s.mem ∧ u.clk = s.clk) ∧
  (∀ (s : State) (core : Nat) (r : WalkReq) (m port : Nat) (slot : BitVec 6),
       (∀ l, s.cur = some (.tlbWalkComplete core r) → r ∈ (s.core core).walks →
         let t := (s.modCore core (fun k => { k with walks := k.walks.filter (fun w => w != r) })).beginWaiting (dieOf core)
         ((t.core core).walkLeaf.find? (fun w => w.1 == r) = none → t.walk core r.job.toNat r.acc r.va = .ok l →
           exec .tlbWalkComplete s = .next (t.modCore core (fun k => k.tlbFill r.job r.va l))) ∧
         -- a word that has issued: its leaf, unless a marker has raised the generation since
         (∀ gen, (t.core core).walkLeaf.find? (fun w => w.1 == r) = some (r, gen, l) →
           ∃ u, exec .tlbWalkComplete s = .next u ∧ (u.core core).walkLeaf = (t.core core).walkLeaf.filter (fun w => w.1 != r) ∧
             (u.core core).tlb = (if gen = (t.core core).gen r.job then (t.core core).tlbFill r.job r.va l else t.core core).tlb)) ∧
       (∀ kind level, s.cur = some (.pageFault r kind level) → (s.ctx r.ctx).resident = true → (s.ctx r.ctx).phase = .running →
         s.partner r.ctx = none → (s.ctx r.ctx).beforeHandler r = false →
         ∃ t, exec .pageFault s = .next t ∧ (t.ctx r.ctx).phase = .stopping s.clk ∧
           ((t.ctx r.ctx).fault.map (fun f => (f.req, f.kind, f.level))) = some (r, kind, level) ∧
           ((t.ctx r.ctx).entry.map (fun e => e.kind)) = some .pageFault ∧ (s.clk, Event.trapCapture r.ctx) ∈ t.agenda ∧ t.mem = s.mem) ∧
       (∀ kind level, s.cur = some (.pageFault r kind level) → (s.ctx r.ctx).resident = true → (s.ctx r.ctx).phase = .running →
         (s.ctx r.ctx).beforeHandler r = true →
         ∃ f, exec .pageFault s = .next (s.secondFault f) ∧ f.req = r ∧ f.kind = kind ∧ f.level = level) ∧
       (∀ f, s.cur = some (.fnfresRetry m port slot) → (s.takeAnswer m port slot.toNat 0).1 = some f →
         exec .fnfresRetry s = .next ((s.takeAnswer m port slot.toNat 0).2.answered f id)) ∧
       (∀ f, s.cur = some (.fnfresRaisePerm m port slot) → (s.takeAnswer m port slot.toNat 1).1 = some f → f.req.src < 2 →
         exec .fnfresRaisePerm s = .next ((s.takeAnswer m port slot.toNat 1).2.answered f
           (fun x => { x with permAt := some (f.req.src, BitVec.ofNat 64 f.req.va, x.handlerSaved.isSome) }))) ∧
       (∀ f, s.cur = some (.fnfresEndPlat m port slot) → (s.takeAnswer m port slot.toNat 2).1 = some f →
         exec .fnfresEndPlat s = .next ((s.takeAnswer m port slot.toNat 2).2.endPlatOf f.req.ctx 0x08)) ∧
       (s.cur = some (.fnfresAnswerNothing m port slot) →
         exec .fnfresAnswerNothing s = .next (s.modFn m (64 * port) (fun g => { g with res := BitVec.ofNat 64 (192 + slot.toNat) }))) ∧
       (∀ k : Slot, s.cur = some (.invalidationMarkerArrival core k) →
         let job := BitVec.ofNat 12 (ofBytesLE (k.data.take 8) % 4096)
         ∃ t, exec .invalidationMarkerArrival s = .next t ∧ (t.core core).gen job = (s.core core).gen job + 1)) ∧
  (∀ (s : State) (core b : Nat),
       s.cur = some (.bankSwitchComplete core) → (s.core core).switching = some b →
       (s.clk < (s.core core).switchEnd →
         exec .bankSwitchComplete s = .next (s.post (s.core core).switchEnd (.bankSwitchComplete core))) ∧
       ((s.core core).switchEnd ≤ s.clk → (s.ctx ⟨core, b⟩).displaced = false → (s.ctx ⟨core, b⟩).phase = .running →
         ∃ t, exec .bankSwitchComplete s = .next t ∧ (t.core core).active = b ∧ (t.core core).switching = none ∧
           t.ctx ⟨core, b⟩ = { s.ctx ⟨core, b⟩ with feat := (s.modu (modOf core)).features (s.ctx ⟨core, b⟩).job.toNat } ∧ t.mem = s.mem))

/-- Engines (07 R171, R172, R176 to R179; 04 R105, R106; 21 R423, R424, R432): a command that may begin leaves its queue, takes its token,
swaps the sets where it says so and stands in progress at its first step; one that the check core has otherwise blocks its queue and raises
CHECK; a step of a live engine runs the beat of its command; a command that ends
without an error leaves its engine and gives its token; a promise missed outside guarded timing raises PROMISE with the tag and the
promise. -/
def Obligations.EngineEvents : Prop :=
  ∀ (s : State) (c : CtxId) (e : EngQ) (r : Run),
    let x := s.ctx c
    (∀ cm rest, s.cur = some (.engineCommandBegin c e) → s.mayBegin c e = true → x.eng.queue e = cm :: rest → cm.chk ≠ cm.own →
      exec .engineCommandBegin s = .next (((s.modCtx c (fun x => { x with eng := { x.eng with blocked := e :: x.eng.blocked } })).raiseAsync c 0x20
        (BitVec.ofNat 64 (engIndex e))).logicTest c.core)) ∧
    (∀ cm rest, s.cur = some (.engineCommandBegin c e) → s.mayBegin c e = true → x.eng.queue e = cm :: rest → cm.chk = cm.own →
      ∃ t, exec .engineCommandBegin s = .next t ∧ (t.ctx c).eng.queue e = rest ∧
        ((t.ctx c).eng.run e).map (fun r => (r.c, r.step, r.begun)) = some (cm, 1, s.clk) ∧
        (cm.wait ≠ 0 → (t.ctx c).token cm.wait = x.token cm.wait - 1) ∧
        (cm.sw = true → (t.ctx c).eng.setOf e = ⟨(x.eng.setOf e).shadow, (x.eng.setOf e).live⟩)) ∧
    (s.cur = some (.engineMicroStep c e) → x.eng.run e = some r → s.engineLive c = true → x.engineFault e = false → r.done = none →
      r.step ≤ r.steps → r.due ≤ s.clk →
      let t := s.modCore c.core (fun k => { k with owner := Sp.set 0 k.owner (engIndex e) c.bank })
      let q := if (e == .load || e == .store) && r.step == 1 then t.sized c e r else r
      (q.error ≠ 0 → exec .engineMicroStep s = .next (t.failed c e q q.error q.errArg)) ∧
      (q.error = 0 →
        (e = .load → r.c.cmd = 0 → exec .engineMicroStep s = .next (t.cldBeat c q)) ∧
        (e = .store → r.c.cmd = 1 → exec .engineMicroStep s = .next (t.cstBeat c q)) ∧
        (e = .matrix → r.c.cmd ≤ 1 → exec .engineMicroStep s = .next (t.mmaStep c q)) ∧
        (e = .row → exec .engineMicroStep s = .next (t.rowStep c q)))) ∧
    (s.cur = some (.engineCommandComplete c e) → s.ending c e = some r → r.error = 0 →
      ∃ t, exec .engineCommandComplete s = .next t ∧ (t.ctx c).eng = x.eng.dropSeq e r.c.seq ∧
        (r.c.sig ≠ 0 → (t.ctx c).token r.c.sig = x.token r.c.sig + 1) ∧ (t.ctx c).q14 = x.q14 ∧ t.mem = s.mem) ∧
    (s.cur = some (.promiseMiss c (BitVec.ofNat 16 r.c.tag)) → (x.eng.live .load).find? (fun q => q.c.tag == r.c.tag) = some r → r.c.tag < 65536 → r.error = 0 →
      s.complete c .load r = false → r.promise ≤ (s.cyc c.core).toNat % 2 ^ 48 →
      (x.guarded = false → exec .promiseMiss s = .next (s.raiseAsync c 0x25 (BitVec.ofNat 64 (r.c.tag * 2 ^ 48 + r.promise)))) ∧
      (x.guarded = true → exec .promiseMiss s = .next s))

/-! ## Events of the rings (01 R13 to R38, R442; 02 R42 to R63, R441; 04 R103; 08 R205 to R216; 09 R240) -/

/-- Hops of free slots (01 R14, R17, R27 to R29, R442; 02 R42, R48). A slot with a free track leaves its station on it and stays in the
retry buffer under the hop's next number; with none it is tried again in the next clk. One that arrives damaged is asked for again, but
a timetabled or muster slot, which travels on poisoned; one of the same flow that comes after it waits for it; one
that its sender has given up is discarded; an acknowledged one leaves the buffer, on a trunk counted consumed; a ninth attempt within 2,100
clk exhausts the hop, an error that is counted: the hop is then down until it has been tested and has retrained, and its lost slots the
model's `abandon` treats as 02 R48 says. Returned slots go out again 64 clk after the last. -/
def Obligations.HopEvents : Prop :=
  ∀ (s : State) (h : HopId) (slot : Slot),
    (∀ (due : Nat) (ccw : Bool), s.cur = some (.slotInject h.sta) → nextOut s.clk (s.sta h.sta).outq [] = some (due, slot) →
      slot.rfs = false →
      let t := s.modSta h.sta (fun t => { t with outq := t.outq.erase (due, slot) })
      t.wayOf h.sta none false slot = .loc ccw → (t.hop ⟨h.sta, false, ccw⟩).down = false →
      (t.freeTrack (h.sta / 16) (h.sta % 16) ccw (t.hopsLeft h.sta ccw slot) t.clk = none →
        exec .slotInject s = .next (t.retryInject h.sta slot)) ∧
      (∀ trk, t.freeTrack (h.sta / 16) (h.sta % 16) ccw (t.hopsLeft h.sta ccw slot) t.clk = some trk →
        exec .slotInject s = .next ((t.modMod (h.sta / 16) (fun m =>
          { m with ring := (ccw, trk, cellAt ccw (h.sta % 16) s.clk) :: m.ring })).localSend h.sta ccw { slot with trk := trk }))) ∧
    (∀ intact, s.cur = some (.slotHopArrival h slot intact) → passingKind slot = true →
      exec .slotHopArrival s = .next (if intact then s else s.poisonPassing h slot)) ∧
    (∀ intact, s.cur = some (.slotHopArrival h slot intact) → passingKind slot = false → (s.hop h).dead.contains slot.seq = false →
      (intact = true → s.behindFlow h slot = false → exec .slotHopArrival s = .next (s.passOn h slot (!h.trunk && slot.trk != offTrack))) ∧
      (intact = true → s.behindFlow h slot = true → ∃ t, exec .slotHopArrival s = .next t ∧ t.mem = s.mem ∧ t.hop h = s.hop h ∧
        t.agenda = (s.post (s.clk + 1) (.slotHopArrival h { slot with trk := offTrack } true)).agenda) ∧
      (intact = false →
        let t := if h.trunk then s else s.leaveRing (s.hopEnd h) h.ccw slot
        exec .slotHopArrival s = .next ({ t with fresh := t.fresh + 1 }.post (t.clk + 1 + Config.freeDelay t.fresh) (.hopRetransmit h slot.seq)))) ∧
    (∀ intact, s.cur = some (.slotHopArrival h slot intact) → passingKind slot = false → (s.hop h).dead.contains slot.seq = true →
      let t := s.modHop h (fun x => { x with dead := x.dead.erase slot.seq })
      exec .slotHopArrival s = .next (if !h.trunk && slot.trk != offTrack then t.leaveRing (s.hopEnd h) h.ccw slot else t)) ∧
    (∀ seq, s.cur = some (.hopAcknowledge h seq) → (s.hop h).kept.find? (fun t => t.seq == seq) = some slot →
      let t := s.modHop h (fun x => { x with kept := x.kept.erase slot })
      (h.trunk = false → exec .hopAcknowledge s = .next t) ∧
      (h.trunk = true → countedKind slot.kind.toNat = true → exec .hopAcknowledge s = .next (t.countCon h.sta slot.job))) ∧
    (∀ seq, s.cur = some (.hopRetransmit h seq) → (s.hop h).kept.find? (fun t => t.seq == seq) = some slot → (s.hop h).down = false →
      ((s.hop h).tries = 0 → exec .hopRetransmit s = .next ((s.modHop h (fun x => { x with tries := 1, since := s.clk })).sendAgain h slot)) ∧
      ((s.hop h).tries = 8 → s.clk ≤ (s.hop h).since + 2100 → exec .hopRetransmit s = .next (s.postNow (.retryExhausted h)))) ∧
    (s.cur = some (.retryExhausted h) → h.trunk = false →
      exec .retryExhausted s = .next (((s.abandon h).countErr (h.sta / 16) 0 4).linkTest h)) ∧
    (s.cur = some (.hopRetrained h) → h.trunk = false → (s.hop h).kept = [] →
      exec .hopRetrained s = .next (s.modHop h (fun x => { x with down := false, kept := [] }))) ∧
    (∀ core, s.cur = some (.returnedSlotReinject core) → (s.core core).returned = [slot] →
      (s.clk < (s.core core).returnClk + 64 → exec .returnedSlotReinject s = .next s) ∧
      ((s.core core).returnClk + 64 ≤ s.clk → exec .returnedSlotReinject s = .next
        (((s.modCore core (fun k => { k with returned := [] })).modSta (stationOf core)
          (fun t => { t with outq := (s.clk + 4, slot) :: t.outq })).post (s.clk + 4) (.slotInject (stationOf core)))))

/-- Trunk links (01 R19, R31, R32, R34, R37; 02 R57). A group that comes intact over a link in lock leaves its difference, which is 5g plus the
link's latency less the station's own CYC, and one that does not fails with the slots that came in it; the 64th beyond 2 clk in a row puts the link out of lock, which its die's survey records; a failed lane leaves 17 lanes, and none but 17 or 18 stay in service;
bring-up leaves each link at the latency found, half the round trip, and out of service above 160 clk; a reset notice from another module
has that module declared lost. -/
def Obligations.TrunkEvents : Prop :=
  ∀ (s : State) (sta : Nat) (ccw : Bool),
    let l := s.link (sta / 16) (sta % 16 - 8) ccw
    (∀ seq intact, s.cur = some (.trunkGroupArrival sta ccw seq intact) →
      (intact = false → exec .trunkGroupArrival s = .next (s.groupFails sta ccw)) ∧
      (intact = true → l.unlock = true → exec .trunkGroupArrival s = .next s) ∧
      -- the difference of group g: 5g plus the link's latency against the station's own CYC, g the value of those 16 bits nearest to it
      (∀ g : Nat, intact = true → l.unlock = false → 8 ≤ sta % 16 → sta % 16 < 12 → seq = BitVec.ofNat 16 g →
        let d : Int := 5 * (g : Int) + l.lat - (s.staCyc sta).toNat
        d ≤ 163830 → -163840 ≤ d → s.groupDiff sta ccw seq = d ∧ ∃ t, exec .trunkGroupArrival s = .next t ∧
          t.link (sta / 16) (sta % 16 - 8) ccw = { l with diff := d, bad := if d < -2 ∨ 2 < d then l.bad + 1 else 0 } ∧
          ((d < -2 ∨ 2 < d) → l.bad = 63 → (s.clk, Event.linkOutOfLock sta ccw) ∈ t.agenda))) ∧
    (s.cur = some (.linkOutOfLock sta ccw) →
      exec .linkOutOfLock s = .next (s.linkChange sta ccw (fun l => { l with unlock := true }))) ∧
    (∀ failed, s.cur = some (.laneFailure sta ccw failed) →
      exec .laneFailure s = .next (s.linkChange sta ccw (fun l =>
        { l with lanes := if l.lanes - failed = 18 then 18 else if l.lanes - failed = 17 then 17 else 0 }))) ∧
    (∀ (mods : List Nat) (links : List LinkReport), s.cur = some (.linkBringUp mods links) → mods ≠ [] → (∀ m ∈ mods, m < 32) →
      ∃ t, exec .linkBringUp s = .next t ∧ t.pod.mods = (List.range 32).filter (fun m => mods.contains m) ∧ t.mem = s.mem ∧
        (∀ m ∈ mods, ∀ k, k < 4 → ∀ side r, links.find? (fun l => l.sta == 16 * m + 8 + k && l.ccw == side) = some r →
          (t.link m k side).lat = (r.trip + 1) / 2 ∧ (t.link m k side).unlock = false ∧
          (t.link m k side).lanes = if 160 < (r.trip + 1) / 2 then 0 else if 18 ≤ r.lanes then 18 else if r.lanes = 17 then 17 else 0)) ∧
    (∀ slot : Slot, s.cur = some (.resetNoticeArrival sta slot) → slot.smod.toNat ≠ sta / 16 →
      ∃ t, exec .resetNoticeArrival s = .next t ∧ t.mem = s.mem ∧
        (Sp.get 0 (t.modu (sta / 16)).mirent slot.smod.toNat).getLsbD 14 = true)

/-- Posted writes and credits (08 R205, R212 to R214, R216; 01 R26, R36; 02 R48, R61; 04 R102; 05 R140). An entry sent leaves its core 3 clk later
as a slot; a posted write of an OPEN job behind no other of its source that waits writes the masked bytes of its lines at its home, is counted
consumed and gives a credit for each line, one into X waits for the copy port, which writes it with what credits it; that of a
CLOSING job is counted and logged, that of a FREE one logged with cause 3; a credit gives a line back to its owner; a loss notice raises
LOSS with the job; a mirror's acceptance lets go of the copy, in both members of a pair; a timetabled slot waits in the landing buffer, where there is
room, and the oldest one is written into X. -/
def Obligations.PostedWriteEvents : Prop :=
  ∀ (s : State) (core id : Nat) (slot : Slot),
    (s.cur = some (.combiningEntrySend core id) → s.frozen core = false →
      exec .combiningEntrySend s = .next (s.sendEntries core (fun e => e.id == id)) ∧
      (∀ e ∈ (s.core core).comb, e.id = id → e.sent = none →
        (s.clk + 3, Event.combiningEntryInject core id) ∈ (s.sendEntries core (fun e => e.id == id)).agenda ∧
        ∀ q ∈ ((s.sendEntries core (fun e => e.id == id)).core core).comb, q.id = id → q.sent = some s.clk)) ∧
    (∀ e, s.cur = some (.combiningEntryInject core id) → s.frozen core = false → (s.core core).comb.find? (fun e => e.id == id) = some e →
      let u := s.modCore core (fun k => { k with comb := k.comb.filter (fun q => q.id != id) })
      exec .combiningEntryInject s = .next (u.postSlot core e.bank e.job e.dest e.ord none e.mir e.by_ e.fenced e.before e.lines s.clk) ∧
      (u.pairOf core e.job = none → ∃ w : Slot, w.kind = 3 ∧ w.job = e.job ∧ (s.clk + 4, w) ∈
        ((u.postSlot core e.bank e.job e.dest e.ord none e.mir e.by_ e.fenced e.before e.lines s.clk).sta (stationOf core)).outq)) ∧
    (s.cur = some (.postedWriteArrival slot) →
      (s.jobState (destSta slot) slot.job = .opened → slot.kind = 3 →
        (s.waitingAt slot = none → slot.arg = 1 → slot.mir = false →
          exec .postedWriteArrival s = .next (State.consumed ((slotLines slot).foldl (fun t _ => t.credit slot)
            ((slotLines slot).foldl (fun t l => l.runs.foldl (fun t r =>
              t.writeMem (s.platOf (srcCore slot) slot.job) slot.dmod.toNat (l.addr + r.1) r.2) t) s)) slot)) ∧
        (∀ c, s.waitingAt slot = none → slot.arg = 0 → s.bankOfJob (destCore slot) slot.job = some c → s.pairOf c.core slot.job = none →
          exec .postedWriteArrival s = .next ((s.modCore c.core (fun k => { k with inbound := k.inbound ++ [slot] })).grantInbound c.core)) ∧
        (∀ k, s.waitingAt slot = some k →
          exec .postedWriteArrival s = .next (s.modCore k (fun k => { k with inbound := k.inbound ++ [slot] })))) ∧
      (s.jobState (destSta slot) slot.job = .closing →
        exec .postedWriteArrival s = .next ((s.consumed slot).logLoss (destSta slot) slot 3)) ∧
      (s.jobState (destSta slot) slot.job = .free → exec .postedWriteArrival s = .next (s.logLoss (destSta slot) slot 3))) ∧
    (∀ o, s.cur = some (.creditReturn slot) → s.pairOf (destCore slot) slot.job = none →
      (s.core (destCore slot)).owed.find? (fun o => o.tag == slot.tag.toNat) = some o →
      exec .creditReturn s = .next (s.giveBack (destCore slot) o 1)) ∧
    (s.cur = some (.lossNoticeArrival slot) → s.pairOf (destCore slot) slot.job = none →
      (s.core (destCore slot)).owed.find? (fun o => o.tag == slot.tag.toNat) = none →
      (∀ c, s.bankOfJob (destCore slot) slot.job = some c → exec .lossNoticeArrival s = .next ((s.modCtx c (fun x =>
        { x with lossCount := x.lossCount + 1 })).raiseAsync c 0x26 (slot.job.setWidth 64))) ∧
      (s.bankOfJob (destCore slot) slot.job = none → exec .lossNoticeArrival s = .next ((s.modMod (modOf (destCore slot))
        (fun m => { m with notes := .lossNotice slot :: m.notes })).countErr (modOf (destCore slot)) 0 4))) ∧
    (s.cur = some (.mirrorAcceptance slot) → ∃ t, exec .mirrorAcceptance s = .next t ∧ t.mem = s.mem ∧
      ∀ k ∈ s.twins (destCore slot) slot.job, (t.core k).mirrors = (s.core k).mirrors.filter (fun p => p.1 != slot.tag.toNat)) ∧
    (s.cur = some (.timetabledSlotArrival core slot) → s.pairOf core slot.job = none →
      ((s.core core).landing.length < 64 →
        exec .timetabledSlotArrival s = .next (s.modCore core (fun k => { k with landing := k.landing ++ [slot] }))) ∧
      (∀ c, 64 ≤ (s.core core).landing.length → s.bankOfJob core slot.job = some c →
        exec .timetabledSlotArrival s = .next (s.overrun c 3))) ∧
    (∀ rest c, s.cur = some (.landingBufferDrain core) → (s.core core).landing = slot :: rest → s.frozen core = false →
      s.bankOfJob core slot.job = some c → slot.tag.getLsbD 13 = false →
      exec .landingBufferDrain s = .next ((s.modCore core (fun k => { k with landing := rest })).modCore core (fun k =>
        k.portWrite 2 1 (256 * slot.arg.toNat) slot.data slot.poison))) ∧
    (∀ c, s.cur = some (.landingBufferDrain core) → (s.core core).landing = [] → (s.core core).inbound = [slot] → s.frozen core = false →
      s.bankOfJob core slot.job = some c → core = destCore slot →
      exec .landingBufferDrain s = .next (State.consumed ((slotLines slot).foldl (fun t _ => t.credit slot)
        ((slotLines slot).foldl (fun t l => t.lineIntoX c l) (s.modCore core (fun k => { k with inbound := [] })))) slot))

/-- Messages and remote accesses of an OPEN job (02 R43 to R47, R61, R62; 08 R216; 09 R240). A message goes into the lowest free entry of its
context's inbox with its descriptor in q15, is refused where none is free, and is lost with cause 2 where no context has the job; a read answers with the bytes of
its home, an atomic with the old value there after writing the new one, each behind none of its source that waits at the station (R216); migration data is written at its address; each is counted
consumed, and the reply injected. A reply of a frozen core waits for the end of the freeze. For a CLOSING job requests are answered
job-closed. -/
def Obligations.MessageEvents : Prop :=
  ∀ (s : State) (slot : Slot),
    let sta := destSta slot
    let addr := ofBytesLE (slot.data.take 8)
    let n := ofBytesLE ((slot.data.drop 8).take 8)
    (s.jobState sta slot.job = .opened →
      (s.cur = some (.activeMessageArrival slot) → s.pairOf (destCore slot) slot.job = none →
        (s.bankOfJob (destCore slot) slot.job = none → exec .activeMessageArrival s = .next (s.lose sta slot 2)) ∧
        (∀ c e, s.bankOfJob (destCore slot) slot.job = some c → (s.ctx c).freeEntry = some e → (s.ctx c).q15.full 32 s.clk = false →
          ∃ t, exec .activeMessageArrival s = .next t ∧ (t.ctx c).inbox = e :: (s.ctx c).inbox ∧
            (t.ctx c).q15 = (s.ctx c).q15.add (descriptor slot e) (s.clk + 2) ∧ t.mem = s.mem) ∧
        (∀ c, s.bankOfJob (destCore slot) slot.job = some c → ((s.ctx c).freeEntry = none ∨ (s.ctx c).q15.full 32 s.clk = true) →
          exec .activeMessageArrival s = .next (s.refuse sta none slot))) ∧
      (s.cur = some (.remoteReadRequest slot) → slot.kind = 6 → s.waitingAt slot = none → slot.arg = 1 →
        exec .remoteReadRequest s = .next ((s.reply slot 7 0 false (Memory.readN s.mem (memKey slot.dmod.toNat addr) n)).consumed slot)) ∧
      (s.cur = some (.remoteAtomicRequest slot) → slot.kind = 4 → s.waitingAt slot = none → slot.arg.toNat < 16 →
        let old := BitVec.ofNat 64 (Memory.readLE s.mem (memKey slot.dmod.toNat addr) 8)
        let new := (Amo.ofCode slot.arg.toNat).apply old (BitVec.ofNat 64 n) (BitVec.ofNat 64 (ofBytesLE ((slot.data.drop 16).take 8)))
        exec .remoteAtomicRequest s = .next (((s.writeMem (s.platOf (srcCore slot) slot.job) slot.dmod.toNat addr
          (bytesLE 8 new.toNat)).reply slot 5 0 false (bytesLE 8 old.toNat)).consumed slot)) ∧
      (s.cur = some (.migrationDataArrival slot) →
        let t := s.modCore (srcCore slot) (fun k => { k with owed := k.owed.filter (fun o => o.tag != slot.tag.toNat) })
        exec .migrationDataArrival s = .next ((t.writeMem (t.platOf (srcCore slot) slot.job) slot.dmod.toNat addr (slot.data.drop 8)).consumed slot)) ∧
      (s.cur = some (.remoteReadReply slot) → s.frozen (destCore slot) = false → s.pairOf (destCore slot) slot.job = none →
        exec .remoteReadReply s = .next ((s.takeReply (destCore slot) slot).consumed slot)) ∧
      (s.cur = some (.remoteAtomicReply slot) → s.frozen (destCore slot) = false → s.pairOf (destCore slot) slot.job = none →
        exec .remoteAtomicReply s = .next ((s.takeReply (destCore slot) slot).consumed slot))) ∧
    (s.jobState sta slot.job = .closing →
      (s.cur = some (.remoteReadRequest slot) → exec .remoteReadRequest s = .next ((s.reply slot 7 1 false []).consumed slot)) ∧
      (s.cur = some (.remoteAtomicRequest slot) → exec .remoteAtomicRequest s = .next ((s.reply slot 5 1 false []).consumed slot))) ∧
    (∀ e, (s.core (destCore slot)).freeze = some e → s.clk < e →
      (s.cur = some (.remoteReadReply slot) → exec .remoteReadReply s = .next (s.post e (.remoteReadReply slot))) ∧
      (s.cur = some (.remoteAtomicReply slot) → exec .remoteAtomicReply s = .next (s.post e (.remoteAtomicReply slot))))

/-- Muster waves (02 R53 to R57, R441). A module wave begins with its next one 2,048 clk ahead and its roll due back 49 clk later, a pod wave
with the next one 32,768 clk ahead; a station's roll bits join those of the wave, an unrepaired station makes it void; its counters of
the taken jobs are added to the sums of the pass, modulo 2^32; the leader takes up to 256 jobs of the roll from the one after the last
taken. -/
def Obligations.MusterEvents : Prop :=
  ∀ (s : State) (id : WaveId) (w : Wave),
    (∀ mod, s.cur = some (.moduleWaveBegin mod) → ∃ t, exec .moduleWaveBegin s = .next t ∧
      (s.clk + 2048, Event.moduleWaveBegin mod) ∈ t.agenda ∧ (s.clk + 49, Event.musterRollReturn ⟨false, mod, s.clk⟩) ∈ t.agenda ∧
      (t.wave ⟨false, mod, s.clk⟩).isSome = true) ∧
    (s.cur = some .podWaveBegin → ∃ t, exec .podWaveBegin s = .next t ∧ (s.clk + 32768, Event.podWaveBegin) ∈ t.agenda ∧
      (s.pod.ring.isSome = true → (s.clk, Event.podWavePart 0) ∈ t.agenda)) ∧
    (∀ part, s.cur = some (.podWavePart part) → s.podWave = some w → w.gone = false → 0 < part → part < 3 → ∃ t,
      exec .podWavePart s = .next t ∧ (w.id.w + (part + 1) * (s.pod.bound + 76), Event.podWavePart (part + 1)) ∈ t.agenda) ∧
    (∀ place sta, s.cur = some (.musterSlotMerge id 0 place sta) → s.wave id = some w → w.gone = false → (s.sta sta).unrepaired = false →
      exec .musterSlotMerge s = .next (s.modWaves (fun v => v.id == id) (fun v =>
        { v with roll := (v.roll ++ (s.rollBits id sta).filter (fun j => j / 2048 == place)).eraseDups }))) ∧
    (∀ place sta, s.cur = some (.musterSlotMerge id 1 place sta) → s.wave id = some w → w.gone = false → (s.sta sta).unrepaired = false →
      let mine := (w.taken.zipIdx.drop (16 * place)).take 16
      exec .musterSlotMerge s = .next (s.modWaves (fun v => v.id == id) (fun v =>
        { v with inj1 := addSums v.inj1 (s.sta sta).inj mine, con1 := addSums v.con1 (s.sta sta).con mine
                 los1 := addSums v.los1 (s.sta sta).los mine }))) ∧
    (∀ place sta, s.cur = some (.musterSlotMerge id 0 place sta) → s.wave id = some w → w.gone = false → (s.sta sta).unrepaired = true →
      ∃ t, exec .musterSlotMerge s = .next t ∧ ∀ v, t.wave id = some v → v.void = true) ∧
    (s.cur = some (.musterRollReturn id) → s.wave id = some w → w.gone = false → ∃ t, exec .musterRollReturn s = .next t ∧
      ∀ v, t.wave id = some v → v.taken = takeJobs w.roll (if id.pod then s.pod.waveJob else (s.modu id.mod).waveJob))

/-- Jobs and manifests (02 R49 to R52, R58 to R63; 14 R354). An opening notice opens a FREE job with its counters at 0 and otherwise sets ERR; a
closing notice makes the job CLOSING at the station; a free notice makes it FREE with its counters 0; job 0 is always open. MANSEL takes
one snapshot; JOPEN and JCLOSE send their notices, of job 0 none; writing FULL empties the loss log; a station reset zeroes its counters,
marks it unrepaired and sends every module a reset notice; MREPAIR adds its signed delta modulo 2^48 and may clear that mark. -/
def Obligations.JobEvents : Prop :=
  ∀ (s : State) (sta : Nat) (job : BitVec 12) (v : Word),
    (s.cur = some (.jobOpenNotice sta job) →
      (s.jobState sta job = .free → exec .jobOpenNotice s = .next (s.modSta sta (fun t =>
        { t with jobs := Sp.set .free t.jobs job.toNat .opened, inj := Sp.set 0 t.inj job.toNat 0, con := Sp.set 0 t.con job.toNat 0
                 los := Sp.set 0 t.los job.toNat 0 }))) ∧
      (s.jobState sta job ≠ .free → exec .jobOpenNotice s = .next (s.modSta sta (fun t => { t with jopenErr := true })))) ∧
    (s.cur = some (.jobCloseNotice sta job) →
      (job = 0 → exec .jobCloseNotice s = .next s) ∧
      (job ≠ 0 → ∃ t, exec .jobCloseNotice s = .next t ∧ t.jobState sta job = .closing ∧ t.mem = s.mem)) ∧
    (s.cur = some (.jobFreeNotice sta job) → job ≠ 0 → ∃ t, exec .jobFreeNotice s = .next t ∧ t.jobState sta job = .free ∧
      Sp.get 0 (t.sta sta).inj job.toNat = 0 ∧ Sp.get 0 (t.sta sta).con job.toNat = 0 ∧ Sp.get 0 (t.sta sta).los job.toNat = 0) ∧
    (s.cur = some (.manselWrite sta v) → ∃ t, exec .manselWrite s = .next t ∧ (t.sta sta).manJob = BitVec.ofNat 12 (wfield v 0 12) ∧
      (t.sta sta).manInj = Sp.get 0 (s.sta sta).inj (wfield v 0 12) ∧ (t.sta sta).manCon = Sp.get 0 (s.sta sta).con (wfield v 0 12) ∧
      (t.sta sta).manLos = Sp.get 0 (s.sta sta).los (wfield v 0 12)) ∧
    (s.cur = some (.jopenWrite sta v) →
      let t := s.modSta sta (fun t => { t with jopenErr := t.jopenErr && !wbit v 12, jopen := BitVec.ofNat 12 (wfield v 0 12) })
      exec .jopenWrite s = .next (if BitVec.ofNat 12 (wfield v 0 12) = 0 then t else t.sendNotices sta 2 (BitVec.ofNat 12 (wfield v 0 12)))) ∧
    (s.cur = some (.jcloseWrite sta v) →
      let t := s.modSta sta (fun t => { t with jclose := BitVec.ofNat 12 (wfield v 0 12) })
      exec .jcloseWrite s = .next (if BitVec.ofNat 12 (wfield v 0 12) = 0 then t else t.sendNotices sta 3 (BitVec.ofNat 12 (wfield v 0 12)))) ∧
    (s.cur = some (.losscntClear sta v) →
      exec .losscntClear s = .next (if wbit v 7 then s.modSta sta (fun t => { t with lossFull := false, losslog := [] }) else s)) ∧
    (s.cur = some (.stationReset sta) → ∃ t, exec .stationReset s = .next t ∧ (t.sta sta).inj = [] ∧ (t.sta sta).con = [] ∧
      (t.sta sta).los = [] ∧ (t.sta sta).unrepaired = true ∧ (∀ w ∈ t.pod.waves, w.passes sta = true → w.void = true) ∧
      (∀ m ∈ s.pod.mods, ∃ q ∈ (t.sta sta).outq, q.2.kind = 11 ∧ q.2.arg = 3 ∧ q.2.dmod = BitVec.ofNat 6 m)) ∧
    (∀ i id, s.cur = some (.mrepairArrival sta v i id) → wfield v 28 2 = 0 → ∃ t, exec .mrepairArrival s = .next t ∧
      ((Sp.get 0 (t.sta sta).inj (wfield v 0 12) : Nat) : Int) =
        (((Sp.get 0 (s.sta sta).inj (wfield v 0 12) : Nat) : Int) + ((v >>> 32).setWidth 32).toInt) % 2 ^ 48 ∧
      (t.sta sta).con = (s.sta sta).con ∧ (t.sta sta).unrepaired = ((s.sta sta).unrepaired && !wbit v 31)) ∧
    (∀ i id, s.cur = some (.mrepairNoAnswer i id) → (s.ctx i.ctx).saved = none →
      ((s.strm i).pend.any (fun p => p.id == id && p.inter && p.land == 0) = true →
        exec .mrepairNoAnswer s = .next (s.arrive i id s.clk (.word 2))) ∧
      ((s.strm i).pend.all (fun p => p.id != id) = true → (s.strm i).latch = [] → exec .mrepairNoAnswer s = .next s))

/-! ## Events of errors, surveys and the scheduler (01 R11; 04 R86 to R115; 05 R128 to R138; 07 R185 to R187) -/

/-- Errors of the hardware (07 R185 to R187; 04 R98 to R103, R109). A correctable error freezes its core for 40 clk and has the unit tested; at
the end of a freeze the slip of every stream of its active context, where that runs in normal mode, rises by 40; a unit that fails its test leaves a new edition; an
uncorrectable error outside a recoverable interval raises POISON with its address; unequal slots of a redundant pair, or a second one that
does not come within 64 clk, raise CHECK in both members. -/
def Obligations.ErrorEvents : Prop :=
  ∀ (s : State) (core : Nat) (u : UnitId) (passes : Bool) (slot : Slot),
    (s.cur = some (.eccFreezeBegin core u passes) → s.partner ⟨core, (s.core core).active⟩ = none → s.frozen core = false →
      ∃ t, exec .eccFreezeBegin s = .next t ∧ (t.core core).freeze = some (s.clk + 40) ∧
        (s.clk + 40, Event.eccFreezeEnd core) ∈ t.agenda ∧ (s.clk + 40, Event.selfTestEnd (dieOf core) u passes) ∈ t.agenda ∧ t.mem = s.mem) ∧
    (s.cur = some (.eccFreezeEnd core) → (s.core core).freeze = some s.clk →
      let c := s.issuing core
      (s.ctx c).onTime = true → (s.ctx c).freezes = 0 → (s.ctx c).guarded = true →
      ∃ t, exec .eccFreezeEnd s = .next t ∧ (t.core core).freeze = none ∧ (t.ctx c).freezes = 1 ∧
        (t.ctx c).c.slip = (s.ctx c).c.slip + 40 ∧ (t.ctx c).a.slip = (s.ctx c).a.slip + 40 ∧ (t.ctx c).v.slip = (s.ctx c).v.slip + 40) ∧
    (∀ die, s.cur = some (.selfTestEnd die u passes) →
      (passes = true → u.kind < 0x0B → exec .selfTestEnd s = .next s) ∧
      (passes = false → exec .selfTestEnd s = .next ((s.lastingFault die u).1.signEdition die (s.lastingFault die u).2))) ∧
    (∀ (c : CtxId) (a : Word), s.cur = some (.uncorrectableErrorConsumed c a none) → (s.ctx c).resident = true →
      s.recoverable (s.ctx c).plat = false → exec .uncorrectableErrorConsumed s = .next (s.raiseAsync c 0x23 a)) ∧
    (∀ die, s.cur = some (.memoryUncorrectableError die u passes) → ∃ t due, exec .memoryUncorrectableError s = .next t ∧
      t = { s with fresh := s.fresh + 1 }.post due (.selfTestEnd die u passes) ∧ s.clk ≤ due ∧ due ≤ s.clk + 2100000) ∧
    (∀ d second at_, s.cur = some (.pairSlotCompare core slot at_) → s.pairOf core slot.job = some (d, second) →
      (∀ n other rest, (s.core d.core).pairWait = (n, other) :: rest →
        let t := s.modCore d.core (fun k => { k with pairWait := rest })
        (pairForm other = pairForm slot → exec .pairSlotCompare s = .next (t.pairSend core (if second then other else slot) at_)) ∧
        (pairForm other ≠ pairForm slot → exec .pairSlotCompare s = .next (t.pairFails core slot.job))) ∧
      ((s.core d.core).pairWait = [] → ∃ t, exec .pairSlotCompare s = .next t ∧
        (s.clk + 64, Event.pairCompareTimeout core s.fresh) ∈ t.agenda)) ∧
    (∀ n, s.cur = some (.pairCompareTimeout core n) → (s.core core).pairWait.find? (fun p => p.1 == n) = some (n, slot) →
      exec .pairCompareTimeout s = .next ((s.modCore core (fun k => { k with pairWait := k.pairWait.filter (fun p => p.1 != n) })).pairFails
        core slot.job))

/-- Surveys and temperature (04 R87 to R97, R110; 01 R11, R34). A resurvey begins, ends within 50 ms and has the next one set; its end publishes one
edition with the unit whose class rose; at E the edition is posted to the plats it touches that were not in guarded timing as it was signed,
to none where no plat is there, and a plat whose timetable crosses a link out of lock takes TIMETABLE_OVERRUN 4; a reading of 105 degrees asks every plat of
the module to stop, one of 115 takes the core rails' power. -/
def Obligations.SurveyEvents : Prop :=
  ∀ (s : State) (die m : Nat),
    (s.cur = some (.periodicResurvey die) → ∃ due, s.clk < due ∧ due ≤ s.clk + 52500000 ∧
      let t := { s with fresh := s.fresh + 1 }.modDie die (fun d => { d with survey := { d.survey with running := true } })
      exec .periodicResurvey s = .next ((t.post due (.resurveyEnd die (t.measured die) [])).postResurvey die)) ∧
    ((s.die die).survey.running = false → ∀ us ls, s.cur = some (.resurveyEnd die us ls) → exec .resurveyEnd s = .next s) ∧
    ((s.die die).survey.running = true → s.cur = some (.resurveyEnd die [] []) → exec .resurveyEnd s = .next (s.modDie die (fun d =>
      { d with survey := { d.survey with running := false } }))) ∧
    (∀ u cls, s.cur = some (.resurveyEnd die [⟨u, 0, cls⟩] []) → (s.die die).survey.running = true → unitExists die u = true → hasClass u.kind = true →
      ((s.die die).unit u.kind u.index).1 = 0 → ((s.die die).unit u.kind u.index).2 < cls → cls < 3 →
      ∃ t, exec .resurveyEnd s = .next t ∧ (t.die die).unit u.kind u.index = (0, cls) ∧
        (t.die die).survey.edition = nextEdition (s.die die).survey.edition ∧ (t.die die).survey.area = !(s.die die).survey.area ∧
        (t.die die).survey.running = false ∧ t.mem = s.mem) ∧
    (∀ e skip, s.cur = some (.surveyChangePost die e skip) → s.allPlats = [] → exec .surveyChangePost s = .next s) ∧
    (∀ e skip p c, s.cur = some (.surveyChangePost die e skip) → s.allPlats = [p] → p.plat ∉ skip → s.ctxsOf p.plat = [c] → (s.ctx c).phase = .running →
      s.editionTouch die p ((s.die die).survey.history.filter (fun h => h.edition == e.toNat)) = .change →
      exec .surveyChangePost s = .next ((s.raiseAsync c 0x22 (e.setWidth 64)).modCtx c (fun x => { x with guarded := true }))) ∧
    -- a link out of lock under the timetable of a plat, in guarded timing or not
    (∀ e skip p, s.cur = some (.surveyChangePost die e skip) → s.allPlats = [p] → s.ctxsOf p.plat ≠ [] →
      s.editionTouch die p ((s.die die).survey.history.filter (fun h => h.edition == e.toNat)) = .lock →
      exec .surveyChangePost s = .next (s.overrunPlat p.plat 4)) ∧
    (s.cur = some (.thermalStop m) → ∃ t, exec .thermalStop s = .next t ∧ (t.modu m).hot = true ∧
      (t.modu m).notes = .thermalStop :: (s.modu m).notes ∧
      (∀ c, c ∈ s.residents → modOf c.core = m → c ∈ s.ctxsOf (s.ctx c).plat → (t.ctx c).stopReq = true)) ∧
    (s.cur = some (.thermalPowerOff m) →
      exec .thermalPowerOff s = .next ((s.dropCores m).modMod m (fun x => { x with powered := false })))

/-- The scheduler (05 R128 to R138): at D_k a plat that is not waiting goes on as it was; one whose predecessor does not pass is withdrawn with
code 16 and its index, on several dies with a verdict FAILED to the others; one that is ready is released, on its only die at once, with the 8 clk of the
switch behind the core (the model's log 34), on several behind its verdict READY; one that is neither is looked at again at the next D_k. A failed verdict
withdraws with code 17 and the die; the first missing one at S_k - 1,024 does so on every die, with all ready the release follows, and with one not
ready the plat waits; at S_k - 8 the switches begin; each full 2^20 clk of waiting raises the rank, up to four times; an occupant of equal rank is
pre-empted after 2^20 clk; a plat not stopped 2^20 clk after the request is stopped in the clk; a stopped plat goes on at a whole frame from its stop
where it is ready, else it is looked at a frame later.
A context at release (05 R132): C and A hold the parameters, the parcel's index and parameter and S_k from s1 or a1 on, every other register
is zero, each stream stands at the ENTRY block of its region and is there where it has one, the mode is normal, VSTAT and DSTAT are zero
and no cause pends. -/
def Obligations.SchedulerAndReleaseEvents : Prop :=
  (∀ (s : State) (die : Nat) (plat : Word) (k : Nat) (p : PlatRec),
       (s.die die).plat plat = some p →
       (s.cur = some (.readinessDeadline die plat k) →
         (p.code ≠ 1 → exec .readinessDeadline s = .next s) ∧
         (p.code = 1 → s.releaseDue die plat = false →
           let t := s.requestCores die p
           let sk := p.start + k * p.frame
           (p.diesOf.length = 1 →
             (∀ i, t.latePred die p = some i → exec .readinessDeadline s = .next (t.withdraw die plat 0x16 i)) ∧
             (∀ cs, t.latePred die p = none → t.readyBanks die p sk = some cs → cs.all t.bankSet = true →
               exec .readinessDeadline s = .next ((t.takeBanks die plat cs).postNow (.platRelease die plat k))) ∧
             (t.latePred die p = none → p.verdicts = [] → (∀ cs, t.readyBanks die p sk = some cs → cs.all t.bankSet = false) →
               exec .readinessDeadline s = .next ((t.modPlat die plat (fun q => { q with banks := [] })).nextCandidate die p k))) ∧
           (1 < p.diesOf.length →
             (∀ i, t.latePred die p = some i →
               exec .readinessDeadline s = .next ((t.sendVerdict die p k 0).withdraw die plat 0x16 i)) ∧
             (∀ cs, t.latePred die p = none → t.readyBanks die p sk = some cs →
               exec .readinessDeadline s = .next ((((t.takeBanks die plat cs).sendVerdict die p k 1).post (sk - 1024)
                 (.verdictTimeout die plat k)).nextCandidate die p k)) ∧
             (t.latePred die p = none → p.verdicts = [] → t.readyBanks die p sk = none →
               exec .readinessDeadline s = .next ((((t.modPlat die plat (fun q => { q with banks := [] })).sendVerdict die p k 2).post (sk - 1024)
                 (.verdictTimeout die plat k)).nextCandidate die p k))))) ∧
       (∀ frm v, s.cur = some (.readinessVerdict die plat frm k v) → p.code = 1 →
         (v = 0 → exec .readinessVerdict s = .next (s.withdraw die plat 0x17 frm)) ∧
         (v ≠ 0 → exec .readinessVerdict s = .next (s.modPlat die plat (fun q => { q with verdicts := (frm, k, v) :: q.verdicts })))) ∧
       (s.cur = some (.verdictTimeout die plat k) → p.code = 1 →
         let verdict (d : Nat) : Option Nat := (p.verdicts.find? (fun v => v.1 == d && v.2.1 == k)).map (fun v => v.2.2)
         (∀ ds d es, p.diesOf = ds ++ d :: es → verdict d = none → (∀ e ∈ ds, verdict e ≠ none) →
           exec .verdictTimeout s = .next (p.diesOf.foldl (fun t e =>
             if ((t.die e).plat plat).isSome then t.withdraw e plat 0x17 d else t) s)) ∧
         ((∀ d ∈ p.diesOf, verdict d = some 1) →
           exec .verdictTimeout s = .next (s.post (p.start + k * p.frame - 8) (.platRelease die plat k))) ∧
         (∀ d ∈ p.diesOf, verdict d ≠ some 1 → (∀ e ∈ p.diesOf, verdict e ≠ none) → exec .verdictTimeout s = .next s)) ∧
       (s.cur = some (.platRelease die plat k) → p.code = 1 → s.clk < p.start + k * p.frame →
         exec .platRelease s = .next ((s.switchTo p.banks).post (p.start + k * p.frame) (.platRelease die plat k))) ∧
       (∀ c q, s.cur = some (.platRelease die plat k) → p.code = 1 → s.clk = p.start + k * p.frame → p.banks = [c] → p.parcelAt c.core = some q →
         (∀ w ∈ (s.die die).plats, w.plat ≠ plat → w.code ≠ 1 ∧ w.code ≠ 3) →
         ∃ t, exec .platRelease s = .next t ∧
           t.ctx c = releaseCtx (s.ctx c) p q (dieOf c.core) s.clk ((s.modu (modOf c.core)).features p.job.toNat) ∧
           (t.core c.core).active = c.bank ∧ ((t.die die).plat plat).map (fun r => r.code) = some 2 ∧
           (s.clk + 2 ^ 20, Event.runQuantumExpiry die plat) ∈ t.agenda) ∧
       (s.cur = some (.priorityAging die plat) → (p.code = 1 ∨ p.code = 3) → p.since + (p.age + 1) * 2 ^ 20 = s.clk →
         let t := s.modPlat die plat (fun q => { q with age := q.age + 1 })
         exec .priorityAging s = .next ((if p.age < 3 then t.post (s.clk + 2 ^ 20) (.priorityAging die plat) else t).requestCores die
           { p with age := p.age + 1 })) ∧
       (s.cur = some (.runQuantumExpiry die plat) → p.code = 2 → p.since + 2 ^ 20 ≤ s.clk →
         (∀ w ∈ (s.die die).plats, (w.code = 1 ∨ w.code = 3) → s.outranks w.rank p = true →
           (s.occupants die w).any (fun q => q.plat == plat) = true → exec .runQuantumExpiry s = .next (s.preempt plat))) ∧
       (s.cur = some (.forcedStop die plat) → p.asked = none → exec .forcedStop s = .next s) ∧
       (∀ t0, s.cur = some (.forcedStop die plat) → p.code = 2 → p.asked = some t0 → t0 + 2 ^ 20 ≤ s.clk → s.ctxsOf plat = [] →
         exec .forcedStop s = .next (s.platStopped plat 0)) ∧
       (∀ w stop, s.cur = some (.platResume die plat) → p.stopped = some (w, stop) → p.code = 3 → p.lead? = some die →
         ((s.clk - stop) % p.frame ≠ 0 → exec .platResume s = .next
           (s.post (stop + (s.clk - stop + p.frame - 1) / p.frame * p.frame) (.platResume die plat))) ∧
         ((s.clk - stop) % p.frame = 0 → (s.canResume p = false ∨ s.resumeBanks plat = none ∨
             ∃ cs, s.resumeBanks plat = some cs ∧ cs.all (fun c => s.bankSet c.1) = false) →
           exec .platResume s = .next (s.post (s.clk + p.frame) (.platResume die plat))) ∧
         (∀ cs, (s.clk - stop) % p.frame = 0 → s.canResume p = true → s.resumeBanks plat = some cs →
           cs.all (fun c => s.bankSet c.1) = true → p.diesOf = [die] → ∃ t, exec .platResume s = .next t ∧
           ((t.die die).plat plat).map (fun r => (r.code, r.stopped, r.since, r.age)) = some (2, none, s.clk, 0) ∧
           (s.clk + 2 ^ 20, Event.runQuantumExpiry die plat) ∈ t.agenda))) ∧
  (∀ (old : Ctx) (p : PlatRec) (q : Parcel) (die sk : Nat) (feat : Word),
       p.params.length = 8 →
       let x := releaseCtx old p q die sk feat
       (∀ i, i < 8 → x.c.reg (i + 1) = p.params.getD i 0 ∧ x.a.reg (i + 1) = p.params.getD i 0) ∧
       x.c.reg 9 = BitVec.ofNat 64 q.index ∧ x.c.reg 10 = q.pparam ∧ x.c.reg 11 = BitVec.ofNat 64 sk ∧
       (∀ n, 11 < n → x.c.reg n = 0 ∧ x.a.reg n = 0) ∧ x.v.regs = [] ∧
       x.c.pc = (q.creg.off + q.creg.entry) % 65536 ∧ x.a.pc = (q.areg.off + q.areg.entry) % 65536 ∧
       x.v.pc = (q.vreg.off + q.vreg.entry) % 65536 ∧
       (x.c.live = true ↔ q.creg.len ≠ 0) ∧ (x.a.live = true ↔ q.areg.len ≠ 0) ∧ (x.v.live = true ↔ q.vreg.len ≠ 0) ∧
       x.normal = true ∧ x.trapc = 0 ∧ x.tvec = 0 ∧ x.vf.vstat = 0 ∧ x.vf.dstat = 0 ∧ x.pending = [] ∧ x.guarded = false ∧
       x.job = p.job ∧ x.plat = p.plat ∧ x.resident = true ∧ x.feat = feat)

/-! ## Events of the host, of boot and of the loader (00 R4; 01 R32, R35, R39; 03 R66 to R85; 06 R147 to R161) -/

/-- Registers of the module and its functions (01 R35, R39; 03 R70 to R77, R84). A free semaphore goes to its only requester, and back when its
owner writes 0; a mirror entry keeps PLOST when it is written, and clearing PLOST clears it; EN, GO and RST act on their function; a job
range is taken where the function is disabled and it meets no other, and JOBERR set otherwise; accepted features are locked by GO until the module reset; the
mask of a PF takes nothing; an MSI-X vector below 64 is sent; selected error counters are zeroed; an attestation follows its request. -/
def Obligations.FunctionEvents : Prop :=
  ∀ (s : State) (m f n : Nat) (v : Word),
    let g := (s.modu m).fn f
    (∀ w, s.cur = some (.hsemAcquire m n [w]) → 1 ≤ w → w ≤ 3 →
      (Sp.get 0 (s.modu m).hsem n = 0 → exec .hsemAcquire s = .next (s.modMod m (fun x => { x with hsem := Sp.set 0 x.hsem n w }))) ∧
      (Sp.get 0 (s.modu m).hsem n ≠ 0 → exec .hsemAcquire s = .next s)) ∧
    (∀ w, s.cur = some (.hsemRelease m n w) → Sp.get 0 (s.modu m).hsem n = w →
      exec .hsemRelease s = .next (s.modMod m (fun x => { x with hsem := Sp.set 0 x.hsem n 0 }))) ∧
    (∀ sta, s.cur = some (.mirentWrite sta n v) → ∃ t, exec .mirentWrite s = .next t ∧
      Sp.get 0 (t.modu (sta / 16)).mirent n = (Sp.get 0 (s.modu (sta / 16)).mirent n &&& 0x4000) ||| (v &&& 0x803F)) ∧
    (∀ sta, s.cur = some (.plostClear sta n v) → wbit v 14 = true → ∃ t, exec .plostClear s = .next t ∧
      Sp.get 0 (t.modu (sta / 16)).mirent n = Sp.get 0 (s.modu (sta / 16)).mirent n &&& ~~~0x4000) ∧
    (s.cur = some (.fnctlRst m f) → ∃ t, exec .fnctlRst s = .next t ∧ ((t.modu m).fn f).rst = true ∧
      ((t.modu m).fn f).go = false ∧ ((t.modu m).fn f).en = false) ∧
    (s.cur = some (.functionResetComplete m f) → s.jobsFree m f = true →
      exec .functionResetComplete s = .next (s.modFn m f (fun x => { x with rst := false }))) ∧
    (s.cur = some (.fnctlGo m f) → exec .fnctlGo s = .next (s.modFn m f (fun x => { x with go := true, accLock := true }))) ∧
    (∀ on, s.cur = some (.fnctlEn m f on) → exec .fnctlEn s = .next (s.modFn m f (fun x => { x with en := on }))) ∧
    (s.cur = some (.fnjobsWrite m f v) →
      (g.en = true → exec .fnjobsWrite s = .next (s.modFn m f (fun x => { x with jobErr := true }))) ∧
      (g.en = false → wfield v 16 12 ≠ 0 → wfield v 0 12 = 0 → exec .fnjobsWrite s = .next (s.modFn m f (fun x => { x with jobErr := true }))) ∧
      (g.en = false → 1 ≤ wfield v 0 12 → wfield v 0 12 + wfield v 16 12 ≤ 4096 → (s.modu m).fns = [] →
        exec .fnjobsWrite s = .next (s.modFn m f (fun x =>
          { x with base := BitVec.ofNat 12 (wfield v 0 12), cnt := BitVec.ofNat 12 (wfield v 16 12) })))) ∧
    (s.cur = some (.feataccWrite m f 0 v) →
      (g.accLock = true → exec .feataccWrite s = .next (s.modFn m f (fun x => x))) ∧
      (g.accLock = false → v &&& ~~~featOffered ≠ 0 → exec .feataccWrite s = .next (s.modFn m f (fun x => { x with featErr := true }))) ∧
      (g.accLock = false → v &&& ~~~featOffered = 0 → exec .feataccWrite s = .next (s.modFn m f (fun x => { x with accLo := v })))) ∧
    (s.cur = some (.featmaskWrite m f 0 v) → exec .featmaskWrite s =
      .next (if f % 64 = 0 then s else s.modFn m f (fun x => { x with maskLo := v }))) ∧
    (s.cur = some (.fnnotifyWrite m f v) → exec .fnnotifyWrite s =
      .next (if v.toNat < 64 ∧ (s.modu m).port (f / 64) = true then s.modFn m f (fun x => { x with msix := v.toNat :: x.msix }) else s)) ∧
    (s.cur = some (.fnerrclrWrite m f v) → exec .fnerrclrWrite s =
      .next (s.modFn m f (fun x => { x with errs := x.errs.filter (fun e => !wbit v e.1) }))) ∧
    (s.cur = some (.attctlRequest m f) → g.pending = false → (s.modu m).port (f / 64) = true → ∃ t due, exec .attctlRequest s = .next t ∧ ((t.modu m).fn f).pending = true ∧
      ((t.modu m).fn f).asked = Memory.readN g.nonce 0 64 ∧ (due, Event.attestReportReady m f) ∈ t.agenda ∧ due ≤ s.clk + 1050000) ∧
    (s.cur = some (.attestReportReady m f) → g.pending = true → ∃ t, exec .attestReportReady s = .next t ∧
      ((t.modu m).fn f).pending = false ∧ ((t.modu m).fn f).ready = true ∧ ((t.modu m).fn f).report.take (s.attestBytes m f).length =
        s.attestBytes m f)

/-- The host (00 R4; 01 R32; 03 R66 to R71, R80 to R85): a plain register takes its masked fields; a BAR0 access reads a register, and one
that is misaligned or of another size is an error; a BAR2 write and read reach memory at the address of their offset; a configuration request before boot is complete is answered with retry status; a port's
reset frees its semaphores; IEEE 1588 sets PTIME. Boot: management core 0 starts in stage 1, the fetch is stage 2; DHCP is used without a
DHCPv6 answer; an image that passes the checks starts the management cores at stage 4, which the first surveys at stage 5 follow, a third that fails leaves the core in recovery; the fused version goes up only under
semaphore 1; a module reset resets every station. -/
def Obligations.HostEvents : Prop :=
  ∀ (s : State) (m f off p : Nat) (v : Word),
    let x := s.modu m
    (∀ n mask, s.cur = some (.registerWrite m (0x40000 + 8 * n) v mask 1) → n < 4096 → exec .registerWrite s = .next (s.modSta (16 * m) (fun t =>
      { t with jroot := Sp.set 0 t.jroot n (merged (Sp.get 0 t.jroot n) v mask 0x000FFFFFFFFFFF01) }))) ∧
    (∀ data pa, s.cur = some (.hostBar2Write m f off data) → x.serves f = true → off % 65536 + data.length ≤ 65536 →
      data ≠ [] → s.bar2 m f off true = some pa → s.watchers (memKey m pa) data.length = [] → s.inInterval 0 = false →
      exec .hostBar2Write s = .next { s with mem := Memory.writeN s.mem (memKey m pa) data }) ∧
    (∀ n pa, s.cur = some (.hostBar2Read m f off n) → x.serves f = true → off % 65536 + n ≤ 65536 → 0 < n → s.bar2 m f off false = some pa →
      exec .hostBar2Read s = .next (s.modMod m (fun x =>
        { x with notes := .bar2Read f off (some (Memory.readN s.mem (memKey m pa) n)) :: x.notes }))) ∧
    (∀ n, s.cur = some (.hostBar0Read m f off n) → x.serves f = true →
      (bar0 f off n = none → exec .hostBar2Read s = .next ((s.countHost m f).modMod m (fun x => { x with notes := .bar0Read f off none :: x.notes }))) ∧
      (∀ o, bar0 f off n = some o → n = 8 → exec .hostBar2Read s = .next (s.modMod m (fun x =>
        { x with notes := .bar0Read f off (some (s.regRead m (o / 8 * 8))) :: x.notes })))) ∧
    (∀ n, s.cur = some (.hostBar0Write m f off n v) → x.serves f = true → bar0 f off n = none →
      exec .registerWrite s = .next (s.countHost m f)) ∧
    (s.cur = some (.hostConfigRequest m p) →
      exec .hostConfigRequest s = .next (s.modMod m (fun x => { x with notes := .config p (!x.ready) :: x.notes }))) ∧
    (s.cur = some (.portReset m p) → p < 2 → ∃ t, exec .portReset s = .next t ∧ (t.modu m).port p = false ∧
      (∀ e ∈ (t.modu m).hsem, e.2 ≠ p + 1) ∧ t.mem = s.mem) ∧
    (s.cur = some (.hostPortTrained m p) → p < 2 → ∃ t, exec .hostPortTrained s = .next t ∧ (t.modu m).port p = true ∧ t.mem = s.mem) ∧
    (s.cur = some (.ptimeSync m v) → ∃ t, exec .ptimeSync s = .next t ∧ (t.modu m).ptime = v ∧ (t.modu m).ptimeAt = s.clk) ∧
    (s.cur = some (.powerOn m) → ∃ t, exec .powerOn s = .next t ∧ (t.modu m).stage = 1 ∧ (t.modu m).ready = false ∧
      (t.modu m).powered = true ∧ (t.modu m).mgmt = [0] ∧ (t.modu m).minVersion = x.minVersion ∧ t.mem = s.mem) ∧
    (s.cur = some (.bootStep m 2 x.eth) → x.stage = 1 → exec .powerOn s = .next (s.modMod m (fun x => { x with stage := 2 }))) ∧
    (s.cur = some (.bootStep m 5 p) → x.stage = 4 → ∃ t, exec .powerOn s = .next t ∧ (t.modu m).stage = 5 ∧
      (∀ d, d < 8 → (t.die (8 * m + d)).survey.edition = 1) ∧ t.mem = s.mem) ∧
    (s.cur = some (.dhcpv6Timeout m) → x.stage = 1 → exec .dhcpv6Timeout s = .next (s.modMod m (fun x => { x with dhcp := true }))) ∧
    (∀ img, s.cur = some (.imageFetchComplete m (Config.keyHash m) img v true) → x.fail = false → x.stage = 2 → x.minVersion.toNat ≤ v.toNat →
      ∃ t due, exec .imageFetchComplete s = .next t ∧ (t.modu m).stage = 4 ∧ (t.modu m).version = v ∧ (t.modu m).image = img ∧
        (t.modu m).mgmt = List.range 8 ∧ s.clk < due ∧ (due, Event.bootStep m 5 0) ∈ t.agenda ∧ t.mem = s.mem) ∧
    (∀ key img, s.cur = some (.imageFetchComplete m key img v false) → x.fail = false → x.stage = 2 → x.tries = 2 →
      exec .imageFetchComplete s = .next (s.modMod m (fun x => { x with tries := 3, fail := true, stage := 3 }))) ∧
    (s.cur = some (.firmwareUpdate m v) → Sp.get 0 x.hsem 1 = 3 → x.minVersion.toNat < v.toNat → x.passed.contains v = true →
      ∃ t, exec .firmwareUpdate s = .next t ∧ (t.modu m).minVersion = v) ∧
    (s.cur = some (.moduleReset m) → ∃ t, exec .moduleReset s = .next t ∧ t.mem = s.mem ∧
      (∀ n, n < 12 → (s.clk, Event.stationReset (16 * m + n)) ∈ t.agenda) ∧ (∀ c : CtxId, modOf c.core = m → (t.ctx c).resident = false ∨ 2 ≤ c.bank))

/-- The translator and the loader (06 R147 to R154, R161): a template pass writes an object for the current editions, a profile pass does so where
its own are current, each named by the object, and it meets no object in use; a request that can be read is answered in its result, with the code and index of the first failure, FORMAT where the request's reserved bytes
are not zero, and with 1 for an object that is bound to its plat. -/
def Obligations.LoaderEvents : Prop :=
  ∀ (s : State) (m die : Nat) (va : Word) (out : List (Nat × List Byte)),
    (s.cur = some (.templatePass m out) → s.translates m = true →
      (s.passOutput m out = none → exec .templatePass s = .next s) ∧
      (∀ f, s.passOutput m out = some f → exec .templatePass s = .next (s.writeObject m out))) ∧
    (∀ es f, s.cur = some (.profilePass m es out) → s.translates m = true → (∀ e ∈ es, e.2.toNat = (s.die e.1).survey.edition) →
      s.passOutput m out = some f → f.madeFor es = true →
      ((∀ w ∈ out, ∀ r ∈ s.keptObjects, rangesMeet (m, w.1, w.2.length) r = false) → exec .profilePass s = .next (s.writeObject m out)) ∧
      (∀ w ∈ out, ∀ r ∈ s.keptObjects, rangesMeet (m, w.1, w.2.length) r = true → exec .profilePass s = .next s)) ∧
    (∀ es e, s.cur = some (.profilePass m es out) → e ∈ es → e.2.toNat ≠ (s.die e.1).survey.edition → exec .profilePass s = .next s) ∧
    (s.cur = some (.loaderRequest die va) → s.mgmtRuns die = true →
      (s.readVirt (16 * die + 9) 0 .read va.toNat 64 = none → exec .loaderRequest s = .next s) ∧
      (∀ q, s.readVirt (16 * die + 9) 0 .read va.toNat 64 = some q →
        let core := 16 * die + 9
        let obj := leAt q 0 8
        let plat := leAt q 8 8
        let res := leAt q 0x10 8
        let answer (code index : Nat) (t : State) : State :=
          (t.writeVirt core 0 (res + 4) (bytesLE 4 index ++ bytesLE 8 t.clk)).writeVirt core 0 res [BitVec.ofNat 8 code, 0, 0, 0]
        ((q.drop 0x18).any (fun b => b != 0) = true → exec .loaderRequest s = .next (answer 0x20 0 s)) ∧
        ((q.drop 0x18).any (fun b => b != 0) = false →
          (∀ code index, s.readObject core obj plat = .error (code, index) → exec .loaderRequest s = .next (answer code index s)) ∧
          (∀ o pe pva, s.readObject core obj plat = .ok (o, pe, pva) →
            (∀ code index, o.failure = some (code, index) → exec .loaderRequest s = .next (answer code index s)) ∧
            (o.failure = none →
              let t := (s.bindObject core plat o pe pva (obj + ofBytesLE ((s.readVirt core 0 .read (obj + 0x18) 8).getD []))).modMod (modOf core)
                (fun x => { x with objects := s.objectRanges core obj o :: x.objects })
              exec .loaderRequest s = .next (answer 1 0 { t with fresh := t.fresh + o.sects.length }))))))

/-! ## The machine as a whole -/

/-- One step (log 7 orders them). An event that is due runs with its operands and leaves the agenda. In the turn of a stream that may issue,
the word whose halfwords stand at its position inside loaded regions and inside its block runs, and A and V go on after C issued a word
other than EVAC, CKPT and RETIRE (14 R351); a word that does not decode, or that reaches past its block, raises ILLEGAL with its first halfword (12 R298;
07 R165), and one outside the regions ABSENT with the halfword (05 R130). With no turn left the next clk begins. -/
def Obligations.StepRunsTheWord : Prop :=
  ∀ (s : State),
    (∀ due e rest, s.agenda = (due, e) :: rest → due ≤ s.clk →
      step s = exec e.instr { s with agenda := rest, cur := some e }) ∧
    ((∀ e ∈ s.agenda, s.clk < e.1) →
      (s.turn = [] → step s = .next s.tick) ∧
      (∀ i rest, s.turn = .issue i :: rest → (s.ctx i.ctx).resident = true → s.act i = .word → s.pairHeld i = false →
        let t : State := { s with turn := rest, foc := i }
        let inside : Prop := t.fstrm.pc + t.halvesHere ≤ t.fstrm.blk + 4 + t.fstrm.len
        (t.absentHalf = none → inside →
          (∀ w, t.firstHalf.getLsbD 0 = true → decode32 (kindOf i.ctx.core) i.st (t.fcore.word i.st t.fstrm.pc) = .ok w →
            step s = mapNext (fun u => u.afterWord w) (exec w t)) ∧
          (∀ w, t.firstHalf.getLsbD 0 = false → decode16 (kindOf i.ctx.core) i.st t.firstHalf = .ok w →
            step s = mapNext (fun u => u.afterWord w) (exec w t)) ∧
          (∀ e, t.decodeHere = .error e → step s = .next (t.raise 0x01 (t.firstHalf.setWidth 64)))) ∧
        (t.absentHalf = none → ¬ inside → step s = .next (t.raise 0x01 (t.firstHalf.setWidth 64))) ∧
        (∀ h, t.absentHalf = some h → step s = .next (t.raise 0x06 (BitVec.ofNat 64 h)))))

/-- Words whose encodings the spec writes out (13 after R306; 19). -/
def Obligations.EncodedWordsDecode : Prop :=
  decode32 .compute .c 0xC010A1D1 = .ok (.ldAcq 4 16 20 7) ∧
  decode32 .compute .c 0x0070005D = .ok (.pbrx 7 ⟨false, 0⟩ 1) ∧
  decode16 .compute .c 0x0080 = .ok (.stall 4) ∧
  decode32 .compute .c 0x0002005D = .ok (.brl ⟨false, 0⟩ 1) ∧
  decode32 .compute .v 0x30620903 = .ok (.vfma 3 3 2 1 4) ∧
  decode32 .compute .c 0x82294031 = .ok (.mma ⟨true, 2, 1, 9, 8⟩ false 0) ∧
  decode32 .compute .c 0x1FFFE25B = .ok (.pbr 0xFFFF1 1) ∧
  decode32 .compute .v 0x03040017 = .ok (.vpop 3 0 4 0) ∧
  decode32 .compute .v 0x00041961 = .ok (.dadd 4 3 5) ∧
  decode32 .compute .a 0x00A00921 = .ok (.ldv 5 0 1 4) ∧
  decode32 .compute .c 0x4000002D = .ok .retire ∧
  decode32 .dispatch .v 0x00041961 = .error .operand

/-- Decoding an encoded instruction gives it back, with the bytes after it: for every instruction that is well-formed on a stream of a kind
of core, with every operand (13 R300, R303 to R312). -/
def Obligations.DecodeEncode : Prop :=
  ∀ (i : Instr) (kd : CoreKind) (st : Stream) (rest : List Byte),
    i.wf kd st = true → decodeBytes kd st ((encode i).bytes ++ rest) = some (.ok i, rest)

/-- What decodes is well-formed on its stream and kind of core (13 R300 step 4; 07 R190), and no event of the device is a word. -/
def Obligations.DecodedIsWellFormed : Prop :=
  ∀ (kd : CoreKind) (st : Stream) (bs rest : List Byte) (i : Instr),
    decodeBytes kd st bs = some (.ok i, rest) → i.wf kd st = true ∧ ∀ e : Event, i ≠ e.instr

/-- Every step keeps the canonical form of the modules' memory, which no load, trap, event or host access breaks (log 4). -/
def Obligations.MemoryStaysCanonical : Prop :=
  ∀ s t : State, Memory.wf s.mem = true → step s = .next t → Memory.wf t.mem = true

/-- The machine right after reset (05 R132, R138; 07 R162, R175; 08 R214; 12 R282; 02 R42, R61; 03 R70, R83; 04 R92): no context is resident and none
runs in a handler mode, p0 reads true and s0 and a0 read 0, every token count and counter of a station is 0, job 0 is open and every other
job free, no semaphore is owned, READY is 0 and no edition is signed. Memory is in its canonical form with nothing listed; that the bytes
read 0 and that the registers with no reset value read 0 are the model's choices (logs 3, 4). -/
def Obligations.ResetState : Prop :=
  let s := State.reset
  (∀ c : CtxId, (s.ctx c).resident = false ∧ (s.ctx c).mode = 0 ∧ (s.ctx c).pending = [] ∧ (s.ctx c).guarded = false ∧
    (∀ f, (s.ctx c).token f = 0)) ∧
  (∀ (i : StreamId) (n : Nat), (s.strm i).reg n = 0 ∧ (s.strm i).pred i.st 0 = true ∧ (s.strm i).slip = 0 ∧ (s.strm i).live = false) ∧
  (∀ (sta : Nat) (job : BitVec 12), s.jobState sta job = (if job = 0 then .opened else .free) ∧
    Sp.get 0 (s.sta sta).inj job.toNat = 0 ∧ Sp.get 0 (s.sta sta).con job.toNat = 0 ∧ Sp.get 0 (s.sta sta).los job.toNat = 0) ∧
  (∀ m n : Nat, Sp.get 0 (s.modu m).hsem n = 0 ∧ (s.modu m).ready = false) ∧
  (∀ d : Nat, (s.die d).survey.edition = 0) ∧
  (∀ k : Nat, (s.core k).active = 0 ∧ (s.core k).freeze = none) ∧
  Memory.wf s.mem = true ∧ (∀ a, Memory.read s.mem a = 0) ∧ s.clk = 0 ∧ s.agenda = [] ∧ s.turn = []

/-- What words that touch registers alone leave unchanged, whatever way they go on (07 R162, R180): every register but the one named, or the one
predicate, or the one branch register; every special and exception register, queue and token; every other context; every byte of memory
and every core, station and module. A vector word writes nothing in its issue clk. -/
def Obligations.RegisterFrame : Prop :=
  ∀ (s t : State) (g : Guard) (a b d : BitVec 5) (p : BitVec 6) (n : Bool) (i12 : BitVec 12) (i11 : BitVec 11) (i20 : BitVec 20) (i6 j6 : BitVec 6)
    (b3 : BitVec 3),
    (∀ i ∈ [Instr.add g b a d, .sub g b a d, .and g b a d, .or g b a d, .xor g b a d, .andn g b a d, .shl g b a d, .shr g b a d, .sar g b a d,
        .rol g b a d, .min g b a d, .max g b a d, .minu g b a d, .maxu g b a d, .mul g b a d, .mulhu g b a d, .addi i12 a d, .andi i12 a d,
        .ori i12 a d, .xori i12 a d, .shli i6 a d, .shri i6 a d, .sari i6 a d, .muli i12 a d, .lui i20 d, .auib i20 d, .bext g b a d,
        .bexts g b a d, .bins g b a d, .clz g a d, .ctz g a d, .popc g a d, .bexti j6 i6 a d, .binsi j6 i6 a d, .addih i6 d],
      exec i s = .next t → s.RegFrame t (s.only [d.toNat])) ∧
    (∀ i ∈ [Instr.cmpEq n b a p, .cmpNe n b a p, .cmpLt n b a p, .cmpGe n b a p, .cmpLtu n b a p, .cmpGeu n b a p, .cmpiEq n i11 a p,
        .cmpiNe n i11 a p, .cmpiLt n i11 a p, .cmpiGe n i11 a p, .cmpiLtu n i11 a p, .cmpiGeu n i11 a p],
      exec i s = .next t → s.RegFrame t (s.only [codeP p.toNat])) ∧
    (∀ i ∈ [Instr.pbr i20 b3, .pbrx a g b3], exec i s = .next t → s.RegFrame t (s.only [codeB b3.toNat])) ∧
    (∀ i ∈ [Instr.br g b3, .brh g b3], exec i s = .next t → s.RegFrame t (fun _ => false)) ∧
    (∀ i ∈ [Instr.vadd g b a d, .vsub g b a d, .vmul g b a d, .vmin g b a d, .vmax g b a d, .vabs g a d, .vneg g a d, .vmov g a d,
        .viadd g b a d, .visub g b a d, .vimul g b a d, .vand g b a d, .vor g b a d, .vxor g b a d, .vcmpEq n b a p, .vcmpLt n b a p,
        .vli i20 d, .vredrSum a d], exec i s = .next t → s.RegFrame t (fun _ => false)) ∧
    (∀ (x : Ctx) (q : Pend) (v : List Elem), q.val = .vec v →
      let y := x.land .v q
      (∀ m, m ≠ q.reg → Sp.get vzero y.vf.vregs m = Sp.get vzero x.vf.vregs m) ∧ y.vf.masks = x.vf.masks ∧ y.vf.dregs = x.vf.dregs ∧
        y.c = x.c ∧ y.a = x.a ∧ y.v = x.v ∧ y.pending = x.pending)
end

