-- ==== Sys2Proof/Laws/Exec.lean ====
section
/-! SUPPORT. Each arm of `exec`: what runs an instruction, so that no proof unfolds the dispatch. -/

namespace Sys2Proof.Machine

theorem exec_add (g : Guard) (b : BitVec 5) (a : BitVec 5) (d : BitVec 5) (s : State) : exec (.add g b a d) s = execAdd g b a d s := rfl
theorem exec_sub (g : Guard) (b : BitVec 5) (a : BitVec 5) (d : BitVec 5) (s : State) : exec (.sub g b a d) s = execSub g b a d s := rfl
theorem exec_and (g : Guard) (b : BitVec 5) (a : BitVec 5) (d : BitVec 5) (s : State) : exec (.and g b a d) s = execAnd g b a d s := rfl
theorem exec_or (g : Guard) (b : BitVec 5) (a : BitVec 5) (d : BitVec 5) (s : State) : exec (.or g b a d) s = execOr g b a d s := rfl
theorem exec_xor (g : Guard) (b : BitVec 5) (a : BitVec 5) (d : BitVec 5) (s : State) : exec (.xor g b a d) s = execXor g b a d s := rfl
theorem exec_andn (g : Guard) (b : BitVec 5) (a : BitVec 5) (d : BitVec 5) (s : State) : exec (.andn g b a d) s = execAndn g b a d s := rfl
theorem exec_shl (g : Guard) (b : BitVec 5) (a : BitVec 5) (d : BitVec 5) (s : State) : exec (.shl g b a d) s = execShl g b a d s := rfl
theorem exec_shr (g : Guard) (b : BitVec 5) (a : BitVec 5) (d : BitVec 5) (s : State) : exec (.shr g b a d) s = execShr g b a d s := rfl
theorem exec_sar (g : Guard) (b : BitVec 5) (a : BitVec 5) (d : BitVec 5) (s : State) : exec (.sar g b a d) s = execSar g b a d s := rfl
theorem exec_rol (g : Guard) (b : BitVec 5) (a : BitVec 5) (d : BitVec 5) (s : State) : exec (.rol g b a d) s = execRol g b a d s := rfl
theorem exec_min (g : Guard) (b : BitVec 5) (a : BitVec 5) (d : BitVec 5) (s : State) : exec (.min g b a d) s = execMin g b a d s := rfl
theorem exec_max (g : Guard) (b : BitVec 5) (a : BitVec 5) (d : BitVec 5) (s : State) : exec (.max g b a d) s = execMax g b a d s := rfl
theorem exec_minu (g : Guard) (b : BitVec 5) (a : BitVec 5) (d : BitVec 5) (s : State) : exec (.minu g b a d) s = execMinu g b a d s := rfl
theorem exec_maxu (g : Guard) (b : BitVec 5) (a : BitVec 5) (d : BitVec 5) (s : State) : exec (.maxu g b a d) s = execMaxu g b a d s := rfl
theorem exec_mul (g : Guard) (b : BitVec 5) (a : BitVec 5) (d : BitVec 5) (s : State) : exec (.mul g b a d) s = execMul g b a d s := rfl
theorem exec_mulhu (g : Guard) (b : BitVec 5) (a : BitVec 5) (d : BitVec 5) (s : State) : exec (.mulhu g b a d) s = execMulhu g b a d s := rfl
theorem exec_addi (im : BitVec 12) (a : BitVec 5) (d : BitVec 5) (s : State) : exec (.addi im a d) s = execAddi im a d s := rfl
theorem exec_andi (im : BitVec 12) (a : BitVec 5) (d : BitVec 5) (s : State) : exec (.andi im a d) s = execAndi im a d s := rfl
theorem exec_ori (im : BitVec 12) (a : BitVec 5) (d : BitVec 5) (s : State) : exec (.ori im a d) s = execOri im a d s := rfl
theorem exec_xori (im : BitVec 12) (a : BitVec 5) (d : BitVec 5) (s : State) : exec (.xori im a d) s = execXori im a d s := rfl
theorem exec_shli (im : BitVec 6) (a : BitVec 5) (d : BitVec 5) (s : State) : exec (.shli im a d) s = execShli im a d s := rfl
theorem exec_shri (im : BitVec 6) (a : BitVec 5) (d : BitVec 5) (s : State) : exec (.shri im a d) s = execShri im a d s := rfl
theorem exec_sari (im : BitVec 6) (a : BitVec 5) (d : BitVec 5) (s : State) : exec (.sari im a d) s = execSari im a d s := rfl
theorem exec_muli (im : BitVec 12) (a : BitVec 5) (d : BitVec 5) (s : State) : exec (.muli im a d) s = execMuli im a d s := rfl
theorem exec_lui (im : BitVec 20) (d : BitVec 5) (s : State) : exec (.lui im d) s = execLui im d s := rfl
theorem exec_auib (im : BitVec 20) (d : BitVec 5) (s : State) : exec (.auib im d) s = execAuib im d s := rfl
theorem exec_bext (g : Guard) (b : BitVec 5) (a : BitVec 5) (d : BitVec 5) (s : State) : exec (.bext g b a d) s = execBext g b a d s := rfl
theorem exec_bexts (g : Guard) (b : BitVec 5) (a : BitVec 5) (d : BitVec 5) (s : State) : exec (.bexts g b a d) s = execBexts g b a d s := rfl
theorem exec_bins (g : Guard) (b : BitVec 5) (a : BitVec 5) (d : BitVec 5) (s : State) : exec (.bins g b a d) s = execBins g b a d s := rfl
theorem exec_clz (g : Guard) (a : BitVec 5) (d : BitVec 5) (s : State) : exec (.clz g a d) s = execClz g a d s := rfl
theorem exec_ctz (g : Guard) (a : BitVec 5) (d : BitVec 5) (s : State) : exec (.ctz g a d) s = execCtz g a d s := rfl
theorem exec_popc (g : Guard) (a : BitVec 5) (d : BitVec 5) (s : State) : exec (.popc g a d) s = execPopc g a d s := rfl
theorem exec_bexti (w : BitVec 6) (o : BitVec 6) (a : BitVec 5) (d : BitVec 5) (s : State) : exec (.bexti w o a d) s = execBexti w o a d s := rfl
theorem exec_binsi (w : BitVec 6) (o : BitVec 6) (a : BitVec 5) (d : BitVec 5) (s : State) : exec (.binsi w o a d) s = execBinsi w o a d s := rfl
theorem exec_cmpEq (n : Bool) (b : BitVec 5) (a : BitVec 5) (p : BitVec 6) (s : State) : exec (.cmpEq n b a p) s = execCmpEq n b a p s := rfl
theorem exec_cmpNe (n : Bool) (b : BitVec 5) (a : BitVec 5) (p : BitVec 6) (s : State) : exec (.cmpNe n b a p) s = execCmpNe n b a p s := rfl
theorem exec_cmpLt (n : Bool) (b : BitVec 5) (a : BitVec 5) (p : BitVec 6) (s : State) : exec (.cmpLt n b a p) s = execCmpLt n b a p s := rfl
theorem exec_cmpGe (n : Bool) (b : BitVec 5) (a : BitVec 5) (p : BitVec 6) (s : State) : exec (.cmpGe n b a p) s = execCmpGe n b a p s := rfl
theorem exec_cmpLtu (n : Bool) (b : BitVec 5) (a : BitVec 5) (p : BitVec 6) (s : State) : exec (.cmpLtu n b a p) s = execCmpLtu n b a p s := rfl
theorem exec_cmpGeu (n : Bool) (b : BitVec 5) (a : BitVec 5) (p : BitVec 6) (s : State) : exec (.cmpGeu n b a p) s = execCmpGeu n b a p s := rfl
theorem exec_cmpiEq (n : Bool) (im : BitVec 11) (a : BitVec 5) (p : BitVec 6) (s : State) : exec (.cmpiEq n im a p) s = execCmpiEq n im a p s := rfl
theorem exec_cmpiNe (n : Bool) (im : BitVec 11) (a : BitVec 5) (p : BitVec 6) (s : State) : exec (.cmpiNe n im a p) s = execCmpiNe n im a p s := rfl
theorem exec_cmpiLt (n : Bool) (im : BitVec 11) (a : BitVec 5) (p : BitVec 6) (s : State) : exec (.cmpiLt n im a p) s = execCmpiLt n im a p s := rfl
theorem exec_cmpiGe (n : Bool) (im : BitVec 11) (a : BitVec 5) (p : BitVec 6) (s : State) : exec (.cmpiGe n im a p) s = execCmpiGe n im a p s := rfl
theorem exec_cmpiLtu (n : Bool) (im : BitVec 11) (a : BitVec 5) (p : BitVec 6) (s : State) : exec (.cmpiLtu n im a p) s = execCmpiLtu n im a p s := rfl
theorem exec_cmpiGeu (n : Bool) (im : BitVec 11) (a : BitVec 5) (p : BitVec 6) (s : State) : exec (.cmpiGeu n im a p) s = execCmpiGeu n im a p s := rfl
theorem exec_pand (n : Bool) (b : BitVec 5) (a : BitVec 5) (p : BitVec 6) (s : State) : exec (.pand n b a p) s = execPand n b a p s := rfl
theorem exec_por (n : Bool) (b : BitVec 5) (a : BitVec 5) (p : BitVec 6) (s : State) : exec (.por n b a p) s = execPor n b a p s := rfl
theorem exec_pxor (n : Bool) (b : BitVec 5) (a : BitVec 5) (p : BitVec 6) (s : State) : exec (.pxor n b a p) s = execPxor n b a p s := rfl
theorem exec_pandn (n : Bool) (b : BitVec 5) (a : BitVec 5) (p : BitVec 6) (s : State) : exec (.pandn n b a p) s = execPandn n b a p s := rfl
theorem exec_pmov (n : Bool) (a : BitVec 5) (p : BitVec 6) (s : State) : exec (.pmov n a p) s = execPmov n a p s := rfl
theorem exec_pnot (n : Bool) (a : BitVec 5) (p : BitVec 6) (s : State) : exec (.pnot n a p) s = execPnot n a p s := rfl
theorem exec_movqPop (g : Guard) (q : BitVec 5) (d : BitVec 5) (s : State) : exec (.movqPop g q d) s = execMovqPop g q d s := rfl
theorem exec_movqPush (g : Guard) (a : BitVec 5) (q : BitVec 5) (s : State) : exec (.movqPush g a q) s = execMovqPush g a q s := rfl
theorem exec_trypopQueue (g : Guard) (p : BitVec 5) (q : BitVec 5) (d : BitVec 5) (s : State) : exec (.trypopQueue g p q d) s = execTrypopQueue g p q d s := rfl
theorem exec_ldB (im : BitVec 12) (b : BitVec 5) (r : BitVec 5) (s : State) : exec (.ldB im b r) s = execLdB im b r s := rfl
theorem exec_ldH (im : BitVec 12) (b : BitVec 5) (r : BitVec 5) (s : State) : exec (.ldH im b r) s = execLdH im b r s := rfl
theorem exec_ldW (im : BitVec 12) (b : BitVec 5) (r : BitVec 5) (s : State) : exec (.ldW im b r) s = execLdW im b r s := rfl
theorem exec_ld (im : BitVec 12) (b : BitVec 5) (r : BitVec 5) (s : State) : exec (.ld im b r) s = execLd im b r s := rfl
theorem exec_ldSb (im : BitVec 12) (b : BitVec 5) (r : BitVec 5) (s : State) : exec (.ldSb im b r) s = execLdSb im b r s := rfl
theorem exec_ldSh (im : BitVec 12) (b : BitVec 5) (r : BitVec 5) (s : State) : exec (.ldSh im b r) s = execLdSh im b r s := rfl
theorem exec_ldSw (im : BitVec 12) (b : BitVec 5) (r : BitVec 5) (s : State) : exec (.ldSw im b r) s = execLdSw im b r s := rfl
theorem exec_ldAcq (sc : BitVec 3) (im : BitVec 12) (b : BitVec 5) (r : BitVec 5) (s : State) : exec (.ldAcq sc im b r) s = execLdAcq sc im b r s := rfl
theorem exec_stB (im : BitVec 12) (b : BitVec 5) (r : BitVec 5) (s : State) : exec (.stB im b r) s = execStB im b r s := rfl
theorem exec_stH (im : BitVec 12) (b : BitVec 5) (r : BitVec 5) (s : State) : exec (.stH im b r) s = execStH im b r s := rfl
theorem exec_stW (im : BitVec 12) (b : BitVec 5) (r : BitVec 5) (s : State) : exec (.stW im b r) s = execStW im b r s := rfl
theorem exec_st (im : BitVec 12) (b : BitVec 5) (r : BitVec 5) (s : State) : exec (.st im b r) s = execSt im b r s := rfl
theorem exec_stRel (sc : BitVec 3) (im : BitVec 12) (b : BitVec 5) (r : BitVec 5) (s : State) : exec (.stRel sc im b r) s = execStRel sc im b r s := rfl
theorem exec_amoAdd (g : Guard) (b : BitVec 5) (a : BitVec 5) (d : BitVec 5) (s : State) : exec (.amoAdd g b a d) s = execAmoAdd g b a d s := rfl
theorem exec_amoAnd (g : Guard) (b : BitVec 5) (a : BitVec 5) (d : BitVec 5) (s : State) : exec (.amoAnd g b a d) s = execAmoAnd g b a d s := rfl
theorem exec_amoOr (g : Guard) (b : BitVec 5) (a : BitVec 5) (d : BitVec 5) (s : State) : exec (.amoOr g b a d) s = execAmoOr g b a d s := rfl
theorem exec_amoXor (g : Guard) (b : BitVec 5) (a : BitVec 5) (d : BitVec 5) (s : State) : exec (.amoXor g b a d) s = execAmoXor g b a d s := rfl
theorem exec_amoMin (g : Guard) (b : BitVec 5) (a : BitVec 5) (d : BitVec 5) (s : State) : exec (.amoMin g b a d) s = execAmoMin g b a d s := rfl
theorem exec_amoMax (g : Guard) (b : BitVec 5) (a : BitVec 5) (d : BitVec 5) (s : State) : exec (.amoMax g b a d) s = execAmoMax g b a d s := rfl
theorem exec_amoMinu (g : Guard) (b : BitVec 5) (a : BitVec 5) (d : BitVec 5) (s : State) : exec (.amoMinu g b a d) s = execAmoMinu g b a d s := rfl
theorem exec_amoMaxu (g : Guard) (b : BitVec 5) (a : BitVec 5) (d : BitVec 5) (s : State) : exec (.amoMaxu g b a d) s = execAmoMaxu g b a d s := rfl
theorem exec_amoSwap (g : Guard) (b : BitVec 5) (a : BitVec 5) (d : BitVec 5) (s : State) : exec (.amoSwap g b a d) s = execAmoSwap g b a d s := rfl
theorem exec_cas (g : Guard) (b : BitVec 5) (a : BitVec 5) (d : BitVec 5) (s : State) : exec (.cas g b a d) s = execCas g b a d s := rfl
theorem exec_ldlB (im : BitVec 12) (r : BitVec 5) (s : State) : exec (.ldlB im r) s = execLdlB im r s := rfl
theorem exec_ldlH (im : BitVec 12) (r : BitVec 5) (s : State) : exec (.ldlH im r) s = execLdlH im r s := rfl
theorem exec_ldlW (im : BitVec 12) (r : BitVec 5) (s : State) : exec (.ldlW im r) s = execLdlW im r s := rfl
theorem exec_ldl (im : BitVec 12) (r : BitVec 5) (s : State) : exec (.ldl im r) s = execLdl im r s := rfl
theorem exec_ldlSb (im : BitVec 12) (r : BitVec 5) (s : State) : exec (.ldlSb im r) s = execLdlSb im r s := rfl
theorem exec_ldlSh (im : BitVec 12) (r : BitVec 5) (s : State) : exec (.ldlSh im r) s = execLdlSh im r s := rfl
theorem exec_ldlSw (im : BitVec 12) (r : BitVec 5) (s : State) : exec (.ldlSw im r) s = execLdlSw im r s := rfl
theorem exec_stlB (im : BitVec 12) (r : BitVec 5) (s : State) : exec (.stlB im r) s = execStlB im r s := rfl
theorem exec_stlH (im : BitVec 12) (r : BitVec 5) (s : State) : exec (.stlH im r) s = execStlH im r s := rfl
theorem exec_stlW (im : BitVec 12) (r : BitVec 5) (s : State) : exec (.stlW im r) s = execStlW im r s := rfl
theorem exec_stl (im : BitVec 12) (r : BitVec 5) (s : State) : exec (.stl im r) s = execStl im r s := rfl
theorem exec_fence (u : Bool) (sc : BitVec 3) (s : State) : exec (.fence u sc) s = execFence u sc s := rfl
theorem exec_pbr (o : BitVec 20) (t : BitVec 3) (s : State) : exec (.pbr o t) s = execPbr o t s := rfl
theorem exec_pbrx (a : BitVec 5) (g : Guard) (t : BitVec 3) (s : State) : exec (.pbrx a g t) s = execPbrx a g t s := rfl
theorem exec_br (g : Guard) (t : BitVec 3) (s : State) : exec (.br g t) s = execBr g t s := rfl
theorem exec_brl (g : Guard) (t : BitVec 3) (s : State) : exec (.brl g t) s = execBrl g t s := rfl
theorem exec_sloop (e : BitVec 4) (a : BitVec 5) (s : State) : exec (.sloop e a) s = execSloop e a s := rfl
theorem exec_snext (t : BitVec 3) (s : State) : exec (.snext t) s = execSnext t s := rfl
theorem exec_div (g : Guard) (b : BitVec 5) (a : BitVec 5) (d : BitVec 5) (s : State) : exec (.div g b a d) s = execDiv g b a d s := rfl
theorem exec_divu (g : Guard) (b : BitVec 5) (a : BitVec 5) (d : BitVec 5) (s : State) : exec (.divu g b a d) s = execDivu g b a d s := rfl
theorem exec_rem (g : Guard) (b : BitVec 5) (a : BitVec 5) (d : BitVec 5) (s : State) : exec (.rem g b a d) s = execRem g b a d s := rfl
theorem exec_remu (g : Guard) (b : BitVec 5) (a : BitVec 5) (d : BitVec 5) (s : State) : exec (.remu g b a d) s = execRemu g b a d s := rfl
theorem exec_mfs (sc : BitVec 12) (d : BitVec 5) (s : State) : exec (.mfs sc d) s = execMfs sc d s := rfl
theorem exec_mts (sc : BitVec 12) (a : BitVec 5) (s : State) : exec (.mts sc a) s = execMts sc a s := rfl
theorem exec_barArrive (sc : BitVec 3) (im : BitVec 5) (s : State) : exec (.barArrive sc im) s = execBarArrive sc im s := rfl
theorem exec_barWait (sc : BitVec 3) (im : BitVec 5) (s : State) : exec (.barWait sc im) s = execBarWait sc im s := rfl
theorem exec_barAw (sc : BitVec 3) (im : BitVec 5) (s : State) : exec (.barAw sc im) s = execBarAw sc im s := rfl
theorem exec_twait (p : Bool) (a : BitVec 5) (s : State) : exec (.twait p a) s = execTwait p a s := rfl
theorem exec_waitm (a : BitVec 5) (d : BitVec 5) (s : State) : exec (.waitm a d) s = execWaitm a d s := rfl
theorem exec_qwait (sc : BitVec 3) (s : State) : exec (.qwait sc) s = execQwait sc s := rfl
theorem exec_signal (a : BitVec 5) (s : State) : exec (.signal a) s = execSignal a s := rfl
theorem exec_push (g : Guard) (a : BitVec 5) (s : State) : exec (.push g a) s = execPush g a s := rfl
theorem exec_pop (g : Guard) (t : BitVec 5) (s : State) : exec (.pop g t) s = execPop g t s := rfl
theorem exec_trypopToken (g : Guard) (p : BitVec 5) (t : BitVec 5) (s : State) : exec (.trypopToken g p t) s = execTrypopToken g p t s := rfl
theorem exec_setup (g : Guard) (b : BitVec 5) (a : BitVec 5) (s : State) : exec (.setup g b a) s = execSetup g b a s := rfl
theorem exec_oclaim (im : BitVec 5) (d : BitVec 5) (s : State) : exec (.oclaim im d) s = execOclaim im d s := rfl
theorem exec_orelease (im : BitVec 5) (s : State) : exec (.orelease im) s = execOrelease im s := rfl
theorem exec_send (g : Guard) (b : BitVec 5) (a : BitVec 5) (s : State) : exec (.send g b a) s = execSend g b a s := rfl
theorem exec_hret (g : Guard) (s : State) : exec (.hret g) s = execHret g s := rfl
theorem exec_trap (c : BitVec 12) (s : State) : exec (.trap c) s = execTrap c s := rfl
theorem exec_waypt (im : BitVec 12) (s : State) : exec (.waypt im) s = execWaypt im s := rfl
theorem exec_evac (a : BitVec 5) (d : BitVec 5) (s : State) : exec (.evac a d) s = execEvac a d s := rfl
theorem exec_mrepair (a : BitVec 5) (d : BitVec 5) (s : State) : exec (.mrepair a d) s = execMrepair a d s := rfl
theorem exec_launch (g : Guard) (b : BitVec 5) (a : BitVec 5) (d : BitVec 5) (s : State) : exec (.launch g b a d) s = execLaunch g b a d s := rfl
theorem exec_ckpt (a : BitVec 5) (s : State) : exec (.ckpt a) s = execCkpt a s := rfl
theorem exec_cld (e : EngArgs) (s : State) : exec (.cld e) s = execCld e s := rfl
theorem exec_cst (e : EngArgs) (s : State) : exec (.cst e) s = execCst e s := rfl
theorem exec_csta (e : EngArgs) (s : State) : exec (.csta e) s = execCsta e s := rfl
theorem exec_cchn (e : EngArgs) (head : Bool) (last : Bool) (s : State) : exec (.cchn e head last) s = execCchn e head last s := rfl
theorem exec_cslc (e : EngArgs) (s : State) : exec (.cslc e) s = execCslc e s := rfl
theorem exec_covl (e : EngArgs) (s : State) : exec (.covl e) s = execCovl e s := rfl
theorem exec_cmig (e : EngArgs) (big : Bool) (s : State) : exec (.cmig e big) s = execCmig e big s := rfl
theorem exec_cinv (e : EngArgs) (all : Bool) (s : State) : exec (.cinv e all) s = execCinv e all s := rfl
theorem exec_mma (e : EngArgs) (tb : Bool) (fmt : BitVec 3) (s : State) : exec (.mma e tb fmt) s = execMma e tb fmt s := rfl
theorem exec_mmas (e : EngArgs) (tb : Bool) (fmt : BitVec 3) (s : State) : exec (.mmas e tb fmt) s = execMmas e tb fmt s := rfl
theorem exec_mrot (e : EngArgs) (s : State) : exec (.mrot e) s = execMrot e s := rfl
theorem exec_mdrn (e : EngArgs) (s : State) : exec (.mdrn e) s = execMdrn e s := rfl
theorem exec_mclr (e : EngArgs) (s : State) : exec (.mclr e) s = execMclr e s := rfl
theorem exec_msgn (e : EngArgs) (s : State) : exec (.msgn e) s = execMsgn e s := rfl
theorem exec_wmax (e : EngArgs) (s : State) : exec (.wmax e) s = execWmax e s := rfl
theorem exec_wexs (e : EngArgs) (s : State) : exec (.wexs e) s = execWexs e s := rfl
theorem exec_wscl (e : EngArgs) (s : State) : exec (.wscl e) s = execWscl e s := rfl
theorem exec_wmom (e : EngArgs) (s : State) : exec (.wmom e) s = execWmom e s := rfl
theorem exec_wapl (e : EngArgs) (s : State) : exec (.wapl e) s = execWapl e s := rfl
theorem exec_ldv (n : BitVec 6) (r : BitVec 5) (b : BitVec 5) (q : BitVec 5) (s : State) : exec (.ldv n r b q) s = execLdv n r b q s := rfl
theorem exec_stv (n : BitVec 6) (r : BitVec 5) (b : BitVec 5) (q : BitVec 5) (s : State) : exec (.stv n r b q) s = execStv n r b q s := rfl
theorem exec_ldg (n : BitVec 6) (r : BitVec 5) (b : BitVec 5) (q : BitVec 5) (s : State) : exec (.ldg n r b q) s = execLdg n r b q s := rfl
theorem exec_stsc (n : BitVec 6) (r : BitVec 5) (b : BitVec 5) (q : BitVec 5) (s : State) : exec (.stsc n r b q) s = execStsc n r b q s := rfl
theorem exec_amovAdd (n : BitVec 6) (r : BitVec 5) (b : BitVec 5) (q : BitVec 5) (s : State) : exec (.amovAdd n r b q) s = execAmovAdd n r b q s := rfl
theorem exec_amovMax (n : BitVec 6) (r : BitVec 5) (b : BitVec 5) (q : BitVec 5) (s : State) : exec (.amovMax n r b q) s = execAmovMax n r b q s := rfl
theorem exec_pref (im : BitVec 12) (a : BitVec 5) (s : State) : exec (.pref im a) s = execPref im a s := rfl
theorem exec_tlbp (a : BitVec 5) (d : BitVec 5) (s : State) : exec (.tlbp a d) s = execTlbp a d s := rfl
theorem exec_vadd (g : Guard) (b : BitVec 5) (a : BitVec 5) (d : BitVec 5) (s : State) : exec (.vadd g b a d) s = execVadd g b a d s := rfl
theorem exec_vsub (g : Guard) (b : BitVec 5) (a : BitVec 5) (d : BitVec 5) (s : State) : exec (.vsub g b a d) s = execVsub g b a d s := rfl
theorem exec_vmul (g : Guard) (b : BitVec 5) (a : BitVec 5) (d : BitVec 5) (s : State) : exec (.vmul g b a d) s = execVmul g b a d s := rfl
theorem exec_vmin (g : Guard) (b : BitVec 5) (a : BitVec 5) (d : BitVec 5) (s : State) : exec (.vmin g b a d) s = execVmin g b a d s := rfl
theorem exec_vmax (g : Guard) (b : BitVec 5) (a : BitVec 5) (d : BitVec 5) (s : State) : exec (.vmax g b a d) s = execVmax g b a d s := rfl
theorem exec_vabs (g : Guard) (a : BitVec 5) (d : BitVec 5) (s : State) : exec (.vabs g a d) s = execVabs g a d s := rfl
theorem exec_vneg (g : Guard) (a : BitVec 5) (d : BitVec 5) (s : State) : exec (.vneg g a d) s = execVneg g a d s := rfl
theorem exec_vmov (g : Guard) (a : BitVec 5) (d : BitVec 5) (s : State) : exec (.vmov g a d) s = execVmov g a d s := rfl
theorem exec_vfma (g : BitVec 4) (c : BitVec 5) (b : BitVec 5) (a : BitVec 5) (d : BitVec 5) (s : State) : exec (.vfma g c b a d) s = execVfma g c b a d s := rfl
theorem exec_vfms (g : BitVec 4) (c : BitVec 5) (b : BitVec 5) (a : BitVec 5) (d : BitVec 5) (s : State) : exec (.vfms g c b a d) s = execVfms g c b a d s := rfl
theorem exec_vfnma (g : BitVec 4) (c : BitVec 5) (b : BitVec 5) (a : BitVec 5) (d : BitVec 5) (s : State) : exec (.vfnma g c b a d) s = execVfnma g c b a d s := rfl
theorem exec_vfnms (g : BitVec 4) (c : BitVec 5) (b : BitVec 5) (a : BitVec 5) (d : BitVec 5) (s : State) : exec (.vfnms g c b a d) s = execVfnms g c b a d s := rfl
theorem exec_vrcp (g : Guard) (a : BitVec 5) (d : BitVec 5) (s : State) : exec (.vrcp g a d) s = execVrcp g a d s := rfl
theorem exec_vrsq (g : Guard) (a : BitVec 5) (d : BitVec 5) (s : State) : exec (.vrsq g a d) s = execVrsq g a d s := rfl
theorem exec_vsqrt (g : Guard) (a : BitVec 5) (d : BitVec 5) (s : State) : exec (.vsqrt g a d) s = execVsqrt g a d s := rfl
theorem exec_vexp2 (g : Guard) (a : BitVec 5) (d : BitVec 5) (s : State) : exec (.vexp2 g a d) s = execVexp2 g a d s := rfl
theorem exec_vlog2 (g : Guard) (a : BitVec 5) (d : BitVec 5) (s : State) : exec (.vlog2 g a d) s = execVlog2 g a d s := rfl
theorem exec_vsin (g : Guard) (a : BitVec 5) (d : BitVec 5) (s : State) : exec (.vsin g a d) s = execVsin g a d s := rfl
theorem exec_vcos (g : Guard) (a : BitVec 5) (d : BitVec 5) (s : State) : exec (.vcos g a d) s = execVcos g a d s := rfl
theorem exec_vtanh (g : Guard) (a : BitVec 5) (d : BitVec 5) (s : State) : exec (.vtanh g a d) s = execVtanh g a d s := rfl
theorem exec_viadd (g : Guard) (b : BitVec 5) (a : BitVec 5) (d : BitVec 5) (s : State) : exec (.viadd g b a d) s = execViadd g b a d s := rfl
theorem exec_visub (g : Guard) (b : BitVec 5) (a : BitVec 5) (d : BitVec 5) (s : State) : exec (.visub g b a d) s = execVisub g b a d s := rfl
theorem exec_vimul (g : Guard) (b : BitVec 5) (a : BitVec 5) (d : BitVec 5) (s : State) : exec (.vimul g b a d) s = execVimul g b a d s := rfl
theorem exec_vand (g : Guard) (b : BitVec 5) (a : BitVec 5) (d : BitVec 5) (s : State) : exec (.vand g b a d) s = execVand g b a d s := rfl
theorem exec_vor (g : Guard) (b : BitVec 5) (a : BitVec 5) (d : BitVec 5) (s : State) : exec (.vor g b a d) s = execVor g b a d s := rfl
theorem exec_vxor (g : Guard) (b : BitVec 5) (a : BitVec 5) (d : BitVec 5) (s : State) : exec (.vxor g b a d) s = execVxor g b a d s := rfl
theorem exec_vshl (g : Guard) (b : BitVec 5) (a : BitVec 5) (d : BitVec 5) (s : State) : exec (.vshl g b a d) s = execVshl g b a d s := rfl
theorem exec_vshr (g : Guard) (b : BitVec 5) (a : BitVec 5) (d : BitVec 5) (s : State) : exec (.vshr g b a d) s = execVshr g b a d s := rfl
theorem exec_vsar (g : Guard) (b : BitVec 5) (a : BitVec 5) (d : BitVec 5) (s : State) : exec (.vsar g b a d) s = execVsar g b a d s := rfl
theorem exec_vimin (g : Guard) (b : BitVec 5) (a : BitVec 5) (d : BitVec 5) (s : State) : exec (.vimin g b a d) s = execVimin g b a d s := rfl
theorem exec_vimax (g : Guard) (b : BitVec 5) (a : BitVec 5) (d : BitVec 5) (s : State) : exec (.vimax g b a d) s = execVimax g b a d s := rfl
theorem exec_vcmpEq (n : Bool) (b : BitVec 5) (a : BitVec 5) (p : BitVec 6) (s : State) : exec (.vcmpEq n b a p) s = execVcmpEq n b a p s := rfl
theorem exec_vcmpNe (n : Bool) (b : BitVec 5) (a : BitVec 5) (p : BitVec 6) (s : State) : exec (.vcmpNe n b a p) s = execVcmpNe n b a p s := rfl
theorem exec_vcmpLt (n : Bool) (b : BitVec 5) (a : BitVec 5) (p : BitVec 6) (s : State) : exec (.vcmpLt n b a p) s = execVcmpLt n b a p s := rfl
theorem exec_vcmpLe (n : Bool) (b : BitVec 5) (a : BitVec 5) (p : BitVec 6) (s : State) : exec (.vcmpLe n b a p) s = execVcmpLe n b a p s := rfl
theorem exec_vcmpGt (n : Bool) (b : BitVec 5) (a : BitVec 5) (p : BitVec 6) (s : State) : exec (.vcmpGt n b a p) s = execVcmpGt n b a p s := rfl
theorem exec_vcmpGe (n : Bool) (b : BitVec 5) (a : BitVec 5) (p : BitVec 6) (s : State) : exec (.vcmpGe n b a p) s = execVcmpGe n b a p s := rfl
theorem exec_vcmpOrd (n : Bool) (b : BitVec 5) (a : BitVec 5) (p : BitVec 6) (s : State) : exec (.vcmpOrd n b a p) s = execVcmpOrd n b a p s := rfl
theorem exec_vcmpUno (n : Bool) (b : BitVec 5) (a : BitVec 5) (p : BitVec 6) (s : State) : exec (.vcmpUno n b a p) s = execVcmpUno n b a p s := rfl
theorem exec_vcmpIeq (n : Bool) (b : BitVec 5) (a : BitVec 5) (p : BitVec 6) (s : State) : exec (.vcmpIeq n b a p) s = execVcmpIeq n b a p s := rfl
theorem exec_vcmpIlt (n : Bool) (b : BitVec 5) (a : BitVec 5) (p : BitVec 6) (s : State) : exec (.vcmpIlt n b a p) s = execVcmpIlt n b a p s := rfl
theorem exec_vcmpIltu (n : Bool) (b : BitVec 5) (a : BitVec 5) (p : BitVec 6) (s : State) : exec (.vcmpIltu n b a p) s = execVcmpIltu n b a p s := rfl
theorem exec_vsel (k : Guard) (b : BitVec 5) (a : BitVec 5) (d : BitVec 5) (s : State) : exec (.vsel k b a d) s = execVsel k b a d s := rfl
theorem exec_vcvtI32 (g : Guard) (a : BitVec 5) (d : BitVec 5) (s : State) : exec (.vcvtI32 g a d) s = execVcvtI32 g a d s := rfl
theorem exec_vcvtF32 (g : Guard) (a : BitVec 5) (d : BitVec 5) (s : State) : exec (.vcvtF32 g a d) s = execVcvtF32 g a d s := rfl
theorem exec_vrndBf16 (g : Guard) (a : BitVec 5) (d : BitVec 5) (s : State) : exec (.vrndBf16 g a d) s = execVrndBf16 g a d s := rfl
theorem exec_vrndT8 (g : Guard) (a : BitVec 5) (d : BitVec 5) (s : State) : exec (.vrndT8 g a d) s = execVrndT8 g a d s := rfl
theorem exec_vrndT6 (g : Guard) (a : BitVec 5) (d : BitVec 5) (s : State) : exec (.vrndT6 g a d) s = execVrndT6 g a d s := rfl
theorem exec_vrotr (k : BitVec 4) (a : BitVec 5) (d : BitVec 5) (s : State) : exec (.vrotr k a d) s = execVrotr k a d s := rfl
theorem exec_vrotc (k : BitVec 6) (a : BitVec 5) (d : BitVec 5) (s : State) : exec (.vrotc k a d) s = execVrotc k a d s := rfl
theorem exec_vbcr (k : BitVec 4) (a : BitVec 5) (d : BitVec 5) (s : State) : exec (.vbcr k a d) s = execVbcr k a d s := rfl
theorem exec_vbcc (k : BitVec 6) (a : BitVec 5) (d : BitVec 5) (s : State) : exec (.vbcc k a d) s = execVbcc k a d s := rfl
theorem exec_vtrn16 (a : BitVec 5) (d : BitVec 5) (s : State) : exec (.vtrn16 a d) s = execVtrn16 a d s := rfl
theorem exec_vredrSum (a : BitVec 5) (d : BitVec 5) (s : State) : exec (.vredrSum a d) s = execVredrSum a d s := rfl
theorem exec_vredrMax (a : BitVec 5) (d : BitVec 5) (s : State) : exec (.vredrMax a d) s = execVredrMax a d s := rfl
theorem exec_vredrMin (a : BitVec 5) (d : BitVec 5) (s : State) : exec (.vredrMin a d) s = execVredrMin a d s := rfl
theorem exec_vredcSum (a : BitVec 5) (d : BitVec 5) (s : State) : exec (.vredcSum a d) s = execVredcSum a d s := rfl
theorem exec_vredcMax (a : BitVec 5) (d : BitVec 5) (s : State) : exec (.vredcMax a d) s = execVredcMax a d s := rfl
theorem exec_vredcMin (a : BitVec 5) (d : BitVec 5) (s : State) : exec (.vredcMin a d) s = execVredcMin a d s := rfl
theorem exec_vli (im : BitVec 20) (d : BitVec 5) (s : State) : exec (.vli im d) s = execVli im d s := rfl
theorem exec_vpop (c : BitVec 4) (r : BitVec 4) (q : BitVec 4) (d : BitVec 5) (s : State) : exec (.vpop c r q d) s = execVpop c r q d s := rfl
theorem exec_vpush (c : BitVec 4) (r : BitVec 4) (q : BitVec 4) (a : BitVec 5) (s : State) : exec (.vpush c r q a) s = execVpush c r q a s := rfl
theorem exec_vtos (j : BitVec 5) (r : BitVec 4) (a : BitVec 5) (s : State) : exec (.vtos j r a) s = execVtos j r a s := rfl
theorem exec_vfrs (h : Bool) (d : BitVec 5) (s : State) : exec (.vfrs h d) s = execVfrs h d s := rfl
theorem exec_vldl (o : BitVec 12) (d : BitVec 5) (s : State) : exec (.vldl o d) s = execVldl o d s := rfl
theorem exec_vstl (o : BitVec 12) (a : BitVec 5) (s : State) : exec (.vstl o a) s = execVstl o a s := rfl
theorem exec_vSloop (e : BitVec 4) (s : State) : exec (.vSloop e) s = execVSloop e s := rfl
theorem exec_dadd (b : BitVec 5) (a : BitVec 5) (d : BitVec 5) (s : State) : exec (.dadd b a d) s = execDadd b a d s := rfl
theorem exec_dsub (b : BitVec 5) (a : BitVec 5) (d : BitVec 5) (s : State) : exec (.dsub b a d) s = execDsub b a d s := rfl
theorem exec_dmul (b : BitVec 5) (a : BitVec 5) (d : BitVec 5) (s : State) : exec (.dmul b a d) s = execDmul b a d s := rfl
theorem exec_dmix (b : BitVec 5) (a : BitVec 5) (d : BitVec 5) (s : State) : exec (.dmix b a d) s = execDmix b a d s := rfl
theorem exec_dmuls (b : BitVec 5) (a : BitVec 5) (d : BitVec 5) (s : State) : exec (.dmuls b a d) s = execDmuls b a d s := rfl
theorem exec_dadds (b : BitVec 5) (a : BitVec 5) (d : BitVec 5) (s : State) : exec (.dadds b a d) s = execDadds b a d s := rfl
theorem exec_dmaxs (b : BitVec 5) (a : BitVec 5) (d : BitVec 5) (s : State) : exec (.dmaxs b a d) s = execDmaxs b a d s := rfl
theorem exec_dmapExp2 (a : BitVec 5) (d : BitVec 5) (s : State) : exec (.dmapExp2 a d) s = execDmapExp2 a d s := rfl
theorem exec_dmapLog2 (a : BitVec 5) (d : BitVec 5) (s : State) : exec (.dmapLog2 a d) s = execDmapLog2 a d s := rfl
theorem exec_dmapTanh (a : BitVec 5) (d : BitVec 5) (s : State) : exec (.dmapTanh a d) s = execDmapTanh a d s := rfl
theorem exec_dmapSigmoid (a : BitVec 5) (d : BitVec 5) (s : State) : exec (.dmapSigmoid a d) s = execDmapSigmoid a d s := rfl
theorem exec_dpt (r : BitVec 4) (a : BitVec 5) (d : BitVec 5) (s : State) : exec (.dpt r a d) s = execDpt r a d s := rfl
theorem exec_dgauss (r : BitVec 4) (a : BitVec 5) (d : BitVec 5) (s : State) : exec (.dgauss r a d) s = execDgauss r a d s := rfl
theorem exec_dpop (q : BitVec 4) (d : BitVec 5) (s : State) : exec (.dpop q d) s = execDpop q d s := rfl
theorem exec_dpush (q : BitVec 4) (a : BitVec 5) (s : State) : exec (.dpush q a) s = execDpush q a s := rfl
theorem exec_dmom (k : BitVec 2) (r : BitVec 4) (a : BitVec 5) (d : BitVec 5) (s : State) : exec (.dmom k r a d) s = execDmom k r a d s := rfl
theorem exec_dqnt (r : BitVec 4) (a : BitVec 5) (d : BitVec 5) (s : State) : exec (.dqnt r a d) s = execDqnt r a d s := rfl
theorem exec_dtag (im : BitVec 16) (d : BitVec 5) (s : State) : exec (.dtag im d) s = execDtag im d s := rfl
theorem exec_dlin (im : BitVec 16) (d : BitVec 5) (s : State) : exec (.dlin im d) s = execDlin im d s := rfl
theorem exec_dflg (im : BitVec 16) (s : State) : exec (.dflg im) s = execDflg im s := rfl
theorem exec_dflgRd (im : BitVec 16) (s : State) : exec (.dflgRd im) s = execDflgRd im s := rfl
theorem exec_stall (n : BitVec 11) (s : State) : exec (.stall n) s = execStall n s := rfl
theorem exec_mvh (a : BitVec 5) (d : BitVec 5) (s : State) : exec (.mvh a d) s = execMvh a d s := rfl
theorem exec_addih (im : BitVec 6) (d : BitVec 5) (s : State) : exec (.addih im d) s = execAddih im d s := rfl
theorem exec_brh (g : Guard) (t : BitVec 3) (s : State) : exec (.brh g t) s = execBrh g t s := rfl
theorem exec_rte (s : State) : exec .rte s = execRte s := rfl
theorem exec_rteSkip (s : State) : exec .rteSkip s = execRteSkip s := rfl
theorem exec_retire (s : State) : exec .retire s = execRetire s := rfl
theorem exec_blockFetch (s : State) : exec .blockFetch s = execBlockFetch s := rfl
theorem exec_stallEnd (s : State) : exec .stallEnd s = execStallEnd s := rfl
theorem exec_resultLand (s : State) : exec .resultLand s = execResultLand s := rfl
theorem exec_interlockedResultArrival (s : State) : exec .interlockedResultArrival s = execInterlockedResultArrival s := rfl
theorem exec_granuleDataArrival (s : State) : exec .granuleDataArrival s = execGranuleDataArrival s := rfl
theorem exec_twaitExpiry (s : State) : exec .twaitExpiry s = execTwaitExpiry s := rfl
theorem exec_waitmWake (s : State) : exec .waitmWake s = execWaitmWake s := rfl
theorem exec_qwaitComplete (s : State) : exec .qwaitComplete s = execQwaitComplete s := rfl
theorem exec_barrierRelease (s : State) : exec .barrierRelease s = execBarrierRelease s := rfl
theorem exec_combiningEntrySend (s : State) : exec .combiningEntrySend s = execCombiningEntrySend s := rfl
theorem exec_combiningEntryInject (s : State) : exec .combiningEntryInject s = execCombiningEntryInject s := rfl
theorem exec_slotInject (s : State) : exec .slotInject s = execSlotInject s := rfl
theorem exec_slotHopArrival (s : State) : exec .slotHopArrival s = execSlotHopArrival s := rfl
theorem exec_hopAcknowledge (s : State) : exec .hopAcknowledge s = execHopAcknowledge s := rfl
theorem exec_hopRetransmit (s : State) : exec .hopRetransmit s = execHopRetransmit s := rfl
theorem exec_retryExhausted (s : State) : exec .retryExhausted s = execRetryExhausted s := rfl
theorem exec_hopRetrained (s : State) : exec .hopRetrained s = execHopRetrained s := rfl
theorem exec_returnedSlotReinject (s : State) : exec .returnedSlotReinject s = execReturnedSlotReinject s := rfl
theorem exec_timetabledSlotArrival (s : State) : exec .timetabledSlotArrival s = execTimetabledSlotArrival s := rfl
theorem exec_landingBufferDrain (s : State) : exec .landingBufferDrain s = execLandingBufferDrain s := rfl
theorem exec_trunkGroupArrival (s : State) : exec .trunkGroupArrival s = execTrunkGroupArrival s := rfl
theorem exec_linkOutOfLock (s : State) : exec .linkOutOfLock s = execLinkOutOfLock s := rfl
theorem exec_laneFailure (s : State) : exec .laneFailure s = execLaneFailure s := rfl
theorem exec_linkBringUp (s : State) : exec .linkBringUp s = execLinkBringUp s := rfl
theorem exec_mirrorAcceptance (s : State) : exec .mirrorAcceptance s = execMirrorAcceptance s := rfl
theorem exec_resetNoticeArrival (s : State) : exec .resetNoticeArrival s = execResetNoticeArrival s := rfl
theorem exec_activeMessageArrival (s : State) : exec .activeMessageArrival s = execActiveMessageArrival s := rfl
theorem exec_postedWriteArrival (s : State) : exec .postedWriteArrival s = execPostedWriteArrival s := rfl
theorem exec_remoteReadRequest (s : State) : exec .remoteReadRequest s = execRemoteReadRequest s := rfl
theorem exec_remoteReadReply (s : State) : exec .remoteReadReply s = execRemoteReadReply s := rfl
theorem exec_remoteAtomicRequest (s : State) : exec .remoteAtomicRequest s = execRemoteAtomicRequest s := rfl
theorem exec_remoteAtomicReply (s : State) : exec .remoteAtomicReply s = execRemoteAtomicReply s := rfl
theorem exec_migrationDataArrival (s : State) : exec .migrationDataArrival s = execMigrationDataArrival s := rfl
theorem exec_lossNoticeArrival (s : State) : exec .lossNoticeArrival s = execLossNoticeArrival s := rfl
theorem exec_creditReturn (s : State) : exec .creditReturn s = execCreditReturn s := rfl
theorem exec_moduleWaveBegin (s : State) : exec .moduleWaveBegin s = execModuleWaveBegin s := rfl
theorem exec_podWaveBegin (s : State) : exec .podWaveBegin s = execPodWaveBegin s := rfl
theorem exec_podWavePart (s : State) : exec .podWavePart s = execPodWavePart s := rfl
theorem exec_musterSlotMerge (s : State) : exec .musterSlotMerge s = execMusterSlotMerge s := rfl
theorem exec_musterRollReturn (s : State) : exec .musterRollReturn s = execMusterRollReturn s := rfl
theorem exec_jobOpenNotice (s : State) : exec .jobOpenNotice s = execJobOpenNotice s := rfl
theorem exec_jobCloseNotice (s : State) : exec .jobCloseNotice s = execJobCloseNotice s := rfl
theorem exec_jobFreeNotice (s : State) : exec .jobFreeNotice s = execJobFreeNotice s := rfl
theorem exec_stationReset (s : State) : exec .stationReset s = execStationReset s := rfl
theorem exec_mrepairArrival (s : State) : exec .mrepairArrival s = execMrepairArrival s := rfl
theorem exec_signalArrival (s : State) : exec .signalArrival s = execSignalArrival s := rfl
theorem exec_invalidationMarkerArrival (s : State) : exec .invalidationMarkerArrival s = execInvalidationMarkerArrival s := rfl
theorem exec_tlbWalkComplete (s : State) : exec .tlbWalkComplete s = execTlbWalkComplete s := rfl
theorem exec_pageFault (s : State) : exec .pageFault s = execPageFault s := rfl
theorem exec_fnfresRetry (s : State) : exec .fnfresRetry s = execFnfresRetry s := rfl
theorem exec_fnfresRaisePerm (s : State) : exec .fnfresRaisePerm s = execFnfresRaisePerm s := rfl
theorem exec_fnfresEndPlat (s : State) : exec .fnfresEndPlat s = execFnfresEndPlat s := rfl
theorem exec_fnfresAnswerNothing (s : State) : exec .fnfresAnswerNothing s = execFnfresAnswerNothing s := rfl
theorem exec_bankSwitchComplete (s : State) : exec .bankSwitchComplete s = execBankSwitchComplete s := rfl
theorem exec_trapDelivery (s : State) : exec .trapDelivery s = execTrapDelivery s := rfl
theorem exec_trapCapture (s : State) : exec .trapCapture s = execTrapCapture s := rfl
theorem exec_handlerStart (s : State) : exec .handlerStart s = execHandlerStart s := rfl
theorem exec_rteResume (s : State) : exec .rteResume s = execRteResume s := rfl
theorem exec_latchReinject (s : State) : exec .latchReinject s = execLatchReinject s := rfl
theorem exec_timerMatch (s : State) : exec .timerMatch s = execTimerMatch s := rfl
theorem exec_promiseMiss (s : State) : exec .promiseMiss s = execPromiseMiss s := rfl
theorem exec_engineCommandBegin (s : State) : exec .engineCommandBegin s = execEngineCommandBegin s := rfl
theorem exec_engineMicroStep (s : State) : exec .engineMicroStep s = execEngineMicroStep s := rfl
theorem exec_engineCommandComplete (s : State) : exec .engineCommandComplete s = execEngineCommandComplete s := rfl
theorem exec_eccFreezeBegin (s : State) : exec .eccFreezeBegin s = execEccFreezeBegin s := rfl
theorem exec_eccFreezeEnd (s : State) : exec .eccFreezeEnd s = execEccFreezeEnd s := rfl
theorem exec_selfTestEnd (s : State) : exec .selfTestEnd s = execSelfTestEnd s := rfl
theorem exec_uncorrectableErrorConsumed (s : State) : exec .uncorrectableErrorConsumed s = execUncorrectableErrorConsumed s := rfl
theorem exec_memoryUncorrectableError (s : State) : exec .memoryUncorrectableError s = execMemoryUncorrectableError s := rfl
theorem exec_pairSlotCompare (s : State) : exec .pairSlotCompare s = execPairSlotCompare s := rfl
theorem exec_pairCompareTimeout (s : State) : exec .pairCompareTimeout s = execPairCompareTimeout s := rfl
theorem exec_periodicResurvey (s : State) : exec .periodicResurvey s = execPeriodicResurvey s := rfl
theorem exec_resurveyEnd (s : State) : exec .resurveyEnd s = execResurveyEnd s := rfl
theorem exec_surveyChangePost (s : State) : exec .surveyChangePost s = execSurveyChangePost s := rfl
theorem exec_thermalStop (s : State) : exec .thermalStop s = execThermalStop s := rfl
theorem exec_thermalPowerOff (s : State) : exec .thermalPowerOff s = execThermalPowerOff s := rfl
theorem exec_readinessDeadline (s : State) : exec .readinessDeadline s = execReadinessDeadline s := rfl
theorem exec_readinessVerdict (s : State) : exec .readinessVerdict s = execReadinessVerdict s := rfl
theorem exec_verdictTimeout (s : State) : exec .verdictTimeout s = execVerdictTimeout s := rfl
theorem exec_platRelease (s : State) : exec .platRelease s = execPlatRelease s := rfl
theorem exec_priorityAging (s : State) : exec .priorityAging s = execPriorityAging s := rfl
theorem exec_runQuantumExpiry (s : State) : exec .runQuantumExpiry s = execRunQuantumExpiry s := rfl
theorem exec_forcedStop (s : State) : exec .forcedStop s = execForcedStop s := rfl
theorem exec_platResume (s : State) : exec .platResume s = execPlatResume s := rfl
theorem exec_loaderRequest (s : State) : exec .loaderRequest s = execLoaderRequest s := rfl
theorem exec_templatePass (s : State) : exec .templatePass s = execTemplatePass s := rfl
theorem exec_profilePass (s : State) : exec .profilePass s = execProfilePass s := rfl
theorem exec_manselWrite (s : State) : exec .manselWrite s = execManselWrite s := rfl
theorem exec_jopenWrite (s : State) : exec .jopenWrite s = execJopenWrite s := rfl
theorem exec_jcloseWrite (s : State) : exec .jcloseWrite s = execJcloseWrite s := rfl
theorem exec_losscntClear (s : State) : exec .losscntClear s = execLosscntClear s := rfl
theorem exec_mirentWrite (s : State) : exec .mirentWrite s = execMirentWrite s := rfl
theorem exec_plostClear (s : State) : exec .plostClear s = execPlostClear s := rfl
theorem exec_hsemAcquire (s : State) : exec .hsemAcquire s = execHsemAcquire s := rfl
theorem exec_hsemRelease (s : State) : exec .hsemRelease s = execHsemRelease s := rfl
theorem exec_fnctlRst (s : State) : exec .fnctlRst s = execFnctlRst s := rfl
theorem exec_functionResetComplete (s : State) : exec .functionResetComplete s = execFunctionResetComplete s := rfl
theorem exec_fnctlGo (s : State) : exec .fnctlGo s = execFnctlGo s := rfl
theorem exec_fnctlEn (s : State) : exec .fnctlEn s = execFnctlEn s := rfl
theorem exec_fnjobsWrite (s : State) : exec .fnjobsWrite s = execFnjobsWrite s := rfl
theorem exec_feataccWrite (s : State) : exec .feataccWrite s = execFeataccWrite s := rfl
theorem exec_featmaskWrite (s : State) : exec .featmaskWrite s = execFeatmaskWrite s := rfl
theorem exec_fnnotifyWrite (s : State) : exec .fnnotifyWrite s = execFnnotifyWrite s := rfl
theorem exec_fnerrclrWrite (s : State) : exec .fnerrclrWrite s = execFnerrclrWrite s := rfl
theorem exec_attctlRequest (s : State) : exec .attctlRequest s = execAttctlRequest s := rfl
theorem exec_attestReportReady (s : State) : exec .attestReportReady s = execAttestReportReady s := rfl
theorem exec_dbgreqRequest (s : State) : exec .dbgreqRequest s = execDbgreqRequest s := rfl
theorem exec_dbgreqWithdraw (s : State) : exec .dbgreqWithdraw s = execDbgreqWithdraw s := rfl
theorem exec_registerWrite (s : State) : exec .registerWrite s = execRegisterWrite s := rfl
theorem exec_hostBar2Write (s : State) : exec .hostBar2Write s = execHostBar2Write s := rfl
theorem exec_hostBar2Read (s : State) : exec .hostBar2Read s = execHostBar2Read s := rfl
theorem exec_hostConfigRequest (s : State) : exec .hostConfigRequest s = execHostConfigRequest s := rfl
theorem exec_portReset (s : State) : exec .portReset s = execPortReset s := rfl
theorem exec_powerOn (s : State) : exec .powerOn s = execPowerOn s := rfl
theorem exec_dhcpv6Timeout (s : State) : exec .dhcpv6Timeout s = execDhcpv6Timeout s := rfl
theorem exec_imageFetchComplete (s : State) : exec .imageFetchComplete s = execImageFetchComplete s := rfl
theorem exec_firmwareUpdate (s : State) : exec .firmwareUpdate s = execFirmwareUpdate s := rfl
theorem exec_moduleReset (s : State) : exec .moduleReset s = execModuleReset s := rfl
theorem exec_ptimeSync (s : State) : exec .ptimeSync s = execPtimeSync s := rfl
theorem exec_mrepairNoAnswer (s : State) : exec .mrepairNoAnswer s = execMrepairNoAnswer s := rfl
theorem exec_hostPortTrained (s : State) : exec .hostPortTrained s = execHostPortTrained s := rfl

end Sys2Proof.Machine
end

