-- ==== Sys2Proof/Laws/Sparse.lean ====
section
/-! SUPPORT. Tables and memories: read after write, and that every operation keeps the canonical form. -/

namespace Sys2Proof.Machine

variable {α : Type}

/-! ## Read after write -/

theorem Sp.get_cons (dflt : α) (k : Nat) (v : α) (m : Sp α) (j : Nat) :
    Sp.get dflt ((k, v) :: m) j = if k = j then v else Sp.get dflt m j := rfl

theorem Sp.get_erase_self (dflt : α) (m : Sp α) (j : Nat) : Sp.get dflt (Sp.erase m j) j = dflt := by
  induction m with
  | nil => rfl
  | cons e m ih =>
    obtain ⟨k, v⟩ := e
    by_cases h : k = j <;> simp [Sp.erase, h, ih, Sp.get_cons]

theorem Sp.get_erase_ne (dflt : α) (m : Sp α) {i j : Nat} (h : i ≠ j) : Sp.get dflt (Sp.erase m j) i = Sp.get dflt m i := by
  induction m with
  | nil => rfl
  | cons e m ih =>
    obtain ⟨k, v⟩ := e
    by_cases hk : k = j
    · subst hk; simp [Sp.erase, ih, Sp.get_cons, Ne.symm h]
    · simp [Sp.erase, hk, ih, Sp.get_cons]

theorem Sp.get_insert_self (dflt : α) (m : Sp α) (j : Nat) (x : α) (h : ∀ e ∈ m, e.1 ≠ j) : Sp.get dflt (Sp.insert j x m) j = x := by
  induction m with
  | nil => simp [Sp.insert, Sp.get_cons]
  | cons e m ih =>
    obtain ⟨k, v⟩ := e
    have hk : k ≠ j := h (k, v) (by simp)
    by_cases hj : j < k <;> simp [Sp.insert, hj, Sp.get_cons, hk]
    exact ih (fun e he => h e (by simp [he]))

theorem Sp.get_insert_ne (dflt : α) (m : Sp α) {i j : Nat} (x : α) (h : i ≠ j) :
    Sp.get dflt (Sp.insert j x m) i = Sp.get dflt m i := by
  induction m with
  | nil => simp [Sp.insert, Sp.get_cons, Ne.symm h]
  | cons e m ih =>
    obtain ⟨k, v⟩ := e
    by_cases hj : j < k <;> simp [Sp.insert, hj, Sp.get_cons, ih, Ne.symm h]

theorem Sp.erase_keys (m : Sp α) (j : Nat) : ∀ e ∈ Sp.erase m j, e.1 ≠ j := by
  induction m with
  | nil => simp [Sp.erase]
  | cons e m ih =>
    obtain ⟨k, v⟩ := e
    by_cases h : k = j
    · simpa [Sp.erase, h] using ih
    · intro e he
      simp only [Sp.erase, h, if_false, List.mem_cons] at he
      rcases he with rfl | he
      · exact h
      · exact ih e he

@[simp] theorem Sp.get_put_self (dflt : α) (m : Sp α) (j : Nat) (x : α) : Sp.get dflt (Sp.put m j x) j = x :=
  Sp.get_insert_self dflt _ j x (Sp.erase_keys m j)

theorem Sp.get_put_ne (dflt : α) (m : Sp α) {i j : Nat} (x : α) (h : i ≠ j) : Sp.get dflt (Sp.put m j x) i = Sp.get dflt m i := by
  rw [Sp.put, Sp.get_insert_ne dflt _ x h, Sp.get_erase_ne dflt m h]

/-- What an entry reads as after one entry is put. -/
theorem Sp.get_put (dflt : α) (m : Sp α) (i j : Nat) (x : α) :
    Sp.get dflt (Sp.put m j x) i = if i = j then x else Sp.get dflt m i := by
  by_cases h : i = j
  · subst h; simp
  · simp [h, Sp.get_put_ne dflt m x h]

/-- What an entry reads as after one entry is set. -/
theorem Sp.get_set [DecidableEq α] (dflt : α) (m : Sp α) (i j : Nat) (x : α) :
    Sp.get dflt (Sp.set dflt m j x) i = if i = j then x else Sp.get dflt m i := by
  unfold Sp.set
  by_cases hx : x = dflt
  · subst hx
    by_cases h : i = j
    · subst h; simp [Sp.get_erase_self]
    · simp [h, Sp.get_erase_ne _ m h]
  · rw [if_neg hx]
    exact Sp.get_put dflt m i j x

/-! ## The canonical form -/

/-- Keys strictly rise and are all above a bound. -/
def Sp.Above (n : Nat) (m : Sp α) : Prop := Sp.rising m = true ∧ ∀ e ∈ m, n < e.1

theorem Sp.rising_cons (a : Nat × α) (m : Sp α) : Sp.rising (a :: m) = true ↔ Sp.rising m = true ∧ ∀ e ∈ m, a.1 < e.1 := by
  induction m generalizing a with
  | nil => simp [Sp.rising]
  | cons b m ih =>
    rw [Sp.rising, Bool.and_eq_true, decide_eq_true_iff]
    constructor
    · rintro ⟨hab, hm⟩
      refine ⟨hm, fun e he => ?_⟩
      rcases List.mem_cons.1 he with rfl | he
      · exact hab
      · exact lt_trans hab (((ih b).1 hm).2 e he)
    · rintro ⟨hm, hall⟩
      exact ⟨hall b (by simp), hm⟩

theorem Sp.erase_sub (m : Sp α) (j : Nat) : ∀ e ∈ Sp.erase m j, e ∈ m := by
  induction m with
  | nil => simp [Sp.erase]
  | cons a m ih =>
    intro e he
    obtain ⟨k, v⟩ := a
    by_cases h : k = j
    · exact List.mem_cons_of_mem _ (ih e (by simpa [Sp.erase, h] using he))
    · simp only [Sp.erase, h, if_false, List.mem_cons] at he
      rcases he with rfl | he
      · simp
      · exact List.mem_cons_of_mem _ (ih e he)

theorem Sp.rising_erase (m : Sp α) (j : Nat) (h : Sp.rising m = true) : Sp.rising (Sp.erase m j) = true := by
  induction m with
  | nil => rfl
  | cons a m ih =>
    obtain ⟨k, v⟩ := a
    obtain ⟨hm, hall⟩ := (Sp.rising_cons _ _).1 h
    by_cases hk : k = j
    · simpa [Sp.erase, hk] using ih hm
    · rw [Sp.erase, if_neg hk, Sp.rising_cons]
      exact ⟨ih hm, fun e he => hall e (Sp.erase_sub m j e he)⟩

theorem Sp.insert_mem (j : Nat) (x : α) (m : Sp α) : ∀ e ∈ Sp.insert j x m, e = (j, x) ∨ e ∈ m := by
  induction m with
  | nil => simp [Sp.insert]
  | cons a m ih =>
    obtain ⟨k, v⟩ := a
    intro e he
    by_cases h : j < k
    · simpa [Sp.insert, h] using he
    · simp only [Sp.insert, h, if_false, List.mem_cons] at he
      rcases he with rfl | he
      · simp
      · rcases ih e he with rfl | he
        · simp
        · simp [he]

theorem Sp.rising_insert (j : Nat) (x : α) (m : Sp α) (h : Sp.rising m = true) (hj : ∀ e ∈ m, e.1 ≠ j) :
    Sp.rising (Sp.insert j x m) = true := by
  induction m with
  | nil => rfl
  | cons a m ih =>
    obtain ⟨k, v⟩ := a
    obtain ⟨hm, hall⟩ := (Sp.rising_cons _ _).1 h
    by_cases hk : j < k
    · rw [Sp.insert, if_pos hk, Sp.rising_cons]
      refine ⟨h, fun e he => ?_⟩
      rcases List.mem_cons.1 he with rfl | he
      · exact hk
      · exact lt_trans hk (hall e he)
    · rw [Sp.insert, if_neg hk, Sp.rising_cons]
      refine ⟨ih hm (fun e he => hj e (List.mem_cons_of_mem _ he)), fun e he => ?_⟩
      rcases Sp.insert_mem j x m e he with rfl | he
      · exact lt_of_le_of_ne (Nat.le_of_not_lt hk) (hj (k, v) (by simp))
      · exact hall e he

theorem Sp.rising_put (m : Sp α) (j : Nat) (x : α) (h : Sp.rising m = true) : Sp.rising (Sp.put m j x) = true :=
  Sp.rising_insert j x _ (Sp.rising_erase m j h) (Sp.erase_keys m j)

theorem Sp.rising_filter (m : Sp α) (p : Nat × α → Bool) (h : Sp.rising m = true) : Sp.rising (m.filter p) = true := by
  induction m with
  | nil => rfl
  | cons a m ih =>
    obtain ⟨hm, hall⟩ := (Sp.rising_cons _ _).1 h
    by_cases hp : p a = true
    · rw [List.filter_cons_of_pos hp, Sp.rising_cons]
      exact ⟨ih hm, fun e he => hall e (List.mem_filter.1 he).1⟩
    · rw [List.filter_cons_of_neg hp]
      exact ih hm

theorem Sp.wf_iff [DecidableEq α] (dflt : α) (m : Sp α) : Sp.wf dflt m = true ↔ Sp.rising m = true ∧ ∀ e ∈ m, e.2 ≠ dflt := by
  simp [Sp.wf]

theorem Sp.wf_set [DecidableEq α] (dflt : α) (m : Sp α) (j : Nat) (x : α) (h : Sp.wf dflt m = true) :
    Sp.wf dflt (Sp.set dflt m j x) = true := by
  obtain ⟨hr, hv⟩ := (Sp.wf_iff dflt m).1 h
  have hve : ∀ e ∈ Sp.erase m j, e.2 ≠ dflt := fun e he => hv e (Sp.erase_sub m j e he)
  unfold Sp.set
  by_cases hx : x = dflt
  · rw [if_pos hx, Sp.wf_iff]
    exact ⟨Sp.rising_erase m j hr, hve⟩
  · rw [if_neg hx, Sp.wf_iff]
    refine ⟨Sp.rising_insert j x _ (Sp.rising_erase m j hr) (Sp.erase_keys m j), fun e he => ?_⟩
    rcases Sp.insert_mem j x _ e he with rfl | he
    · exact hx
    · exact hve e he

theorem Sp.wf_filter [DecidableEq α] (dflt : α) (m : Sp α) (p : Nat × α → Bool) (h : Sp.wf dflt m = true) :
    Sp.wf dflt (m.filter p) = true := by
  obtain ⟨hr, hv⟩ := (Sp.wf_iff dflt m).1 h
  exact (Sp.wf_iff dflt _).2 ⟨Sp.rising_filter m p hr, fun e he => hv e (List.mem_filter.1 he).1⟩

theorem Sp.wf_setAll [DecidableEq α] (dflt : α) (es : List (Nat × α)) : ∀ m : Sp α, Sp.wf dflt m = true →
    Sp.wf dflt (Sp.setAll dflt m es) = true := by
  induction es with
  | nil => intro m h; exact h
  | cons e es ih => intro m h; exact ih _ (Sp.wf_set dflt m e.1 e.2 h)

/-! ## Memories -/

@[simp] theorem Memory.read_write (m : Memory) (a b : Nat) (x : Byte) :
    Memory.read (Memory.write m b x) a = if a = b then x else Memory.read m a := Sp.get_set Memory.unlisted m a b x

theorem Memory.wf_write (m : Memory) (a : Nat) (x : Byte) (h : Memory.wf m = true) : Memory.wf (Memory.write m a x) = true :=
  Sp.wf_set Memory.unlisted m a x h

theorem Memory.wf_writeN (bs : List Byte) : ∀ (m : Memory) (a : Nat), Memory.wf m = true → Memory.wf (Memory.writeN m a bs) = true := by
  induction bs with
  | nil => intro m a h; exact h
  | cons b bs ih => intro m a h; exact ih _ _ (Memory.wf_write m a b h)

theorem Memory.wf_writeLE (n : Nat) : ∀ (m : Memory) (a v : Nat), Memory.wf m = true → Memory.wf (Memory.writeLE m a n v) = true := by
  induction n with
  | zero => intro m a v h; exact h
  | succ n ih => intro m a v h; exact ih _ _ _ (Memory.wf_write m a _ h)

theorem Memory.wf_clear (m : Memory) (lo hi : Nat) (h : Memory.wf m = true) : Memory.wf (Memory.clear m lo hi) = true :=
  Sp.wf_filter Memory.unlisted m _ h

theorem Memory.wf_copy (src dst : Memory) (a b n : Nat) (h : Memory.wf dst = true) : Memory.wf (Memory.copy src dst a b n) = true :=
  Sp.wf_setAll Memory.unlisted _ _ (Memory.wf_clear dst _ _ h)

/-- Bytes outside a run that is written read as before. -/
theorem Memory.read_writeN_outside (bs : List Byte) : ∀ (m : Memory) (a i : Nat), i < a ∨ a + bs.length ≤ i →
    Memory.read (Memory.writeN m a bs) i = Memory.read m i := by
  induction bs with
  | nil => intro m a i _; rfl
  | cons b bs ih =>
    intro m a i h
    simp only [List.length_cons] at h
    rw [Memory.writeN, ih _ _ _ (by omega), Memory.read_write, if_neg (by omega)]

/-- Bytes inside a run that is written read as written. -/
theorem Memory.read_writeN_inside (bs : List Byte) : ∀ (m : Memory) (a i : Nat) (h : i < bs.length),
    Memory.read (Memory.writeN m a bs) (a + i) = bs[i] := by
  induction bs with
  | nil => intro m a i h; exact absurd h (by simp)
  | cons b bs ih =>
    intro m a i h
    cases i with
    | zero =>
      rw [Memory.writeN, Memory.read_writeN_outside bs _ _ _ (by omega), Memory.read_write, if_pos (Nat.add_zero a)]
      rfl
    | succ i =>
      rw [Memory.writeN, show a + (i + 1) = a + 1 + i by omega, ih _ _ _ (by simpa using h)]
      rfl

/-- A run that is written reads back whole. -/
theorem Memory.readN_writeN (bs : List Byte) (m : Memory) (a : Nat) : Memory.readN (Memory.writeN m a bs) a bs.length = bs := by
  have gen : ∀ (cs : List Byte) (m' : Memory) (b : Nat), (∀ i, (h : i < cs.length) → Memory.read m' (b + i) = cs[i]) →
      Memory.readN m' b cs.length = cs := by
    intro cs
    induction cs with
    | nil => intro m' b _; rfl
    | cons c cs ih =>
      intro m' b h
      rw [List.length_cons, Memory.readN, ih m' (b + 1) (fun i hi => by
        have := h (i + 1) (by simpa using hi)
        rw [show b + 1 + i = b + (i + 1) by omega, this]; rfl)]
      have := h 0 (by simp)
      rw [Nat.add_zero] at this
      rw [this]; rfl
  exact gen bs _ a (fun i hi => Memory.read_writeN_inside bs m a i hi)

end Sys2Proof.Machine
end

