-- ==== Sys2Proof/Laws/State.lean ====
section
/-! SUPPORT. The fields of the state after each update of the machine's named operations, one lemma for each field that the update leaves
alone. -/

namespace Sys2Proof.Machine

/-! ### State.putCtx -/

@[simp] theorem State.putCtx_clk (s : State) (c : CtxId) (x : Ctx) : (s.putCtx c x).clk = s.clk := rfl
@[simp] theorem State.putCtx_fresh (s : State) (c : CtxId) (x : Ctx) : (s.putCtx c x).fresh = s.fresh := rfl
@[simp] theorem State.putCtx_agenda (s : State) (c : CtxId) (x : Ctx) : (s.putCtx c x).agenda = s.agenda := rfl
@[simp] theorem State.putCtx_turn (s : State) (c : CtxId) (x : Ctx) : (s.putCtx c x).turn = s.turn := rfl
@[simp] theorem State.putCtx_foc (s : State) (c : CtxId) (x : Ctx) : (s.putCtx c x).foc = s.foc := rfl
@[simp] theorem State.putCtx_cur (s : State) (c : CtxId) (x : Ctx) : (s.putCtx c x).cur = s.cur := rfl
@[simp] theorem State.putCtx_cores (s : State) (c : CtxId) (x : Ctx) : (s.putCtx c x).cores = s.cores := rfl
@[simp] theorem State.putCtx_dies (s : State) (c : CtxId) (x : Ctx) : (s.putCtx c x).dies = s.dies := rfl
@[simp] theorem State.putCtx_stations (s : State) (c : CtxId) (x : Ctx) : (s.putCtx c x).stations = s.stations := rfl
@[simp] theorem State.putCtx_modules (s : State) (c : CtxId) (x : Ctx) : (s.putCtx c x).modules = s.modules := rfl
@[simp] theorem State.putCtx_mem (s : State) (c : CtxId) (x : Ctx) : (s.putCtx c x).mem = s.mem := rfl
@[simp] theorem State.putCtx_bars (s : State) (c : CtxId) (x : Ctx) : (s.putCtx c x).bars = s.bars := rfl
@[simp] theorem State.putCtx_pod (s : State) (c : CtxId) (x : Ctx) : (s.putCtx c x).pod = s.pod := rfl

/-! ### State.modCtx -/

@[simp] theorem State.modCtx_clk (s : State) (c : CtxId) (f : Ctx → Ctx) : (s.modCtx c f).clk = s.clk := rfl
@[simp] theorem State.modCtx_fresh (s : State) (c : CtxId) (f : Ctx → Ctx) : (s.modCtx c f).fresh = s.fresh := rfl
@[simp] theorem State.modCtx_agenda (s : State) (c : CtxId) (f : Ctx → Ctx) : (s.modCtx c f).agenda = s.agenda := rfl
@[simp] theorem State.modCtx_turn (s : State) (c : CtxId) (f : Ctx → Ctx) : (s.modCtx c f).turn = s.turn := rfl
@[simp] theorem State.modCtx_foc (s : State) (c : CtxId) (f : Ctx → Ctx) : (s.modCtx c f).foc = s.foc := rfl
@[simp] theorem State.modCtx_cur (s : State) (c : CtxId) (f : Ctx → Ctx) : (s.modCtx c f).cur = s.cur := rfl
@[simp] theorem State.modCtx_cores (s : State) (c : CtxId) (f : Ctx → Ctx) : (s.modCtx c f).cores = s.cores := rfl
@[simp] theorem State.modCtx_dies (s : State) (c : CtxId) (f : Ctx → Ctx) : (s.modCtx c f).dies = s.dies := rfl
@[simp] theorem State.modCtx_stations (s : State) (c : CtxId) (f : Ctx → Ctx) : (s.modCtx c f).stations = s.stations := rfl
@[simp] theorem State.modCtx_modules (s : State) (c : CtxId) (f : Ctx → Ctx) : (s.modCtx c f).modules = s.modules := rfl
@[simp] theorem State.modCtx_mem (s : State) (c : CtxId) (f : Ctx → Ctx) : (s.modCtx c f).mem = s.mem := rfl
@[simp] theorem State.modCtx_bars (s : State) (c : CtxId) (f : Ctx → Ctx) : (s.modCtx c f).bars = s.bars := rfl
@[simp] theorem State.modCtx_pod (s : State) (c : CtxId) (f : Ctx → Ctx) : (s.modCtx c f).pod = s.pod := rfl

/-! ### State.putStrm -/

@[simp] theorem State.putStrm_clk (s : State) (i : StreamId) (y : StreamSt) : (s.putStrm i y).clk = s.clk := rfl
@[simp] theorem State.putStrm_fresh (s : State) (i : StreamId) (y : StreamSt) : (s.putStrm i y).fresh = s.fresh := rfl
@[simp] theorem State.putStrm_agenda (s : State) (i : StreamId) (y : StreamSt) : (s.putStrm i y).agenda = s.agenda := rfl
@[simp] theorem State.putStrm_turn (s : State) (i : StreamId) (y : StreamSt) : (s.putStrm i y).turn = s.turn := rfl
@[simp] theorem State.putStrm_foc (s : State) (i : StreamId) (y : StreamSt) : (s.putStrm i y).foc = s.foc := rfl
@[simp] theorem State.putStrm_cur (s : State) (i : StreamId) (y : StreamSt) : (s.putStrm i y).cur = s.cur := rfl
@[simp] theorem State.putStrm_cores (s : State) (i : StreamId) (y : StreamSt) : (s.putStrm i y).cores = s.cores := rfl
@[simp] theorem State.putStrm_dies (s : State) (i : StreamId) (y : StreamSt) : (s.putStrm i y).dies = s.dies := rfl
@[simp] theorem State.putStrm_stations (s : State) (i : StreamId) (y : StreamSt) : (s.putStrm i y).stations = s.stations := rfl
@[simp] theorem State.putStrm_modules (s : State) (i : StreamId) (y : StreamSt) : (s.putStrm i y).modules = s.modules := rfl
@[simp] theorem State.putStrm_mem (s : State) (i : StreamId) (y : StreamSt) : (s.putStrm i y).mem = s.mem := rfl
@[simp] theorem State.putStrm_bars (s : State) (i : StreamId) (y : StreamSt) : (s.putStrm i y).bars = s.bars := rfl
@[simp] theorem State.putStrm_pod (s : State) (i : StreamId) (y : StreamSt) : (s.putStrm i y).pod = s.pod := rfl

/-! ### State.modStrm -/

@[simp] theorem State.modStrm_clk (s : State) (i : StreamId) (f : StreamSt → StreamSt) : (s.modStrm i f).clk = s.clk := rfl
@[simp] theorem State.modStrm_fresh (s : State) (i : StreamId) (f : StreamSt → StreamSt) : (s.modStrm i f).fresh = s.fresh := rfl
@[simp] theorem State.modStrm_agenda (s : State) (i : StreamId) (f : StreamSt → StreamSt) : (s.modStrm i f).agenda = s.agenda := rfl
@[simp] theorem State.modStrm_turn (s : State) (i : StreamId) (f : StreamSt → StreamSt) : (s.modStrm i f).turn = s.turn := rfl
@[simp] theorem State.modStrm_foc (s : State) (i : StreamId) (f : StreamSt → StreamSt) : (s.modStrm i f).foc = s.foc := rfl
@[simp] theorem State.modStrm_cur (s : State) (i : StreamId) (f : StreamSt → StreamSt) : (s.modStrm i f).cur = s.cur := rfl
@[simp] theorem State.modStrm_cores (s : State) (i : StreamId) (f : StreamSt → StreamSt) : (s.modStrm i f).cores = s.cores := rfl
@[simp] theorem State.modStrm_dies (s : State) (i : StreamId) (f : StreamSt → StreamSt) : (s.modStrm i f).dies = s.dies := rfl
@[simp] theorem State.modStrm_stations (s : State) (i : StreamId) (f : StreamSt → StreamSt) : (s.modStrm i f).stations = s.stations := rfl
@[simp] theorem State.modStrm_modules (s : State) (i : StreamId) (f : StreamSt → StreamSt) : (s.modStrm i f).modules = s.modules := rfl
@[simp] theorem State.modStrm_mem (s : State) (i : StreamId) (f : StreamSt → StreamSt) : (s.modStrm i f).mem = s.mem := rfl
@[simp] theorem State.modStrm_bars (s : State) (i : StreamId) (f : StreamSt → StreamSt) : (s.modStrm i f).bars = s.bars := rfl
@[simp] theorem State.modStrm_pod (s : State) (i : StreamId) (f : StreamSt → StreamSt) : (s.modStrm i f).pod = s.pod := rfl

/-! ### State.modF -/

@[simp] theorem State.modF_clk (s : State) (f : Ctx → Ctx) : (s.modF f).clk = s.clk := rfl
@[simp] theorem State.modF_fresh (s : State) (f : Ctx → Ctx) : (s.modF f).fresh = s.fresh := rfl
@[simp] theorem State.modF_agenda (s : State) (f : Ctx → Ctx) : (s.modF f).agenda = s.agenda := rfl
@[simp] theorem State.modF_turn (s : State) (f : Ctx → Ctx) : (s.modF f).turn = s.turn := rfl
@[simp] theorem State.modF_foc (s : State) (f : Ctx → Ctx) : (s.modF f).foc = s.foc := rfl
@[simp] theorem State.modF_cur (s : State) (f : Ctx → Ctx) : (s.modF f).cur = s.cur := rfl
@[simp] theorem State.modF_cores (s : State) (f : Ctx → Ctx) : (s.modF f).cores = s.cores := rfl
@[simp] theorem State.modF_dies (s : State) (f : Ctx → Ctx) : (s.modF f).dies = s.dies := rfl
@[simp] theorem State.modF_stations (s : State) (f : Ctx → Ctx) : (s.modF f).stations = s.stations := rfl
@[simp] theorem State.modF_modules (s : State) (f : Ctx → Ctx) : (s.modF f).modules = s.modules := rfl
@[simp] theorem State.modF_mem (s : State) (f : Ctx → Ctx) : (s.modF f).mem = s.mem := rfl
@[simp] theorem State.modF_bars (s : State) (f : Ctx → Ctx) : (s.modF f).bars = s.bars := rfl
@[simp] theorem State.modF_pod (s : State) (f : Ctx → Ctx) : (s.modF f).pod = s.pod := rfl

/-! ### State.modFs -/

@[simp] theorem State.modFs_clk (s : State) (f : StreamSt → StreamSt) : (s.modFs f).clk = s.clk := rfl
@[simp] theorem State.modFs_fresh (s : State) (f : StreamSt → StreamSt) : (s.modFs f).fresh = s.fresh := rfl
@[simp] theorem State.modFs_agenda (s : State) (f : StreamSt → StreamSt) : (s.modFs f).agenda = s.agenda := rfl
@[simp] theorem State.modFs_turn (s : State) (f : StreamSt → StreamSt) : (s.modFs f).turn = s.turn := rfl
@[simp] theorem State.modFs_foc (s : State) (f : StreamSt → StreamSt) : (s.modFs f).foc = s.foc := rfl
@[simp] theorem State.modFs_cur (s : State) (f : StreamSt → StreamSt) : (s.modFs f).cur = s.cur := rfl
@[simp] theorem State.modFs_cores (s : State) (f : StreamSt → StreamSt) : (s.modFs f).cores = s.cores := rfl
@[simp] theorem State.modFs_dies (s : State) (f : StreamSt → StreamSt) : (s.modFs f).dies = s.dies := rfl
@[simp] theorem State.modFs_stations (s : State) (f : StreamSt → StreamSt) : (s.modFs f).stations = s.stations := rfl
@[simp] theorem State.modFs_modules (s : State) (f : StreamSt → StreamSt) : (s.modFs f).modules = s.modules := rfl
@[simp] theorem State.modFs_mem (s : State) (f : StreamSt → StreamSt) : (s.modFs f).mem = s.mem := rfl
@[simp] theorem State.modFs_bars (s : State) (f : StreamSt → StreamSt) : (s.modFs f).bars = s.bars := rfl
@[simp] theorem State.modFs_pod (s : State) (f : StreamSt → StreamSt) : (s.modFs f).pod = s.pod := rfl

/-! ### State.charge -/

@[simp] theorem State.charge_clk (s : State) (i : StreamId) (code : Nat) : (s.charge i code).clk = s.clk := rfl
@[simp] theorem State.charge_fresh (s : State) (i : StreamId) (code : Nat) : (s.charge i code).fresh = s.fresh := rfl
@[simp] theorem State.charge_agenda (s : State) (i : StreamId) (code : Nat) : (s.charge i code).agenda = s.agenda := rfl
@[simp] theorem State.charge_turn (s : State) (i : StreamId) (code : Nat) : (s.charge i code).turn = s.turn := rfl
@[simp] theorem State.charge_foc (s : State) (i : StreamId) (code : Nat) : (s.charge i code).foc = s.foc := rfl
@[simp] theorem State.charge_cur (s : State) (i : StreamId) (code : Nat) : (s.charge i code).cur = s.cur := rfl
@[simp] theorem State.charge_cores (s : State) (i : StreamId) (code : Nat) : (s.charge i code).cores = s.cores := rfl
@[simp] theorem State.charge_dies (s : State) (i : StreamId) (code : Nat) : (s.charge i code).dies = s.dies := rfl
@[simp] theorem State.charge_stations (s : State) (i : StreamId) (code : Nat) : (s.charge i code).stations = s.stations := rfl
@[simp] theorem State.charge_modules (s : State) (i : StreamId) (code : Nat) : (s.charge i code).modules = s.modules := rfl
@[simp] theorem State.charge_mem (s : State) (i : StreamId) (code : Nat) : (s.charge i code).mem = s.mem := rfl
@[simp] theorem State.charge_bars (s : State) (i : StreamId) (code : Nat) : (s.charge i code).bars = s.bars := rfl
@[simp] theorem State.charge_pod (s : State) (i : StreamId) (code : Nat) : (s.charge i code).pod = s.pod := rfl

/-! ### State.issued -/

@[simp] theorem State.issued_clk (s : State) (n : Nat) : (s.issued n).clk = s.clk := rfl
@[simp] theorem State.issued_fresh (s : State) (n : Nat) : (s.issued n).fresh = s.fresh := rfl
@[simp] theorem State.issued_agenda (s : State) (n : Nat) : (s.issued n).agenda = s.agenda := rfl
@[simp] theorem State.issued_turn (s : State) (n : Nat) : (s.issued n).turn = s.turn := rfl
@[simp] theorem State.issued_foc (s : State) (n : Nat) : (s.issued n).foc = s.foc := rfl
@[simp] theorem State.issued_cur (s : State) (n : Nat) : (s.issued n).cur = s.cur := rfl
@[simp] theorem State.issued_cores (s : State) (n : Nat) : (s.issued n).cores = s.cores := rfl
@[simp] theorem State.issued_dies (s : State) (n : Nat) : (s.issued n).dies = s.dies := rfl
@[simp] theorem State.issued_stations (s : State) (n : Nat) : (s.issued n).stations = s.stations := rfl
@[simp] theorem State.issued_modules (s : State) (n : Nat) : (s.issued n).modules = s.modules := rfl
@[simp] theorem State.issued_mem (s : State) (n : Nat) : (s.issued n).mem = s.mem := rfl
@[simp] theorem State.issued_bars (s : State) (n : Nat) : (s.issued n).bars = s.bars := rfl
@[simp] theorem State.issued_pod (s : State) (n : Nat) : (s.issued n).pod = s.pod := rfl

/-! ### State.waits -/

@[simp] theorem State.waits_clk (s : State) (code : Nat) : (s.waits code).clk = s.clk := rfl
@[simp] theorem State.waits_fresh (s : State) (code : Nat) : (s.waits code).fresh = s.fresh := rfl
@[simp] theorem State.waits_agenda (s : State) (code : Nat) : (s.waits code).agenda = s.agenda := rfl
@[simp] theorem State.waits_turn (s : State) (code : Nat) : (s.waits code).turn = s.turn := rfl
@[simp] theorem State.waits_foc (s : State) (code : Nat) : (s.waits code).foc = s.foc := rfl
@[simp] theorem State.waits_cur (s : State) (code : Nat) : (s.waits code).cur = s.cur := rfl
@[simp] theorem State.waits_cores (s : State) (code : Nat) : (s.waits code).cores = s.cores := rfl
@[simp] theorem State.waits_dies (s : State) (code : Nat) : (s.waits code).dies = s.dies := rfl
@[simp] theorem State.waits_stations (s : State) (code : Nat) : (s.waits code).stations = s.stations := rfl
@[simp] theorem State.waits_modules (s : State) (code : Nat) : (s.waits code).modules = s.modules := rfl
@[simp] theorem State.waits_mem (s : State) (code : Nat) : (s.waits code).mem = s.mem := rfl
@[simp] theorem State.waits_bars (s : State) (code : Nat) : (s.waits code).bars = s.bars := rfl
@[simp] theorem State.waits_pod (s : State) (code : Nat) : (s.waits code).pod = s.pod := rfl

/-! ### State.waitsSlip -/

@[simp] theorem State.waitsSlip_clk (s : State)  : s.waitsSlip.clk = s.clk := rfl
@[simp] theorem State.waitsSlip_fresh (s : State)  : s.waitsSlip.fresh = s.fresh := rfl
@[simp] theorem State.waitsSlip_agenda (s : State)  : s.waitsSlip.agenda = s.agenda := rfl
@[simp] theorem State.waitsSlip_turn (s : State)  : s.waitsSlip.turn = s.turn := rfl
@[simp] theorem State.waitsSlip_foc (s : State)  : s.waitsSlip.foc = s.foc := rfl
@[simp] theorem State.waitsSlip_cur (s : State)  : s.waitsSlip.cur = s.cur := rfl
@[simp] theorem State.waitsSlip_cores (s : State)  : s.waitsSlip.cores = s.cores := rfl
@[simp] theorem State.waitsSlip_dies (s : State)  : s.waitsSlip.dies = s.dies := rfl
@[simp] theorem State.waitsSlip_stations (s : State)  : s.waitsSlip.stations = s.stations := rfl
@[simp] theorem State.waitsSlip_modules (s : State)  : s.waitsSlip.modules = s.modules := rfl
@[simp] theorem State.waitsSlip_mem (s : State)  : s.waitsSlip.mem = s.mem := rfl
@[simp] theorem State.waitsSlip_bars (s : State)  : s.waitsSlip.bars = s.bars := rfl
@[simp] theorem State.waitsSlip_pod (s : State)  : s.waitsSlip.pod = s.pod := rfl

/-! ### State.putCore -/

@[simp] theorem State.putCore_clk (s : State) (k : Nat) (x : CoreSt) : (s.putCore k x).clk = s.clk := rfl
@[simp] theorem State.putCore_fresh (s : State) (k : Nat) (x : CoreSt) : (s.putCore k x).fresh = s.fresh := rfl
@[simp] theorem State.putCore_agenda (s : State) (k : Nat) (x : CoreSt) : (s.putCore k x).agenda = s.agenda := rfl
@[simp] theorem State.putCore_turn (s : State) (k : Nat) (x : CoreSt) : (s.putCore k x).turn = s.turn := rfl
@[simp] theorem State.putCore_foc (s : State) (k : Nat) (x : CoreSt) : (s.putCore k x).foc = s.foc := rfl
@[simp] theorem State.putCore_cur (s : State) (k : Nat) (x : CoreSt) : (s.putCore k x).cur = s.cur := rfl
@[simp] theorem State.putCore_ctxs (s : State) (k : Nat) (x : CoreSt) : (s.putCore k x).ctxs = s.ctxs := rfl
@[simp] theorem State.putCore_dies (s : State) (k : Nat) (x : CoreSt) : (s.putCore k x).dies = s.dies := rfl
@[simp] theorem State.putCore_stations (s : State) (k : Nat) (x : CoreSt) : (s.putCore k x).stations = s.stations := rfl
@[simp] theorem State.putCore_modules (s : State) (k : Nat) (x : CoreSt) : (s.putCore k x).modules = s.modules := rfl
@[simp] theorem State.putCore_mem (s : State) (k : Nat) (x : CoreSt) : (s.putCore k x).mem = s.mem := rfl
@[simp] theorem State.putCore_bars (s : State) (k : Nat) (x : CoreSt) : (s.putCore k x).bars = s.bars := rfl
@[simp] theorem State.putCore_pod (s : State) (k : Nat) (x : CoreSt) : (s.putCore k x).pod = s.pod := rfl

/-! ### State.modCore -/

@[simp] theorem State.modCore_clk (s : State) (k : Nat) (f : CoreSt → CoreSt) : (s.modCore k f).clk = s.clk := rfl
@[simp] theorem State.modCore_fresh (s : State) (k : Nat) (f : CoreSt → CoreSt) : (s.modCore k f).fresh = s.fresh := rfl
@[simp] theorem State.modCore_agenda (s : State) (k : Nat) (f : CoreSt → CoreSt) : (s.modCore k f).agenda = s.agenda := rfl
@[simp] theorem State.modCore_turn (s : State) (k : Nat) (f : CoreSt → CoreSt) : (s.modCore k f).turn = s.turn := rfl
@[simp] theorem State.modCore_foc (s : State) (k : Nat) (f : CoreSt → CoreSt) : (s.modCore k f).foc = s.foc := rfl
@[simp] theorem State.modCore_cur (s : State) (k : Nat) (f : CoreSt → CoreSt) : (s.modCore k f).cur = s.cur := rfl
@[simp] theorem State.modCore_ctxs (s : State) (k : Nat) (f : CoreSt → CoreSt) : (s.modCore k f).ctxs = s.ctxs := rfl
@[simp] theorem State.modCore_dies (s : State) (k : Nat) (f : CoreSt → CoreSt) : (s.modCore k f).dies = s.dies := rfl
@[simp] theorem State.modCore_stations (s : State) (k : Nat) (f : CoreSt → CoreSt) : (s.modCore k f).stations = s.stations := rfl
@[simp] theorem State.modCore_modules (s : State) (k : Nat) (f : CoreSt → CoreSt) : (s.modCore k f).modules = s.modules := rfl
@[simp] theorem State.modCore_mem (s : State) (k : Nat) (f : CoreSt → CoreSt) : (s.modCore k f).mem = s.mem := rfl
@[simp] theorem State.modCore_bars (s : State) (k : Nat) (f : CoreSt → CoreSt) : (s.modCore k f).bars = s.bars := rfl
@[simp] theorem State.modCore_pod (s : State) (k : Nat) (f : CoreSt → CoreSt) : (s.modCore k f).pod = s.pod := rfl

/-! ### State.modFcore -/

@[simp] theorem State.modFcore_clk (s : State) (f : CoreSt → CoreSt) : (s.modFcore f).clk = s.clk := rfl
@[simp] theorem State.modFcore_fresh (s : State) (f : CoreSt → CoreSt) : (s.modFcore f).fresh = s.fresh := rfl
@[simp] theorem State.modFcore_agenda (s : State) (f : CoreSt → CoreSt) : (s.modFcore f).agenda = s.agenda := rfl
@[simp] theorem State.modFcore_turn (s : State) (f : CoreSt → CoreSt) : (s.modFcore f).turn = s.turn := rfl
@[simp] theorem State.modFcore_foc (s : State) (f : CoreSt → CoreSt) : (s.modFcore f).foc = s.foc := rfl
@[simp] theorem State.modFcore_cur (s : State) (f : CoreSt → CoreSt) : (s.modFcore f).cur = s.cur := rfl
@[simp] theorem State.modFcore_ctxs (s : State) (f : CoreSt → CoreSt) : (s.modFcore f).ctxs = s.ctxs := rfl
@[simp] theorem State.modFcore_dies (s : State) (f : CoreSt → CoreSt) : (s.modFcore f).dies = s.dies := rfl
@[simp] theorem State.modFcore_stations (s : State) (f : CoreSt → CoreSt) : (s.modFcore f).stations = s.stations := rfl
@[simp] theorem State.modFcore_modules (s : State) (f : CoreSt → CoreSt) : (s.modFcore f).modules = s.modules := rfl
@[simp] theorem State.modFcore_mem (s : State) (f : CoreSt → CoreSt) : (s.modFcore f).mem = s.mem := rfl
@[simp] theorem State.modFcore_bars (s : State) (f : CoreSt → CoreSt) : (s.modFcore f).bars = s.bars := rfl
@[simp] theorem State.modFcore_pod (s : State) (f : CoreSt → CoreSt) : (s.modFcore f).pod = s.pod := rfl

/-! ### State.modDie -/

@[simp] theorem State.modDie_clk (s : State) (d : Nat) (f : DieSt → DieSt) : (s.modDie d f).clk = s.clk := rfl
@[simp] theorem State.modDie_fresh (s : State) (d : Nat) (f : DieSt → DieSt) : (s.modDie d f).fresh = s.fresh := rfl
@[simp] theorem State.modDie_agenda (s : State) (d : Nat) (f : DieSt → DieSt) : (s.modDie d f).agenda = s.agenda := rfl
@[simp] theorem State.modDie_turn (s : State) (d : Nat) (f : DieSt → DieSt) : (s.modDie d f).turn = s.turn := rfl
@[simp] theorem State.modDie_foc (s : State) (d : Nat) (f : DieSt → DieSt) : (s.modDie d f).foc = s.foc := rfl
@[simp] theorem State.modDie_cur (s : State) (d : Nat) (f : DieSt → DieSt) : (s.modDie d f).cur = s.cur := rfl
@[simp] theorem State.modDie_ctxs (s : State) (d : Nat) (f : DieSt → DieSt) : (s.modDie d f).ctxs = s.ctxs := rfl
@[simp] theorem State.modDie_cores (s : State) (d : Nat) (f : DieSt → DieSt) : (s.modDie d f).cores = s.cores := rfl
@[simp] theorem State.modDie_stations (s : State) (d : Nat) (f : DieSt → DieSt) : (s.modDie d f).stations = s.stations := rfl
@[simp] theorem State.modDie_modules (s : State) (d : Nat) (f : DieSt → DieSt) : (s.modDie d f).modules = s.modules := rfl
@[simp] theorem State.modDie_mem (s : State) (d : Nat) (f : DieSt → DieSt) : (s.modDie d f).mem = s.mem := rfl
@[simp] theorem State.modDie_bars (s : State) (d : Nat) (f : DieSt → DieSt) : (s.modDie d f).bars = s.bars := rfl
@[simp] theorem State.modDie_pod (s : State) (d : Nat) (f : DieSt → DieSt) : (s.modDie d f).pod = s.pod := rfl

/-! ### State.modSta -/

@[simp] theorem State.modSta_clk (s : State) (n : Nat) (f : Station → Station) : (s.modSta n f).clk = s.clk := rfl
@[simp] theorem State.modSta_fresh (s : State) (n : Nat) (f : Station → Station) : (s.modSta n f).fresh = s.fresh := rfl
@[simp] theorem State.modSta_agenda (s : State) (n : Nat) (f : Station → Station) : (s.modSta n f).agenda = s.agenda := rfl
@[simp] theorem State.modSta_turn (s : State) (n : Nat) (f : Station → Station) : (s.modSta n f).turn = s.turn := rfl
@[simp] theorem State.modSta_foc (s : State) (n : Nat) (f : Station → Station) : (s.modSta n f).foc = s.foc := rfl
@[simp] theorem State.modSta_cur (s : State) (n : Nat) (f : Station → Station) : (s.modSta n f).cur = s.cur := rfl
@[simp] theorem State.modSta_ctxs (s : State) (n : Nat) (f : Station → Station) : (s.modSta n f).ctxs = s.ctxs := rfl
@[simp] theorem State.modSta_cores (s : State) (n : Nat) (f : Station → Station) : (s.modSta n f).cores = s.cores := rfl
@[simp] theorem State.modSta_dies (s : State) (n : Nat) (f : Station → Station) : (s.modSta n f).dies = s.dies := rfl
@[simp] theorem State.modSta_modules (s : State) (n : Nat) (f : Station → Station) : (s.modSta n f).modules = s.modules := rfl
@[simp] theorem State.modSta_mem (s : State) (n : Nat) (f : Station → Station) : (s.modSta n f).mem = s.mem := rfl
@[simp] theorem State.modSta_bars (s : State) (n : Nat) (f : Station → Station) : (s.modSta n f).bars = s.bars := rfl
@[simp] theorem State.modSta_pod (s : State) (n : Nat) (f : Station → Station) : (s.modSta n f).pod = s.pod := rfl

/-! ### State.modMod -/

@[simp] theorem State.modMod_clk (s : State) (m : Nat) (f : ModuleSt → ModuleSt) : (s.modMod m f).clk = s.clk := rfl
@[simp] theorem State.modMod_fresh (s : State) (m : Nat) (f : ModuleSt → ModuleSt) : (s.modMod m f).fresh = s.fresh := rfl
@[simp] theorem State.modMod_agenda (s : State) (m : Nat) (f : ModuleSt → ModuleSt) : (s.modMod m f).agenda = s.agenda := rfl
@[simp] theorem State.modMod_turn (s : State) (m : Nat) (f : ModuleSt → ModuleSt) : (s.modMod m f).turn = s.turn := rfl
@[simp] theorem State.modMod_foc (s : State) (m : Nat) (f : ModuleSt → ModuleSt) : (s.modMod m f).foc = s.foc := rfl
@[simp] theorem State.modMod_cur (s : State) (m : Nat) (f : ModuleSt → ModuleSt) : (s.modMod m f).cur = s.cur := rfl
@[simp] theorem State.modMod_ctxs (s : State) (m : Nat) (f : ModuleSt → ModuleSt) : (s.modMod m f).ctxs = s.ctxs := rfl
@[simp] theorem State.modMod_cores (s : State) (m : Nat) (f : ModuleSt → ModuleSt) : (s.modMod m f).cores = s.cores := rfl
@[simp] theorem State.modMod_dies (s : State) (m : Nat) (f : ModuleSt → ModuleSt) : (s.modMod m f).dies = s.dies := rfl
@[simp] theorem State.modMod_stations (s : State) (m : Nat) (f : ModuleSt → ModuleSt) : (s.modMod m f).stations = s.stations := rfl
@[simp] theorem State.modMod_mem (s : State) (m : Nat) (f : ModuleSt → ModuleSt) : (s.modMod m f).mem = s.mem := rfl
@[simp] theorem State.modMod_bars (s : State) (m : Nat) (f : ModuleSt → ModuleSt) : (s.modMod m f).bars = s.bars := rfl
@[simp] theorem State.modMod_pod (s : State) (m : Nat) (f : ModuleSt → ModuleSt) : (s.modMod m f).pod = s.pod := rfl

/-! ### State.post -/

@[simp] theorem State.post_clk (s : State) (due : Nat) (e : Event) : (s.post due e).clk = s.clk := rfl
@[simp] theorem State.post_fresh (s : State) (due : Nat) (e : Event) : (s.post due e).fresh = s.fresh := rfl
@[simp] theorem State.post_turn (s : State) (due : Nat) (e : Event) : (s.post due e).turn = s.turn := rfl
@[simp] theorem State.post_foc (s : State) (due : Nat) (e : Event) : (s.post due e).foc = s.foc := rfl
@[simp] theorem State.post_cur (s : State) (due : Nat) (e : Event) : (s.post due e).cur = s.cur := rfl
@[simp] theorem State.post_ctxs (s : State) (due : Nat) (e : Event) : (s.post due e).ctxs = s.ctxs := rfl
@[simp] theorem State.post_cores (s : State) (due : Nat) (e : Event) : (s.post due e).cores = s.cores := rfl
@[simp] theorem State.post_dies (s : State) (due : Nat) (e : Event) : (s.post due e).dies = s.dies := rfl
@[simp] theorem State.post_stations (s : State) (due : Nat) (e : Event) : (s.post due e).stations = s.stations := rfl
@[simp] theorem State.post_modules (s : State) (due : Nat) (e : Event) : (s.post due e).modules = s.modules := rfl
@[simp] theorem State.post_mem (s : State) (due : Nat) (e : Event) : (s.post due e).mem = s.mem := rfl
@[simp] theorem State.post_bars (s : State) (due : Nat) (e : Event) : (s.post due e).bars = s.bars := rfl
@[simp] theorem State.post_pod (s : State) (due : Nat) (e : Event) : (s.post due e).pod = s.pod := rfl

/-! ### State.postNow -/

@[simp] theorem State.postNow_clk (s : State) (e : Event) : (s.postNow e).clk = s.clk := rfl
@[simp] theorem State.postNow_fresh (s : State) (e : Event) : (s.postNow e).fresh = s.fresh := rfl
@[simp] theorem State.postNow_turn (s : State) (e : Event) : (s.postNow e).turn = s.turn := rfl
@[simp] theorem State.postNow_foc (s : State) (e : Event) : (s.postNow e).foc = s.foc := rfl
@[simp] theorem State.postNow_cur (s : State) (e : Event) : (s.postNow e).cur = s.cur := rfl
@[simp] theorem State.postNow_ctxs (s : State) (e : Event) : (s.postNow e).ctxs = s.ctxs := rfl
@[simp] theorem State.postNow_cores (s : State) (e : Event) : (s.postNow e).cores = s.cores := rfl
@[simp] theorem State.postNow_dies (s : State) (e : Event) : (s.postNow e).dies = s.dies := rfl
@[simp] theorem State.postNow_stations (s : State) (e : Event) : (s.postNow e).stations = s.stations := rfl
@[simp] theorem State.postNow_modules (s : State) (e : Event) : (s.postNow e).modules = s.modules := rfl
@[simp] theorem State.postNow_mem (s : State) (e : Event) : (s.postNow e).mem = s.mem := rfl
@[simp] theorem State.postNow_bars (s : State) (e : Event) : (s.postNow e).bars = s.bars := rfl
@[simp] theorem State.postNow_pod (s : State) (e : Event) : (s.postNow e).pod = s.pod := rfl

/-! ### State.fly -/

@[simp] theorem State.fly_clk (s : State) (i : StreamId) (p : Pend) : (s.fly i p).clk = s.clk := rfl
@[simp] theorem State.fly_fresh (s : State) (i : StreamId) (p : Pend) : (s.fly i p).fresh = s.fresh := rfl
@[simp] theorem State.fly_turn (s : State) (i : StreamId) (p : Pend) : (s.fly i p).turn = s.turn := rfl
@[simp] theorem State.fly_foc (s : State) (i : StreamId) (p : Pend) : (s.fly i p).foc = s.foc := rfl
@[simp] theorem State.fly_cur (s : State) (i : StreamId) (p : Pend) : (s.fly i p).cur = s.cur := rfl
@[simp] theorem State.fly_cores (s : State) (i : StreamId) (p : Pend) : (s.fly i p).cores = s.cores := rfl
@[simp] theorem State.fly_dies (s : State) (i : StreamId) (p : Pend) : (s.fly i p).dies = s.dies := rfl
@[simp] theorem State.fly_stations (s : State) (i : StreamId) (p : Pend) : (s.fly i p).stations = s.stations := rfl
@[simp] theorem State.fly_modules (s : State) (i : StreamId) (p : Pend) : (s.fly i p).modules = s.modules := rfl
@[simp] theorem State.fly_mem (s : State) (i : StreamId) (p : Pend) : (s.fly i p).mem = s.mem := rfl
@[simp] theorem State.fly_bars (s : State) (i : StreamId) (p : Pend) : (s.fly i p).bars = s.bars := rfl
@[simp] theorem State.fly_pod (s : State) (i : StreamId) (p : Pend) : (s.fly i p).pod = s.pod := rfl

/-! ### State.pend -/

@[simp] theorem State.pend_clk (s : State) (c : CtxId) (cause : Nat) (tval : Word) : (s.pend c cause tval).clk = s.clk := rfl
@[simp] theorem State.pend_fresh (s : State) (c : CtxId) (cause : Nat) (tval : Word) : (s.pend c cause tval).fresh = s.fresh := rfl
@[simp] theorem State.pend_agenda (s : State) (c : CtxId) (cause : Nat) (tval : Word) : (s.pend c cause tval).agenda = s.agenda := rfl
@[simp] theorem State.pend_turn (s : State) (c : CtxId) (cause : Nat) (tval : Word) : (s.pend c cause tval).turn = s.turn := rfl
@[simp] theorem State.pend_foc (s : State) (c : CtxId) (cause : Nat) (tval : Word) : (s.pend c cause tval).foc = s.foc := rfl
@[simp] theorem State.pend_cur (s : State) (c : CtxId) (cause : Nat) (tval : Word) : (s.pend c cause tval).cur = s.cur := rfl
@[simp] theorem State.pend_cores (s : State) (c : CtxId) (cause : Nat) (tval : Word) : (s.pend c cause tval).cores = s.cores := rfl
@[simp] theorem State.pend_dies (s : State) (c : CtxId) (cause : Nat) (tval : Word) : (s.pend c cause tval).dies = s.dies := rfl
@[simp] theorem State.pend_stations (s : State) (c : CtxId) (cause : Nat) (tval : Word) : (s.pend c cause tval).stations = s.stations := rfl
@[simp] theorem State.pend_modules (s : State) (c : CtxId) (cause : Nat) (tval : Word) : (s.pend c cause tval).modules = s.modules := rfl
@[simp] theorem State.pend_mem (s : State) (c : CtxId) (cause : Nat) (tval : Word) : (s.pend c cause tval).mem = s.mem := rfl
@[simp] theorem State.pend_bars (s : State) (c : CtxId) (cause : Nat) (tval : Word) : (s.pend c cause tval).bars = s.bars := rfl
@[simp] theorem State.pend_pod (s : State) (c : CtxId) (cause : Nat) (tval : Word) : (s.pend c cause tval).pod = s.pod := rfl

/-! ### State.stopAt -/

@[simp] theorem State.stopAt_clk (s : State) (c : CtxId) (te : Nat) (e : Entry) : (s.stopAt c te e).clk = s.clk := rfl
@[simp] theorem State.stopAt_fresh (s : State) (c : CtxId) (te : Nat) (e : Entry) : (s.stopAt c te e).fresh = s.fresh := rfl
@[simp] theorem State.stopAt_turn (s : State) (c : CtxId) (te : Nat) (e : Entry) : (s.stopAt c te e).turn = s.turn := rfl
@[simp] theorem State.stopAt_foc (s : State) (c : CtxId) (te : Nat) (e : Entry) : (s.stopAt c te e).foc = s.foc := rfl
@[simp] theorem State.stopAt_cur (s : State) (c : CtxId) (te : Nat) (e : Entry) : (s.stopAt c te e).cur = s.cur := rfl
@[simp] theorem State.stopAt_cores (s : State) (c : CtxId) (te : Nat) (e : Entry) : (s.stopAt c te e).cores = s.cores := rfl
@[simp] theorem State.stopAt_dies (s : State) (c : CtxId) (te : Nat) (e : Entry) : (s.stopAt c te e).dies = s.dies := rfl
@[simp] theorem State.stopAt_stations (s : State) (c : CtxId) (te : Nat) (e : Entry) : (s.stopAt c te e).stations = s.stations := rfl
@[simp] theorem State.stopAt_modules (s : State) (c : CtxId) (te : Nat) (e : Entry) : (s.stopAt c te e).modules = s.modules := rfl
@[simp] theorem State.stopAt_mem (s : State) (c : CtxId) (te : Nat) (e : Entry) : (s.stopAt c te e).mem = s.mem := rfl
@[simp] theorem State.stopAt_bars (s : State) (c : CtxId) (te : Nat) (e : Entry) : (s.stopAt c te e).bars = s.bars := rfl
@[simp] theorem State.stopAt_pod (s : State) (c : CtxId) (te : Nat) (e : Entry) : (s.stopAt c te e).pod = s.pod := rfl

/-! ### State.raise -/

@[simp] theorem State.raise_clk (s : State) (cause : Nat) (tval : Word) : (s.raise cause tval).clk = s.clk := rfl
@[simp] theorem State.raise_fresh (s : State) (cause : Nat) (tval : Word) : (s.raise cause tval).fresh = s.fresh := rfl
@[simp] theorem State.raise_turn (s : State) (cause : Nat) (tval : Word) : (s.raise cause tval).turn = s.turn := rfl
@[simp] theorem State.raise_foc (s : State) (cause : Nat) (tval : Word) : (s.raise cause tval).foc = s.foc := rfl
@[simp] theorem State.raise_cur (s : State) (cause : Nat) (tval : Word) : (s.raise cause tval).cur = s.cur := rfl
@[simp] theorem State.raise_cores (s : State) (cause : Nat) (tval : Word) : (s.raise cause tval).cores = s.cores := rfl
@[simp] theorem State.raise_dies (s : State) (cause : Nat) (tval : Word) : (s.raise cause tval).dies = s.dies := rfl
@[simp] theorem State.raise_stations (s : State) (cause : Nat) (tval : Word) : (s.raise cause tval).stations = s.stations := rfl
@[simp] theorem State.raise_modules (s : State) (cause : Nat) (tval : Word) : (s.raise cause tval).modules = s.modules := rfl
@[simp] theorem State.raise_mem (s : State) (cause : Nat) (tval : Word) : (s.raise cause tval).mem = s.mem := rfl
@[simp] theorem State.raise_bars (s : State) (cause : Nat) (tval : Word) : (s.raise cause tval).bars = s.bars := rfl
@[simp] theorem State.raise_pod (s : State) (cause : Nat) (tval : Word) : (s.raise cause tval).pod = s.pod := rfl

/-! ### State.interlocked -/

@[simp] theorem State.interlocked_clk (s : State) (rd land : Nat) (v : Word) : (s.interlocked rd land v).clk = s.clk := rfl
@[simp] theorem State.interlocked_turn (s : State) (rd land : Nat) (v : Word) : (s.interlocked rd land v).turn = s.turn := rfl
@[simp] theorem State.interlocked_foc (s : State) (rd land : Nat) (v : Word) : (s.interlocked rd land v).foc = s.foc := rfl
@[simp] theorem State.interlocked_cur (s : State) (rd land : Nat) (v : Word) : (s.interlocked rd land v).cur = s.cur := rfl
@[simp] theorem State.interlocked_cores (s : State) (rd land : Nat) (v : Word) : (s.interlocked rd land v).cores = s.cores := rfl
@[simp] theorem State.interlocked_dies (s : State) (rd land : Nat) (v : Word) : (s.interlocked rd land v).dies = s.dies := rfl
@[simp] theorem State.interlocked_stations (s : State) (rd land : Nat) (v : Word) : (s.interlocked rd land v).stations = s.stations := rfl
@[simp] theorem State.interlocked_modules (s : State) (rd land : Nat) (v : Word) : (s.interlocked rd land v).modules = s.modules := rfl
@[simp] theorem State.interlocked_mem (s : State) (rd land : Nat) (v : Word) : (s.interlocked rd land v).mem = s.mem := rfl
@[simp] theorem State.interlocked_bars (s : State) (rd land : Nat) (v : Word) : (s.interlocked rd land v).bars = s.bars := rfl
@[simp] theorem State.interlocked_pod (s : State) (rd land : Nat) (v : Word) : (s.interlocked rd land v).pod = s.pod := rfl

end Sys2Proof.Machine
end

