-- ==== Sys2Proof/Laws/Ops.lean ====
section
/-! SUPPORT. One lemma for each shared operation: reading a context after an update, the checks of a word that is ready, and what a
result does. -/

namespace Sys2Proof.Machine

/-! ## Contexts and streams read after an update -/

@[simp] theorem State.ctx_putCtx_self (s : State) (c : CtxId) (x : Ctx) : (s.putCtx c x).ctx c = x := Sp.get_put_self _ _ _ _

@[simp] theorem State.ctx_modCtx_self (s : State) (c : CtxId) (f : Ctx → Ctx) : (s.modCtx c f).ctx c = f (s.ctx c) :=
  State.ctx_putCtx_self s c _

theorem State.ctx_modCtx_ne (s : State) (c d : CtxId) (f : Ctx → Ctx) (h : 2 * d.core + d.bank ≠ 2 * c.core + c.bank) :
    (s.modCtx c f).ctx d = s.ctx d := Sp.get_put_ne _ _ _ h

@[simp] theorem State.core_modCore_self (s : State) (k : Nat) (f : CoreSt → CoreSt) : (s.modCore k f).core k = f (s.core k) :=
  Sp.get_put_self _ _ _ _

theorem State.core_modCore_ne (s : State) {k j : Nat} (f : CoreSt → CoreSt) (h : j ≠ k) : (s.modCore k f).core j = s.core j :=
  Sp.get_put_ne _ _ _ h

@[simp] theorem State.die_modDie_self (s : State) (d : Nat) (f : DieSt → DieSt) : (s.modDie d f).die d = f (s.die d) :=
  Sp.get_put_self _ _ _ _

@[simp] theorem State.sta_modSta_self (s : State) (n : Nat) (f : Station → Station) : (s.modSta n f).sta n = f (s.sta n) :=
  Sp.get_put_self _ _ _ _

@[simp] theorem State.modu_modMod_self (s : State) (m : Nat) (f : ModuleSt → ModuleSt) : (s.modMod m f).modu m = f (s.modu m) :=
  Sp.get_put_self _ _ _ _

@[simp] theorem Ctx.strm_putStrm_self (x : Ctx) (st : Stream) (y : StreamSt) : (x.putStrm st y).strm st = y := by cases st <;> rfl

theorem Ctx.strm_putStrm_ne (x : Ctx) {st su : Stream} (y : StreamSt) (h : su ≠ st) : (x.putStrm st y).strm su = x.strm su := by
  cases st <;> cases su <;> first | rfl | exact absurd rfl h

@[simp] theorem State.strm_modStrm_self (s : State) (i : StreamId) (f : StreamSt → StreamSt) : (s.modStrm i f).strm i = f (s.strm i) := by
  simp [State.modStrm, State.putStrm, State.strm]

@[simp] theorem State.fctx_modF (s : State) (f : Ctx → Ctx) : (s.modF f).fctx = f s.fctx := State.ctx_modCtx_self _ _ _

@[simp] theorem State.fstrm_modFs (s : State) (f : StreamSt → StreamSt) : (s.modFs f).fstrm = f s.fstrm :=
  State.strm_modStrm_self _ _ _

/-! ## The checks of a word -/

/-- A word that is ready passes its checks. -/
theorem State.Ready.gate {s : State} {n : Need} (h : s.Ready n) : gate n s = .go := by
  have hf : n.feature.filter (fun f => !s.fctx.hasFeature f) = none := by
    cases e : n.feature with
    | none => rfl
    | some f => simp [h.feature f e]
  unfold Machine.gate
  simp [hf, h.allowed, h.guardFree, h.guardCome, h.holds, h.free, h.clear]

/-- A word that is ready runs its own effect. -/
theorem State.Ready.runWord {s : State} {n : Need} (h : s.Ready n) (k : Nat) (body : State → Res) :
    runWord k n body s = match body s with
      | .done s' => s'.issued k
      | .jumped s' => s'.charge s'.foc 0
      | .wait code s' => s'.waits code
      | .whole s' => s'
      | .trap c t => s.raise c t := by
  unfold Machine.runWord
  rw [h.gate, h.answered]
  all_goals rfl

theorem State.Ready.word32 {s : State} {n : Need} (h : s.Ready n) {body : State → Res} {s' : State} (hb : body s = .done s') :
    word32 n body s = .next (s'.issued 2) := by
  rw [Machine.word32, h.runWord, hb]

theorem State.Ready.word16 {s : State} {n : Need} (h : s.Ready n) {body : State → Res} {s' : State} (hb : body s = .done s') :
    word16 n body s = .next (s'.issued 1) := by
  rw [Machine.word16, h.runWord, hb]

end Sys2Proof.Machine
end

