-- ==== Sys2Proof/Laws/PerInstr.lean ====
section
/-! SUPPORT. Decoding an encoded instruction gives it back: one lemma per instruction. -/

namespace Sys2Proof

/-- Decoding the bytes of a well-formed instruction's word gives the instruction, with the bytes after it (13 R300). -/
def Laws.RoundTrip.Statement (i : Instr) : Prop :=
  ∀ (kd : CoreKind) (st : Stream) (rest : List Byte), i.wf kd st = true → decodeBytes kd st ((encode i).bytes ++ rest) = some (.ok i, rest)

/-! ## Parts of joined words -/

theorem extract_append_low {n m : Nat} (x : BitVec n) (y : BitVec m) (lo len : Nat) (h : lo + len ≤ m) :
    (x ++ y).extractLsb' lo len = y.extractLsb' lo len := by
  apply BitVec.eq_of_getLsbD_eq
  intro i hi
  simp only [BitVec.getLsbD_extractLsb', BitVec.getLsbD_append, hi, decide_true, Bool.true_and]
  rw [if_pos (by omega)]

theorem extract_append_high {n m : Nat} (x : BitVec n) (y : BitVec m) (lo len : Nat) (h : m ≤ lo) :
    (x ++ y).extractLsb' lo len = x.extractLsb' (lo - m) len := by
  apply BitVec.eq_of_getLsbD_eq
  intro i hi
  simp only [BitVec.getLsbD_extractLsb', BitVec.getLsbD_append, hi, decide_true, Bool.true_and]
  rw [if_neg (by omega)]
  congr 1
  omega

@[simp] theorem ofBool_beq_one (b : Bool) : (BitVec.ofBool b == 1#1) = b := by cases b <;> rfl

theorem sub_append_low {n m : Nat} (x : BitVec n) (y : BitVec m) (lo len : Nat) (h : lo + len ≤ m) : sub (x ++ y) lo len = sub y lo len :=
  extract_append_low x y lo len h

theorem sub_append_high {n m : Nat} (x : BitVec n) (y : BitVec m) (lo len : Nat) (h : m ≤ lo) : sub (x ++ y) lo len = sub x (lo - m) len :=
  extract_append_high x y lo len h

@[simp] theorem sub_all {n : Nat} (x : BitVec n) : sub x 0 n = x := by simp [sub]

theorem low_bit {n : Nat} (x : BitVec n) (y : BitVec 1) : (x ++ y).getLsbD 0 = y.getLsbD 0 := by
  simp only [BitVec.getLsbD_append]
  rw [if_pos (by omega)]

theorem cases3 (s : BitVec 3) : s = 0 ∨ s = 1 ∨ s = 2 ∨ s = 3 ∨ s = 4 ∨ s = 5 ∨ s = 6 ∨ s = 7 := by revert s; decide

/-! ## The formats -/

@[simp] theorem splitW3_joinW3 (m : BitVec 5) (f : FW3) : splitW3 (joinW3 m f) = f := by
  cases f
  simp (disch := omega) only [splitW3, joinW3, extract_append_low, extract_append_high, FW3.mk.injEq]
  simp

@[simp] theorem majorOf_joinW3 (m : BitVec 5) (f : FW3) : majorOf (joinW3 m f) = m := by
  simp (disch := omega) only [majorOf, joinW3, extract_append_low, extract_append_high]
  simp

@[simp] theorem bit0_joinW3 (m : BitVec 5) (f : FW3) : (joinW3 m f).getLsbD 0 = true := by
  exact (low_bit _ _).trans rfl

@[simp] theorem splitWI_joinWI (m : BitVec 5) (f : FWI) : splitWI (joinWI m f) = f := by
  cases f
  simp (disch := omega) only [splitWI, joinWI, extract_append_low, extract_append_high, FWI.mk.injEq]
  simp

@[simp] theorem majorOf_joinWI (m : BitVec 5) (f : FWI) : majorOf (joinWI m f) = m := by
  simp (disch := omega) only [majorOf, joinWI, extract_append_low, extract_append_high]
  simp

@[simp] theorem bit0_joinWI (m : BitVec 5) (f : FWI) : (joinWI m f).getLsbD 0 = true := by
  exact (low_bit _ _).trans rfl

@[simp] theorem splitWU_joinWU (m : BitVec 5) (f : FWU) : splitWU (joinWU m f) = f := by
  cases f
  simp (disch := omega) only [splitWU, joinWU, extract_append_low, extract_append_high, FWU.mk.injEq]
  simp

@[simp] theorem majorOf_joinWU (m : BitVec 5) (f : FWU) : majorOf (joinWU m f) = m := by
  simp (disch := omega) only [majorOf, joinWU, extract_append_low, extract_append_high]
  simp

@[simp] theorem bit0_joinWU (m : BitVec 5) (f : FWU) : (joinWU m f).getLsbD 0 = true := by
  exact (low_bit _ _).trans rfl

@[simp] theorem splitWP_joinWP (m : BitVec 5) (f : FWP) : splitWP (joinWP m f) = f := by
  cases f
  simp (disch := omega) only [splitWP, joinWP, extract_append_low, extract_append_high, FWP.mk.injEq]
  simp

@[simp] theorem majorOf_joinWP (m : BitVec 5) (f : FWP) : majorOf (joinWP m f) = m := by
  simp (disch := omega) only [majorOf, joinWP, extract_append_low, extract_append_high]
  simp

@[simp] theorem bit0_joinWP (m : BitVec 5) (f : FWP) : (joinWP m f).getLsbD 0 = true := by
  exact (low_bit _ _).trans rfl

@[simp] theorem splitWPI_joinWPI (m : BitVec 5) (f : FWPI) : splitWPI (joinWPI m f) = f := by
  cases f
  simp (disch := omega) only [splitWPI, joinWPI, extract_append_low, extract_append_high, FWPI.mk.injEq]
  simp

@[simp] theorem majorOf_joinWPI (m : BitVec 5) (f : FWPI) : majorOf (joinWPI m f) = m := by
  simp (disch := omega) only [majorOf, joinWPI, extract_append_low, extract_append_high]
  simp

@[simp] theorem bit0_joinWPI (m : BitVec 5) (f : FWPI) : (joinWPI m f).getLsbD 0 = true := by
  exact (low_bit _ _).trans rfl

@[simp] theorem splitWBP_joinWBP (m : BitVec 5) (f : FWBP) : splitWBP (joinWBP m f) = f := by
  cases f
  simp (disch := omega) only [splitWBP, joinWBP, extract_append_low, extract_append_high, FWBP.mk.injEq]
  simp

@[simp] theorem majorOf_joinWBP (m : BitVec 5) (f : FWBP) : majorOf (joinWBP m f) = m := by
  simp (disch := omega) only [majorOf, joinWBP, extract_append_low, extract_append_high]
  simp

@[simp] theorem bit0_joinWBP (m : BitVec 5) (f : FWBP) : (joinWBP m f).getLsbD 0 = true := by
  exact (low_bit _ _).trans rfl

@[simp] theorem splitWBB_joinWBB (m : BitVec 5) (f : FWBB) : splitWBB (joinWBB m f) = f := by
  cases f
  simp (disch := omega) only [splitWBB, joinWBB, extract_append_low, extract_append_high, FWBB.mk.injEq]
  simp

@[simp] theorem majorOf_joinWBB (m : BitVec 5) (f : FWBB) : majorOf (joinWBB m f) = m := by
  simp (disch := omega) only [majorOf, joinWBB, extract_append_low, extract_append_high]
  simp

@[simp] theorem bit0_joinWBB (m : BitVec 5) (f : FWBB) : (joinWBB m f).getLsbD 0 = true := by
  exact (low_bit _ _).trans rfl

@[simp] theorem splitWV4_joinWV4 (m : BitVec 5) (f : FWV4) : splitWV4 (joinWV4 m f) = f := by
  cases f
  simp (disch := omega) only [splitWV4, joinWV4, extract_append_low, extract_append_high, FWV4.mk.injEq]
  simp

@[simp] theorem majorOf_joinWV4 (m : BitVec 5) (f : FWV4) : majorOf (joinWV4 m f) = m := by
  simp (disch := omega) only [majorOf, joinWV4, extract_append_low, extract_append_high]
  simp

@[simp] theorem bit0_joinWV4 (m : BitVec 5) (f : FWV4) : (joinWV4 m f).getLsbD 0 = true := by
  exact (low_bit _ _).trans rfl

@[simp] theorem splitWA_joinWA (m : BitVec 5) (f : FWA) : splitWA (joinWA m f) = f := by
  cases f
  simp (disch := omega) only [splitWA, joinWA, extract_append_low, extract_append_high, FWA.mk.injEq]
  simp

@[simp] theorem majorOf_joinWA (m : BitVec 5) (f : FWA) : majorOf (joinWA m f) = m := by
  simp (disch := omega) only [majorOf, joinWA, extract_append_low, extract_append_high]
  simp

@[simp] theorem bit0_joinWA (m : BitVec 5) (f : FWA) : (joinWA m f).getLsbD 0 = true := by
  exact (low_bit _ _).trans rfl

@[simp] theorem splitWD_joinWD (m : BitVec 5) (f : FWD) : splitWD (joinWD m f) = f := by
  cases f
  simp (disch := omega) only [splitWD, joinWD, extract_append_low, extract_append_high, FWD.mk.injEq]
  simp

@[simp] theorem majorOf_joinWD (m : BitVec 5) (f : FWD) : majorOf (joinWD m f) = m := by
  simp (disch := omega) only [majorOf, joinWD, extract_append_low, extract_append_high]
  simp

@[simp] theorem bit0_joinWD (m : BitVec 5) (f : FWD) : (joinWD m f).getLsbD 0 = true := by
  exact (low_bit _ _).trans rfl

@[simp] theorem splitWE_joinWE (m : BitVec 5) (f : FWE) : splitWE (joinWE m f) = f := by
  cases f
  simp (disch := omega) only [splitWE, joinWE, extract_append_low, extract_append_high, FWE.mk.injEq]
  simp

@[simp] theorem majorOf_joinWE (m : BitVec 5) (f : FWE) : majorOf (joinWE m f) = m := by
  simp (disch := omega) only [majorOf, joinWE, extract_append_low, extract_append_high]
  simp

@[simp] theorem bit0_joinWE (m : BitVec 5) (f : FWE) : (joinWE m f).getLsbD 0 = true := by
  exact (low_bit _ _).trans rfl

@[simp] theorem splitWI_joinW3_fn (m : BitVec 5) (f : FW3) : (splitWI (joinW3 m f)).fn = f.fn := by
  simp (disch := omega) only [splitWI, joinW3, extract_append_low, extract_append_high]
  simp

@[simp] theorem splitW3_joinWI_fn (m : BitVec 5) (f : FWI) : (splitW3 (joinWI m f)).fn = f.fn := by
  simp (disch := omega) only [splitW3, joinWI, extract_append_low, extract_append_high]
  simp

/-! ## Words and bytes -/

theorem byte_append (w : BitVec 32) : w.extractLsb' 24 8 ++ w.extractLsb' 16 8 ++ w.extractLsb' 8 8 ++ w.extractLsb' 0 8 = w := by
  apply BitVec.eq_of_getLsbD_eq
  intro i hi
  simp only [BitVec.getLsbD_append, BitVec.getLsbD_extractLsb']
  split <;> rename_i h1
  · simp [h1]
  · split <;> rename_i h2
    · rw [decide_eq_true (by omega)]; simp only [Bool.true_and]; congr 1; omega
    · split <;> rename_i h3
      · rw [decide_eq_true (by omega)]; simp only [Bool.true_and]; congr 1; omega
      · rw [decide_eq_true (by omega)]; simp only [Bool.true_and]; congr 1; omega

theorem half_append (h : BitVec 16) : h.extractLsb' 8 8 ++ h.extractLsb' 0 8 = h := by
  apply BitVec.eq_of_getLsbD_eq
  intro i hi
  simp only [BitVec.getLsbD_append, BitVec.getLsbD_extractLsb']
  split <;> rename_i h1
  · simp [h1]
  · rw [decide_eq_true (by omega)]; simp only [Bool.true_and]; congr 1; omega

/-- A word that parses to a well-formed instruction decodes to it. -/
theorem decodeBytes_of_word {kd : CoreKind} {st : Stream} {rest : List Byte} {i : Instr} {w : BitVec 32} (hb : w.getLsbD 0 = true)
    (hp : parse32 st w = .ok i) (h : i.wf kd st = true) : decodeBytes kd st ((Code.word w).bytes ++ rest) = some (.ok i, rest) := by
  have hb' : (w.extractLsb' 0 8).getLsbD 0 = true := by simpa [BitVec.getLsbD_extractLsb'] using hb
  show (if (w.extractLsb' 0 8).getLsbD 0 = true then _ else _) = _
  rw [if_pos hb']
  show some (checkWf kd st (parse32 st (w.extractLsb' 24 8 ++ w.extractLsb' 16 8 ++ w.extractLsb' 8 8 ++ w.extractLsb' 0 8)), rest) = _
  rw [byte_append, hp]
  simp [checkWf, h]

/-- The same of a 16-bit word. -/
theorem decodeBytes_of_half {kd : CoreKind} {st : Stream} {rest : List Byte} {i : Instr} {w : BitVec 16} (hb : w.getLsbD 0 = false)
    (hp : parse16 w = .ok i) (h : i.wf kd st = true) : decodeBytes kd st ((Code.half w).bytes ++ rest) = some (.ok i, rest) := by
  have hb' : (w.extractLsb' 0 8).getLsbD 0 = false := by simpa [BitVec.getLsbD_extractLsb'] using hb
  show (if (w.extractLsb' 0 8).getLsbD 0 = true then _ else _) = _
  rw [hb', if_neg (by simp)]
  show some (checkWf kd st (parse16 (w.extractLsb' 8 8 ++ w.extractLsb' 0 8)), rest) = _
  rw [half_append, hp]
  simp [checkWf, h]

/-! ## Majors -/

theorem parse32_CA00 {st : Stream} {w : BitVec 32} (hs : inCA st = true) (hm : majorOf w = 0x00#5) : parse32 st w = parseCA00 w := by
  cases st <;> simp [parse32, parseCA, hm, inCA] at hs ⊢

theorem parse32_CA01 {st : Stream} {w : BitVec 32} (hs : inCA st = true) (hm : majorOf w = 0x01#5) : parse32 st w = parseCA01 w := by
  cases st <;> simp [parse32, parseCA, hm, inCA] at hs ⊢

theorem parse32_CA02 {st : Stream} {w : BitVec 32} (hs : inCA st = true) (hm : majorOf w = 0x02#5) : parse32 st w = parseCA02 w := by
  cases st <;> simp [parse32, parseCA, hm, inCA] at hs ⊢

theorem parse32_CA03 {st : Stream} {w : BitVec 32} (hs : inCA st = true) (hm : majorOf w = 0x03#5) : parse32 st w = parseCA03 w := by
  cases st <;> simp [parse32, parseCA, hm, inCA] at hs ⊢

theorem parse32_CA04 {st : Stream} {w : BitVec 32} (hs : inCA st = true) (hm : majorOf w = 0x04#5) : parse32 st w = parseCA04 w := by
  cases st <;> simp [parse32, parseCA, hm, inCA] at hs ⊢

theorem parse32_CA05 {st : Stream} {w : BitVec 32} (hs : inCA st = true) (hm : majorOf w = 0x05#5) : parse32 st w = parseCA05 w := by
  cases st <;> simp [parse32, parseCA, hm, inCA] at hs ⊢

theorem parse32_CA06 {st : Stream} {w : BitVec 32} (hs : inCA st = true) (hm : majorOf w = 0x06#5) : parse32 st w = parseCA06 w := by
  cases st <;> simp [parse32, parseCA, hm, inCA] at hs ⊢

theorem parse32_CA07 {st : Stream} {w : BitVec 32} (hs : inCA st = true) (hm : majorOf w = 0x07#5) : parse32 st w = parseCA07 w := by
  cases st <;> simp [parse32, parseCA, hm, inCA] at hs ⊢

theorem parse32_CA08 {st : Stream} {w : BitVec 32} (hs : inCA st = true) (hm : majorOf w = 0x08#5) : parse32 st w = parseCA08 w := by
  cases st <;> simp [parse32, parseCA, hm, inCA] at hs ⊢

theorem parse32_CA09 {st : Stream} {w : BitVec 32} (hs : inCA st = true) (hm : majorOf w = 0x09#5) : parse32 st w = parseCA09 w := by
  cases st <;> simp [parse32, parseCA, hm, inCA] at hs ⊢

theorem parse32_CA0A {st : Stream} {w : BitVec 32} (hs : inCA st = true) (hm : majorOf w = 0x0A#5) : parse32 st w = parseCA0A w := by
  cases st <;> simp [parse32, parseCA, hm, inCA] at hs ⊢

theorem parse32_CA0B {st : Stream} {w : BitVec 32} (hs : inCA st = true) (hm : majorOf w = 0x0B#5) : parse32 st w = parseCA0B w := by
  cases st <;> simp [parse32, parseCA, hm, inCA] at hs ⊢

theorem parse32_CA0C {st : Stream} {w : BitVec 32} (hs : inCA st = true) (hm : majorOf w = 0x0C#5) : parse32 st w = parseCA0C w := by
  cases st <;> simp [parse32, parseCA, hm, inCA] at hs ⊢

theorem parse32_CA0D {st : Stream} {w : BitVec 32} (hs : inCA st = true) (hm : majorOf w = 0x0D#5) : parse32 st w = parseCA0D w := by
  cases st <;> simp [parse32, parseCA, hm, inCA] at hs ⊢

theorem parse32_CA0E {st : Stream} {w : BitVec 32} (hs : inCA st = true) (hm : majorOf w = 0x0E#5) : parse32 st w = parseCA0E w := by
  cases st <;> simp [parse32, parseCA, hm, inCA] at hs ⊢

theorem parse32_C10 {w : BitVec 32} (hm : majorOf w = 0x10#5) : parse32 .c w = parseC10 w := by
  simp [parse32, parseC, hm]

theorem parse32_C11 {w : BitVec 32} (hm : majorOf w = 0x11#5) : parse32 .c w = parseC11 w := by
  simp [parse32, parseC, hm]

theorem parse32_C12 {w : BitVec 32} (hm : majorOf w = 0x12#5) : parse32 .c w = parseC12 w := by
  simp [parse32, parseC, hm]

theorem parse32_C13 {w : BitVec 32} (hm : majorOf w = 0x13#5) : parse32 .c w = parseC13 w := by
  simp [parse32, parseC, hm]

theorem parse32_C14 {w : BitVec 32} (hm : majorOf w = 0x14#5) : parse32 .c w = parseC14 w := by
  simp [parse32, parseC, hm]

theorem parse32_C15 {w : BitVec 32} (hm : majorOf w = 0x15#5) : parse32 .c w = parseC15 w := by
  simp [parse32, parseC, hm]

theorem parse32_C16 {w : BitVec 32} (hm : majorOf w = 0x16#5) : parse32 .c w = parseC16 w := by
  simp [parse32, parseC, hm]

theorem parse32_C17 {w : BitVec 32} (hm : majorOf w = 0x17#5) : parse32 .c w = parseC17 w := by
  simp [parse32, parseC, hm]

theorem parse32_C18 {w : BitVec 32} (hm : majorOf w = 0x18#5) : parse32 .c w = parseC18 w := by
  simp [parse32, parseC, hm]

theorem parse32_C19 {w : BitVec 32} (hm : majorOf w = 0x19#5) : parse32 .c w = parseC19 w := by
  simp [parse32, parseC, hm]

theorem parse32_A0F {w : BitVec 32} (hm : majorOf w = 0x0F#5) : parse32 .a w = parseA0F w := by
  simp [parse32, parseA, hm]

theorem parse32_A10 {w : BitVec 32} (hm : majorOf w = 0x10#5) : parse32 .a w = parseA10 w := by
  simp [parse32, parseA, hm]

theorem parse32_A11 {w : BitVec 32} (hm : majorOf w = 0x11#5) : parse32 .a w = parseA11 w := by
  simp [parse32, parseA, hm]

theorem parse32_A12 {w : BitVec 32} (hm : majorOf w = 0x12#5) : parse32 .a w = parseA12 w := by
  simp [parse32, parseA, hm]

theorem parse32_A13 {w : BitVec 32} (hm : majorOf w = 0x13#5) : parse32 .a w = parseA13 w := by
  simp [parse32, parseA, hm]

theorem parse32_A14 {w : BitVec 32} (hm : majorOf w = 0x14#5) : parse32 .a w = parseA14 w := by
  simp [parse32, parseA, hm]

theorem parse32_A15 {w : BitVec 32} (hm : majorOf w = 0x15#5) : parse32 .a w = parseA15 w := by
  simp [parse32, parseA, hm]

theorem parse32_V00 {w : BitVec 32} (hm : majorOf w = 0x00#5) : parse32 .v w = parseV00 w := by
  simp [parse32, parseV, hm]

theorem parse32_V01 {w : BitVec 32} (hm : majorOf w = 0x01#5) : parse32 .v w = parseV01 w := by
  simp [parse32, parseV, hm]

theorem parse32_V02 {w : BitVec 32} (hm : majorOf w = 0x02#5) : parse32 .v w = parseV02 w := by
  simp [parse32, parseV, hm]

theorem parse32_V03 {w : BitVec 32} (hm : majorOf w = 0x03#5) : parse32 .v w = parseV03 w := by
  simp [parse32, parseV, hm]

theorem parse32_V04 {w : BitVec 32} (hm : majorOf w = 0x04#5) : parse32 .v w = parseV04 w := by
  simp [parse32, parseV, hm]

theorem parse32_V05 {w : BitVec 32} (hm : majorOf w = 0x05#5) : parse32 .v w = parseV05 w := by
  simp [parse32, parseV, hm]

theorem parse32_V06 {w : BitVec 32} (hm : majorOf w = 0x06#5) : parse32 .v w = parseV06 w := by
  simp [parse32, parseV, hm]

theorem parse32_V07 {w : BitVec 32} (hm : majorOf w = 0x07#5) : parse32 .v w = parseV07 w := by
  simp [parse32, parseV, hm]

theorem parse32_V08 {w : BitVec 32} (hm : majorOf w = 0x08#5) : parse32 .v w = parseV08 w := by
  simp [parse32, parseV, hm]

theorem parse32_V09 {w : BitVec 32} (hm : majorOf w = 0x09#5) : parse32 .v w = parseV09 w := by
  simp [parse32, parseV, hm]

theorem parse32_V0A {w : BitVec 32} (hm : majorOf w = 0x0A#5) : parse32 .v w = parseV0A w := by
  simp [parse32, parseV, hm]

theorem parse32_V0B {w : BitVec 32} (hm : majorOf w = 0x0B#5) : parse32 .v w = parseV0B w := by
  simp [parse32, parseV, hm]

theorem parse32_V0C {w : BitVec 32} (hm : majorOf w = 0x0C#5) : parse32 .v w = parseV0C w := by
  simp [parse32, parseV, hm]

theorem parse32_V0D {w : BitVec 32} (hm : majorOf w = 0x0D#5) : parse32 .v w = parseV0D w := by
  simp [parse32, parseV, hm]

theorem parse32_V0E {w : BitVec 32} (hm : majorOf w = 0x0E#5) : parse32 .v w = parseV0E w := by
  simp [parse32, parseV, hm]

theorem parse32_V0F {w : BitVec 32} (hm : majorOf w = 0x0F#5) : parse32 .v w = parseV0F w := by
  simp [parse32, parseV, hm]

theorem parse32_V10 {w : BitVec 32} (hm : majorOf w = 0x10#5) : parse32 .v w = parseV10 w := by
  simp [parse32, parseV, hm]

theorem parse32_V11 {w : BitVec 32} (hm : majorOf w = 0x11#5) : parse32 .v w = parseV11 w := by
  simp [parse32, parseV, hm]

theorem parse32_V12 {w : BitVec 32} (hm : majorOf w = 0x12#5) : parse32 .v w = parseV12 w := by
  simp [parse32, parseV, hm]

theorem parse32_V13 {w : BitVec 32} (hm : majorOf w = 0x13#5) : parse32 .v w = parseV13 w := by
  simp [parse32, parseV, hm]

theorem parse32_V14 {w : BitVec 32} (hm : majorOf w = 0x14#5) : parse32 .v w = parseV14 w := by
  simp [parse32, parseV, hm]

/-! ## Instructions -/

theorem Laws.RoundTrip.add (g : Guard) (b : BitVec 5) (a : BitVec 5) (d : BitVec 5) : Laws.RoundTrip.Statement (.add g b a d) := by
  intro kd st rest h
  refine decodeBytes_of_word (bit0_joinW3 _ _) ?_ h
  rw [parse32_CA00 (by cases st <;> first | rfl | exact Bool.noConfusion h) (majorOf_joinW3 _ _)]
  simp [parseCA00]

theorem Laws.RoundTrip.sub (g : Guard) (b : BitVec 5) (a : BitVec 5) (d : BitVec 5) : Laws.RoundTrip.Statement (.sub g b a d) := by
  intro kd st rest h
  refine decodeBytes_of_word (bit0_joinW3 _ _) ?_ h
  rw [parse32_CA00 (by cases st <;> first | rfl | exact Bool.noConfusion h) (majorOf_joinW3 _ _)]
  simp [parseCA00]

theorem Laws.RoundTrip.and (g : Guard) (b : BitVec 5) (a : BitVec 5) (d : BitVec 5) : Laws.RoundTrip.Statement (.and g b a d) := by
  intro kd st rest h
  refine decodeBytes_of_word (bit0_joinW3 _ _) ?_ h
  rw [parse32_CA00 (by cases st <;> first | rfl | exact Bool.noConfusion h) (majorOf_joinW3 _ _)]
  simp [parseCA00]

theorem Laws.RoundTrip.or (g : Guard) (b : BitVec 5) (a : BitVec 5) (d : BitVec 5) : Laws.RoundTrip.Statement (.or g b a d) := by
  intro kd st rest h
  refine decodeBytes_of_word (bit0_joinW3 _ _) ?_ h
  rw [parse32_CA00 (by cases st <;> first | rfl | exact Bool.noConfusion h) (majorOf_joinW3 _ _)]
  simp [parseCA00]

theorem Laws.RoundTrip.xor (g : Guard) (b : BitVec 5) (a : BitVec 5) (d : BitVec 5) : Laws.RoundTrip.Statement (.xor g b a d) := by
  intro kd st rest h
  refine decodeBytes_of_word (bit0_joinW3 _ _) ?_ h
  rw [parse32_CA00 (by cases st <;> first | rfl | exact Bool.noConfusion h) (majorOf_joinW3 _ _)]
  simp [parseCA00]

theorem Laws.RoundTrip.andn (g : Guard) (b : BitVec 5) (a : BitVec 5) (d : BitVec 5) : Laws.RoundTrip.Statement (.andn g b a d) := by
  intro kd st rest h
  refine decodeBytes_of_word (bit0_joinW3 _ _) ?_ h
  rw [parse32_CA00 (by cases st <;> first | rfl | exact Bool.noConfusion h) (majorOf_joinW3 _ _)]
  simp [parseCA00]

theorem Laws.RoundTrip.shl (g : Guard) (b : BitVec 5) (a : BitVec 5) (d : BitVec 5) : Laws.RoundTrip.Statement (.shl g b a d) := by
  intro kd st rest h
  refine decodeBytes_of_word (bit0_joinW3 _ _) ?_ h
  rw [parse32_CA00 (by cases st <;> first | rfl | exact Bool.noConfusion h) (majorOf_joinW3 _ _)]
  simp [parseCA00]

theorem Laws.RoundTrip.shr (g : Guard) (b : BitVec 5) (a : BitVec 5) (d : BitVec 5) : Laws.RoundTrip.Statement (.shr g b a d) := by
  intro kd st rest h
  refine decodeBytes_of_word (bit0_joinW3 _ _) ?_ h
  rw [parse32_CA00 (by cases st <;> first | rfl | exact Bool.noConfusion h) (majorOf_joinW3 _ _)]
  simp [parseCA00]

theorem Laws.RoundTrip.sar (g : Guard) (b : BitVec 5) (a : BitVec 5) (d : BitVec 5) : Laws.RoundTrip.Statement (.sar g b a d) := by
  intro kd st rest h
  refine decodeBytes_of_word (bit0_joinW3 _ _) ?_ h
  rw [parse32_CA00 (by cases st <;> first | rfl | exact Bool.noConfusion h) (majorOf_joinW3 _ _)]
  simp [parseCA00]

theorem Laws.RoundTrip.rol (g : Guard) (b : BitVec 5) (a : BitVec 5) (d : BitVec 5) : Laws.RoundTrip.Statement (.rol g b a d) := by
  intro kd st rest h
  refine decodeBytes_of_word (bit0_joinW3 _ _) ?_ h
  rw [parse32_CA00 (by cases st <;> first | rfl | exact Bool.noConfusion h) (majorOf_joinW3 _ _)]
  simp [parseCA00]

theorem Laws.RoundTrip.min (g : Guard) (b : BitVec 5) (a : BitVec 5) (d : BitVec 5) : Laws.RoundTrip.Statement (.min g b a d) := by
  intro kd st rest h
  refine decodeBytes_of_word (bit0_joinW3 _ _) ?_ h
  rw [parse32_CA00 (by cases st <;> first | rfl | exact Bool.noConfusion h) (majorOf_joinW3 _ _)]
  simp [parseCA00]

theorem Laws.RoundTrip.max (g : Guard) (b : BitVec 5) (a : BitVec 5) (d : BitVec 5) : Laws.RoundTrip.Statement (.max g b a d) := by
  intro kd st rest h
  refine decodeBytes_of_word (bit0_joinW3 _ _) ?_ h
  rw [parse32_CA00 (by cases st <;> first | rfl | exact Bool.noConfusion h) (majorOf_joinW3 _ _)]
  simp [parseCA00]

theorem Laws.RoundTrip.minu (g : Guard) (b : BitVec 5) (a : BitVec 5) (d : BitVec 5) : Laws.RoundTrip.Statement (.minu g b a d) := by
  intro kd st rest h
  refine decodeBytes_of_word (bit0_joinW3 _ _) ?_ h
  rw [parse32_CA00 (by cases st <;> first | rfl | exact Bool.noConfusion h) (majorOf_joinW3 _ _)]
  simp [parseCA00]

theorem Laws.RoundTrip.maxu (g : Guard) (b : BitVec 5) (a : BitVec 5) (d : BitVec 5) : Laws.RoundTrip.Statement (.maxu g b a d) := by
  intro kd st rest h
  refine decodeBytes_of_word (bit0_joinW3 _ _) ?_ h
  rw [parse32_CA00 (by cases st <;> first | rfl | exact Bool.noConfusion h) (majorOf_joinW3 _ _)]
  simp [parseCA00]

theorem Laws.RoundTrip.mul (g : Guard) (b : BitVec 5) (a : BitVec 5) (d : BitVec 5) : Laws.RoundTrip.Statement (.mul g b a d) := by
  intro kd st rest h
  refine decodeBytes_of_word (bit0_joinW3 _ _) ?_ h
  rw [parse32_CA00 (by cases st <;> first | rfl | exact Bool.noConfusion h) (majorOf_joinW3 _ _)]
  simp [parseCA00]

theorem Laws.RoundTrip.mulhu (g : Guard) (b : BitVec 5) (a : BitVec 5) (d : BitVec 5) : Laws.RoundTrip.Statement (.mulhu g b a d) := by
  intro kd st rest h
  refine decodeBytes_of_word (bit0_joinW3 _ _) ?_ h
  rw [parse32_CA00 (by cases st <;> first | rfl | exact Bool.noConfusion h) (majorOf_joinW3 _ _)]
  simp [parseCA00]

theorem Laws.RoundTrip.addi (i : BitVec 12) (a : BitVec 5) (d : BitVec 5) : Laws.RoundTrip.Statement (.addi i a d) := by
  intro kd st rest h
  refine decodeBytes_of_word (bit0_joinWI _ _) ?_ h
  rw [parse32_CA01 (by cases st <;> first | rfl | exact Bool.noConfusion h) (majorOf_joinWI _ _)]
  simp [parseCA01]

theorem Laws.RoundTrip.andi (i : BitVec 12) (a : BitVec 5) (d : BitVec 5) : Laws.RoundTrip.Statement (.andi i a d) := by
  intro kd st rest h
  refine decodeBytes_of_word (bit0_joinWI _ _) ?_ h
  rw [parse32_CA01 (by cases st <;> first | rfl | exact Bool.noConfusion h) (majorOf_joinWI _ _)]
  simp [parseCA01]

theorem Laws.RoundTrip.ori (i : BitVec 12) (a : BitVec 5) (d : BitVec 5) : Laws.RoundTrip.Statement (.ori i a d) := by
  intro kd st rest h
  refine decodeBytes_of_word (bit0_joinWI _ _) ?_ h
  rw [parse32_CA01 (by cases st <;> first | rfl | exact Bool.noConfusion h) (majorOf_joinWI _ _)]
  simp [parseCA01]

theorem Laws.RoundTrip.xori (i : BitVec 12) (a : BitVec 5) (d : BitVec 5) : Laws.RoundTrip.Statement (.xori i a d) := by
  intro kd st rest h
  refine decodeBytes_of_word (bit0_joinWI _ _) ?_ h
  rw [parse32_CA01 (by cases st <;> first | rfl | exact Bool.noConfusion h) (majorOf_joinWI _ _)]
  simp [parseCA01]

theorem Laws.RoundTrip.shli (i : BitVec 6) (a : BitVec 5) (d : BitVec 5) : Laws.RoundTrip.Statement (.shli i a d) := by
  intro kd st rest h
  refine decodeBytes_of_word (bit0_joinWI _ _) ?_ h
  rw [parse32_CA01 (by cases st <;> first | rfl | exact Bool.noConfusion h) (majorOf_joinWI _ _)]
  simp (disch := omega) [parseCA01, sub_append_low, sub_append_high, -Nat.reduceAdd]

theorem Laws.RoundTrip.shri (i : BitVec 6) (a : BitVec 5) (d : BitVec 5) : Laws.RoundTrip.Statement (.shri i a d) := by
  intro kd st rest h
  refine decodeBytes_of_word (bit0_joinWI _ _) ?_ h
  rw [parse32_CA01 (by cases st <;> first | rfl | exact Bool.noConfusion h) (majorOf_joinWI _ _)]
  simp (disch := omega) [parseCA01, sub_append_low, sub_append_high, -Nat.reduceAdd]

theorem Laws.RoundTrip.sari (i : BitVec 6) (a : BitVec 5) (d : BitVec 5) : Laws.RoundTrip.Statement (.sari i a d) := by
  intro kd st rest h
  refine decodeBytes_of_word (bit0_joinWI _ _) ?_ h
  rw [parse32_CA01 (by cases st <;> first | rfl | exact Bool.noConfusion h) (majorOf_joinWI _ _)]
  simp (disch := omega) [parseCA01, sub_append_low, sub_append_high, -Nat.reduceAdd]

theorem Laws.RoundTrip.muli (i : BitVec 12) (a : BitVec 5) (d : BitVec 5) : Laws.RoundTrip.Statement (.muli i a d) := by
  intro kd st rest h
  refine decodeBytes_of_word (bit0_joinWI _ _) ?_ h
  rw [parse32_CA01 (by cases st <;> first | rfl | exact Bool.noConfusion h) (majorOf_joinWI _ _)]
  simp [parseCA01]

theorem Laws.RoundTrip.lui (i : BitVec 20) (d : BitVec 5) : Laws.RoundTrip.Statement (.lui i d) := by
  intro kd st rest h
  refine decodeBytes_of_word (bit0_joinWU _ _) ?_ h
  rw [parse32_CA02 (by cases st <;> first | rfl | exact Bool.noConfusion h) (majorOf_joinWU _ _)]
  simp [parseCA02]

theorem Laws.RoundTrip.auib (i : BitVec 20) (d : BitVec 5) : Laws.RoundTrip.Statement (.auib i d) := by
  intro kd st rest h
  refine decodeBytes_of_word (bit0_joinWU _ _) ?_ h
  rw [parse32_CA02 (by cases st <;> first | rfl | exact Bool.noConfusion h) (majorOf_joinWU _ _)]
  simp [parseCA02]

theorem Laws.RoundTrip.bext (g : Guard) (b : BitVec 5) (a : BitVec 5) (d : BitVec 5) : Laws.RoundTrip.Statement (.bext g b a d) := by
  intro kd st rest h
  refine decodeBytes_of_word (bit0_joinW3 _ _) ?_ h
  rw [parse32_CA03 (by cases st <;> first | rfl | exact Bool.noConfusion h) (majorOf_joinW3 _ _)]
  simp [parseCA03]

theorem Laws.RoundTrip.bexts (g : Guard) (b : BitVec 5) (a : BitVec 5) (d : BitVec 5) : Laws.RoundTrip.Statement (.bexts g b a d) := by
  intro kd st rest h
  refine decodeBytes_of_word (bit0_joinW3 _ _) ?_ h
  rw [parse32_CA03 (by cases st <;> first | rfl | exact Bool.noConfusion h) (majorOf_joinW3 _ _)]
  simp [parseCA03]

theorem Laws.RoundTrip.bins (g : Guard) (b : BitVec 5) (a : BitVec 5) (d : BitVec 5) : Laws.RoundTrip.Statement (.bins g b a d) := by
  intro kd st rest h
  refine decodeBytes_of_word (bit0_joinW3 _ _) ?_ h
  rw [parse32_CA03 (by cases st <;> first | rfl | exact Bool.noConfusion h) (majorOf_joinW3 _ _)]
  simp [parseCA03]

theorem Laws.RoundTrip.clz (g : Guard) (a : BitVec 5) (d : BitVec 5) : Laws.RoundTrip.Statement (.clz g a d) := by
  intro kd st rest h
  refine decodeBytes_of_word (bit0_joinW3 _ _) ?_ h
  rw [parse32_CA03 (by cases st <;> first | rfl | exact Bool.noConfusion h) (majorOf_joinW3 _ _)]
  simp [parseCA03]

theorem Laws.RoundTrip.ctz (g : Guard) (a : BitVec 5) (d : BitVec 5) : Laws.RoundTrip.Statement (.ctz g a d) := by
  intro kd st rest h
  refine decodeBytes_of_word (bit0_joinW3 _ _) ?_ h
  rw [parse32_CA03 (by cases st <;> first | rfl | exact Bool.noConfusion h) (majorOf_joinW3 _ _)]
  simp [parseCA03]

theorem Laws.RoundTrip.popc (g : Guard) (a : BitVec 5) (d : BitVec 5) : Laws.RoundTrip.Statement (.popc g a d) := by
  intro kd st rest h
  refine decodeBytes_of_word (bit0_joinW3 _ _) ?_ h
  rw [parse32_CA03 (by cases st <;> first | rfl | exact Bool.noConfusion h) (majorOf_joinW3 _ _)]
  simp [parseCA03]

theorem Laws.RoundTrip.bexti (w : BitVec 6) (o : BitVec 6) (a : BitVec 5) (d : BitVec 5) : Laws.RoundTrip.Statement (.bexti w o a d) := by
  intro kd st rest h
  refine decodeBytes_of_word (bit0_joinWI _ _) ?_ h
  rw [parse32_CA03 (by cases st <;> first | rfl | exact Bool.noConfusion h) (majorOf_joinWI _ _)]
  simp (disch := omega) [parseCA03, sub_append_low, sub_append_high, -Nat.reduceAdd]

theorem Laws.RoundTrip.binsi (w : BitVec 6) (o : BitVec 6) (a : BitVec 5) (d : BitVec 5) : Laws.RoundTrip.Statement (.binsi w o a d) := by
  intro kd st rest h
  refine decodeBytes_of_word (bit0_joinWI _ _) ?_ h
  rw [parse32_CA03 (by cases st <;> first | rfl | exact Bool.noConfusion h) (majorOf_joinWI _ _)]
  simp (disch := omega) [parseCA03, sub_append_low, sub_append_high, -Nat.reduceAdd]

theorem Laws.RoundTrip.cmpEq (n : Bool) (b : BitVec 5) (a : BitVec 5) (p : BitVec 6) : Laws.RoundTrip.Statement (.cmpEq n b a p) := by
  intro kd st rest h
  refine decodeBytes_of_word (bit0_joinWP _ _) ?_ h
  rw [parse32_CA04 (by cases st <;> first | rfl | exact Bool.noConfusion h) (majorOf_joinWP _ _)]
  simp [parseCA04]

theorem Laws.RoundTrip.cmpNe (n : Bool) (b : BitVec 5) (a : BitVec 5) (p : BitVec 6) : Laws.RoundTrip.Statement (.cmpNe n b a p) := by
  intro kd st rest h
  refine decodeBytes_of_word (bit0_joinWP _ _) ?_ h
  rw [parse32_CA04 (by cases st <;> first | rfl | exact Bool.noConfusion h) (majorOf_joinWP _ _)]
  simp [parseCA04]

theorem Laws.RoundTrip.cmpLt (n : Bool) (b : BitVec 5) (a : BitVec 5) (p : BitVec 6) : Laws.RoundTrip.Statement (.cmpLt n b a p) := by
  intro kd st rest h
  refine decodeBytes_of_word (bit0_joinWP _ _) ?_ h
  rw [parse32_CA04 (by cases st <;> first | rfl | exact Bool.noConfusion h) (majorOf_joinWP _ _)]
  simp [parseCA04]

theorem Laws.RoundTrip.cmpGe (n : Bool) (b : BitVec 5) (a : BitVec 5) (p : BitVec 6) : Laws.RoundTrip.Statement (.cmpGe n b a p) := by
  intro kd st rest h
  refine decodeBytes_of_word (bit0_joinWP _ _) ?_ h
  rw [parse32_CA04 (by cases st <;> first | rfl | exact Bool.noConfusion h) (majorOf_joinWP _ _)]
  simp [parseCA04]

theorem Laws.RoundTrip.cmpLtu (n : Bool) (b : BitVec 5) (a : BitVec 5) (p : BitVec 6) : Laws.RoundTrip.Statement (.cmpLtu n b a p) := by
  intro kd st rest h
  refine decodeBytes_of_word (bit0_joinWP _ _) ?_ h
  rw [parse32_CA04 (by cases st <;> first | rfl | exact Bool.noConfusion h) (majorOf_joinWP _ _)]
  simp [parseCA04]

theorem Laws.RoundTrip.cmpGeu (n : Bool) (b : BitVec 5) (a : BitVec 5) (p : BitVec 6) : Laws.RoundTrip.Statement (.cmpGeu n b a p) := by
  intro kd st rest h
  refine decodeBytes_of_word (bit0_joinWP _ _) ?_ h
  rw [parse32_CA04 (by cases st <;> first | rfl | exact Bool.noConfusion h) (majorOf_joinWP _ _)]
  simp [parseCA04]

theorem Laws.RoundTrip.cmpiEq (n : Bool) (i : BitVec 11) (a : BitVec 5) (p : BitVec 6) : Laws.RoundTrip.Statement (.cmpiEq n i a p) := by
  intro kd st rest h
  refine decodeBytes_of_word (bit0_joinWPI _ _) ?_ h
  rw [parse32_CA05 (by cases st <;> first | rfl | exact Bool.noConfusion h) (majorOf_joinWPI _ _)]
  simp [parseCA05]

theorem Laws.RoundTrip.cmpiNe (n : Bool) (i : BitVec 11) (a : BitVec 5) (p : BitVec 6) : Laws.RoundTrip.Statement (.cmpiNe n i a p) := by
  intro kd st rest h
  refine decodeBytes_of_word (bit0_joinWPI _ _) ?_ h
  rw [parse32_CA05 (by cases st <;> first | rfl | exact Bool.noConfusion h) (majorOf_joinWPI _ _)]
  simp [parseCA05]

theorem Laws.RoundTrip.cmpiLt (n : Bool) (i : BitVec 11) (a : BitVec 5) (p : BitVec 6) : Laws.RoundTrip.Statement (.cmpiLt n i a p) := by
  intro kd st rest h
  refine decodeBytes_of_word (bit0_joinWPI _ _) ?_ h
  rw [parse32_CA05 (by cases st <;> first | rfl | exact Bool.noConfusion h) (majorOf_joinWPI _ _)]
  simp [parseCA05]

theorem Laws.RoundTrip.cmpiGe (n : Bool) (i : BitVec 11) (a : BitVec 5) (p : BitVec 6) : Laws.RoundTrip.Statement (.cmpiGe n i a p) := by
  intro kd st rest h
  refine decodeBytes_of_word (bit0_joinWPI _ _) ?_ h
  rw [parse32_CA05 (by cases st <;> first | rfl | exact Bool.noConfusion h) (majorOf_joinWPI _ _)]
  simp [parseCA05]

theorem Laws.RoundTrip.cmpiLtu (n : Bool) (i : BitVec 11) (a : BitVec 5) (p : BitVec 6) : Laws.RoundTrip.Statement (.cmpiLtu n i a p) := by
  intro kd st rest h
  refine decodeBytes_of_word (bit0_joinWPI _ _) ?_ h
  rw [parse32_CA05 (by cases st <;> first | rfl | exact Bool.noConfusion h) (majorOf_joinWPI _ _)]
  simp [parseCA05]

theorem Laws.RoundTrip.cmpiGeu (n : Bool) (i : BitVec 11) (a : BitVec 5) (p : BitVec 6) : Laws.RoundTrip.Statement (.cmpiGeu n i a p) := by
  intro kd st rest h
  refine decodeBytes_of_word (bit0_joinWPI _ _) ?_ h
  rw [parse32_CA05 (by cases st <;> first | rfl | exact Bool.noConfusion h) (majorOf_joinWPI _ _)]
  simp [parseCA05]

theorem Laws.RoundTrip.pand (n : Bool) (b : BitVec 5) (a : BitVec 5) (p : BitVec 6) : Laws.RoundTrip.Statement (.pand n b a p) := by
  intro kd st rest h
  refine decodeBytes_of_word (bit0_joinWP _ _) ?_ h
  cases st
  · rw [parse32_CA06 rfl (majorOf_joinWP _ _)]
    simp [parseCA06]
  · rw [parse32_CA06 rfl (majorOf_joinWP _ _)]
    simp [parseCA06]
  · rw [parse32_V06 (majorOf_joinWP _ _)]
    simp [parseV06]

theorem Laws.RoundTrip.por (n : Bool) (b : BitVec 5) (a : BitVec 5) (p : BitVec 6) : Laws.RoundTrip.Statement (.por n b a p) := by
  intro kd st rest h
  refine decodeBytes_of_word (bit0_joinWP _ _) ?_ h
  cases st
  · rw [parse32_CA06 rfl (majorOf_joinWP _ _)]
    simp [parseCA06]
  · rw [parse32_CA06 rfl (majorOf_joinWP _ _)]
    simp [parseCA06]
  · rw [parse32_V06 (majorOf_joinWP _ _)]
    simp [parseV06]

theorem Laws.RoundTrip.pxor (n : Bool) (b : BitVec 5) (a : BitVec 5) (p : BitVec 6) : Laws.RoundTrip.Statement (.pxor n b a p) := by
  intro kd st rest h
  refine decodeBytes_of_word (bit0_joinWP _ _) ?_ h
  cases st
  · rw [parse32_CA06 rfl (majorOf_joinWP _ _)]
    simp [parseCA06]
  · rw [parse32_CA06 rfl (majorOf_joinWP _ _)]
    simp [parseCA06]
  · rw [parse32_V06 (majorOf_joinWP _ _)]
    simp [parseV06]

theorem Laws.RoundTrip.pandn (n : Bool) (b : BitVec 5) (a : BitVec 5) (p : BitVec 6) : Laws.RoundTrip.Statement (.pandn n b a p) := by
  intro kd st rest h
  refine decodeBytes_of_word (bit0_joinWP _ _) ?_ h
  cases st
  · rw [parse32_CA06 rfl (majorOf_joinWP _ _)]
    simp [parseCA06]
  · rw [parse32_CA06 rfl (majorOf_joinWP _ _)]
    simp [parseCA06]
  · rw [parse32_V06 (majorOf_joinWP _ _)]
    simp [parseV06]

theorem Laws.RoundTrip.pmov (n : Bool) (a : BitVec 5) (p : BitVec 6) : Laws.RoundTrip.Statement (.pmov n a p) := by
  intro kd st rest h
  refine decodeBytes_of_word (bit0_joinWP _ _) ?_ h
  cases st
  · rw [parse32_CA06 rfl (majorOf_joinWP _ _)]
    simp [parseCA06]
  · rw [parse32_CA06 rfl (majorOf_joinWP _ _)]
    simp [parseCA06]
  · rw [parse32_V06 (majorOf_joinWP _ _)]
    simp [parseV06]

theorem Laws.RoundTrip.pnot (n : Bool) (a : BitVec 5) (p : BitVec 6) : Laws.RoundTrip.Statement (.pnot n a p) := by
  intro kd st rest h
  refine decodeBytes_of_word (bit0_joinWP _ _) ?_ h
  cases st
  · rw [parse32_CA06 rfl (majorOf_joinWP _ _)]
    simp [parseCA06]
  · rw [parse32_CA06 rfl (majorOf_joinWP _ _)]
    simp [parseCA06]
  · rw [parse32_V06 (majorOf_joinWP _ _)]
    simp [parseV06]

theorem Laws.RoundTrip.movqPop (g : Guard) (q : BitVec 5) (d : BitVec 5) : Laws.RoundTrip.Statement (.movqPop g q d) := by
  intro kd st rest h
  refine decodeBytes_of_word (bit0_joinW3 _ _) ?_ h
  rw [parse32_CA07 (by cases st <;> first | rfl | exact Bool.noConfusion h) (majorOf_joinW3 _ _)]
  simp [parseCA07]

theorem Laws.RoundTrip.movqPush (g : Guard) (a : BitVec 5) (q : BitVec 5) : Laws.RoundTrip.Statement (.movqPush g a q) := by
  intro kd st rest h
  refine decodeBytes_of_word (bit0_joinW3 _ _) ?_ h
  rw [parse32_CA07 (by cases st <;> first | rfl | exact Bool.noConfusion h) (majorOf_joinW3 _ _)]
  simp [parseCA07]

theorem Laws.RoundTrip.trypopQueue (g : Guard) (p : BitVec 5) (q : BitVec 5) (d : BitVec 5) : Laws.RoundTrip.Statement (.trypopQueue g p q d) := by
  intro kd st rest h
  refine decodeBytes_of_word (bit0_joinW3 _ _) ?_ h
  rw [parse32_CA07 (by cases st <;> first | rfl | exact Bool.noConfusion h) (majorOf_joinW3 _ _)]
  simp [parseCA07]

theorem Laws.RoundTrip.ldB (i : BitVec 12) (b : BitVec 5) (r : BitVec 5) : Laws.RoundTrip.Statement (.ldB i b r) := by
  intro kd st rest h
  refine decodeBytes_of_word (bit0_joinWI _ _) ?_ h
  rw [parse32_CA08 (by cases st <;> first | rfl | exact Bool.noConfusion h) (majorOf_joinWI _ _)]
  simp [parseCA08]

theorem Laws.RoundTrip.ldH (i : BitVec 12) (b : BitVec 5) (r : BitVec 5) : Laws.RoundTrip.Statement (.ldH i b r) := by
  intro kd st rest h
  refine decodeBytes_of_word (bit0_joinWI _ _) ?_ h
  rw [parse32_CA08 (by cases st <;> first | rfl | exact Bool.noConfusion h) (majorOf_joinWI _ _)]
  simp [parseCA08]

theorem Laws.RoundTrip.ldW (i : BitVec 12) (b : BitVec 5) (r : BitVec 5) : Laws.RoundTrip.Statement (.ldW i b r) := by
  intro kd st rest h
  refine decodeBytes_of_word (bit0_joinWI _ _) ?_ h
  rw [parse32_CA08 (by cases st <;> first | rfl | exact Bool.noConfusion h) (majorOf_joinWI _ _)]
  simp [parseCA08]

theorem Laws.RoundTrip.ld (i : BitVec 12) (b : BitVec 5) (r : BitVec 5) : Laws.RoundTrip.Statement (.ld i b r) := by
  intro kd st rest h
  refine decodeBytes_of_word (bit0_joinWI _ _) ?_ h
  rw [parse32_CA08 (by cases st <;> first | rfl | exact Bool.noConfusion h) (majorOf_joinWI _ _)]
  simp [parseCA08]

theorem Laws.RoundTrip.ldSb (i : BitVec 12) (b : BitVec 5) (r : BitVec 5) : Laws.RoundTrip.Statement (.ldSb i b r) := by
  intro kd st rest h
  refine decodeBytes_of_word (bit0_joinWI _ _) ?_ h
  rw [parse32_CA08 (by cases st <;> first | rfl | exact Bool.noConfusion h) (majorOf_joinWI _ _)]
  simp [parseCA08]

theorem Laws.RoundTrip.ldSh (i : BitVec 12) (b : BitVec 5) (r : BitVec 5) : Laws.RoundTrip.Statement (.ldSh i b r) := by
  intro kd st rest h
  refine decodeBytes_of_word (bit0_joinWI _ _) ?_ h
  rw [parse32_CA08 (by cases st <;> first | rfl | exact Bool.noConfusion h) (majorOf_joinWI _ _)]
  simp [parseCA08]

theorem Laws.RoundTrip.ldSw (i : BitVec 12) (b : BitVec 5) (r : BitVec 5) : Laws.RoundTrip.Statement (.ldSw i b r) := by
  intro kd st rest h
  refine decodeBytes_of_word (bit0_joinWI _ _) ?_ h
  rw [parse32_CA08 (by cases st <;> first | rfl | exact Bool.noConfusion h) (majorOf_joinWI _ _)]
  simp [parseCA08]

theorem Laws.RoundTrip.ldAcq (s : BitVec 3) (i : BitVec 12) (b : BitVec 5) (r : BitVec 5) : Laws.RoundTrip.Statement (.ldAcq s i b r) := by
  intro kd st rest h
  refine decodeBytes_of_word (bit0_joinWI _ _) ?_ h
  rw [parse32_CA08 (by cases st <;> first | rfl | exact Bool.noConfusion h) (majorOf_joinWI _ _)]
  simp (disch := omega) [parseCA08, sub_append_low, sub_append_high, -Nat.reduceAdd]
  rcases cases3 s with e | e | e | e | e | e | e | e <;> subst e <;> rfl

theorem Laws.RoundTrip.stB (i : BitVec 12) (b : BitVec 5) (r : BitVec 5) : Laws.RoundTrip.Statement (.stB i b r) := by
  intro kd st rest h
  refine decodeBytes_of_word (bit0_joinWI _ _) ?_ h
  rw [parse32_CA09 (by cases st <;> first | rfl | exact Bool.noConfusion h) (majorOf_joinWI _ _)]
  simp [parseCA09]

theorem Laws.RoundTrip.stH (i : BitVec 12) (b : BitVec 5) (r : BitVec 5) : Laws.RoundTrip.Statement (.stH i b r) := by
  intro kd st rest h
  refine decodeBytes_of_word (bit0_joinWI _ _) ?_ h
  rw [parse32_CA09 (by cases st <;> first | rfl | exact Bool.noConfusion h) (majorOf_joinWI _ _)]
  simp [parseCA09]

theorem Laws.RoundTrip.stW (i : BitVec 12) (b : BitVec 5) (r : BitVec 5) : Laws.RoundTrip.Statement (.stW i b r) := by
  intro kd st rest h
  refine decodeBytes_of_word (bit0_joinWI _ _) ?_ h
  rw [parse32_CA09 (by cases st <;> first | rfl | exact Bool.noConfusion h) (majorOf_joinWI _ _)]
  simp [parseCA09]

theorem Laws.RoundTrip.st (i : BitVec 12) (b : BitVec 5) (r : BitVec 5) : Laws.RoundTrip.Statement (.st i b r) := by
  intro kd st rest h
  refine decodeBytes_of_word (bit0_joinWI _ _) ?_ h
  rw [parse32_CA09 (by cases st <;> first | rfl | exact Bool.noConfusion h) (majorOf_joinWI _ _)]
  simp [parseCA09]

theorem Laws.RoundTrip.stRel (s : BitVec 3) (i : BitVec 12) (b : BitVec 5) (r : BitVec 5) : Laws.RoundTrip.Statement (.stRel s i b r) := by
  intro kd st rest h
  refine decodeBytes_of_word (bit0_joinWI _ _) ?_ h
  rw [parse32_CA09 (by cases st <;> first | rfl | exact Bool.noConfusion h) (majorOf_joinWI _ _)]
  simp (disch := omega) [parseCA09, sub_append_low, sub_append_high, -Nat.reduceAdd]
  rcases cases3 s with e | e | e | e | e | e | e | e <;> subst e <;> rfl

theorem Laws.RoundTrip.amoAdd (g : Guard) (b : BitVec 5) (a : BitVec 5) (d : BitVec 5) : Laws.RoundTrip.Statement (.amoAdd g b a d) := by
  intro kd st rest h
  refine decodeBytes_of_word (bit0_joinW3 _ _) ?_ h
  rw [parse32_CA0A (by cases st <;> first | rfl | exact Bool.noConfusion h) (majorOf_joinW3 _ _)]
  simp [parseCA0A]

theorem Laws.RoundTrip.amoAnd (g : Guard) (b : BitVec 5) (a : BitVec 5) (d : BitVec 5) : Laws.RoundTrip.Statement (.amoAnd g b a d) := by
  intro kd st rest h
  refine decodeBytes_of_word (bit0_joinW3 _ _) ?_ h
  rw [parse32_CA0A (by cases st <;> first | rfl | exact Bool.noConfusion h) (majorOf_joinW3 _ _)]
  simp [parseCA0A]

theorem Laws.RoundTrip.amoOr (g : Guard) (b : BitVec 5) (a : BitVec 5) (d : BitVec 5) : Laws.RoundTrip.Statement (.amoOr g b a d) := by
  intro kd st rest h
  refine decodeBytes_of_word (bit0_joinW3 _ _) ?_ h
  rw [parse32_CA0A (by cases st <;> first | rfl | exact Bool.noConfusion h) (majorOf_joinW3 _ _)]
  simp [parseCA0A]

theorem Laws.RoundTrip.amoXor (g : Guard) (b : BitVec 5) (a : BitVec 5) (d : BitVec 5) : Laws.RoundTrip.Statement (.amoXor g b a d) := by
  intro kd st rest h
  refine decodeBytes_of_word (bit0_joinW3 _ _) ?_ h
  rw [parse32_CA0A (by cases st <;> first | rfl | exact Bool.noConfusion h) (majorOf_joinW3 _ _)]
  simp [parseCA0A]

theorem Laws.RoundTrip.amoMin (g : Guard) (b : BitVec 5) (a : BitVec 5) (d : BitVec 5) : Laws.RoundTrip.Statement (.amoMin g b a d) := by
  intro kd st rest h
  refine decodeBytes_of_word (bit0_joinW3 _ _) ?_ h
  rw [parse32_CA0A (by cases st <;> first | rfl | exact Bool.noConfusion h) (majorOf_joinW3 _ _)]
  simp [parseCA0A]

theorem Laws.RoundTrip.amoMax (g : Guard) (b : BitVec 5) (a : BitVec 5) (d : BitVec 5) : Laws.RoundTrip.Statement (.amoMax g b a d) := by
  intro kd st rest h
  refine decodeBytes_of_word (bit0_joinW3 _ _) ?_ h
  rw [parse32_CA0A (by cases st <;> first | rfl | exact Bool.noConfusion h) (majorOf_joinW3 _ _)]
  simp [parseCA0A]

theorem Laws.RoundTrip.amoMinu (g : Guard) (b : BitVec 5) (a : BitVec 5) (d : BitVec 5) : Laws.RoundTrip.Statement (.amoMinu g b a d) := by
  intro kd st rest h
  refine decodeBytes_of_word (bit0_joinW3 _ _) ?_ h
  rw [parse32_CA0A (by cases st <;> first | rfl | exact Bool.noConfusion h) (majorOf_joinW3 _ _)]
  simp [parseCA0A]

theorem Laws.RoundTrip.amoMaxu (g : Guard) (b : BitVec 5) (a : BitVec 5) (d : BitVec 5) : Laws.RoundTrip.Statement (.amoMaxu g b a d) := by
  intro kd st rest h
  refine decodeBytes_of_word (bit0_joinW3 _ _) ?_ h
  rw [parse32_CA0A (by cases st <;> first | rfl | exact Bool.noConfusion h) (majorOf_joinW3 _ _)]
  simp [parseCA0A]

theorem Laws.RoundTrip.amoSwap (g : Guard) (b : BitVec 5) (a : BitVec 5) (d : BitVec 5) : Laws.RoundTrip.Statement (.amoSwap g b a d) := by
  intro kd st rest h
  refine decodeBytes_of_word (bit0_joinW3 _ _) ?_ h
  rw [parse32_CA0A (by cases st <;> first | rfl | exact Bool.noConfusion h) (majorOf_joinW3 _ _)]
  simp [parseCA0A]

theorem Laws.RoundTrip.cas (g : Guard) (b : BitVec 5) (a : BitVec 5) (d : BitVec 5) : Laws.RoundTrip.Statement (.cas g b a d) := by
  intro kd st rest h
  refine decodeBytes_of_word (bit0_joinW3 _ _) ?_ h
  rw [parse32_CA0A (by cases st <;> first | rfl | exact Bool.noConfusion h) (majorOf_joinW3 _ _)]
  simp [parseCA0A]

theorem Laws.RoundTrip.ldlB (i : BitVec 12) (r : BitVec 5) : Laws.RoundTrip.Statement (.ldlB i r) := by
  intro kd st rest h
  refine decodeBytes_of_word (bit0_joinWI _ _) ?_ h
  rw [parse32_CA0B (by cases st <;> first | rfl | exact Bool.noConfusion h) (majorOf_joinWI _ _)]
  simp [parseCA0B]

theorem Laws.RoundTrip.ldlH (i : BitVec 12) (r : BitVec 5) : Laws.RoundTrip.Statement (.ldlH i r) := by
  intro kd st rest h
  refine decodeBytes_of_word (bit0_joinWI _ _) ?_ h
  rw [parse32_CA0B (by cases st <;> first | rfl | exact Bool.noConfusion h) (majorOf_joinWI _ _)]
  simp [parseCA0B]

theorem Laws.RoundTrip.ldlW (i : BitVec 12) (r : BitVec 5) : Laws.RoundTrip.Statement (.ldlW i r) := by
  intro kd st rest h
  refine decodeBytes_of_word (bit0_joinWI _ _) ?_ h
  rw [parse32_CA0B (by cases st <;> first | rfl | exact Bool.noConfusion h) (majorOf_joinWI _ _)]
  simp [parseCA0B]

theorem Laws.RoundTrip.ldl (i : BitVec 12) (r : BitVec 5) : Laws.RoundTrip.Statement (.ldl i r) := by
  intro kd st rest h
  refine decodeBytes_of_word (bit0_joinWI _ _) ?_ h
  rw [parse32_CA0B (by cases st <;> first | rfl | exact Bool.noConfusion h) (majorOf_joinWI _ _)]
  simp [parseCA0B]

theorem Laws.RoundTrip.ldlSb (i : BitVec 12) (r : BitVec 5) : Laws.RoundTrip.Statement (.ldlSb i r) := by
  intro kd st rest h
  refine decodeBytes_of_word (bit0_joinWI _ _) ?_ h
  rw [parse32_CA0B (by cases st <;> first | rfl | exact Bool.noConfusion h) (majorOf_joinWI _ _)]
  simp [parseCA0B]

theorem Laws.RoundTrip.ldlSh (i : BitVec 12) (r : BitVec 5) : Laws.RoundTrip.Statement (.ldlSh i r) := by
  intro kd st rest h
  refine decodeBytes_of_word (bit0_joinWI _ _) ?_ h
  rw [parse32_CA0B (by cases st <;> first | rfl | exact Bool.noConfusion h) (majorOf_joinWI _ _)]
  simp [parseCA0B]

theorem Laws.RoundTrip.ldlSw (i : BitVec 12) (r : BitVec 5) : Laws.RoundTrip.Statement (.ldlSw i r) := by
  intro kd st rest h
  refine decodeBytes_of_word (bit0_joinWI _ _) ?_ h
  rw [parse32_CA0B (by cases st <;> first | rfl | exact Bool.noConfusion h) (majorOf_joinWI _ _)]
  simp [parseCA0B]

theorem Laws.RoundTrip.stlB (i : BitVec 12) (r : BitVec 5) : Laws.RoundTrip.Statement (.stlB i r) := by
  intro kd st rest h
  refine decodeBytes_of_word (bit0_joinWI _ _) ?_ h
  rw [parse32_CA0B (by cases st <;> first | rfl | exact Bool.noConfusion h) (majorOf_joinWI _ _)]
  simp [parseCA0B]

theorem Laws.RoundTrip.stlH (i : BitVec 12) (r : BitVec 5) : Laws.RoundTrip.Statement (.stlH i r) := by
  intro kd st rest h
  refine decodeBytes_of_word (bit0_joinWI _ _) ?_ h
  rw [parse32_CA0B (by cases st <;> first | rfl | exact Bool.noConfusion h) (majorOf_joinWI _ _)]
  simp [parseCA0B]

theorem Laws.RoundTrip.stlW (i : BitVec 12) (r : BitVec 5) : Laws.RoundTrip.Statement (.stlW i r) := by
  intro kd st rest h
  refine decodeBytes_of_word (bit0_joinWI _ _) ?_ h
  rw [parse32_CA0B (by cases st <;> first | rfl | exact Bool.noConfusion h) (majorOf_joinWI _ _)]
  simp [parseCA0B]

theorem Laws.RoundTrip.stl (i : BitVec 12) (r : BitVec 5) : Laws.RoundTrip.Statement (.stl i r) := by
  intro kd st rest h
  refine decodeBytes_of_word (bit0_joinWI _ _) ?_ h
  rw [parse32_CA0B (by cases st <;> first | rfl | exact Bool.noConfusion h) (majorOf_joinWI _ _)]
  simp [parseCA0B]

theorem Laws.RoundTrip.fence (u : Bool) (s : BitVec 3) : Laws.RoundTrip.Statement (.fence u s) := by
  intro kd st rest h
  refine decodeBytes_of_word (bit0_joinWI _ _) ?_ h
  rw [parse32_CA0C (by cases st <;> first | rfl | exact Bool.noConfusion h) (majorOf_joinWI _ _)]
  simp (disch := omega) [parseCA0C, sub_append_low, sub_append_high, -Nat.reduceAdd]

theorem Laws.RoundTrip.pbr (o : BitVec 20) (t : BitVec 3) : Laws.RoundTrip.Statement (.pbr o t) := by
  intro kd st rest h
  refine decodeBytes_of_word (bit0_joinWBP _ _) ?_ h
  cases st
  · rw [parse32_CA0D rfl (majorOf_joinWBP _ _)]
    simp [parseCA0D]
  · rw [parse32_CA0D rfl (majorOf_joinWBP _ _)]
    simp [parseCA0D]
  · rw [parse32_V0D (majorOf_joinWBP _ _)]
    simp [parseV0D]

theorem Laws.RoundTrip.pbrx (a : BitVec 5) (g : Guard) (t : BitVec 3) : Laws.RoundTrip.Statement (.pbrx a g t) := by
  intro kd st rest h
  refine decodeBytes_of_word (bit0_joinWBB _ _) ?_ h
  rw [parse32_CA0E (by cases st <;> first | rfl | exact Bool.noConfusion h) (majorOf_joinWBB _ _)]
  simp [parseCA0E]

theorem Laws.RoundTrip.br (g : Guard) (t : BitVec 3) : Laws.RoundTrip.Statement (.br g t) := by
  intro kd st rest h
  refine decodeBytes_of_word (bit0_joinWBB _ _) ?_ h
  cases st
  · rw [parse32_CA0E rfl (majorOf_joinWBB _ _)]
    simp [parseCA0E]
  · rw [parse32_CA0E rfl (majorOf_joinWBB _ _)]
    simp [parseCA0E]
  · rw [parse32_V0E (majorOf_joinWBB _ _)]
    simp [parseV0E]

theorem Laws.RoundTrip.brl (g : Guard) (t : BitVec 3) : Laws.RoundTrip.Statement (.brl g t) := by
  intro kd st rest h
  refine decodeBytes_of_word (bit0_joinWBB _ _) ?_ h
  cases st
  · rw [parse32_CA0E rfl (majorOf_joinWBB _ _)]
    simp [parseCA0E]
  · rw [parse32_CA0E rfl (majorOf_joinWBB _ _)]
    simp [parseCA0E]
  · rw [parse32_V0E (majorOf_joinWBB _ _)]
    simp [parseV0E]

theorem Laws.RoundTrip.sloop (e : BitVec 4) (a : BitVec 5) : Laws.RoundTrip.Statement (.sloop e a) := by
  intro kd st rest h
  refine decodeBytes_of_word (bit0_joinWI _ _) ?_ h
  cases st
  · exact Bool.noConfusion h
  · rw [parse32_A0F (majorOf_joinWI _ _)]
    simp (disch := omega) [parseA0F, sub_append_low, sub_append_high, -Nat.reduceAdd]
  · exact Bool.noConfusion h

theorem Laws.RoundTrip.snext (t : BitVec 3) : Laws.RoundTrip.Statement (.snext t) := by
  intro kd st rest h
  refine decodeBytes_of_word (bit0_joinWI _ _) ?_ h
  cases st
  · exact Bool.noConfusion h
  · rw [parse32_A0F (majorOf_joinWI _ _)]
    simp (disch := omega) [parseA0F, sub_append_low, sub_append_high, -Nat.reduceAdd]
  · rw [parse32_V0F (majorOf_joinWI _ _)]
    simp (disch := omega) [parseV0F, sub_append_low, sub_append_high, -Nat.reduceAdd]

theorem Laws.RoundTrip.div (g : Guard) (b : BitVec 5) (a : BitVec 5) (d : BitVec 5) : Laws.RoundTrip.Statement (.div g b a d) := by
  intro kd st rest h
  refine decodeBytes_of_word (bit0_joinW3 _ _) ?_ h
  cases st
  · rw [parse32_C10 (majorOf_joinW3 _ _)]
    simp [parseC10]
  · exact Bool.noConfusion h
  · exact Bool.noConfusion h

theorem Laws.RoundTrip.divu (g : Guard) (b : BitVec 5) (a : BitVec 5) (d : BitVec 5) : Laws.RoundTrip.Statement (.divu g b a d) := by
  intro kd st rest h
  refine decodeBytes_of_word (bit0_joinW3 _ _) ?_ h
  cases st
  · rw [parse32_C10 (majorOf_joinW3 _ _)]
    simp [parseC10]
  · exact Bool.noConfusion h
  · exact Bool.noConfusion h

theorem Laws.RoundTrip.rem (g : Guard) (b : BitVec 5) (a : BitVec 5) (d : BitVec 5) : Laws.RoundTrip.Statement (.rem g b a d) := by
  intro kd st rest h
  refine decodeBytes_of_word (bit0_joinW3 _ _) ?_ h
  cases st
  · rw [parse32_C10 (majorOf_joinW3 _ _)]
    simp [parseC10]
  · exact Bool.noConfusion h
  · exact Bool.noConfusion h

theorem Laws.RoundTrip.remu (g : Guard) (b : BitVec 5) (a : BitVec 5) (d : BitVec 5) : Laws.RoundTrip.Statement (.remu g b a d) := by
  intro kd st rest h
  refine decodeBytes_of_word (bit0_joinW3 _ _) ?_ h
  cases st
  · rw [parse32_C10 (majorOf_joinW3 _ _)]
    simp [parseC10]
  · exact Bool.noConfusion h
  · exact Bool.noConfusion h

theorem Laws.RoundTrip.mfs (s : BitVec 12) (d : BitVec 5) : Laws.RoundTrip.Statement (.mfs s d) := by
  intro kd st rest h
  refine decodeBytes_of_word (bit0_joinWI _ _) ?_ h
  cases st
  · rw [parse32_C11 (majorOf_joinWI _ _)]
    simp [parseC11]
  · exact Bool.noConfusion h
  · exact Bool.noConfusion h

theorem Laws.RoundTrip.mts (s : BitVec 12) (a : BitVec 5) : Laws.RoundTrip.Statement (.mts s a) := by
  intro kd st rest h
  refine decodeBytes_of_word (bit0_joinWI _ _) ?_ h
  cases st
  · rw [parse32_C11 (majorOf_joinWI _ _)]
    simp [parseC11]
  · exact Bool.noConfusion h
  · exact Bool.noConfusion h

theorem Laws.RoundTrip.barArrive (s : BitVec 3) (i : BitVec 5) : Laws.RoundTrip.Statement (.barArrive s i) := by
  intro kd st rest h
  refine decodeBytes_of_word (bit0_joinWI _ _) ?_ h
  cases st
  · rw [parse32_C12 (majorOf_joinWI _ _)]
    simp (disch := omega) [parseC12, sub_append_low, sub_append_high, -Nat.reduceAdd]
  · exact Bool.noConfusion h
  · exact Bool.noConfusion h

theorem Laws.RoundTrip.barWait (s : BitVec 3) (i : BitVec 5) : Laws.RoundTrip.Statement (.barWait s i) := by
  intro kd st rest h
  refine decodeBytes_of_word (bit0_joinWI _ _) ?_ h
  cases st
  · rw [parse32_C12 (majorOf_joinWI _ _)]
    simp (disch := omega) [parseC12, sub_append_low, sub_append_high, -Nat.reduceAdd]
  · exact Bool.noConfusion h
  · exact Bool.noConfusion h

theorem Laws.RoundTrip.barAw (s : BitVec 3) (i : BitVec 5) : Laws.RoundTrip.Statement (.barAw s i) := by
  intro kd st rest h
  refine decodeBytes_of_word (bit0_joinWI _ _) ?_ h
  cases st
  · rw [parse32_C12 (majorOf_joinWI _ _)]
    simp (disch := omega) [parseC12, sub_append_low, sub_append_high, -Nat.reduceAdd]
  · exact Bool.noConfusion h
  · exact Bool.noConfusion h

theorem Laws.RoundTrip.twait (p : Bool) (a : BitVec 5) : Laws.RoundTrip.Statement (.twait p a) := by
  intro kd st rest h
  refine decodeBytes_of_word (bit0_joinWI _ _) ?_ h
  cases st
  · rw [parse32_C12 (majorOf_joinWI _ _)]
    simp (disch := omega) [parseC12, sub_append_low, sub_append_high, -Nat.reduceAdd]
  · exact Bool.noConfusion h
  · exact Bool.noConfusion h

theorem Laws.RoundTrip.waitm (a : BitVec 5) (d : BitVec 5) : Laws.RoundTrip.Statement (.waitm a d) := by
  intro kd st rest h
  refine decodeBytes_of_word (bit0_joinWI _ _) ?_ h
  cases st
  · rw [parse32_C12 (majorOf_joinWI _ _)]
    simp [parseC12]
  · exact Bool.noConfusion h
  · exact Bool.noConfusion h

theorem Laws.RoundTrip.qwait (s : BitVec 3) : Laws.RoundTrip.Statement (.qwait s) := by
  intro kd st rest h
  refine decodeBytes_of_word (bit0_joinWI _ _) ?_ h
  cases st
  · rw [parse32_C12 (majorOf_joinWI _ _)]
    simp (disch := omega) [parseC12, sub_append_low, sub_append_high, -Nat.reduceAdd]
  · exact Bool.noConfusion h
  · exact Bool.noConfusion h

theorem Laws.RoundTrip.signal (a : BitVec 5) : Laws.RoundTrip.Statement (.signal a) := by
  intro kd st rest h
  refine decodeBytes_of_word (bit0_joinWI _ _) ?_ h
  cases st
  · rw [parse32_C12 (majorOf_joinWI _ _)]
    simp [parseC12]
  · exact Bool.noConfusion h
  · exact Bool.noConfusion h

theorem Laws.RoundTrip.push (g : Guard) (a : BitVec 5) : Laws.RoundTrip.Statement (.push g a) := by
  intro kd st rest h
  refine decodeBytes_of_word (bit0_joinW3 _ _) ?_ h
  cases st
  · rw [parse32_C13 (majorOf_joinW3 _ _)]
    simp [parseC13]
  · exact Bool.noConfusion h
  · exact Bool.noConfusion h

theorem Laws.RoundTrip.pop (g : Guard) (t : BitVec 5) : Laws.RoundTrip.Statement (.pop g t) := by
  intro kd st rest h
  refine decodeBytes_of_word (bit0_joinW3 _ _) ?_ h
  cases st
  · rw [parse32_C13 (majorOf_joinW3 _ _)]
    simp [parseC13]
  · exact Bool.noConfusion h
  · exact Bool.noConfusion h

theorem Laws.RoundTrip.trypopToken (g : Guard) (p : BitVec 5) (t : BitVec 5) : Laws.RoundTrip.Statement (.trypopToken g p t) := by
  intro kd st rest h
  refine decodeBytes_of_word (bit0_joinW3 _ _) ?_ h
  cases st
  · rw [parse32_C13 (majorOf_joinW3 _ _)]
    simp [parseC13]
  · exact Bool.noConfusion h
  · exact Bool.noConfusion h

theorem Laws.RoundTrip.setup (g : Guard) (b : BitVec 5) (a : BitVec 5) : Laws.RoundTrip.Statement (.setup g b a) := by
  intro kd st rest h
  refine decodeBytes_of_word (bit0_joinW3 _ _) ?_ h
  cases st
  · rw [parse32_C13 (majorOf_joinW3 _ _)]
    simp [parseC13]
  · exact Bool.noConfusion h
  · exact Bool.noConfusion h

theorem Laws.RoundTrip.oclaim (i : BitVec 5) (d : BitVec 5) : Laws.RoundTrip.Statement (.oclaim i d) := by
  intro kd st rest h
  refine decodeBytes_of_word (bit0_joinWI _ _) ?_ h
  cases st
  · rw [parse32_C14 (majorOf_joinWI _ _)]
    simp (disch := omega) [parseC14, sub_append_low, sub_append_high, -Nat.reduceAdd]
  · exact Bool.noConfusion h
  · exact Bool.noConfusion h

theorem Laws.RoundTrip.orelease (i : BitVec 5) : Laws.RoundTrip.Statement (.orelease i) := by
  intro kd st rest h
  refine decodeBytes_of_word (bit0_joinWI _ _) ?_ h
  cases st
  · rw [parse32_C14 (majorOf_joinWI _ _)]
    simp (disch := omega) [parseC14, sub_append_low, sub_append_high, -Nat.reduceAdd]
  · exact Bool.noConfusion h
  · exact Bool.noConfusion h

theorem Laws.RoundTrip.send (g : Guard) (b : BitVec 5) (a : BitVec 5) : Laws.RoundTrip.Statement (.send g b a) := by
  intro kd st rest h
  refine decodeBytes_of_word (bit0_joinW3 _ _) ?_ h
  cases st
  · rw [parse32_C15 (majorOf_joinW3 _ _)]
    simp [parseC15]
  · exact Bool.noConfusion h
  · exact Bool.noConfusion h

theorem Laws.RoundTrip.hret (g : Guard) : Laws.RoundTrip.Statement (.hret g) := by
  intro kd st rest h
  refine decodeBytes_of_word (bit0_joinW3 _ _) ?_ h
  cases st
  · rw [parse32_C15 (majorOf_joinW3 _ _)]
    simp [parseC15]
  · exact Bool.noConfusion h
  · exact Bool.noConfusion h

theorem Laws.RoundTrip.trap (c : BitVec 12) : Laws.RoundTrip.Statement (.trap c) := by
  intro kd st rest h
  refine decodeBytes_of_word (bit0_joinWI _ _) ?_ h
  cases st
  · rw [parse32_C16 (majorOf_joinWI _ _)]
    simp [parseC16]
  · exact Bool.noConfusion h
  · exact Bool.noConfusion h

theorem Laws.RoundTrip.rte : Laws.RoundTrip.Statement (.rte) := by
  intro kd st rest h
  refine decodeBytes_of_word (bit0_joinWI _ _) ?_ h
  cases st
  · rw [parse32_C16 (majorOf_joinWI _ _)]
    simp [parseC16]
  · exact Bool.noConfusion h
  · exact Bool.noConfusion h

theorem Laws.RoundTrip.rteSkip : Laws.RoundTrip.Statement (.rteSkip) := by
  intro kd st rest h
  refine decodeBytes_of_word (bit0_joinWI _ _) ?_ h
  cases st
  · rw [parse32_C16 (majorOf_joinWI _ _)]
    simp [parseC16]
  · exact Bool.noConfusion h
  · exact Bool.noConfusion h

theorem Laws.RoundTrip.waypt (i : BitVec 12) : Laws.RoundTrip.Statement (.waypt i) := by
  intro kd st rest h
  refine decodeBytes_of_word (bit0_joinWI _ _) ?_ h
  cases st
  · rw [parse32_C16 (majorOf_joinWI _ _)]
    simp [parseC16]
  · exact Bool.noConfusion h
  · exact Bool.noConfusion h

theorem Laws.RoundTrip.evac (a : BitVec 5) (d : BitVec 5) : Laws.RoundTrip.Statement (.evac a d) := by
  intro kd st rest h
  refine decodeBytes_of_word (bit0_joinWI _ _) ?_ h
  cases st
  · rw [parse32_C16 (majorOf_joinWI _ _)]
    simp [parseC16]
  · exact Bool.noConfusion h
  · exact Bool.noConfusion h

theorem Laws.RoundTrip.retire : Laws.RoundTrip.Statement (.retire) := by
  intro kd st rest h
  refine decodeBytes_of_word (bit0_joinWI _ _) ?_ h
  cases st
  · rw [parse32_C16 (majorOf_joinWI _ _)]
    simp [parseC16]
  · exact Bool.noConfusion h
  · exact Bool.noConfusion h

theorem Laws.RoundTrip.mrepair (a : BitVec 5) (d : BitVec 5) : Laws.RoundTrip.Statement (.mrepair a d) := by
  intro kd st rest h
  refine decodeBytes_of_word (bit0_joinWI _ _) ?_ h
  cases st
  · rw [parse32_C16 (majorOf_joinWI _ _)]
    simp [parseC16]
  · exact Bool.noConfusion h
  · exact Bool.noConfusion h

theorem Laws.RoundTrip.launch (g : Guard) (b : BitVec 5) (a : BitVec 5) (d : BitVec 5) : Laws.RoundTrip.Statement (.launch g b a d) := by
  intro kd st rest h
  refine decodeBytes_of_word (bit0_joinW3 _ _) ?_ h
  cases st
  · rw [parse32_C16 (majorOf_joinW3 _ _)]
    simp [parseC16]
  · exact Bool.noConfusion h
  · exact Bool.noConfusion h

theorem Laws.RoundTrip.ckpt (a : BitVec 5) : Laws.RoundTrip.Statement (.ckpt a) := by
  intro kd st rest h
  refine decodeBytes_of_word (bit0_joinWI _ _) ?_ h
  cases st
  · rw [parse32_C16 (majorOf_joinWI _ _)]
    simp [parseC16]
  · exact Bool.noConfusion h
  · exact Bool.noConfusion h

theorem Laws.RoundTrip.cld (e : EngArgs) : Laws.RoundTrip.Statement (.cld e) := by
  intro kd st rest h
  refine decodeBytes_of_word (bit0_joinWE _ _) ?_ h
  cases st
  · rw [parse32_C17 (majorOf_joinWE _ _)]
    simp [parseC17]
  · exact Bool.noConfusion h
  · exact Bool.noConfusion h

theorem Laws.RoundTrip.cst (e : EngArgs) : Laws.RoundTrip.Statement (.cst e) := by
  intro kd st rest h
  refine decodeBytes_of_word (bit0_joinWE _ _) ?_ h
  cases st
  · rw [parse32_C17 (majorOf_joinWE _ _)]
    simp [parseC17]
  · exact Bool.noConfusion h
  · exact Bool.noConfusion h

theorem Laws.RoundTrip.csta (e : EngArgs) : Laws.RoundTrip.Statement (.csta e) := by
  intro kd st rest h
  refine decodeBytes_of_word (bit0_joinWE _ _) ?_ h
  cases st
  · rw [parse32_C17 (majorOf_joinWE _ _)]
    simp [parseC17]
  · exact Bool.noConfusion h
  · exact Bool.noConfusion h

theorem Laws.RoundTrip.cchn (e : EngArgs) (head last : Bool) : Laws.RoundTrip.Statement (.cchn e head last) := by
  intro kd st rest h
  refine decodeBytes_of_word (bit0_joinWE _ _) ?_ h
  cases st
  · rw [parse32_C17 (majorOf_joinWE _ _)]
    simp (disch := omega) [parseC17, sub_append_low, sub_append_high, -Nat.reduceAdd]
  · exact Bool.noConfusion h
  · exact Bool.noConfusion h

theorem Laws.RoundTrip.cslc (e : EngArgs) : Laws.RoundTrip.Statement (.cslc e) := by
  intro kd st rest h
  refine decodeBytes_of_word (bit0_joinWE _ _) ?_ h
  cases st
  · rw [parse32_C17 (majorOf_joinWE _ _)]
    simp [parseC17]
  · exact Bool.noConfusion h
  · exact Bool.noConfusion h

theorem Laws.RoundTrip.covl (e : EngArgs) : Laws.RoundTrip.Statement (.covl e) := by
  intro kd st rest h
  refine decodeBytes_of_word (bit0_joinWE _ _) ?_ h
  cases st
  · rw [parse32_C17 (majorOf_joinWE _ _)]
    simp [parseC17]
  · exact Bool.noConfusion h
  · exact Bool.noConfusion h

theorem Laws.RoundTrip.cmig (e : EngArgs) (big : Bool) : Laws.RoundTrip.Statement (.cmig e big) := by
  intro kd st rest h
  refine decodeBytes_of_word (bit0_joinWE _ _) ?_ h
  cases st
  · rw [parse32_C17 (majorOf_joinWE _ _)]
    simp (disch := omega) [parseC17, sub_append_low, sub_append_high, -Nat.reduceAdd]
  · exact Bool.noConfusion h
  · exact Bool.noConfusion h

theorem Laws.RoundTrip.cinv (e : EngArgs) (all : Bool) : Laws.RoundTrip.Statement (.cinv e all) := by
  intro kd st rest h
  refine decodeBytes_of_word (bit0_joinWE _ _) ?_ h
  cases st
  · rw [parse32_C17 (majorOf_joinWE _ _)]
    simp (disch := omega) [parseC17, sub_append_low, sub_append_high, -Nat.reduceAdd]
  · exact Bool.noConfusion h
  · exact Bool.noConfusion h

theorem Laws.RoundTrip.mma (e : EngArgs) (tb : Bool) (fmt : BitVec 3) : Laws.RoundTrip.Statement (.mma e tb fmt) := by
  intro kd st rest h
  refine decodeBytes_of_word (bit0_joinWE _ _) ?_ h
  cases st
  · rw [parse32_C18 (majorOf_joinWE _ _)]
    simp (disch := omega) [parseC18, sub_append_low, sub_append_high, -Nat.reduceAdd]
  · exact Bool.noConfusion h
  · exact Bool.noConfusion h

theorem Laws.RoundTrip.mmas (e : EngArgs) (tb : Bool) (fmt : BitVec 3) : Laws.RoundTrip.Statement (.mmas e tb fmt) := by
  intro kd st rest h
  refine decodeBytes_of_word (bit0_joinWE _ _) ?_ h
  cases st
  · rw [parse32_C18 (majorOf_joinWE _ _)]
    simp (disch := omega) [parseC18, sub_append_low, sub_append_high, -Nat.reduceAdd]
  · exact Bool.noConfusion h
  · exact Bool.noConfusion h

theorem Laws.RoundTrip.mrot (e : EngArgs) : Laws.RoundTrip.Statement (.mrot e) := by
  intro kd st rest h
  refine decodeBytes_of_word (bit0_joinWE _ _) ?_ h
  cases st
  · rw [parse32_C18 (majorOf_joinWE _ _)]
    simp [parseC18]
  · exact Bool.noConfusion h
  · exact Bool.noConfusion h

theorem Laws.RoundTrip.mdrn (e : EngArgs) : Laws.RoundTrip.Statement (.mdrn e) := by
  intro kd st rest h
  refine decodeBytes_of_word (bit0_joinWE _ _) ?_ h
  cases st
  · rw [parse32_C18 (majorOf_joinWE _ _)]
    simp [parseC18]
  · exact Bool.noConfusion h
  · exact Bool.noConfusion h

theorem Laws.RoundTrip.mclr (e : EngArgs) : Laws.RoundTrip.Statement (.mclr e) := by
  intro kd st rest h
  refine decodeBytes_of_word (bit0_joinWE _ _) ?_ h
  cases st
  · rw [parse32_C18 (majorOf_joinWE _ _)]
    simp [parseC18]
  · exact Bool.noConfusion h
  · exact Bool.noConfusion h

theorem Laws.RoundTrip.msgn (e : EngArgs) : Laws.RoundTrip.Statement (.msgn e) := by
  intro kd st rest h
  refine decodeBytes_of_word (bit0_joinWE _ _) ?_ h
  cases st
  · rw [parse32_C18 (majorOf_joinWE _ _)]
    simp [parseC18]
  · exact Bool.noConfusion h
  · exact Bool.noConfusion h

theorem Laws.RoundTrip.wmax (e : EngArgs) : Laws.RoundTrip.Statement (.wmax e) := by
  intro kd st rest h
  refine decodeBytes_of_word (bit0_joinWE _ _) ?_ h
  cases st
  · rw [parse32_C19 (majorOf_joinWE _ _)]
    simp [parseC19]
  · exact Bool.noConfusion h
  · exact Bool.noConfusion h

theorem Laws.RoundTrip.wexs (e : EngArgs) : Laws.RoundTrip.Statement (.wexs e) := by
  intro kd st rest h
  refine decodeBytes_of_word (bit0_joinWE _ _) ?_ h
  cases st
  · rw [parse32_C19 (majorOf_joinWE _ _)]
    simp [parseC19]
  · exact Bool.noConfusion h
  · exact Bool.noConfusion h

theorem Laws.RoundTrip.wscl (e : EngArgs) : Laws.RoundTrip.Statement (.wscl e) := by
  intro kd st rest h
  refine decodeBytes_of_word (bit0_joinWE _ _) ?_ h
  cases st
  · rw [parse32_C19 (majorOf_joinWE _ _)]
    simp [parseC19]
  · exact Bool.noConfusion h
  · exact Bool.noConfusion h

theorem Laws.RoundTrip.wmom (e : EngArgs) : Laws.RoundTrip.Statement (.wmom e) := by
  intro kd st rest h
  refine decodeBytes_of_word (bit0_joinWE _ _) ?_ h
  cases st
  · rw [parse32_C19 (majorOf_joinWE _ _)]
    simp [parseC19]
  · exact Bool.noConfusion h
  · exact Bool.noConfusion h

theorem Laws.RoundTrip.wapl (e : EngArgs) : Laws.RoundTrip.Statement (.wapl e) := by
  intro kd st rest h
  refine decodeBytes_of_word (bit0_joinWE _ _) ?_ h
  cases st
  · rw [parse32_C19 (majorOf_joinWE _ _)]
    simp [parseC19]
  · exact Bool.noConfusion h
  · exact Bool.noConfusion h

theorem Laws.RoundTrip.ldv (n : BitVec 6) (r : BitVec 5) (b : BitVec 5) (q : BitVec 5) : Laws.RoundTrip.Statement (.ldv n r b q) := by
  intro kd st rest h
  refine decodeBytes_of_word (bit0_joinWA _ _) ?_ h
  cases st
  · exact Bool.noConfusion h
  · rw [parse32_A10 (majorOf_joinWA _ _)]
    simp [parseA10]
  · exact Bool.noConfusion h

theorem Laws.RoundTrip.stv (n : BitVec 6) (r : BitVec 5) (b : BitVec 5) (q : BitVec 5) : Laws.RoundTrip.Statement (.stv n r b q) := by
  intro kd st rest h
  refine decodeBytes_of_word (bit0_joinWA _ _) ?_ h
  cases st
  · exact Bool.noConfusion h
  · rw [parse32_A11 (majorOf_joinWA _ _)]
    simp [parseA11]
  · exact Bool.noConfusion h

theorem Laws.RoundTrip.ldg (n : BitVec 6) (r : BitVec 5) (b : BitVec 5) (q : BitVec 5) : Laws.RoundTrip.Statement (.ldg n r b q) := by
  intro kd st rest h
  refine decodeBytes_of_word (bit0_joinWA _ _) ?_ h
  cases st
  · exact Bool.noConfusion h
  · rw [parse32_A12 (majorOf_joinWA _ _)]
    simp [parseA12]
  · exact Bool.noConfusion h

theorem Laws.RoundTrip.stsc (n : BitVec 6) (r : BitVec 5) (b : BitVec 5) (q : BitVec 5) : Laws.RoundTrip.Statement (.stsc n r b q) := by
  intro kd st rest h
  refine decodeBytes_of_word (bit0_joinWA _ _) ?_ h
  cases st
  · exact Bool.noConfusion h
  · rw [parse32_A13 (majorOf_joinWA _ _)]
    simp [parseA13]
  · exact Bool.noConfusion h

theorem Laws.RoundTrip.amovAdd (n : BitVec 6) (r : BitVec 5) (b : BitVec 5) (q : BitVec 5) : Laws.RoundTrip.Statement (.amovAdd n r b q) := by
  intro kd st rest h
  refine decodeBytes_of_word (bit0_joinWA _ _) ?_ h
  cases st
  · exact Bool.noConfusion h
  · rw [parse32_A14 (majorOf_joinWA _ _)]
    simp [parseA14]
  · exact Bool.noConfusion h

theorem Laws.RoundTrip.amovMax (n : BitVec 6) (r : BitVec 5) (b : BitVec 5) (q : BitVec 5) : Laws.RoundTrip.Statement (.amovMax n r b q) := by
  intro kd st rest h
  refine decodeBytes_of_word (bit0_joinWA _ _) ?_ h
  cases st
  · exact Bool.noConfusion h
  · rw [parse32_A14 (majorOf_joinWA _ _)]
    simp [parseA14]
  · exact Bool.noConfusion h

theorem Laws.RoundTrip.pref (i : BitVec 12) (a : BitVec 5) : Laws.RoundTrip.Statement (.pref i a) := by
  intro kd st rest h
  refine decodeBytes_of_word (bit0_joinWI _ _) ?_ h
  cases st
  · exact Bool.noConfusion h
  · rw [parse32_A15 (majorOf_joinWI _ _)]
    simp [parseA15]
  · exact Bool.noConfusion h

theorem Laws.RoundTrip.tlbp (a : BitVec 5) (d : BitVec 5) : Laws.RoundTrip.Statement (.tlbp a d) := by
  intro kd st rest h
  refine decodeBytes_of_word (bit0_joinWI _ _) ?_ h
  cases st
  · exact Bool.noConfusion h
  · rw [parse32_A15 (majorOf_joinWI _ _)]
    simp [parseA15]
  · exact Bool.noConfusion h

theorem Laws.RoundTrip.vadd (g : Guard) (b : BitVec 5) (a : BitVec 5) (d : BitVec 5) : Laws.RoundTrip.Statement (.vadd g b a d) := by
  intro kd st rest h
  refine decodeBytes_of_word (bit0_joinW3 _ _) ?_ h
  cases st
  · exact Bool.noConfusion h
  · exact Bool.noConfusion h
  · rw [parse32_V00 (majorOf_joinW3 _ _)]
    simp [parseV00]

theorem Laws.RoundTrip.vsub (g : Guard) (b : BitVec 5) (a : BitVec 5) (d : BitVec 5) : Laws.RoundTrip.Statement (.vsub g b a d) := by
  intro kd st rest h
  refine decodeBytes_of_word (bit0_joinW3 _ _) ?_ h
  cases st
  · exact Bool.noConfusion h
  · exact Bool.noConfusion h
  · rw [parse32_V00 (majorOf_joinW3 _ _)]
    simp [parseV00]

theorem Laws.RoundTrip.vmul (g : Guard) (b : BitVec 5) (a : BitVec 5) (d : BitVec 5) : Laws.RoundTrip.Statement (.vmul g b a d) := by
  intro kd st rest h
  refine decodeBytes_of_word (bit0_joinW3 _ _) ?_ h
  cases st
  · exact Bool.noConfusion h
  · exact Bool.noConfusion h
  · rw [parse32_V00 (majorOf_joinW3 _ _)]
    simp [parseV00]

theorem Laws.RoundTrip.vmin (g : Guard) (b : BitVec 5) (a : BitVec 5) (d : BitVec 5) : Laws.RoundTrip.Statement (.vmin g b a d) := by
  intro kd st rest h
  refine decodeBytes_of_word (bit0_joinW3 _ _) ?_ h
  cases st
  · exact Bool.noConfusion h
  · exact Bool.noConfusion h
  · rw [parse32_V00 (majorOf_joinW3 _ _)]
    simp [parseV00]

theorem Laws.RoundTrip.vmax (g : Guard) (b : BitVec 5) (a : BitVec 5) (d : BitVec 5) : Laws.RoundTrip.Statement (.vmax g b a d) := by
  intro kd st rest h
  refine decodeBytes_of_word (bit0_joinW3 _ _) ?_ h
  cases st
  · exact Bool.noConfusion h
  · exact Bool.noConfusion h
  · rw [parse32_V00 (majorOf_joinW3 _ _)]
    simp [parseV00]

theorem Laws.RoundTrip.vabs (g : Guard) (a : BitVec 5) (d : BitVec 5) : Laws.RoundTrip.Statement (.vabs g a d) := by
  intro kd st rest h
  refine decodeBytes_of_word (bit0_joinW3 _ _) ?_ h
  cases st
  · exact Bool.noConfusion h
  · exact Bool.noConfusion h
  · rw [parse32_V00 (majorOf_joinW3 _ _)]
    simp [parseV00]

theorem Laws.RoundTrip.vneg (g : Guard) (a : BitVec 5) (d : BitVec 5) : Laws.RoundTrip.Statement (.vneg g a d) := by
  intro kd st rest h
  refine decodeBytes_of_word (bit0_joinW3 _ _) ?_ h
  cases st
  · exact Bool.noConfusion h
  · exact Bool.noConfusion h
  · rw [parse32_V00 (majorOf_joinW3 _ _)]
    simp [parseV00]

theorem Laws.RoundTrip.vmov (g : Guard) (a : BitVec 5) (d : BitVec 5) : Laws.RoundTrip.Statement (.vmov g a d) := by
  intro kd st rest h
  refine decodeBytes_of_word (bit0_joinW3 _ _) ?_ h
  cases st
  · exact Bool.noConfusion h
  · exact Bool.noConfusion h
  · rw [parse32_V00 (majorOf_joinW3 _ _)]
    simp [parseV00]

theorem Laws.RoundTrip.vfma (g : BitVec 4) (c : BitVec 5) (b : BitVec 5) (a : BitVec 5) (d : BitVec 5) : Laws.RoundTrip.Statement (.vfma g c b a d) := by
  intro kd st rest h
  refine decodeBytes_of_word (bit0_joinWV4 _ _) ?_ h
  cases st
  · exact Bool.noConfusion h
  · exact Bool.noConfusion h
  · rw [parse32_V01 (majorOf_joinWV4 _ _)]
    simp [parseV01]

theorem Laws.RoundTrip.vfms (g : BitVec 4) (c : BitVec 5) (b : BitVec 5) (a : BitVec 5) (d : BitVec 5) : Laws.RoundTrip.Statement (.vfms g c b a d) := by
  intro kd st rest h
  refine decodeBytes_of_word (bit0_joinWV4 _ _) ?_ h
  cases st
  · exact Bool.noConfusion h
  · exact Bool.noConfusion h
  · rw [parse32_V01 (majorOf_joinWV4 _ _)]
    simp [parseV01]

theorem Laws.RoundTrip.vfnma (g : BitVec 4) (c : BitVec 5) (b : BitVec 5) (a : BitVec 5) (d : BitVec 5) : Laws.RoundTrip.Statement (.vfnma g c b a d) := by
  intro kd st rest h
  refine decodeBytes_of_word (bit0_joinWV4 _ _) ?_ h
  cases st
  · exact Bool.noConfusion h
  · exact Bool.noConfusion h
  · rw [parse32_V01 (majorOf_joinWV4 _ _)]
    simp [parseV01]

theorem Laws.RoundTrip.vfnms (g : BitVec 4) (c : BitVec 5) (b : BitVec 5) (a : BitVec 5) (d : BitVec 5) : Laws.RoundTrip.Statement (.vfnms g c b a d) := by
  intro kd st rest h
  refine decodeBytes_of_word (bit0_joinWV4 _ _) ?_ h
  cases st
  · exact Bool.noConfusion h
  · exact Bool.noConfusion h
  · rw [parse32_V01 (majorOf_joinWV4 _ _)]
    simp [parseV01]

theorem Laws.RoundTrip.vrcp (g : Guard) (a : BitVec 5) (d : BitVec 5) : Laws.RoundTrip.Statement (.vrcp g a d) := by
  intro kd st rest h
  refine decodeBytes_of_word (bit0_joinW3 _ _) ?_ h
  cases st
  · exact Bool.noConfusion h
  · exact Bool.noConfusion h
  · rw [parse32_V02 (majorOf_joinW3 _ _)]
    simp [parseV02]

theorem Laws.RoundTrip.vrsq (g : Guard) (a : BitVec 5) (d : BitVec 5) : Laws.RoundTrip.Statement (.vrsq g a d) := by
  intro kd st rest h
  refine decodeBytes_of_word (bit0_joinW3 _ _) ?_ h
  cases st
  · exact Bool.noConfusion h
  · exact Bool.noConfusion h
  · rw [parse32_V02 (majorOf_joinW3 _ _)]
    simp [parseV02]

theorem Laws.RoundTrip.vsqrt (g : Guard) (a : BitVec 5) (d : BitVec 5) : Laws.RoundTrip.Statement (.vsqrt g a d) := by
  intro kd st rest h
  refine decodeBytes_of_word (bit0_joinW3 _ _) ?_ h
  cases st
  · exact Bool.noConfusion h
  · exact Bool.noConfusion h
  · rw [parse32_V02 (majorOf_joinW3 _ _)]
    simp [parseV02]

theorem Laws.RoundTrip.vexp2 (g : Guard) (a : BitVec 5) (d : BitVec 5) : Laws.RoundTrip.Statement (.vexp2 g a d) := by
  intro kd st rest h
  refine decodeBytes_of_word (bit0_joinW3 _ _) ?_ h
  cases st
  · exact Bool.noConfusion h
  · exact Bool.noConfusion h
  · rw [parse32_V02 (majorOf_joinW3 _ _)]
    simp [parseV02]

theorem Laws.RoundTrip.vlog2 (g : Guard) (a : BitVec 5) (d : BitVec 5) : Laws.RoundTrip.Statement (.vlog2 g a d) := by
  intro kd st rest h
  refine decodeBytes_of_word (bit0_joinW3 _ _) ?_ h
  cases st
  · exact Bool.noConfusion h
  · exact Bool.noConfusion h
  · rw [parse32_V02 (majorOf_joinW3 _ _)]
    simp [parseV02]

theorem Laws.RoundTrip.vsin (g : Guard) (a : BitVec 5) (d : BitVec 5) : Laws.RoundTrip.Statement (.vsin g a d) := by
  intro kd st rest h
  refine decodeBytes_of_word (bit0_joinW3 _ _) ?_ h
  cases st
  · exact Bool.noConfusion h
  · exact Bool.noConfusion h
  · rw [parse32_V02 (majorOf_joinW3 _ _)]
    simp [parseV02]

theorem Laws.RoundTrip.vcos (g : Guard) (a : BitVec 5) (d : BitVec 5) : Laws.RoundTrip.Statement (.vcos g a d) := by
  intro kd st rest h
  refine decodeBytes_of_word (bit0_joinW3 _ _) ?_ h
  cases st
  · exact Bool.noConfusion h
  · exact Bool.noConfusion h
  · rw [parse32_V02 (majorOf_joinW3 _ _)]
    simp [parseV02]

theorem Laws.RoundTrip.vtanh (g : Guard) (a : BitVec 5) (d : BitVec 5) : Laws.RoundTrip.Statement (.vtanh g a d) := by
  intro kd st rest h
  refine decodeBytes_of_word (bit0_joinW3 _ _) ?_ h
  cases st
  · exact Bool.noConfusion h
  · exact Bool.noConfusion h
  · rw [parse32_V02 (majorOf_joinW3 _ _)]
    simp [parseV02]

theorem Laws.RoundTrip.viadd (g : Guard) (b : BitVec 5) (a : BitVec 5) (d : BitVec 5) : Laws.RoundTrip.Statement (.viadd g b a d) := by
  intro kd st rest h
  refine decodeBytes_of_word (bit0_joinW3 _ _) ?_ h
  cases st
  · exact Bool.noConfusion h
  · exact Bool.noConfusion h
  · rw [parse32_V03 (majorOf_joinW3 _ _)]
    simp [parseV03]

theorem Laws.RoundTrip.visub (g : Guard) (b : BitVec 5) (a : BitVec 5) (d : BitVec 5) : Laws.RoundTrip.Statement (.visub g b a d) := by
  intro kd st rest h
  refine decodeBytes_of_word (bit0_joinW3 _ _) ?_ h
  cases st
  · exact Bool.noConfusion h
  · exact Bool.noConfusion h
  · rw [parse32_V03 (majorOf_joinW3 _ _)]
    simp [parseV03]

theorem Laws.RoundTrip.vimul (g : Guard) (b : BitVec 5) (a : BitVec 5) (d : BitVec 5) : Laws.RoundTrip.Statement (.vimul g b a d) := by
  intro kd st rest h
  refine decodeBytes_of_word (bit0_joinW3 _ _) ?_ h
  cases st
  · exact Bool.noConfusion h
  · exact Bool.noConfusion h
  · rw [parse32_V03 (majorOf_joinW3 _ _)]
    simp [parseV03]

theorem Laws.RoundTrip.vand (g : Guard) (b : BitVec 5) (a : BitVec 5) (d : BitVec 5) : Laws.RoundTrip.Statement (.vand g b a d) := by
  intro kd st rest h
  refine decodeBytes_of_word (bit0_joinW3 _ _) ?_ h
  cases st
  · exact Bool.noConfusion h
  · exact Bool.noConfusion h
  · rw [parse32_V03 (majorOf_joinW3 _ _)]
    simp [parseV03]

theorem Laws.RoundTrip.vor (g : Guard) (b : BitVec 5) (a : BitVec 5) (d : BitVec 5) : Laws.RoundTrip.Statement (.vor g b a d) := by
  intro kd st rest h
  refine decodeBytes_of_word (bit0_joinW3 _ _) ?_ h
  cases st
  · exact Bool.noConfusion h
  · exact Bool.noConfusion h
  · rw [parse32_V03 (majorOf_joinW3 _ _)]
    simp [parseV03]

theorem Laws.RoundTrip.vxor (g : Guard) (b : BitVec 5) (a : BitVec 5) (d : BitVec 5) : Laws.RoundTrip.Statement (.vxor g b a d) := by
  intro kd st rest h
  refine decodeBytes_of_word (bit0_joinW3 _ _) ?_ h
  cases st
  · exact Bool.noConfusion h
  · exact Bool.noConfusion h
  · rw [parse32_V03 (majorOf_joinW3 _ _)]
    simp [parseV03]

theorem Laws.RoundTrip.vshl (g : Guard) (b : BitVec 5) (a : BitVec 5) (d : BitVec 5) : Laws.RoundTrip.Statement (.vshl g b a d) := by
  intro kd st rest h
  refine decodeBytes_of_word (bit0_joinW3 _ _) ?_ h
  cases st
  · exact Bool.noConfusion h
  · exact Bool.noConfusion h
  · rw [parse32_V03 (majorOf_joinW3 _ _)]
    simp [parseV03]

theorem Laws.RoundTrip.vshr (g : Guard) (b : BitVec 5) (a : BitVec 5) (d : BitVec 5) : Laws.RoundTrip.Statement (.vshr g b a d) := by
  intro kd st rest h
  refine decodeBytes_of_word (bit0_joinW3 _ _) ?_ h
  cases st
  · exact Bool.noConfusion h
  · exact Bool.noConfusion h
  · rw [parse32_V03 (majorOf_joinW3 _ _)]
    simp [parseV03]

theorem Laws.RoundTrip.vsar (g : Guard) (b : BitVec 5) (a : BitVec 5) (d : BitVec 5) : Laws.RoundTrip.Statement (.vsar g b a d) := by
  intro kd st rest h
  refine decodeBytes_of_word (bit0_joinW3 _ _) ?_ h
  cases st
  · exact Bool.noConfusion h
  · exact Bool.noConfusion h
  · rw [parse32_V03 (majorOf_joinW3 _ _)]
    simp [parseV03]

theorem Laws.RoundTrip.vimin (g : Guard) (b : BitVec 5) (a : BitVec 5) (d : BitVec 5) : Laws.RoundTrip.Statement (.vimin g b a d) := by
  intro kd st rest h
  refine decodeBytes_of_word (bit0_joinW3 _ _) ?_ h
  cases st
  · exact Bool.noConfusion h
  · exact Bool.noConfusion h
  · rw [parse32_V03 (majorOf_joinW3 _ _)]
    simp [parseV03]

theorem Laws.RoundTrip.vimax (g : Guard) (b : BitVec 5) (a : BitVec 5) (d : BitVec 5) : Laws.RoundTrip.Statement (.vimax g b a d) := by
  intro kd st rest h
  refine decodeBytes_of_word (bit0_joinW3 _ _) ?_ h
  cases st
  · exact Bool.noConfusion h
  · exact Bool.noConfusion h
  · rw [parse32_V03 (majorOf_joinW3 _ _)]
    simp [parseV03]

theorem Laws.RoundTrip.vcmpEq (n : Bool) (b : BitVec 5) (a : BitVec 5) (p : BitVec 6) : Laws.RoundTrip.Statement (.vcmpEq n b a p) := by
  intro kd st rest h
  refine decodeBytes_of_word (bit0_joinWP _ _) ?_ h
  cases st
  · exact Bool.noConfusion h
  · exact Bool.noConfusion h
  · rw [parse32_V04 (majorOf_joinWP _ _)]
    simp [parseV04]

theorem Laws.RoundTrip.vcmpNe (n : Bool) (b : BitVec 5) (a : BitVec 5) (p : BitVec 6) : Laws.RoundTrip.Statement (.vcmpNe n b a p) := by
  intro kd st rest h
  refine decodeBytes_of_word (bit0_joinWP _ _) ?_ h
  cases st
  · exact Bool.noConfusion h
  · exact Bool.noConfusion h
  · rw [parse32_V04 (majorOf_joinWP _ _)]
    simp [parseV04]

theorem Laws.RoundTrip.vcmpLt (n : Bool) (b : BitVec 5) (a : BitVec 5) (p : BitVec 6) : Laws.RoundTrip.Statement (.vcmpLt n b a p) := by
  intro kd st rest h
  refine decodeBytes_of_word (bit0_joinWP _ _) ?_ h
  cases st
  · exact Bool.noConfusion h
  · exact Bool.noConfusion h
  · rw [parse32_V04 (majorOf_joinWP _ _)]
    simp [parseV04]

theorem Laws.RoundTrip.vcmpLe (n : Bool) (b : BitVec 5) (a : BitVec 5) (p : BitVec 6) : Laws.RoundTrip.Statement (.vcmpLe n b a p) := by
  intro kd st rest h
  refine decodeBytes_of_word (bit0_joinWP _ _) ?_ h
  cases st
  · exact Bool.noConfusion h
  · exact Bool.noConfusion h
  · rw [parse32_V04 (majorOf_joinWP _ _)]
    simp [parseV04]

theorem Laws.RoundTrip.vcmpGt (n : Bool) (b : BitVec 5) (a : BitVec 5) (p : BitVec 6) : Laws.RoundTrip.Statement (.vcmpGt n b a p) := by
  intro kd st rest h
  refine decodeBytes_of_word (bit0_joinWP _ _) ?_ h
  cases st
  · exact Bool.noConfusion h
  · exact Bool.noConfusion h
  · rw [parse32_V04 (majorOf_joinWP _ _)]
    simp [parseV04]

theorem Laws.RoundTrip.vcmpGe (n : Bool) (b : BitVec 5) (a : BitVec 5) (p : BitVec 6) : Laws.RoundTrip.Statement (.vcmpGe n b a p) := by
  intro kd st rest h
  refine decodeBytes_of_word (bit0_joinWP _ _) ?_ h
  cases st
  · exact Bool.noConfusion h
  · exact Bool.noConfusion h
  · rw [parse32_V04 (majorOf_joinWP _ _)]
    simp [parseV04]

theorem Laws.RoundTrip.vcmpOrd (n : Bool) (b : BitVec 5) (a : BitVec 5) (p : BitVec 6) : Laws.RoundTrip.Statement (.vcmpOrd n b a p) := by
  intro kd st rest h
  refine decodeBytes_of_word (bit0_joinWP _ _) ?_ h
  cases st
  · exact Bool.noConfusion h
  · exact Bool.noConfusion h
  · rw [parse32_V04 (majorOf_joinWP _ _)]
    simp [parseV04]

theorem Laws.RoundTrip.vcmpUno (n : Bool) (b : BitVec 5) (a : BitVec 5) (p : BitVec 6) : Laws.RoundTrip.Statement (.vcmpUno n b a p) := by
  intro kd st rest h
  refine decodeBytes_of_word (bit0_joinWP _ _) ?_ h
  cases st
  · exact Bool.noConfusion h
  · exact Bool.noConfusion h
  · rw [parse32_V04 (majorOf_joinWP _ _)]
    simp [parseV04]

theorem Laws.RoundTrip.vcmpIeq (n : Bool) (b : BitVec 5) (a : BitVec 5) (p : BitVec 6) : Laws.RoundTrip.Statement (.vcmpIeq n b a p) := by
  intro kd st rest h
  refine decodeBytes_of_word (bit0_joinWP _ _) ?_ h
  cases st
  · exact Bool.noConfusion h
  · exact Bool.noConfusion h
  · rw [parse32_V04 (majorOf_joinWP _ _)]
    simp [parseV04]

theorem Laws.RoundTrip.vcmpIlt (n : Bool) (b : BitVec 5) (a : BitVec 5) (p : BitVec 6) : Laws.RoundTrip.Statement (.vcmpIlt n b a p) := by
  intro kd st rest h
  refine decodeBytes_of_word (bit0_joinWP _ _) ?_ h
  cases st
  · exact Bool.noConfusion h
  · exact Bool.noConfusion h
  · rw [parse32_V04 (majorOf_joinWP _ _)]
    simp [parseV04]

theorem Laws.RoundTrip.vcmpIltu (n : Bool) (b : BitVec 5) (a : BitVec 5) (p : BitVec 6) : Laws.RoundTrip.Statement (.vcmpIltu n b a p) := by
  intro kd st rest h
  refine decodeBytes_of_word (bit0_joinWP _ _) ?_ h
  cases st
  · exact Bool.noConfusion h
  · exact Bool.noConfusion h
  · rw [parse32_V04 (majorOf_joinWP _ _)]
    simp [parseV04]

theorem Laws.RoundTrip.vsel (k : Guard) (b : BitVec 5) (a : BitVec 5) (d : BitVec 5) : Laws.RoundTrip.Statement (.vsel k b a d) := by
  intro kd st rest h
  refine decodeBytes_of_word (bit0_joinW3 _ _) ?_ h
  cases st
  · exact Bool.noConfusion h
  · exact Bool.noConfusion h
  · rw [parse32_V05 (majorOf_joinW3 _ _)]
    simp [parseV05]

theorem Laws.RoundTrip.vcvtI32 (g : Guard) (a : BitVec 5) (d : BitVec 5) : Laws.RoundTrip.Statement (.vcvtI32 g a d) := by
  intro kd st rest h
  refine decodeBytes_of_word (bit0_joinW3 _ _) ?_ h
  cases st
  · exact Bool.noConfusion h
  · exact Bool.noConfusion h
  · rw [parse32_V07 (majorOf_joinW3 _ _)]
    simp [parseV07]

theorem Laws.RoundTrip.vcvtF32 (g : Guard) (a : BitVec 5) (d : BitVec 5) : Laws.RoundTrip.Statement (.vcvtF32 g a d) := by
  intro kd st rest h
  refine decodeBytes_of_word (bit0_joinW3 _ _) ?_ h
  cases st
  · exact Bool.noConfusion h
  · exact Bool.noConfusion h
  · rw [parse32_V07 (majorOf_joinW3 _ _)]
    simp [parseV07]

theorem Laws.RoundTrip.vrndBf16 (g : Guard) (a : BitVec 5) (d : BitVec 5) : Laws.RoundTrip.Statement (.vrndBf16 g a d) := by
  intro kd st rest h
  refine decodeBytes_of_word (bit0_joinW3 _ _) ?_ h
  cases st
  · exact Bool.noConfusion h
  · exact Bool.noConfusion h
  · rw [parse32_V07 (majorOf_joinW3 _ _)]
    simp [parseV07]

theorem Laws.RoundTrip.vrndT8 (g : Guard) (a : BitVec 5) (d : BitVec 5) : Laws.RoundTrip.Statement (.vrndT8 g a d) := by
  intro kd st rest h
  refine decodeBytes_of_word (bit0_joinW3 _ _) ?_ h
  cases st
  · exact Bool.noConfusion h
  · exact Bool.noConfusion h
  · rw [parse32_V07 (majorOf_joinW3 _ _)]
    simp [parseV07]

theorem Laws.RoundTrip.vrndT6 (g : Guard) (a : BitVec 5) (d : BitVec 5) : Laws.RoundTrip.Statement (.vrndT6 g a d) := by
  intro kd st rest h
  refine decodeBytes_of_word (bit0_joinW3 _ _) ?_ h
  cases st
  · exact Bool.noConfusion h
  · exact Bool.noConfusion h
  · rw [parse32_V07 (majorOf_joinW3 _ _)]
    simp [parseV07]

theorem Laws.RoundTrip.vrotr (k : BitVec 4) (a : BitVec 5) (d : BitVec 5) : Laws.RoundTrip.Statement (.vrotr k a d) := by
  intro kd st rest h
  refine decodeBytes_of_word (bit0_joinWI _ _) ?_ h
  cases st
  · exact Bool.noConfusion h
  · exact Bool.noConfusion h
  · rw [parse32_V08 (majorOf_joinWI _ _)]
    simp (disch := omega) [parseV08, sub_append_low, sub_append_high, -Nat.reduceAdd]

theorem Laws.RoundTrip.vrotc (k : BitVec 6) (a : BitVec 5) (d : BitVec 5) : Laws.RoundTrip.Statement (.vrotc k a d) := by
  intro kd st rest h
  refine decodeBytes_of_word (bit0_joinWI _ _) ?_ h
  cases st
  · exact Bool.noConfusion h
  · exact Bool.noConfusion h
  · rw [parse32_V08 (majorOf_joinWI _ _)]
    simp (disch := omega) [parseV08, sub_append_low, sub_append_high, -Nat.reduceAdd]

theorem Laws.RoundTrip.vbcr (k : BitVec 4) (a : BitVec 5) (d : BitVec 5) : Laws.RoundTrip.Statement (.vbcr k a d) := by
  intro kd st rest h
  refine decodeBytes_of_word (bit0_joinWI _ _) ?_ h
  cases st
  · exact Bool.noConfusion h
  · exact Bool.noConfusion h
  · rw [parse32_V08 (majorOf_joinWI _ _)]
    simp (disch := omega) [parseV08, sub_append_low, sub_append_high, -Nat.reduceAdd]

theorem Laws.RoundTrip.vbcc (k : BitVec 6) (a : BitVec 5) (d : BitVec 5) : Laws.RoundTrip.Statement (.vbcc k a d) := by
  intro kd st rest h
  refine decodeBytes_of_word (bit0_joinWI _ _) ?_ h
  cases st
  · exact Bool.noConfusion h
  · exact Bool.noConfusion h
  · rw [parse32_V08 (majorOf_joinWI _ _)]
    simp (disch := omega) [parseV08, sub_append_low, sub_append_high, -Nat.reduceAdd]

theorem Laws.RoundTrip.vtrn16 (a : BitVec 5) (d : BitVec 5) : Laws.RoundTrip.Statement (.vtrn16 a d) := by
  intro kd st rest h
  refine decodeBytes_of_word (bit0_joinWI _ _) ?_ h
  cases st
  · exact Bool.noConfusion h
  · exact Bool.noConfusion h
  · rw [parse32_V08 (majorOf_joinWI _ _)]
    simp [parseV08]

theorem Laws.RoundTrip.vredrSum (a : BitVec 5) (d : BitVec 5) : Laws.RoundTrip.Statement (.vredrSum a d) := by
  intro kd st rest h
  refine decodeBytes_of_word (bit0_joinWI _ _) ?_ h
  cases st
  · exact Bool.noConfusion h
  · exact Bool.noConfusion h
  · rw [parse32_V09 (majorOf_joinWI _ _)]
    simp [parseV09]

theorem Laws.RoundTrip.vredrMax (a : BitVec 5) (d : BitVec 5) : Laws.RoundTrip.Statement (.vredrMax a d) := by
  intro kd st rest h
  refine decodeBytes_of_word (bit0_joinWI _ _) ?_ h
  cases st
  · exact Bool.noConfusion h
  · exact Bool.noConfusion h
  · rw [parse32_V09 (majorOf_joinWI _ _)]
    simp [parseV09]

theorem Laws.RoundTrip.vredrMin (a : BitVec 5) (d : BitVec 5) : Laws.RoundTrip.Statement (.vredrMin a d) := by
  intro kd st rest h
  refine decodeBytes_of_word (bit0_joinWI _ _) ?_ h
  cases st
  · exact Bool.noConfusion h
  · exact Bool.noConfusion h
  · rw [parse32_V09 (majorOf_joinWI _ _)]
    simp [parseV09]

theorem Laws.RoundTrip.vredcSum (a : BitVec 5) (d : BitVec 5) : Laws.RoundTrip.Statement (.vredcSum a d) := by
  intro kd st rest h
  refine decodeBytes_of_word (bit0_joinWI _ _) ?_ h
  cases st
  · exact Bool.noConfusion h
  · exact Bool.noConfusion h
  · rw [parse32_V09 (majorOf_joinWI _ _)]
    simp [parseV09]

theorem Laws.RoundTrip.vredcMax (a : BitVec 5) (d : BitVec 5) : Laws.RoundTrip.Statement (.vredcMax a d) := by
  intro kd st rest h
  refine decodeBytes_of_word (bit0_joinWI _ _) ?_ h
  cases st
  · exact Bool.noConfusion h
  · exact Bool.noConfusion h
  · rw [parse32_V09 (majorOf_joinWI _ _)]
    simp [parseV09]

theorem Laws.RoundTrip.vredcMin (a : BitVec 5) (d : BitVec 5) : Laws.RoundTrip.Statement (.vredcMin a d) := by
  intro kd st rest h
  refine decodeBytes_of_word (bit0_joinWI _ _) ?_ h
  cases st
  · exact Bool.noConfusion h
  · exact Bool.noConfusion h
  · rw [parse32_V09 (majorOf_joinWI _ _)]
    simp [parseV09]

theorem Laws.RoundTrip.vli (i : BitVec 20) (d : BitVec 5) : Laws.RoundTrip.Statement (.vli i d) := by
  intro kd st rest h
  refine decodeBytes_of_word (bit0_joinWU _ _) ?_ h
  cases st
  · exact Bool.noConfusion h
  · exact Bool.noConfusion h
  · rw [parse32_V0A (majorOf_joinWU _ _)]
    simp [parseV0A]

theorem Laws.RoundTrip.vpop (c : BitVec 4) (r : BitVec 4) (q : BitVec 4) (d : BitVec 5) : Laws.RoundTrip.Statement (.vpop c r q d) := by
  intro kd st rest h
  refine decodeBytes_of_word (bit0_joinWI _ _) ?_ h
  cases st
  · exact Bool.noConfusion h
  · exact Bool.noConfusion h
  · rw [parse32_V0B (majorOf_joinWI _ _)]
    simp (disch := omega) [parseV0B, sub_append_low, sub_append_high, -Nat.reduceAdd]

theorem Laws.RoundTrip.vpush (c : BitVec 4) (r : BitVec 4) (q : BitVec 4) (a : BitVec 5) : Laws.RoundTrip.Statement (.vpush c r q a) := by
  intro kd st rest h
  refine decodeBytes_of_word (bit0_joinWI _ _) ?_ h
  cases st
  · exact Bool.noConfusion h
  · exact Bool.noConfusion h
  · rw [parse32_V0B (majorOf_joinWI _ _)]
    simp (disch := omega) [parseV0B, sub_append_low, sub_append_high, -Nat.reduceAdd]

theorem Laws.RoundTrip.vtos (j : BitVec 5) (r : BitVec 4) (a : BitVec 5) : Laws.RoundTrip.Statement (.vtos j r a) := by
  intro kd st rest h
  refine decodeBytes_of_word (bit0_joinWI _ _) ?_ h
  cases st
  · exact Bool.noConfusion h
  · exact Bool.noConfusion h
  · rw [parse32_V0B (majorOf_joinWI _ _)]
    simp (disch := omega) [parseV0B, sub_append_low, sub_append_high, -Nat.reduceAdd]

theorem Laws.RoundTrip.vfrs (h : Bool) (d : BitVec 5) : Laws.RoundTrip.Statement (.vfrs h d) := by
  intro kd st rest h
  refine decodeBytes_of_word (bit0_joinWI _ _) ?_ h
  cases st
  · exact Bool.noConfusion h
  · exact Bool.noConfusion h
  · rw [parse32_V0B (majorOf_joinWI _ _)]
    simp (disch := omega) [parseV0B, sub_append_low, sub_append_high, -Nat.reduceAdd]

theorem Laws.RoundTrip.vldl (o : BitVec 12) (d : BitVec 5) : Laws.RoundTrip.Statement (.vldl o d) := by
  intro kd st rest h
  refine decodeBytes_of_word (bit0_joinWI _ _) ?_ h
  cases st
  · exact Bool.noConfusion h
  · exact Bool.noConfusion h
  · rw [parse32_V0C (majorOf_joinWI _ _)]
    simp [parseV0C]

theorem Laws.RoundTrip.vstl (o : BitVec 12) (a : BitVec 5) : Laws.RoundTrip.Statement (.vstl o a) := by
  intro kd st rest h
  refine decodeBytes_of_word (bit0_joinWI _ _) ?_ h
  cases st
  · exact Bool.noConfusion h
  · exact Bool.noConfusion h
  · rw [parse32_V0C (majorOf_joinWI _ _)]
    simp [parseV0C]

theorem Laws.RoundTrip.vSloop (e : BitVec 4) : Laws.RoundTrip.Statement (.vSloop e) := by
  intro kd st rest h
  refine decodeBytes_of_word (bit0_joinWI _ _) ?_ h
  cases st
  · exact Bool.noConfusion h
  · exact Bool.noConfusion h
  · rw [parse32_V0F (majorOf_joinWI _ _)]
    simp (disch := omega) [parseV0F, sub_append_low, sub_append_high, -Nat.reduceAdd]

theorem Laws.RoundTrip.dadd (b : BitVec 5) (a : BitVec 5) (d : BitVec 5) : Laws.RoundTrip.Statement (.dadd b a d) := by
  intro kd st rest h
  refine decodeBytes_of_word (bit0_joinW3 _ _) ?_ h
  cases st
  · exact Bool.noConfusion h
  · exact Bool.noConfusion h
  · rw [parse32_V10 (majorOf_joinW3 _ _)]
    simp [parseV10]

theorem Laws.RoundTrip.dsub (b : BitVec 5) (a : BitVec 5) (d : BitVec 5) : Laws.RoundTrip.Statement (.dsub b a d) := by
  intro kd st rest h
  refine decodeBytes_of_word (bit0_joinW3 _ _) ?_ h
  cases st
  · exact Bool.noConfusion h
  · exact Bool.noConfusion h
  · rw [parse32_V10 (majorOf_joinW3 _ _)]
    simp [parseV10]

theorem Laws.RoundTrip.dmul (b : BitVec 5) (a : BitVec 5) (d : BitVec 5) : Laws.RoundTrip.Statement (.dmul b a d) := by
  intro kd st rest h
  refine decodeBytes_of_word (bit0_joinW3 _ _) ?_ h
  cases st
  · exact Bool.noConfusion h
  · exact Bool.noConfusion h
  · rw [parse32_V10 (majorOf_joinW3 _ _)]
    simp [parseV10]

theorem Laws.RoundTrip.dmix (b : BitVec 5) (a : BitVec 5) (d : BitVec 5) : Laws.RoundTrip.Statement (.dmix b a d) := by
  intro kd st rest h
  refine decodeBytes_of_word (bit0_joinW3 _ _) ?_ h
  cases st
  · exact Bool.noConfusion h
  · exact Bool.noConfusion h
  · rw [parse32_V10 (majorOf_joinW3 _ _)]
    simp [parseV10]

theorem Laws.RoundTrip.dmuls (b : BitVec 5) (a : BitVec 5) (d : BitVec 5) : Laws.RoundTrip.Statement (.dmuls b a d) := by
  intro kd st rest h
  refine decodeBytes_of_word (bit0_joinW3 _ _) ?_ h
  cases st
  · exact Bool.noConfusion h
  · exact Bool.noConfusion h
  · rw [parse32_V11 (majorOf_joinW3 _ _)]
    simp [parseV11]

theorem Laws.RoundTrip.dadds (b : BitVec 5) (a : BitVec 5) (d : BitVec 5) : Laws.RoundTrip.Statement (.dadds b a d) := by
  intro kd st rest h
  refine decodeBytes_of_word (bit0_joinW3 _ _) ?_ h
  cases st
  · exact Bool.noConfusion h
  · exact Bool.noConfusion h
  · rw [parse32_V11 (majorOf_joinW3 _ _)]
    simp [parseV11]

theorem Laws.RoundTrip.dmaxs (b : BitVec 5) (a : BitVec 5) (d : BitVec 5) : Laws.RoundTrip.Statement (.dmaxs b a d) := by
  intro kd st rest h
  refine decodeBytes_of_word (bit0_joinW3 _ _) ?_ h
  cases st
  · exact Bool.noConfusion h
  · exact Bool.noConfusion h
  · rw [parse32_V11 (majorOf_joinW3 _ _)]
    simp [parseV11]

theorem Laws.RoundTrip.dmapExp2 (a : BitVec 5) (d : BitVec 5) : Laws.RoundTrip.Statement (.dmapExp2 a d) := by
  intro kd st rest h
  refine decodeBytes_of_word (bit0_joinW3 _ _) ?_ h
  cases st
  · exact Bool.noConfusion h
  · exact Bool.noConfusion h
  · rw [parse32_V11 (majorOf_joinW3 _ _)]
    simp [parseV11]

theorem Laws.RoundTrip.dmapLog2 (a : BitVec 5) (d : BitVec 5) : Laws.RoundTrip.Statement (.dmapLog2 a d) := by
  intro kd st rest h
  refine decodeBytes_of_word (bit0_joinW3 _ _) ?_ h
  cases st
  · exact Bool.noConfusion h
  · exact Bool.noConfusion h
  · rw [parse32_V11 (majorOf_joinW3 _ _)]
    simp [parseV11]

theorem Laws.RoundTrip.dmapTanh (a : BitVec 5) (d : BitVec 5) : Laws.RoundTrip.Statement (.dmapTanh a d) := by
  intro kd st rest h
  refine decodeBytes_of_word (bit0_joinW3 _ _) ?_ h
  cases st
  · exact Bool.noConfusion h
  · exact Bool.noConfusion h
  · rw [parse32_V11 (majorOf_joinW3 _ _)]
    simp [parseV11]

theorem Laws.RoundTrip.dmapSigmoid (a : BitVec 5) (d : BitVec 5) : Laws.RoundTrip.Statement (.dmapSigmoid a d) := by
  intro kd st rest h
  refine decodeBytes_of_word (bit0_joinW3 _ _) ?_ h
  cases st
  · exact Bool.noConfusion h
  · exact Bool.noConfusion h
  · rw [parse32_V11 (majorOf_joinW3 _ _)]
    simp [parseV11]

theorem Laws.RoundTrip.dpt (r : BitVec 4) (a : BitVec 5) (d : BitVec 5) : Laws.RoundTrip.Statement (.dpt r a d) := by
  intro kd st rest h
  refine decodeBytes_of_word (bit0_joinWI _ _) ?_ h
  cases st
  · exact Bool.noConfusion h
  · exact Bool.noConfusion h
  · rw [parse32_V12 (majorOf_joinWI _ _)]
    simp (disch := omega) [parseV12, sub_append_low, sub_append_high, -Nat.reduceAdd]

theorem Laws.RoundTrip.dgauss (r : BitVec 4) (a : BitVec 5) (d : BitVec 5) : Laws.RoundTrip.Statement (.dgauss r a d) := by
  intro kd st rest h
  refine decodeBytes_of_word (bit0_joinWI _ _) ?_ h
  cases st
  · exact Bool.noConfusion h
  · exact Bool.noConfusion h
  · rw [parse32_V12 (majorOf_joinWI _ _)]
    simp (disch := omega) [parseV12, sub_append_low, sub_append_high, -Nat.reduceAdd]

theorem Laws.RoundTrip.dpop (q : BitVec 4) (d : BitVec 5) : Laws.RoundTrip.Statement (.dpop q d) := by
  intro kd st rest h
  refine decodeBytes_of_word (bit0_joinWI _ _) ?_ h
  cases st
  · exact Bool.noConfusion h
  · exact Bool.noConfusion h
  · rw [parse32_V12 (majorOf_joinWI _ _)]
    simp (disch := omega) [parseV12, sub_append_low, sub_append_high, -Nat.reduceAdd]

theorem Laws.RoundTrip.dpush (q : BitVec 4) (a : BitVec 5) : Laws.RoundTrip.Statement (.dpush q a) := by
  intro kd st rest h
  refine decodeBytes_of_word (bit0_joinWI _ _) ?_ h
  cases st
  · exact Bool.noConfusion h
  · exact Bool.noConfusion h
  · rw [parse32_V12 (majorOf_joinWI _ _)]
    simp (disch := omega) [parseV12, sub_append_low, sub_append_high, -Nat.reduceAdd]

theorem Laws.RoundTrip.dmom (k : BitVec 2) (r : BitVec 4) (a : BitVec 5) (d : BitVec 5) : Laws.RoundTrip.Statement (.dmom k r a d) := by
  intro kd st rest h
  refine decodeBytes_of_word (bit0_joinWI _ _) ?_ h
  cases st
  · exact Bool.noConfusion h
  · exact Bool.noConfusion h
  · rw [parse32_V13 (majorOf_joinWI _ _)]
    simp (disch := omega) [parseV13, sub_append_low, sub_append_high, -Nat.reduceAdd]

theorem Laws.RoundTrip.dqnt (r : BitVec 4) (a : BitVec 5) (d : BitVec 5) : Laws.RoundTrip.Statement (.dqnt r a d) := by
  intro kd st rest h
  refine decodeBytes_of_word (bit0_joinWI _ _) ?_ h
  cases st
  · exact Bool.noConfusion h
  · exact Bool.noConfusion h
  · rw [parse32_V13 (majorOf_joinWI _ _)]
    simp (disch := omega) [parseV13, sub_append_low, sub_append_high, -Nat.reduceAdd]

theorem Laws.RoundTrip.dtag (i : BitVec 16) (d : BitVec 5) : Laws.RoundTrip.Statement (.dtag i d) := by
  intro kd st rest h
  refine decodeBytes_of_word (bit0_joinWD _ _) ?_ h
  cases st
  · exact Bool.noConfusion h
  · exact Bool.noConfusion h
  · rw [parse32_V14 (majorOf_joinWD _ _)]
    simp [parseV14]

theorem Laws.RoundTrip.dlin (i : BitVec 16) (d : BitVec 5) : Laws.RoundTrip.Statement (.dlin i d) := by
  intro kd st rest h
  refine decodeBytes_of_word (bit0_joinWD _ _) ?_ h
  cases st
  · exact Bool.noConfusion h
  · exact Bool.noConfusion h
  · rw [parse32_V14 (majorOf_joinWD _ _)]
    simp [parseV14]

theorem Laws.RoundTrip.dflg (i : BitVec 16) : Laws.RoundTrip.Statement (.dflg i) := by
  intro kd st rest h
  refine decodeBytes_of_word (bit0_joinWD _ _) ?_ h
  cases st
  · exact Bool.noConfusion h
  · exact Bool.noConfusion h
  · rw [parse32_V14 (majorOf_joinWD _ _)]
    simp [parseV14]

theorem Laws.RoundTrip.dflgRd (i : BitVec 16) : Laws.RoundTrip.Statement (.dflgRd i) := by
  intro kd st rest h
  refine decodeBytes_of_word (bit0_joinWD _ _) ?_ h
  cases st
  · exact Bool.noConfusion h
  · exact Bool.noConfusion h
  · rw [parse32_V14 (majorOf_joinWD _ _)]
    simp [parseV14]

theorem Laws.RoundTrip.stall (n : BitVec 11) : Laws.RoundTrip.Statement (.stall n) := by
  intro kd st rest h
  refine decodeBytes_of_half ?_ ?_ h
  · exact (low_bit _ _).trans rfl
  · simp (disch := omega) only [parse16, extract_append_low, extract_append_high]
    simp

theorem Laws.RoundTrip.mvh (a : BitVec 5) (d : BitVec 5) : Laws.RoundTrip.Statement (.mvh a d) := by
  intro kd st rest h
  refine decodeBytes_of_half ?_ ?_ h
  · exact (low_bit _ _).trans rfl
  · simp (disch := omega) only [parse16, extract_append_low, extract_append_high]
    simp

theorem Laws.RoundTrip.addih (i : BitVec 6) (d : BitVec 5) : Laws.RoundTrip.Statement (.addih i d) := by
  intro kd st rest h
  refine decodeBytes_of_half ?_ ?_ h
  · exact (low_bit _ _).trans rfl
  · simp (disch := omega) only [parse16, extract_append_low, extract_append_high]
    simp

theorem Laws.RoundTrip.brh (g : Guard) (t : BitVec 3) : Laws.RoundTrip.Statement (.brh g t) := by
  intro kd st rest h
  refine decodeBytes_of_half ?_ ?_ h
  · exact (low_bit _ _).trans rfl
  · simp (disch := omega) only [parse16, extract_append_low, extract_append_high]
    simp

theorem Laws.RoundTrip.blockFetch : Laws.RoundTrip.Statement (.blockFetch) :=
  fun _ _ _ h => Bool.noConfusion h

theorem Laws.RoundTrip.stallEnd : Laws.RoundTrip.Statement (.stallEnd) :=
  fun _ _ _ h => Bool.noConfusion h

theorem Laws.RoundTrip.resultLand : Laws.RoundTrip.Statement (.resultLand) :=
  fun _ _ _ h => Bool.noConfusion h

theorem Laws.RoundTrip.interlockedResultArrival : Laws.RoundTrip.Statement (.interlockedResultArrival) :=
  fun _ _ _ h => Bool.noConfusion h

theorem Laws.RoundTrip.granuleDataArrival : Laws.RoundTrip.Statement (.granuleDataArrival) :=
  fun _ _ _ h => Bool.noConfusion h

theorem Laws.RoundTrip.twaitExpiry : Laws.RoundTrip.Statement (.twaitExpiry) :=
  fun _ _ _ h => Bool.noConfusion h

theorem Laws.RoundTrip.waitmWake : Laws.RoundTrip.Statement (.waitmWake) :=
  fun _ _ _ h => Bool.noConfusion h

theorem Laws.RoundTrip.qwaitComplete : Laws.RoundTrip.Statement (.qwaitComplete) :=
  fun _ _ _ h => Bool.noConfusion h

theorem Laws.RoundTrip.barrierRelease : Laws.RoundTrip.Statement (.barrierRelease) :=
  fun _ _ _ h => Bool.noConfusion h

theorem Laws.RoundTrip.combiningEntrySend : Laws.RoundTrip.Statement (.combiningEntrySend) :=
  fun _ _ _ h => Bool.noConfusion h

theorem Laws.RoundTrip.combiningEntryInject : Laws.RoundTrip.Statement (.combiningEntryInject) :=
  fun _ _ _ h => Bool.noConfusion h

theorem Laws.RoundTrip.slotInject : Laws.RoundTrip.Statement (.slotInject) :=
  fun _ _ _ h => Bool.noConfusion h

theorem Laws.RoundTrip.slotHopArrival : Laws.RoundTrip.Statement (.slotHopArrival) :=
  fun _ _ _ h => Bool.noConfusion h

theorem Laws.RoundTrip.hopAcknowledge : Laws.RoundTrip.Statement (.hopAcknowledge) :=
  fun _ _ _ h => Bool.noConfusion h

theorem Laws.RoundTrip.hopRetransmit : Laws.RoundTrip.Statement (.hopRetransmit) :=
  fun _ _ _ h => Bool.noConfusion h

theorem Laws.RoundTrip.retryExhausted : Laws.RoundTrip.Statement (.retryExhausted) :=
  fun _ _ _ h => Bool.noConfusion h

theorem Laws.RoundTrip.hopRetrained : Laws.RoundTrip.Statement (.hopRetrained) :=
  fun _ _ _ h => Bool.noConfusion h

theorem Laws.RoundTrip.returnedSlotReinject : Laws.RoundTrip.Statement (.returnedSlotReinject) :=
  fun _ _ _ h => Bool.noConfusion h

theorem Laws.RoundTrip.timetabledSlotArrival : Laws.RoundTrip.Statement (.timetabledSlotArrival) :=
  fun _ _ _ h => Bool.noConfusion h

theorem Laws.RoundTrip.landingBufferDrain : Laws.RoundTrip.Statement (.landingBufferDrain) :=
  fun _ _ _ h => Bool.noConfusion h

theorem Laws.RoundTrip.trunkGroupArrival : Laws.RoundTrip.Statement (.trunkGroupArrival) :=
  fun _ _ _ h => Bool.noConfusion h

theorem Laws.RoundTrip.linkOutOfLock : Laws.RoundTrip.Statement (.linkOutOfLock) :=
  fun _ _ _ h => Bool.noConfusion h

theorem Laws.RoundTrip.laneFailure : Laws.RoundTrip.Statement (.laneFailure) :=
  fun _ _ _ h => Bool.noConfusion h

theorem Laws.RoundTrip.linkBringUp : Laws.RoundTrip.Statement (.linkBringUp) :=
  fun _ _ _ h => Bool.noConfusion h

theorem Laws.RoundTrip.mirrorAcceptance : Laws.RoundTrip.Statement (.mirrorAcceptance) :=
  fun _ _ _ h => Bool.noConfusion h

theorem Laws.RoundTrip.resetNoticeArrival : Laws.RoundTrip.Statement (.resetNoticeArrival) :=
  fun _ _ _ h => Bool.noConfusion h

theorem Laws.RoundTrip.activeMessageArrival : Laws.RoundTrip.Statement (.activeMessageArrival) :=
  fun _ _ _ h => Bool.noConfusion h

theorem Laws.RoundTrip.postedWriteArrival : Laws.RoundTrip.Statement (.postedWriteArrival) :=
  fun _ _ _ h => Bool.noConfusion h

theorem Laws.RoundTrip.remoteReadRequest : Laws.RoundTrip.Statement (.remoteReadRequest) :=
  fun _ _ _ h => Bool.noConfusion h

theorem Laws.RoundTrip.remoteReadReply : Laws.RoundTrip.Statement (.remoteReadReply) :=
  fun _ _ _ h => Bool.noConfusion h

theorem Laws.RoundTrip.remoteAtomicRequest : Laws.RoundTrip.Statement (.remoteAtomicRequest) :=
  fun _ _ _ h => Bool.noConfusion h

theorem Laws.RoundTrip.remoteAtomicReply : Laws.RoundTrip.Statement (.remoteAtomicReply) :=
  fun _ _ _ h => Bool.noConfusion h

theorem Laws.RoundTrip.migrationDataArrival : Laws.RoundTrip.Statement (.migrationDataArrival) :=
  fun _ _ _ h => Bool.noConfusion h

theorem Laws.RoundTrip.lossNoticeArrival : Laws.RoundTrip.Statement (.lossNoticeArrival) :=
  fun _ _ _ h => Bool.noConfusion h

theorem Laws.RoundTrip.creditReturn : Laws.RoundTrip.Statement (.creditReturn) :=
  fun _ _ _ h => Bool.noConfusion h

theorem Laws.RoundTrip.moduleWaveBegin : Laws.RoundTrip.Statement (.moduleWaveBegin) :=
  fun _ _ _ h => Bool.noConfusion h

theorem Laws.RoundTrip.podWaveBegin : Laws.RoundTrip.Statement (.podWaveBegin) :=
  fun _ _ _ h => Bool.noConfusion h

theorem Laws.RoundTrip.podWavePart : Laws.RoundTrip.Statement (.podWavePart) :=
  fun _ _ _ h => Bool.noConfusion h

theorem Laws.RoundTrip.musterSlotMerge : Laws.RoundTrip.Statement (.musterSlotMerge) :=
  fun _ _ _ h => Bool.noConfusion h

theorem Laws.RoundTrip.musterRollReturn : Laws.RoundTrip.Statement (.musterRollReturn) :=
  fun _ _ _ h => Bool.noConfusion h

theorem Laws.RoundTrip.jobOpenNotice : Laws.RoundTrip.Statement (.jobOpenNotice) :=
  fun _ _ _ h => Bool.noConfusion h

theorem Laws.RoundTrip.jobCloseNotice : Laws.RoundTrip.Statement (.jobCloseNotice) :=
  fun _ _ _ h => Bool.noConfusion h

theorem Laws.RoundTrip.jobFreeNotice : Laws.RoundTrip.Statement (.jobFreeNotice) :=
  fun _ _ _ h => Bool.noConfusion h

theorem Laws.RoundTrip.stationReset : Laws.RoundTrip.Statement (.stationReset) :=
  fun _ _ _ h => Bool.noConfusion h

theorem Laws.RoundTrip.mrepairArrival : Laws.RoundTrip.Statement (.mrepairArrival) :=
  fun _ _ _ h => Bool.noConfusion h

theorem Laws.RoundTrip.signalArrival : Laws.RoundTrip.Statement (.signalArrival) :=
  fun _ _ _ h => Bool.noConfusion h

theorem Laws.RoundTrip.invalidationMarkerArrival : Laws.RoundTrip.Statement (.invalidationMarkerArrival) :=
  fun _ _ _ h => Bool.noConfusion h

theorem Laws.RoundTrip.tlbWalkComplete : Laws.RoundTrip.Statement (.tlbWalkComplete) :=
  fun _ _ _ h => Bool.noConfusion h

theorem Laws.RoundTrip.pageFault : Laws.RoundTrip.Statement (.pageFault) :=
  fun _ _ _ h => Bool.noConfusion h

theorem Laws.RoundTrip.fnfresRetry : Laws.RoundTrip.Statement (.fnfresRetry) :=
  fun _ _ _ h => Bool.noConfusion h

theorem Laws.RoundTrip.fnfresRaisePerm : Laws.RoundTrip.Statement (.fnfresRaisePerm) :=
  fun _ _ _ h => Bool.noConfusion h

theorem Laws.RoundTrip.fnfresEndPlat : Laws.RoundTrip.Statement (.fnfresEndPlat) :=
  fun _ _ _ h => Bool.noConfusion h

theorem Laws.RoundTrip.fnfresAnswerNothing : Laws.RoundTrip.Statement (.fnfresAnswerNothing) :=
  fun _ _ _ h => Bool.noConfusion h

theorem Laws.RoundTrip.bankSwitchComplete : Laws.RoundTrip.Statement (.bankSwitchComplete) :=
  fun _ _ _ h => Bool.noConfusion h

theorem Laws.RoundTrip.trapDelivery : Laws.RoundTrip.Statement (.trapDelivery) :=
  fun _ _ _ h => Bool.noConfusion h

theorem Laws.RoundTrip.trapCapture : Laws.RoundTrip.Statement (.trapCapture) :=
  fun _ _ _ h => Bool.noConfusion h

theorem Laws.RoundTrip.handlerStart : Laws.RoundTrip.Statement (.handlerStart) :=
  fun _ _ _ h => Bool.noConfusion h

theorem Laws.RoundTrip.rteResume : Laws.RoundTrip.Statement (.rteResume) :=
  fun _ _ _ h => Bool.noConfusion h

theorem Laws.RoundTrip.latchReinject : Laws.RoundTrip.Statement (.latchReinject) :=
  fun _ _ _ h => Bool.noConfusion h

theorem Laws.RoundTrip.timerMatch : Laws.RoundTrip.Statement (.timerMatch) :=
  fun _ _ _ h => Bool.noConfusion h

theorem Laws.RoundTrip.promiseMiss : Laws.RoundTrip.Statement (.promiseMiss) :=
  fun _ _ _ h => Bool.noConfusion h

theorem Laws.RoundTrip.engineCommandBegin : Laws.RoundTrip.Statement (.engineCommandBegin) :=
  fun _ _ _ h => Bool.noConfusion h

theorem Laws.RoundTrip.engineMicroStep : Laws.RoundTrip.Statement (.engineMicroStep) :=
  fun _ _ _ h => Bool.noConfusion h

theorem Laws.RoundTrip.engineCommandComplete : Laws.RoundTrip.Statement (.engineCommandComplete) :=
  fun _ _ _ h => Bool.noConfusion h

theorem Laws.RoundTrip.eccFreezeBegin : Laws.RoundTrip.Statement (.eccFreezeBegin) :=
  fun _ _ _ h => Bool.noConfusion h

theorem Laws.RoundTrip.eccFreezeEnd : Laws.RoundTrip.Statement (.eccFreezeEnd) :=
  fun _ _ _ h => Bool.noConfusion h

theorem Laws.RoundTrip.selfTestEnd : Laws.RoundTrip.Statement (.selfTestEnd) :=
  fun _ _ _ h => Bool.noConfusion h

theorem Laws.RoundTrip.uncorrectableErrorConsumed : Laws.RoundTrip.Statement (.uncorrectableErrorConsumed) :=
  fun _ _ _ h => Bool.noConfusion h

theorem Laws.RoundTrip.memoryUncorrectableError : Laws.RoundTrip.Statement (.memoryUncorrectableError) :=
  fun _ _ _ h => Bool.noConfusion h

theorem Laws.RoundTrip.pairSlotCompare : Laws.RoundTrip.Statement (.pairSlotCompare) :=
  fun _ _ _ h => Bool.noConfusion h

theorem Laws.RoundTrip.pairCompareTimeout : Laws.RoundTrip.Statement (.pairCompareTimeout) :=
  fun _ _ _ h => Bool.noConfusion h

theorem Laws.RoundTrip.periodicResurvey : Laws.RoundTrip.Statement (.periodicResurvey) :=
  fun _ _ _ h => Bool.noConfusion h

theorem Laws.RoundTrip.resurveyEnd : Laws.RoundTrip.Statement (.resurveyEnd) :=
  fun _ _ _ h => Bool.noConfusion h

theorem Laws.RoundTrip.surveyChangePost : Laws.RoundTrip.Statement (.surveyChangePost) :=
  fun _ _ _ h => Bool.noConfusion h

theorem Laws.RoundTrip.thermalStop : Laws.RoundTrip.Statement (.thermalStop) :=
  fun _ _ _ h => Bool.noConfusion h

theorem Laws.RoundTrip.thermalPowerOff : Laws.RoundTrip.Statement (.thermalPowerOff) :=
  fun _ _ _ h => Bool.noConfusion h

theorem Laws.RoundTrip.readinessDeadline : Laws.RoundTrip.Statement (.readinessDeadline) :=
  fun _ _ _ h => Bool.noConfusion h

theorem Laws.RoundTrip.readinessVerdict : Laws.RoundTrip.Statement (.readinessVerdict) :=
  fun _ _ _ h => Bool.noConfusion h

theorem Laws.RoundTrip.verdictTimeout : Laws.RoundTrip.Statement (.verdictTimeout) :=
  fun _ _ _ h => Bool.noConfusion h

theorem Laws.RoundTrip.platRelease : Laws.RoundTrip.Statement (.platRelease) :=
  fun _ _ _ h => Bool.noConfusion h

theorem Laws.RoundTrip.priorityAging : Laws.RoundTrip.Statement (.priorityAging) :=
  fun _ _ _ h => Bool.noConfusion h

theorem Laws.RoundTrip.runQuantumExpiry : Laws.RoundTrip.Statement (.runQuantumExpiry) :=
  fun _ _ _ h => Bool.noConfusion h

theorem Laws.RoundTrip.forcedStop : Laws.RoundTrip.Statement (.forcedStop) :=
  fun _ _ _ h => Bool.noConfusion h

theorem Laws.RoundTrip.platResume : Laws.RoundTrip.Statement (.platResume) :=
  fun _ _ _ h => Bool.noConfusion h

theorem Laws.RoundTrip.loaderRequest : Laws.RoundTrip.Statement (.loaderRequest) :=
  fun _ _ _ h => Bool.noConfusion h

theorem Laws.RoundTrip.templatePass : Laws.RoundTrip.Statement (.templatePass) :=
  fun _ _ _ h => Bool.noConfusion h

theorem Laws.RoundTrip.profilePass : Laws.RoundTrip.Statement (.profilePass) :=
  fun _ _ _ h => Bool.noConfusion h

theorem Laws.RoundTrip.manselWrite : Laws.RoundTrip.Statement (.manselWrite) :=
  fun _ _ _ h => Bool.noConfusion h

theorem Laws.RoundTrip.jopenWrite : Laws.RoundTrip.Statement (.jopenWrite) :=
  fun _ _ _ h => Bool.noConfusion h

theorem Laws.RoundTrip.jcloseWrite : Laws.RoundTrip.Statement (.jcloseWrite) :=
  fun _ _ _ h => Bool.noConfusion h

theorem Laws.RoundTrip.losscntClear : Laws.RoundTrip.Statement (.losscntClear) :=
  fun _ _ _ h => Bool.noConfusion h

theorem Laws.RoundTrip.mirentWrite : Laws.RoundTrip.Statement (.mirentWrite) :=
  fun _ _ _ h => Bool.noConfusion h

theorem Laws.RoundTrip.plostClear : Laws.RoundTrip.Statement (.plostClear) :=
  fun _ _ _ h => Bool.noConfusion h

theorem Laws.RoundTrip.hsemAcquire : Laws.RoundTrip.Statement (.hsemAcquire) :=
  fun _ _ _ h => Bool.noConfusion h

theorem Laws.RoundTrip.hsemRelease : Laws.RoundTrip.Statement (.hsemRelease) :=
  fun _ _ _ h => Bool.noConfusion h

theorem Laws.RoundTrip.fnctlRst : Laws.RoundTrip.Statement (.fnctlRst) :=
  fun _ _ _ h => Bool.noConfusion h

theorem Laws.RoundTrip.functionResetComplete : Laws.RoundTrip.Statement (.functionResetComplete) :=
  fun _ _ _ h => Bool.noConfusion h

theorem Laws.RoundTrip.fnctlGo : Laws.RoundTrip.Statement (.fnctlGo) :=
  fun _ _ _ h => Bool.noConfusion h

theorem Laws.RoundTrip.fnctlEn : Laws.RoundTrip.Statement (.fnctlEn) :=
  fun _ _ _ h => Bool.noConfusion h

theorem Laws.RoundTrip.fnjobsWrite : Laws.RoundTrip.Statement (.fnjobsWrite) :=
  fun _ _ _ h => Bool.noConfusion h

theorem Laws.RoundTrip.feataccWrite : Laws.RoundTrip.Statement (.feataccWrite) :=
  fun _ _ _ h => Bool.noConfusion h

theorem Laws.RoundTrip.featmaskWrite : Laws.RoundTrip.Statement (.featmaskWrite) :=
  fun _ _ _ h => Bool.noConfusion h

theorem Laws.RoundTrip.fnnotifyWrite : Laws.RoundTrip.Statement (.fnnotifyWrite) :=
  fun _ _ _ h => Bool.noConfusion h

theorem Laws.RoundTrip.fnerrclrWrite : Laws.RoundTrip.Statement (.fnerrclrWrite) :=
  fun _ _ _ h => Bool.noConfusion h

theorem Laws.RoundTrip.attctlRequest : Laws.RoundTrip.Statement (.attctlRequest) :=
  fun _ _ _ h => Bool.noConfusion h

theorem Laws.RoundTrip.attestReportReady : Laws.RoundTrip.Statement (.attestReportReady) :=
  fun _ _ _ h => Bool.noConfusion h

theorem Laws.RoundTrip.dbgreqRequest : Laws.RoundTrip.Statement (.dbgreqRequest) :=
  fun _ _ _ h => Bool.noConfusion h

theorem Laws.RoundTrip.dbgreqWithdraw : Laws.RoundTrip.Statement (.dbgreqWithdraw) :=
  fun _ _ _ h => Bool.noConfusion h

theorem Laws.RoundTrip.registerWrite : Laws.RoundTrip.Statement (.registerWrite) :=
  fun _ _ _ h => Bool.noConfusion h

theorem Laws.RoundTrip.hostBar2Write : Laws.RoundTrip.Statement (.hostBar2Write) :=
  fun _ _ _ h => Bool.noConfusion h

theorem Laws.RoundTrip.hostBar2Read : Laws.RoundTrip.Statement (.hostBar2Read) :=
  fun _ _ _ h => Bool.noConfusion h

theorem Laws.RoundTrip.hostConfigRequest : Laws.RoundTrip.Statement (.hostConfigRequest) :=
  fun _ _ _ h => Bool.noConfusion h

theorem Laws.RoundTrip.portReset : Laws.RoundTrip.Statement (.portReset) :=
  fun _ _ _ h => Bool.noConfusion h

theorem Laws.RoundTrip.powerOn : Laws.RoundTrip.Statement (.powerOn) :=
  fun _ _ _ h => Bool.noConfusion h

theorem Laws.RoundTrip.dhcpv6Timeout : Laws.RoundTrip.Statement (.dhcpv6Timeout) :=
  fun _ _ _ h => Bool.noConfusion h

theorem Laws.RoundTrip.imageFetchComplete : Laws.RoundTrip.Statement (.imageFetchComplete) :=
  fun _ _ _ h => Bool.noConfusion h

theorem Laws.RoundTrip.firmwareUpdate : Laws.RoundTrip.Statement (.firmwareUpdate) :=
  fun _ _ _ h => Bool.noConfusion h

theorem Laws.RoundTrip.moduleReset : Laws.RoundTrip.Statement (.moduleReset) :=
  fun _ _ _ h => Bool.noConfusion h

theorem Laws.RoundTrip.ptimeSync : Laws.RoundTrip.Statement (.ptimeSync) :=
  fun _ _ _ h => Bool.noConfusion h

theorem Laws.RoundTrip.mrepairNoAnswer : Laws.RoundTrip.Statement (.mrepairNoAnswer) :=
  fun _ _ _ h => Bool.noConfusion h

theorem Laws.RoundTrip.hostPortTrained : Laws.RoundTrip.Statement (.hostPortTrained) :=
  fun _ _ _ h => Bool.noConfusion h

end Sys2Proof
end

