-- ==== Sys2Proof/Tests/Slice0.lean ====
section
/-! SUPPORT. Tests: ill-formed terms that the checks refuse, words decoded from the spec's encodings, one step of instructions whose results
the spec gives or a reader computes from it, and for every statement with hypotheses states that meet them. -/

set_option Elab.async false

namespace Sys2Proof.Tests

open Sys2Proof.Machine

/-! ## Small states -/

/-- A context of job 21 with text on each stream and every feature but the three that the spec leaves to Config. -/
def someCtx : Ctx :=
  let y : StreamSt := { StreamSt.reset with live := true, atHeader := false, blk := 0, pc := 4, len := 40 }
  { Ctx.reset with resident := true, job := 21, plat := 7, feat := 0x3FF, c := y, a := y, v := y }

/-- Bank 0 of a core holds that context and one of its streams is in focus, at clk 100. -/
def on (core : Nat) (st : Stream) : State := { State.reset.putCtx ⟨core, 0⟩ someCtx with foc := ⟨⟨core, 0⟩, st⟩, clk := 100 }

/-- The same with the context changed. -/
def onWith (core : Nat) (st : Stream) (f : Ctx → Ctx) : State := (on core st).modF f

/-- Registers 1 to 3 of a stream. -/
def regs3 (st : Stream) (a b c : Word) (x : Ctx) : Ctx := x.putStrm st { x.strm st with regs := [(1, a), (2, b), (3, c)] }

/-- A page at home for the job, readable and writable: VA 0x6000_0000 stands at address 0x10_0000 of the module. -/
def page : Leaf :=
  { big := false, pfn := 0x10, home := 0, hmod := 0, fmt := 0, geom := 0, ord := 0, bar := false, mir := false, x := false, w := true, r := true,
    sv := false, scb := 0, tab := (false, true, true), gpfn := 0x10 }

/-- The core's TLB holds a page for VA 0x6000_0000 of job 21. -/
def withPage (l : Leaf) (s : State) : State := s.modFcore (fun k => { k with tlb := [⟨21, 0, 0x6000, l⟩] })

/-- An event under way. -/
def during (e : Event) (s : State) : State := { s with cur := some e }

/-- The state that an access resolves to. -/
def landed : Resolve → State
  | .at _ s => s
  | .stop _ => State.reset

/-- The next state, where there is one. -/
def after : Host.Outcome State Fault Refusal → State
  | .next s => s
  | .fault _ => State.reset
  | .refused _ => State.reset

/-- The checks of `State.Ready`, as one truth value. -/
def readyB (s : State) (n : Need) : Bool :=
  (match n.feature with | none => true | some f => s.fctx.hasFeature f) && !n.priv &&
  (readHazard s.foc.st s.fstrm s.clk (codeP n.guard.p.toNat)).isNone &&
  !s.fstrm.interBusy (physCode s.foc.st s.fstrm.swin.toNat (codeP n.guard.p.toNat)) && s.guardHolds n.guard && !interlockWait s.foc.st s.fstrm n &&
  (hazard s.foc.st s.fstrm s.clk n).isNone && s.verdictPerm.isNone

theorem ready_iff (s : State) (n : Need) : s.Ready n ↔ readyB s n = true := by
  constructor
  · intro h
    have := h.feature
    cases hf : n.feature <;> simp_all [readyB, h.allowed, h.guardFree, h.guardCome, h.holds, h.free, h.clear, h.answered]
  · intro h
    simp only [readyB, Bool.and_eq_true, Bool.not_eq_true', Option.isNone_iff_eq_none] at h
    obtain ⟨⟨⟨⟨⟨⟨⟨h1, h2⟩, h3⟩, h4⟩, h5⟩, h6⟩, h7⟩, h8⟩ := h
    refine ⟨?_, h2, h3, h4, h5, h6, h7, h8⟩
    intro f hf
    simpa [hf] using h1

/-! ## Ill-formed terms -/

/-- A guard of p48 and above (13 R300), a W3 word on the V stream (13 R308), a control-stream word on A (13 R309), an access word on C
(13 R310), a vector word on C and on a dispatch core (13 R311; 07 R190). -/
theorem test_wf_streams_and_guards :
    (Instr.add ⟨false, 48⟩ 1 2 3).wf .compute .c = false ∧ (Instr.add ⟨false, 47⟩ 1 2 3).wf .compute .v = false ∧
    (Instr.barArrive 1 0).wf .compute .a = false ∧ (Instr.ldv 0 1 2 4).wf .compute .c = false ∧ (Instr.vadd ⟨false, 0⟩ 1 2 3).wf .compute .c = false ∧
    (Instr.vadd ⟨false, 0⟩ 1 2 3).wf .dispatch .v = false ∧ (Instr.cmpEq false 1 2 48).wf .compute .c = false := by decide

/-- Queues: C pops q3 but not q0 or q1, A pushes q2 alone (07 R168), and a control-only core has no q3 (R190); LDV fills q4 to q7 and STV
empties q8 and q9 (15 R358); the V queue words likewise. -/
theorem test_wf_queues :
    (Instr.movqPop ⟨false, 0⟩ 1 3).wf .compute .c = false ∧ (Instr.movqPop ⟨false, 0⟩ 3 3).wf .dispatch .c = false ∧
    (Instr.movqPush ⟨false, 0⟩ 1 0).wf .compute .a = false ∧ (Instr.ldv 0 1 2 8).wf .compute .a = false ∧
    (Instr.stv 0 1 2 7).wf .compute .a = false ∧ (Instr.vpop 0 0 8 1).wf .compute .v = false ∧ (Instr.vpush 0 0 4 1).wf .compute .v = false := by decide

/-- Tokens (07 R175, R190), special registers (13 R313), scopes (13 R306), distribution registers above d15 (13 R311), reserved bits of
DFLG (18 R408); a control-only core has no matrix engine (07 R190). -/
theorem test_wf_fields :
    (Instr.pop ⟨false, 0⟩ 0).wf .compute .c = false ∧ (Instr.pop ⟨false, 0⟩ 2).wf .dispatch .c = false ∧ (Instr.mfs 0x007 1).wf .compute .c = false ∧
    (Instr.mfs 0x010 1).wf .dispatch .c = false ∧ (Instr.qwait 0).wf .compute .c = false ∧ (Instr.dadd 16 0 0).wf .compute .v = false ∧
    (Instr.dflg 0x0200).wf .compute .v = false ∧ (Instr.mma ⟨false, 0, 0, 1, 2⟩ false 0).wf .dispatch .c = false := by decide

/-- An event of the device is no word of any stream. -/
theorem test_wf_events : Instr.blockFetch.wf .compute .c = false ∧ Instr.platRelease.wf .dispatch .c = false := by decide

/-! ## Words of the spec's encodings -/

/-- The word is read as the instruction. -/
def reads (st : Stream) (p : BitVec 32 × Instr) : Bool := (decode32 .compute st p.1).toOption == some p.2

def reads16 (p : BitVec 16 × Instr) : Bool := (decode16 .compute .c p.1).toOption == some p.2

/-- The examples of chapters 13 and 14 with their encodings. -/
theorem test_examples_control :
    [(0x0F803183, .addi 0xF80 6 6), (0x2D5E7185, .lui 0x5ABCE 6), (0x20C8314B, .cmpiLt false 100 3 5), (0x0000730F, .movqPop ⟨false, 0⟩ 14 12),
     (0x300821D1, .ld 8 4 7), (0x400B5255, .amoMin ⟨false, 0⟩ 11 10 9), (0x000C0019, .fence true 4), (0x1FFFE25B, .pbr 0xFFFF1 1),
     (0x00073161, .div ⟨false, 0⟩ 7 6 5), (0x00000163, .mfs 0 5), (0x20430025, .barAw 2 3), (0x30016025, .twait true 12), (0x50030025, .qwait 3),
     (0x0005202B, .send ⟨false, 0⟩ 5 4), (0x1000002B, .hret ⟨false, 0⟩), (0x0005002D, .trap 5), (0xC010A1D1, .ldAcq 4 16 20 7),
     (0x0070005D, .pbrx 7 ⟨false, 0⟩ 1), (0x0002005D, .brl ⟨false, 0⟩ 1)].all (reads .c) = true := by decide

/-- The examples of chapter 15. -/
theorem test_examples_access :
    [(0x00631121, .ldv 3 3 2 4), (0x00603A23, .stv 3 0 7 8), (0x00081165, .ldg 0 8 2 5), (0x00083A67, .stsc 0 8 7 9),
     (0x10293229, .amovMax 1 9 6 8), (0x0100202B, .pref 0x100 4), (0x1000226B, .tlbp 4 9), (0x0001081F, .sloop 1 1),
     (0x1000005F, .snext 1)].all (reads .a) = true := by decide

/-- The examples of chapter 18. -/
theorem test_examples_vector :
    [(0x20420941, .vmul ⟨false, 2⟩ 2 1 5), (0x0C6209C3, .vfnms 0 3 2 1 7), (0x300008C5, .vexp2 ⟨false, 0⟩ 1 3), (0x60073187, .vshl ⟨false, 0⟩ 7 6 6),
     (0x00841509, .vcmpLt false 2 1 20), (0x0007454D, .pand false 3 20 21), (0x02820A0B, .vsel ⟨false, 20⟩ 2 1 8), (0x30000A4F, .vrndT8 ⟨false, 0⟩ 1 9),
     (0x10010A91, .vrotc 1 1 10), (0x40000B13, .vredcSum 1 12), (0x1FC00355, .vli 0x3F800 13), (0x0F040097, .vpop 15 0 4 2),
     (0x001000D9, .vldl 16 3), (0x0002081F, .vSloop 2), (0x000511E1, .dadd 5 2 7), (0x00043A23, .dmuls 4 7 8), (0x10000065, .dgauss 0 0 1),
     (0x000008A9, .dtag 1 2), (0x10000169, .dlin 0 5), (0x21E80069, .dflgRd 0x3D00)].all (reads .v) = true := by decide

/-- The engine commands of chapters 13, 21 and 22. -/
theorem test_examples_engines :
    [(0x82294031, .mma ⟨true, 2, 1, 9, 8⟩ false 0), (0x0309406F, .cst ⟨false, 3, 0, 9, 8⟩), (0x004520F1, .mdrn ⟨false, 0, 2, 5, 4⟩),
     (0x00073073, .wexs ⟨false, 0, 0, 7, 6⟩), (0xCA20C831, .mma ⟨true, 2, 1, 0, 25⟩ true 1), (0x0187002F, .cld ⟨false, 1, 4, 7, 0⟩),
     (0x001A00B1, .mrot ⟨false, 0, 0, 26, 0⟩), (0x001AC971, .msgn ⟨false, 0, 0, 26, 25⟩)].all (reads .c) = true := by decide

theorem test_examples_half : [(0x0080, .stall 4), (0x0040, .stall 2), (0x02C0, .stall 22)].all reads16 = true := by decide

/-! The other words are the table's: every row with its own operand fields set. -/

theorem test_decode_c_00 :
    [
    (0x0CAE5941, .add ⟨true, 37⟩ 14 11 5), (0x1CAE5941, .sub ⟨true, 37⟩ 14 11 5), (0x2CAE5941, .and ⟨true, 37⟩ 14 11 5),
    (0x3CAE5941, .or ⟨true, 37⟩ 14 11 5), (0x4CAE5941, .xor ⟨true, 37⟩ 14 11 5), (0x5CAE5941, .andn ⟨true, 37⟩ 14 11 5),
    (0x6CAE5941, .shl ⟨true, 37⟩ 14 11 5), (0x7CAE5941, .shr ⟨true, 37⟩ 14 11 5), (0x8CAE5941, .sar ⟨true, 37⟩ 14 11 5),
    (0x9CAE5941, .rol ⟨true, 37⟩ 14 11 5), (0xACAE5941, .min ⟨true, 37⟩ 14 11 5), (0xBCAE5941, .max ⟨true, 37⟩ 14 11 5),
    (0xCCAE5941, .minu ⟨true, 37⟩ 14 11 5), (0xDCAE5941, .maxu ⟨true, 37⟩ 14 11 5), (0xECAE5941, .mul ⟨true, 37⟩ 14 11 5),
    (0xFCAE5941, .mulhu ⟨true, 37⟩ 14 11 5)].all (reads .c) = true := by decide

theorem test_decode_c_01 :
    [
    (0x08A55943, .addi 0x8A5 11 5), (0x18A55943, .andi 0x8A5 11 5), (0x28A55943, .ori 0x8A5 11 5), (0x38A55943, .xori 0x8A5 11 5),
    (0x402A5943, .shli 42 11 5), (0x502A5943, .shri 42 11 5), (0x602A5943, .sari 42 11 5), (0x78A55943, .muli 0x8A5 11 5)].all (reads .c) = true := by decide

theorem test_decode_c_02 :
    [
    (0x452E1945, .lui 0x8A5C3 5), (0xC52E1945, .auib 0x8A5C3 5)].all (reads .c) = true := by decide

theorem test_decode_c_03 :
    [
    (0x0CAE5947, .bext ⟨true, 37⟩ 14 11 5), (0x1CAE5947, .bexts ⟨true, 37⟩ 14 11 5), (0x2CAE5947, .bins ⟨true, 37⟩ 14 11 5),
    (0x3CA05947, .clz ⟨true, 37⟩ 11 5), (0x4CA05947, .ctz ⟨true, 37⟩ 11 5), (0x5CA05947, .popc ⟨true, 37⟩ 11 5),
    (0x63735947, .bexti 13 51 11 5), (0x73735947, .binsi 13 51 11 5)].all (reads .c) = true := by decide

theorem test_decode_c_04 :
    [
    (0x041CBAC9, .cmpEq true 14 11 43), (0x045CBAC9, .cmpNe true 14 11 43), (0x049CBAC9, .cmpLt true 14 11 43),
    (0x04DCBAC9, .cmpGe true 14 11 43), (0x051CBAC9, .cmpLtu true 14 11 43), (0x055CBAC9, .cmpGeu true 14 11 43)].all (reads .c) = true := by decide

theorem test_decode_c_05 :
    [
    (0x894ABACB, .cmpiEq true 0x4A5 11 43), (0x994ABACB, .cmpiNe true 0x4A5 11 43), (0xA94ABACB, .cmpiLt true 0x4A5 11 43),
    (0xB94ABACB, .cmpiGe true 0x4A5 11 43), (0xC94ABACB, .cmpiLtu true 0x4A5 11 43), (0xD94ABACB, .cmpiGeu true 0x4A5 11 43)].all (reads .c) = true := by decide

theorem test_decode_c_06 :
    [
    (0x041CBACD, .pand true 14 11 43), (0x045CBACD, .por true 14 11 43), (0x049CBACD, .pxor true 14 11 43),
    (0x04DCBACD, .pandn true 14 11 43), (0x0500BACD, .pmov true 11 43), (0x0540BACD, .pnot true 11 43)].all (reads .c) = true := by decide

theorem test_decode_c_07 :
    [
    (0x0CA0714F, .movqPop ⟨true, 37⟩ 14 5), (0x1CA0580F, .movqPush ⟨true, 37⟩ 11 0), (0x2CBD794F, .trypopQueue ⟨true, 37⟩ 29 15 5)].all (reads .c) = true := by decide

theorem test_decode_c_08 :
    [
    (0x08A57251, .ldB 0x8A5 14 9), (0x18A57251, .ldH 0x8A5 14 9), (0x28A57251, .ldW 0x8A5 14 9), (0x38A57251, .ld 0x8A5 14 9),
    (0x48A57251, .ldSb 0x8A5 14 9), (0x58A57251, .ldSh 0x8A5 14 9), (0x68A57251, .ldSw 0x8A5 14 9), (0xB8A57251, .ldAcq 3 0x8A5 14 9)].all (reads .c) = true := by decide

theorem test_decode_c_09 :
    [
    (0x08A57253, .stB 0x8A5 14 9), (0x18A57253, .stH 0x8A5 14 9), (0x28A57253, .stW 0x8A5 14 9), (0x38A57253, .st 0x8A5 14 9),
    (0xB8A57253, .stRel 3 0x8A5 14 9)].all (reads .c) = true := by decide

theorem test_decode_c_0a :
    [
    (0x0CAE5955, .amoAdd ⟨true, 37⟩ 14 11 5), (0x1CAE5955, .amoAnd ⟨true, 37⟩ 14 11 5), (0x2CAE5955, .amoOr ⟨true, 37⟩ 14 11 5),
    (0x3CAE5955, .amoXor ⟨true, 37⟩ 14 11 5), (0x4CAE5955, .amoMin ⟨true, 37⟩ 14 11 5), (0x5CAE5955, .amoMax ⟨true, 37⟩ 14 11 5),
    (0x6CAE5955, .amoMinu ⟨true, 37⟩ 14 11 5), (0x7CAE5955, .amoMaxu ⟨true, 37⟩ 14 11 5), (0x8CAE5955, .amoSwap ⟨true, 37⟩ 14 11 5),
    (0x9CAE5955, .cas ⟨true, 37⟩ 14 11 5)].all (reads .c) = true := by decide

theorem test_decode_c_0b :
    [
    (0x08A50257, .ldlB 0x8A5 9), (0x18A50257, .ldlH 0x8A5 9), (0x28A50257, .ldlW 0x8A5 9), (0x38A50257, .ldl 0x8A5 9),
    (0x48A50257, .ldlSb 0x8A5 9), (0x58A50257, .ldlSh 0x8A5 9), (0x68A50257, .ldlSw 0x8A5 9), (0x88A50257, .stlB 0x8A5 9),
    (0x98A50257, .stlH 0x8A5 9), (0xA8A50257, .stlW 0x8A5 9), (0xB8A50257, .stl 0x8A5 9)].all (reads .c) = true := by decide

theorem test_decode_c_0c :
    [
    (0x000B0019, .fence true 3)].all (reads .c) = true := by decide

theorem test_decode_c_0d :
    [
    (0x114B875B, .pbr 0x8A5C3 5)].all (reads .c) = true := by decide

theorem test_decode_c_0e :
    [
    (0x00B0CB5D, .pbrx 11 ⟨true, 37⟩ 5), (0x0001CB5D, .br ⟨true, 37⟩ 5), (0x0002CB5D, .brl ⟨true, 37⟩ 5)].all (reads .c) = true := by decide

theorem test_decode_a_0f :
    [
    (0x0009581F, .sloop 9 11), (0x100000DF, .snext 3)].all (reads .a) = true := by decide

theorem test_decode_c_10 :
    [
    (0x0CAE5961, .div ⟨true, 37⟩ 14 11 5), (0x1CAE5961, .divu ⟨true, 37⟩ 14 11 5), (0x2CAE5961, .rem ⟨true, 37⟩ 14 11 5),
    (0x3CAE5961, .remu ⟨true, 37⟩ 14 11 5)].all (reads .c) = true := by decide

theorem test_decode_c_11 :
    [
    (0x00450163, .mfs 0x45 5), (0x10115823, .mts 17 11)].all (reads .c) = true := by decide

theorem test_decode_c_12 :
    [
    (0x00710025, .barArrive 3 17), (0x10710025, .barWait 3 17), (0x20710025, .barAw 3 17), (0x30015825, .twait true 11),
    (0x40005965, .waitm 11 5), (0x50040025, .qwait 4), (0x60005825, .signal 11)].all (reads .c) = true := by decide

theorem test_decode_c_13 :
    [
    (0x0CA05827, .push ⟨true, 37⟩ 11), (0x1CA02027, .pop ⟨true, 37⟩ 4), (0x2CBD2027, .trypopToken ⟨true, 37⟩ 29 4),
    (0x3CAE5827, .setup ⟨true, 37⟩ 14 11)].all (reads .c) = true := by decide

theorem test_decode_c_14 :
    [
    (0x00110169, .oclaim 17 5), (0x10110029, .orelease 17)].all (reads .c) = true := by decide

theorem test_decode_c_15 :
    [
    (0x0CAE582B, .send ⟨true, 37⟩ 14 11), (0x1CA0002B, .hret ⟨true, 37⟩)].all (reads .c) = true := by decide

theorem test_decode_c_16 :
    [
    (0x0A5C002D, .trap 0xA5C), (0x1000002D, .rte), (0x1001002D, .rteSkip), (0x28A5002D, .waypt 0x8A5), (0x3000596D, .evac 11 5),
    (0x4000002D, .retire), (0x5000596D, .mrepair 11 5), (0x6CAE596D, .launch ⟨true, 37⟩ 14 11 5), (0x7000582D, .ckpt 11)].all (reads .c) = true := by decide

theorem test_decode_c_17 :
    [
    (0x832E582F, .cld ⟨true, 3, 1, 14, 11⟩), (0x832E586F, .cst ⟨true, 3, 1, 14, 11⟩), (0x832E58AF, .csta ⟨true, 3, 1, 14, 11⟩),
    (0xC32E58EF, .cchn ⟨true, 3, 1, 14, 11⟩ true false), (0x832E592F, .cslc ⟨true, 3, 1, 14, 11⟩), (0x832E596F, .covl ⟨true, 3, 1, 14, 11⟩),
    (0xC32E59AF, .cmig ⟨true, 3, 1, 14, 11⟩ true), (0xC32E59EF, .cinv ⟨true, 3, 1, 14, 11⟩ true)].all (reads .c) = true := by decide

theorem test_decode_c_18 :
    [
    (0xDB2E5831, .mma ⟨true, 3, 1, 14, 11⟩ true 3), (0xDB2E5871, .mmas ⟨true, 3, 1, 14, 11⟩ true 3),
    (0x832E58B1, .mrot ⟨true, 3, 1, 14, 11⟩), (0x832E58F1, .mdrn ⟨true, 3, 1, 14, 11⟩), (0x832E5931, .mclr ⟨true, 3, 1, 14, 11⟩),
    (0x832E5971, .msgn ⟨true, 3, 1, 14, 11⟩)].all (reads .c) = true := by decide

theorem test_decode_c_19 :
    [
    (0x832E5833, .wmax ⟨true, 3, 1, 14, 11⟩), (0x832E5873, .wexs ⟨true, 3, 1, 14, 11⟩), (0x832E58B3, .wscl ⟨true, 3, 1, 14, 11⟩),
    (0x832E58F3, .wmom ⟨true, 3, 1, 14, 11⟩), (0x832E5933, .wapl ⟨true, 3, 1, 14, 11⟩)].all (reads .c) = true := by decide

theorem test_decode_a_10 :
    [
    (0x050971A1, .ldv 40 9 14 6)].all (reads .a) = true := by decide

theorem test_decode_a_11 :
    [
    (0x051B7223, .stv 40 27 14 8)].all (reads .a) = true := by decide

theorem test_decode_a_12 :
    [
    (0x050971A5, .ldg 40 9 14 6)].all (reads .a) = true := by decide

theorem test_decode_a_13 :
    [
    (0x05097227, .stsc 40 9 14 8)].all (reads .a) = true := by decide

theorem test_decode_a_14 :
    [
    (0x05097229, .amovAdd 40 9 14 8), (0x15097229, .amovMax 40 9 14 8)].all (reads .a) = true := by decide

theorem test_decode_a_15 :
    [
    (0x08A5582B, .pref 0x8A5 11), (0x1000596B, .tlbp 11 5)].all (reads .a) = true := by decide

theorem test_decode_v_00 :
    [
    (0x0CAE5941, .vadd ⟨true, 37⟩ 14 11 5), (0x1CAE5941, .vsub ⟨true, 37⟩ 14 11 5), (0x2CAE5941, .vmul ⟨true, 37⟩ 14 11 5),
    (0x3CAE5941, .vmin ⟨true, 37⟩ 14 11 5), (0x4CAE5941, .vmax ⟨true, 37⟩ 14 11 5), (0x5CA05941, .vabs ⟨true, 37⟩ 11 5),
    (0x6CA05941, .vneg ⟨true, 37⟩ 11 5), (0x7CA05941, .vmov ⟨true, 37⟩ 11 5)].all (reads .v) = true := by decide

theorem test_decode_v_01 :
    [
    (0x93AE5943, .vfma 9 29 14 11 5), (0x97AE5943, .vfms 9 29 14 11 5), (0x9BAE5943, .vfnma 9 29 14 11 5), (0x9FAE5943, .vfnms 9 29 14 11 5)].all (reads .v) = true := by decide

theorem test_decode_v_02 :
    [
    (0x0CA05945, .vrcp ⟨true, 37⟩ 11 5), (0x1CA05945, .vrsq ⟨true, 37⟩ 11 5), (0x2CA05945, .vsqrt ⟨true, 37⟩ 11 5),
    (0x3CA05945, .vexp2 ⟨true, 37⟩ 11 5), (0x4CA05945, .vlog2 ⟨true, 37⟩ 11 5), (0x5CA05945, .vsin ⟨true, 37⟩ 11 5),
    (0x6CA05945, .vcos ⟨true, 37⟩ 11 5), (0x7CA05945, .vtanh ⟨true, 37⟩ 11 5)].all (reads .v) = true := by decide

theorem test_decode_v_03 :
    [
    (0x0CAE5947, .viadd ⟨true, 37⟩ 14 11 5), (0x1CAE5947, .visub ⟨true, 37⟩ 14 11 5), (0x2CAE5947, .vimul ⟨true, 37⟩ 14 11 5),
    (0x3CAE5947, .vand ⟨true, 37⟩ 14 11 5), (0x4CAE5947, .vor ⟨true, 37⟩ 14 11 5), (0x5CAE5947, .vxor ⟨true, 37⟩ 14 11 5),
    (0x6CAE5947, .vshl ⟨true, 37⟩ 14 11 5), (0x7CAE5947, .vshr ⟨true, 37⟩ 14 11 5), (0x8CAE5947, .vsar ⟨true, 37⟩ 14 11 5),
    (0x9CAE5947, .vimin ⟨true, 37⟩ 14 11 5), (0xACAE5947, .vimax ⟨true, 37⟩ 14 11 5)].all (reads .v) = true := by decide

theorem test_decode_v_04 :
    [
    (0x041CBAC9, .vcmpEq true 14 11 43), (0x045CBAC9, .vcmpNe true 14 11 43), (0x049CBAC9, .vcmpLt true 14 11 43),
    (0x04DCBAC9, .vcmpLe true 14 11 43), (0x051CBAC9, .vcmpGt true 14 11 43), (0x055CBAC9, .vcmpGe true 14 11 43),
    (0x059CBAC9, .vcmpOrd true 14 11 43), (0x05DCBAC9, .vcmpUno true 14 11 43), (0x061CBAC9, .vcmpIeq true 14 11 43),
    (0x065CBAC9, .vcmpIlt true 14 11 43), (0x069CBAC9, .vcmpIltu true 14 11 43)].all (reads .v) = true := by decide

theorem test_decode_v_05 :
    [
    (0x0CAE594B, .vsel ⟨true, 37⟩ 14 11 5)].all (reads .v) = true := by decide

theorem test_decode_v_07 :
    [
    (0x0CA0594F, .vcvtI32 ⟨true, 37⟩ 11 5), (0x1CA0594F, .vcvtF32 ⟨true, 37⟩ 11 5), (0x2CA0594F, .vrndBf16 ⟨true, 37⟩ 11 5),
    (0x3CA0594F, .vrndT8 ⟨true, 37⟩ 11 5), (0x4CA0594F, .vrndT6 ⟨true, 37⟩ 11 5)].all (reads .v) = true := by decide

theorem test_decode_v_08 :
    [
    (0x00095951, .vrotr 9 11 5), (0x10335951, .vrotc 51 11 5), (0x20095951, .vbcr 9 11 5), (0x30335951, .vbcc 51 11 5),
    (0x40005951, .vtrn16 11 5)].all (reads .v) = true := by decide

theorem test_decode_v_09 :
    [
    (0x00005953, .vredrSum 11 5), (0x10005953, .vredrMax 11 5), (0x20005953, .vredrMin 11 5), (0x40005953, .vredcSum 11 5),
    (0x50005953, .vredcMax 11 5), (0x60005953, .vredcMin 11 5)].all (reads .v) = true := by decide

theorem test_decode_v_0a :
    [
    (0x452E1955, .vli 0x8A5C3 5)].all (reads .v) = true := by decide

theorem test_decode_v_0b :
    [
    (0x02940157, .vpop 2 9 4 5), (0x12985817, .vpush 2 9 8 11), (0x21595817, .vtos 21 9 11), (0x30010157, .vfrs true 5)].all (reads .v) = true := by decide

theorem test_decode_v_0c :
    [
    (0x00A50159, .vldl 0xA5 5), (0x10A55819, .vstl 0xA5 11)].all (reads .v) = true := by decide

theorem test_decode_v_0f :
    [
    (0x0009081F, .vSloop 9)].all (reads .v) = true := by decide

theorem test_decode_v_10 :
    [
    (0x000E5961, .dadd 14 11 5), (0x100E5961, .dsub 14 11 5), (0x200E5961, .dmul 14 11 5), (0x300E5961, .dmix 14 11 5)].all (reads .v) = true := by decide

theorem test_decode_v_11 :
    [
    (0x000E5963, .dmuls 14 11 5), (0x100E5963, .dadds 14 11 5), (0x200E5963, .dmaxs 14 11 5), (0x30005963, .dmapExp2 11 5),
    (0x40005963, .dmapLog2 11 5), (0x50005963, .dmapTanh 11 5), (0x60005963, .dmapSigmoid 11 5)].all (reads .v) = true := by decide

theorem test_decode_v_12 :
    [
    (0x00095965, .dpt 9 11 5), (0x10065965, .dgauss 6 11 5), (0x20050165, .dpop 5 5), (0x30095825, .dpush 9 11)].all (reads .v) = true := by decide

theorem test_decode_v_13 :
    [
    (0x00295967, .dmom 2 9 11 5), (0x10095967, .dqnt 9 11 5)].all (reads .v) = true := by decide

theorem test_decode_v_14 :
    [
    (0x052E1969, .dtag 0xA5C3 5), (0x152E1969, .dlin 0xA5C3 5), (0x25E81829, .dflg 0xBD03), (0x21E80069, .dflgRd 0x3D00)].all (reads .v) = true := by decide

theorem test_decode_half :
    [
    (0xAAA0, .stall 0x555), (0x2CA2, .mvh 11 5), (0xA8A4, .addih 42 5), (0x65A6, .brh ⟨true, 37⟩ 5)].all (reads16) = true := by decide
/-! ## States that meet the hypotheses of the statements -/

theorem meets_ScalarRegisterResults :
    (on 2 .c).Ready { guard := ⟨true, 5⟩, srcs := [1, 31], dsts := [(0, 1)] } ∧ (on 2 .a).Ready { guard := ⟨false, 0⟩, srcs := [0, 31], dsts := [(31, 3)] } ∧
    (on 2 .c).Ready { guard := ⟨false, 0⟩, srcs := [1, 2, 3], dsts := [(3, 1)] } ∧ (on 8 .c).Ready { guard := ⟨false, 0⟩, srcs := [31], dsts := [(1, 1)] } := by
  simp only [ready_iff]; decide +kernel

theorem meets_ScalarImmediateResults :
    (on 2 .c).Ready { srcs := [31], dsts := [(0, 1)] } ∧ (on 2 .a).Ready { srcs := [1], dsts := [(31, 3)] } ∧
    (on 2 .c).Ready { srcs := [1, 2], dsts := [(2, 1)] } ∧ (on 2 .c).Ready { dsts := [(31, 1)] } ∧ (on 2 .a).foc.st ≠ .v := by
  simp only [ready_iff]; decide +kernel

theorem meets_CompareAndPredicateResults :
    (on 2 .c).Ready { srcs := [1, 31], dsts := [(codeP 47, 1)] } ∧ (on 2 .a).Ready { srcs := [0], dsts := [(codeP 0, 1)] } ∧
    (on 2 .a).foc.st ≠ .v ∧ (on 2 .a).Ready { srcs := [codeP 31, codeP 1], dsts := [(codeP 47, 1)] } ∧ (on 2 .c).Ready { srcs := [codeP 31], dsts := [(codeP 1, 1)] } ∧
    (on 2 .v).foc.st = .v ∧ (on 2 .v).Ready { srcs := [codeP 31, codeP 0], dsts := [(codeP 47, 2)] } ∧
    (on 2 .v).Ready { srcs := [codeP 31], dsts := [(codeP 1, 2)] } ∧
    -- the encodings
    Stream.c ≠ .v ∧ (47#6).toNat < 48 ∧ 6 ≤ (6#4).toNat ∧ 6 ≤ (15#4).toNat ∧ 6 ≤ (7#3).toNat ∧ (Stream.v = .v → CoreKind.compute = .compute) := by
  simp only [ready_iff]; decide +kernel

theorem meets_DivideResults :
    (on 2 .c).Ready { guard := ⟨false, 0⟩, srcs := [1, 2], outs := [31] } ∧
    (on 2 .c).fstrm.pend.any (fun p => (on 2 .c).fstrm.divId == some p.id) = false ∧ (47#6).toNat < 48 ∧
    -- a divide whose result is in flight
    (let s := onWith 2 .c (fun x => { x with c := { x.c with divId := some 9, pend := [⟨9, 7, .word 1, 140, true, maskAll, 0, false⟩] } })
     s.Ready { guard := ⟨false, 0⟩, srcs := [1, 2], outs := [31] } ∧ s.fstrm.pend.any (fun p => s.fstrm.divId == some p.id) = true) := by
  simp only [ready_iff]; decide +kernel

/-- p5 of a context at release is false. -/
theorem meets_FalseGuardIssues :
    readHazard (on 2 .c).foc.st (on 2 .c).fstrm (on 2 .c).clk (codeP 5) = none ∧
    (on 2 .c).fstrm.interBusy (physCode .c (on 2 .c).fstrm.swin.toNat (codeP 5)) = false ∧ (on 2 .c).guardHolds ⟨false, 5⟩ = false ∧
    (on 2 .c).fctx.normal = true ∧ (on 2 .c).fctx.hasFeature 0 = true ∧ (on 2 .c).fctx.hasFeature 3 = true ∧
    (let z := onWith 8 .c (fun x => { x with job := 0 })
     z.fctx.job = 0 ∧ kindOf z.foc.ctx.core = .dispatch ∧ z.guardHolds ⟨false, 5⟩ = false ∧ z.guardHolds ⟨false, (5#4).setWidth 6⟩ = false ∧
     readHazard z.foc.st z.fstrm z.clk (codeP 5) = none ∧ z.fstrm.interBusy (physCode .c z.fstrm.swin.toNat (codeP 5)) = false) := by decide +kernel

/-- A line on its way to module 1, and one to a window of core 2 itself. -/
def owedLine : Owed := ⟨0, none, 3, .global 1 0, 1, 1, [], [.c], [], []⟩
def ownLine : Owed := ⟨0, none, 3, .window 0 0 0 2, 1, 1, [], [.c], [], []⟩

/-- q3 and q15 hold an element, q0 has room, q2 is empty. -/
theorem meets_ScalarQueueWords :
    let s := onWith 2 .c (fun x => { x with q3 := ⟨[(5, 90)], 0, 0⟩, q15 := ⟨[(9, 90)], 0, 0⟩ })
    s.fctx.normal = true ∧ s.Ready { guard := ⟨false, 0⟩, dsts := [(31, 1)] } ∧ (s.fctx.sq 3).head s.clk = some 5 ∧ (s.fctx.sq 15).head s.clk = some 9 ∧
    s.fctx.handler = none ∧ s.Ready { guard := ⟨false, 0⟩, srcs := [1] } ∧ (s.fctx.sq 0).full (sqDepth 0) s.clk = false ∧ (s.flush s.foc.ctx).unreleased s.foc = false ∧
    (let p := s.modFcore (fun k => { k with owed := [ownLine] })
     p.Ready { guard := ⟨false, 0⟩, srcs := [1] } ∧ (p.fctx.sq 0).full (sqDepth 0) p.clk = false ∧ (p.flush p.foc.ctx).unreleased p.foc = true) ∧
    s.Ready { guard := ⟨false, 0⟩, dsts := [(1, 1), (codeP 31, 1)] } ∧ (s.fctx.sq 2).head s.clk = none := by
  simp only [ready_iff]; decide +kernel

/-- No region is loaded in the first state, so a branch goes on to the fetch (14 R332); in the second one zeros are loaded, which are no
header. -/
theorem meets_BranchWords :
    let s := onWith 2 .c (fun x => { x with c := { x.c with pc := 42, br := [(1, 60)] } })
    let z := (on 2 .c).modFcore (fun k => { k with regions := [⟨0, .c, 0, 127, false⟩] })
    s.Ready { dsts := [(codeB 7, 1)] } ∧ s.Ready { guard := ⟨false, 0⟩, srcs := [31], dsts := [(codeB 0, 1)] } ∧
    s.isHeader (s.fstrm.branch 1).toNat = true ∧ s.Ready { guard := ⟨true, 5⟩, srcs := [codeB 1] } ∧
    s.Ready { guard := ⟨false, 0⟩, srcs := [codeB 1], dsts := [(codeB 7, 1)] } ∧ s.fstrm.pc + 2 = s.fstrm.blk + 4 + s.fstrm.len ∧
    z.Ready { guard := ⟨false, 0⟩, srcs := [codeB 2] } ∧ z.isHeader (z.fstrm.branch 2).toNat = false := by
  simp only [ready_iff]; decide +kernel

theorem meets_LoopAndStallWords :
    let q := onWith 2 .v (fun x => { x with q1 := ⟨[(3, 90)], 0, 0⟩ })
    let run := onWith 2 .a (fun x => { x with a := { x.a with tripc := 1, tailc := 2 } })
    let tail := onWith 2 .a (fun x => { x with a := { x.a with tailc := 1 } })
    (on 2 .a).Ready { srcs := [1], dsts := (List.range 16).map (fun i => (codeP (32 + i), 1)) } ∧
    q.Ready { dsts := (List.range 16).map (fun i => (codeP (32 + i), 2)), outs := [200] } ∧ q.fctx.q1.head q.clk = some 3 ∧
    (on 2 .a).Ready { srcs := [codeB 0, 200] } ∧ (on 2 .a).fstrm.tripc = 0 ∧ (on 2 .a).fstrm.tailc = 0 ∧
    run.Ready { srcs := [codeB 7, 200], dsts := [(codeP 47, 1)] } ∧ run.isHeader (run.fstrm.branch 7).toNat = true ∧ run.fstrm.tripc ≠ 0 ∧
    tail.Ready { srcs := [codeB 7, 200], dsts := [(codeP 47, 1)] } ∧ tail.isHeader (tail.fstrm.branch 7).toNat = true ∧
    tail.fstrm.tripc = 0 ∧ tail.fstrm.tailc ≠ 0 ∧ (on 2 .v).Ready {} := by
  simp only [ready_iff]; decide +kernel

/-- A result in flight that landed at the end of clk 99. -/
def flying (inter : Bool) : Pend := ⟨4, 31, .word 9, 99, inter, maskAll, 0, false⟩

theorem meets_ResultsInFlight :
    let s := onWith 2 .a (fun x => { x with a := { x.a with pend := [flying false] } })
    (on 2 .c).foc.st ≠ .v ∧ (s.strm s.foc).pend.find? (fun q => q.id == (flying false).id) = some (flying false) ∧ (flying false).land < s.clk ∧
    (during (.resultLand s.foc 4) s).cur = some (.resultLand s.foc 4) := by decide +kernel

theorem meets_LoadResults :
    let s := withPage page (onWith 2 .c (regs3 .c 0xF10000000000000A 0x60000008 0x60000FF8))
    let r := (withPage { page with home := 2, hmod := 1 } (onWith 2 .c (regs3 .c 0 0x60000010 0)))
    let l : NearLoad := ⟨s.foc, 4, .buf 1 8, 8, true⟩
    (s.core 2).poisoned 1 8 l.n = false ∧ ((s.modCore 2 (fun k => { k with near := [l] })).core 2).near = [l] ∧
    s.Ready { srcs := [1], outs := [0] } ∧ s.acquiring s.foc = false ∧ (s.rd 1 + (0xFFE#12).signExtend 64).toNat % 8 = 0 ∧
    s.resolve .read 8 (s.rd 1 + (0xFFE#12).signExtend 64) = .at (.buf 1 8) s ∧ s.placeHeld s.foc false (.buf 1 8) 8 = false ∧
    s.Ready { srcs := [2], outs := [31] } ∧ (s.rd 2 + (7#12).signExtend 64).toNat % 1 = 0 ∧
    s.resolve .read 1 (s.rd 2 + (7#12).signExtend 64) =
      .at (.mem page 0 0x10000F) (landed (s.resolve .read 1 (s.rd 2 + (7#12).signExtend 64))) ∧
    (landed (s.resolve .read 1 (s.rd 2 + (7#12).signExtend 64))).forwardCase 2 (.global 0 (homeStation 0x10000F)) 0x10000F 1 = .go ∧
    (landed (s.resolve .read 1 (s.rd 2 + (7#12).signExtend 64))).placeHeld s.foc false (.mem page 0 0x10000F) 1 = false ∧
    -- behind an SO store to another module
    (let h := s.modFcore (fun k => { k with owed := [{ owedLine with ord := 0 }] })
     h.Ready { srcs := [2], outs := [31] } ∧ h.acquiring h.foc = false ∧
     h.resolve .read 1 (h.rd 2 + (7#12).signExtend 64) = .at (.mem page 0 0x10000F) (landed (h.resolve .read 1 (h.rd 2 + (7#12).signExtend 64))) ∧
     (landed (h.resolve .read 1 (h.rd 2 + (7#12).signExtend 64))).placeHeld h.foc false (.mem page 0 0x10000F) 1 = true) ∧
    -- a remote home
    r.Ready { srcs := [2], outs := [1] } ∧ r.acquiring r.foc = false ∧ (r.rd 2 + (0xFF0#12).signExtend 64).toNat % 8 = 0 ∧
    r.resolve .read 8 (r.rd 2 + (0xFF0#12).signExtend 64) = .at (.mem { page with home := 2, hmod := 1 } 1 0x100000)
      (landed (r.resolve .read 8 (r.rd 2 + (0xFF0#12).signExtend 64))) ∧
    (landed (r.resolve .read 8 (r.rd 2 + (0xFF0#12).signExtend 64))).foc = r.foc ∧
    (landed (r.resolve .read 8 (r.rd 2 + (0xFF0#12).signExtend 64))).placeHeld r.foc false (.mem { page with home := 2, hmod := 1 } 1 0x100000) 8 = false ∧
    (landed (r.resolve .read 8 (r.rd 2 + (0xFF0#12).signExtend 64))).forwardCase 2 (.global 1 (homeStation 0x100000)) 0x100000 8 = .go := by
  simp only [ready_iff]; decide +kernel

theorem meets_StoreResults :
    let s := withPage page (onWith 2 .a (regs3 .a 0xF100000000000000 0x60000008 0x1122334455667788))
    s.Ready { srcs := [1, 3] } ∧ s.acquiring s.foc = false ∧ (s.rd 1 + (6#12).signExtend 64).toNat % 2 = 0 ∧
    s.resolve .write 2 (s.rd 1 + (6#12).signExtend 64) = .at (.buf 1 6) s ∧ s.placeHeld s.foc true (.buf 1 6) 2 = false ∧
    (landed (s.resolve .write 8 (s.rd 2 + (0xFF8#12).signExtend 64))).placeHeld s.foc true (.mem page 0 0x100000) 8 = false ∧
    ((landed (s.resolve .write 8 (s.rd 2 + (0xFF8#12).signExtend 64))).flush s.foc.ctx).placeHeld s.foc true (.mem page 0 0x100000) 8 = false ∧
    -- behind an SO store to another module
    (let h := s.modFcore (fun k => { k with owed := [{ owedLine with ord := 0, by_ := [.a] }] })
     h.Ready { srcs := [2, 3] } ∧ h.acquiring h.foc = false ∧
     h.resolve .write 8 (h.rd 2 + (0xFF8#12).signExtend 64) = .at (.mem page 0 0x100000) (landed (h.resolve .write 8 (h.rd 2 + (0xFF8#12).signExtend 64))) ∧
     (landed (h.resolve .write 8 (h.rd 2 + (0xFF8#12).signExtend 64))).placeHeld h.foc true (.mem page 0 0x100000) 8 = true) ∧
    s.Ready { srcs := [2, 3] } ∧ (s.rd 2 + (0xFF8#12).signExtend 64).toNat % 8 = 0 ∧
    s.resolve .write 8 (s.rd 2 + (0xFF8#12).signExtend 64) =
      .at (.mem page 0 0x100000) (landed (s.resolve .write 8 (s.rd 2 + (0xFF8#12).signExtend 64))) ∧
    -- a line whose credit has not returned holds a release back
    ((landed (s.resolve .write 8 (s.rd 2 + (0xFF8#12).signExtend 64))).flush s.foc.ctx).performed s.foc 4 false = true ∧
    (let p := s.modFcore (fun k => { k with owed := [owedLine] })
     p.Ready { srcs := [2, 3] } ∧ p.acquiring p.foc = false ∧ p.resolve .write 8 (p.rd 2) = .at (.mem page 0 0x100008) (landed (p.resolve .write 8 (p.rd 2))) ∧
     ((landed (p.resolve .write 8 (p.rd 2))).flush p.foc.ctx).performed p.foc 4 false = false) := by
  simp only [ready_iff]; decide +kernel

theorem meets_MisalignedAccessTraps :
    let s := onWith 2 .c (regs3 .c 0x60000008 0 0)
    s.Ready { srcs := [1], outs := [31] } ∧ (s.rd 1 + (0xFFF#12).signExtend 64).toNat % 2 ≠ 0 ∧ (s.rd 1 + (2#12).signExtend 64).toNat % 4 ≠ 0 ∧
    (s.rd 1 + (4#12).signExtend 64).toNat % 8 ≠ 0 ∧ s.Ready { srcs := [1, 0] } ∧
    (let t := onWith 2 .c (regs3 .c 0x60000004 0 0)
     t.Ready { guard := ⟨false, 0⟩, srcs := [1, 2], outs := [3] } ∧ (t.rd 1).toNat % 8 ≠ 0) := by
  simp only [ready_iff]; decide +kernel

theorem meets_AtomicResults :
    let s := withPage page (onWith 2 .c (regs3 .c 0x6000FFF8 5 0))
    (s.rd 1).toNat % 8 = 0 ∧ s.acquiring s.foc = false ∧
    s.resolve .atomic 8 (s.rd 1) = .at (.mem page (modOf s.foc.ctx.core) 0x10FFF8) (landed (s.resolve .atomic 8 (s.rd 1))) ∧
    (landed (s.resolve .atomic 8 (s.rd 1))).forwardCase 2 (.global 0 (homeStation 0x10FFF8)) 0x10FFF8 8 = .go ∧
    (landed (s.resolve .atomic 8 (s.rd 1))).placeHeld s.foc true (.mem page (modOf s.foc.ctx.core) 0x10FFF8) 8 = false ∧
    s.Ready { guard := ⟨false, 0⟩, srcs := [1, 2], outs := [0] } ∧ s.Ready { guard := ⟨false, 0⟩, srcs := [1, 2, 3], outs := [3] } := by
  simp only [ready_iff]; decide +kernel

/-- Offsets of the last word and of the first beyond 8 KiB. -/
theorem meets_SpillAndFenceWords :
    let p := (on 2 .c).modFcore (fun k => { k with owed := [owedLine] })
    (on 2 .a).Ready { outs := [31] } ∧ 1023 * 8 + 8 ≤ 8192 ∧ 8192 < 1024 * 8 + 8 ∧ 4095 * 1 + 1 ≤ 8192 ∧ 8192 < 4095 * 4 + 4 ∧
    (on 2 .a).Ready { srcs := [0] } ∧ (on 2 .c).Ready {} ∧ owedLine ∈ (p.core p.foc.ctx.core).owed ∧ owedLine.bank = p.foc.ctx.bank ∧
    owedLine.eng = none ∧ p.foc.st ∈ owedLine.by_ ∧ destInScope p.foc.ctx.core 4 owedLine.dest = true ∧ owedLine.ord ≠ 2 ∧
    (let w := p.fenceOf p.foc 4 false
     (w.rd 1 + (0#12).signExtend 64).toNat % 8 = 0 ∧ w.acquiring w.foc = true ∧ w.Ready { srcs := [1], outs := [2] } ∧
     w.Ready { srcs := [1, 2] }) := by
  simp only [ready_iff]; decide +kernel

/-- A store and a load that issue. -/
theorem meets_MemoryFrame :
    let s := withPage page (onWith 2 .c (regs3 .c 0x60000008 7 0))
    exec (.st 0 1 2) s = .next (after (exec (.st 0 1 2) s)) ∧ exec (.ldB 0 1 3) s = .next (after (exec (.ldB 0 1 3) s)) := ⟨rfl, rfl⟩

/-- A table for a job at stations 0: VA 0x6000_0000 and 0x6001_0000 stand at addresses 0x10_0000 and 0x11_0000, readable, writable and
executable (09 R221 to R224). -/
def withTable (job : Nat) (s : State) : State :=
  let put (m : Memory) (e : Nat × Nat) : Memory := Memory.writeN m e.1 (bytesLE 16 e.2)
  let t : State := { s with mem := [(0x200000, 0x21000001), (0x210000, 0x22000001), (0x220060, 0x23000001), (0x230000, 0x1000003B), (0x230010, 0x1100003B)].foldl put s.mem }
  t.modSta 0 (fun x => { x with jroot := [(job, 0x200001)] })

theorem meets_SpecialRegisterWords :
    let h := onWith 2 .c (fun x => { x with trapc := withField x.trapc 44 2 1 })
    (on 2 .c).Ready { outs := [31] } ∧ (on 2 .c).Ready { dsts := [(31, 2)] } ∧ srHandler 0x11F = false ∧ srHandler 0x01C = true ∧
    h.fctx.normal = false ∧ h.Ready { dsts := [(0, 2)] } ∧ srHandler 0x026 = true ∧ (on 2 .c).fctx.normal = true ∧ (on 2 .c).Ready { srcs := [31] } := by
  simp only [ready_iff]; decide +kernel

/-- A unit of a die with two parties, one of them to come. -/
theorem meets_BarrierWords :
    let u : BarUnit := ⟨7, 2, 0, 31⟩
    let s (count : Nat) : State := { on 2 .c with bars := [(u, ⟨2, count, 4, 90, []⟩)] }
    let arrived (p : Nat) (b : Bool) : State := (s 0).modF (fun x => (x.setParty u (p, true)).putStrm .c { x.c with begun := b })
    let late : State := (s 0).modFcore (fun k => { k with owed := [owedLine] })
    (s 0).barUnit 2 31 = u ∧ (s 0).fctx.normal = true ∧ (s 0).Ready {} ∧ (s 0).bar u = some ⟨2, 0, 4, 90, []⟩ ∧ (s 0).fctx.party u = none ∧
    ((s 0).flush (s 0).foc.ctx).performed (s 0).foc 2 false = true ∧ (s 0).pairName (s 0).foc.ctx = none ∧ 0 + 1 < 2 ∧
    -- a store of the stream still on its way
    late.Ready {} ∧ late.bar u = some ⟨2, 0, 4, 90, []⟩ ∧ late.fctx.party u = none ∧ (late.flush late.foc.ctx).performed late.foc 2 false = false ∧
    (s 1).bar u = some ⟨2, 1, 4, 90, []⟩ ∧ 2 ≤ 1 + 1 ∧
    (arrived 3 true).fctx.party u = some (3, true) ∧ 3 < 4 ∧ 90 ≤ (arrived 3 true).clk ∧ (arrived 4 true).fctx.party u = some (4, true) ∧ (arrived 3 true).Ready {} ∧ (arrived 3 true).fstrm.begun = true ∧
    -- misuse: no unit, a second arrival in the phase, no arrival
    (on 2 .c).bar ((on 2 .c).barUnit 1 0) = none ∧ (arrived 4 false).fctx.party u = some (4, true) ∧ (on 2 .c).fctx.party u = none := by
  simp only [ready_iff]; decide +kernel

/-- Whether an access leads to register space. -/
def toRegs : Resolve → Bool
  | .at (.regs _) _ => true
  | .at _ _ => false
  | .stop _ => false

theorem meets_WaitWords :
    let s (t : Word) : State := onWith 2 .a (regs3 .a t 0 0)
    let w (v : Word) : State := withPage page (onWith 2 .c (regs3 .c 0x60000000 v 0))
    let q (h : Hold) : State := onWith 2 .c (fun x => { x with c := { x.c with hold := h } })
    let d (t : Word) : Nat := (((s t).rd 1).toNat % 2 ^ 48 + 2 ^ 48 - ((s t).cyc 2).toNat % 2 ^ 48) % 2 ^ 48
    (s 100).Ready { srcs := [1] } ∧ d 100 = 0 ∧ d 99 = 2 ^ 48 - 1 ∧ d 101 = 1 ∧ d 102 = 2 ∧ d (2 ^ 47 + 100) = 2 ^ 47 ∧ (s 100).fctx.copyPending 0 = false ∧
    (w 7).Ready { srcs := [1, 2], outs := [2] } ∧ ((w 7).rd 1).toNat % 8 = 0 ∧ wfield ((w 7).rd 1) 56 8 = 0 ∧ (w 7).acquiring (w 7).foc = false ∧
    (w 7).resolve .read 8 ((w 7).rd 1) = .at (.mem page 0 0x100000) (landed ((w 7).resolve .read 8 ((w 7).rd 1))) ∧
    BitVec.ofNat 64 (Memory.readLE (landed ((w 7).resolve .read 8 ((w 7).rd 1))).mem (memKey 0 0x100000) 8) ≠ (landed ((w 7).resolve .read 8 ((w 7).rd 1))).rd 2 ∧
    BitVec.ofNat 64 (Memory.readLE (landed ((w 0).resolve .read 8 ((w 0).rd 1))).mem (memKey 0 0x100000) 8) = (landed ((w 0).resolve .read 8 ((w 0).rd 1))).rd 2 ∧
    (landed ((w 7).resolve .read 8 ((w 7).rd 1))).placeHeld (w 7).foc false (.mem page 0 0x100000) 8 = false ∧
    -- register space
    (let r := (onWith 2 .c (fun x => regs3 .c 0x60000000 0 0 { x with job := 0 })).modFcore (fun k =>
       { k with tlb := [⟨0, 0, 0x6000, { page with home := 3, pfn := 0xF00000000 }⟩] })
    
     r.Ready { srcs := [1, 2], outs := [2] } ∧ (r.rd 1).toNat % 8 = 0 ∧ wfield (r.rd 1) 56 8 = 0 ∧ r.acquiring r.foc = false ∧
     toRegs (r.resolve .read 8 (r.rd 1)) = true) ∧
    (landed ((w 7).resolve .read 8 ((w 7).rd 1))).forwardCase 2 (.global 0 (homeStation 0x100000)) 0x100000 8 = .go ∧
    (landed ((w 7).resolve .read 8 ((w 7).rd 1))).fstrm.fetch = none ∧ modOf (landed ((w 7).resolve .read 8 ((w 7).rd 1))).foc.ctx.core = 0 ∧
    (q .no).Ready { feature := some 3 } ∧ (q .no).fctx.handler = none ∧ (q .no).fstrm.hold ≠ .passed ∧
    (q .passed).Ready { feature := some 3 } ∧ (q .passed).fstrm.hold = .passed := by
  simp only [ready_iff]; decide +kernel

/-- SIGNAL to core 10 and to no core; SEND of four lines from the end of X below the inboxes' entry; HRET with and without a handler. -/
theorem meets_MessageWords :
    let s := onWith 2 .c (regs3 .c 0x000A 0x000B 0)
    let m := onWith 2 .c (regs3 .c 0x0000C0000000000A 0x2FFF00 0)
    let h := onWith 2 .c (fun x => { x with handler := some 31 })
    s.Ready { srcs := [1] } ∧ wfield (s.rd 1) 0 4 ≤ 10 ∧ s.pod.mods.contains (wfield (s.rd 1) 8 6) = true ∧ 11 ≤ wfield (s.rd 2) 0 4 ∧
    m.Ready { feature := some 3, guard := ⟨false, 0⟩, srcs := [1, 2] } ∧ (m.rd 2).toNat % 64 = 0 ∧ 64 * (wfield (m.rd 1) 46 2 + 1) = 256 ∧
    (m.rd 2).toNat + 256 ≤ 0x300000 ∧ (kindOf 2).ctl = false ∧
    (linesOf (m.rd 2).toNat 256).all (fun l => entV (m.entryAt m.foc.ctx 1 (64 * l)) && entAv (m.entryAt m.foc.ctx 1 (64 * l))) = true ∧
    wfield (m.rd 1) 0 4 ≤ 10 ∧ m.pod.mods.contains (wfield (m.rd 1) 8 6) = true ∧ m.acquiring m.foc = false ∧
    (m.flush m.foc.ctx).performed m.foc 4 false = true ∧ (m.flush m.foc.ctx).unsent 2 < 16 ∧ ((m.flush m.foc.ctx).core 2).poisoned 1 0x2FFF00 256 = false ∧
    (on 2 .c).Ready { feature := some 3, guard := ⟨false, 0⟩ } ∧ (on 2 .c).fctx.handler = none ∧ (on 2 .c).fctx.normal = true ∧
    h.Ready { feature := some 3, guard := ⟨false, 0⟩ } ∧ h.fctx.handler = some 31 ∧ (h.flush h.foc.ctx).performed h.foc 4 false = true ∧
    ((m.flush m.foc.ctx).core 2).sends = [] ∧
    (let p := m.modFcore (fun k => { k with owed := [owedLine] })
     p.performed p.foc 4 false = false ∧ m.performed m.foc 4 false = true ∧ p.jobState (stationOf p.foc.ctx.core) 21 ≠ .closing ∧ owedLine ∈ (p.core p.foc.ctx.core).owed ∧
     owedLine.bank = p.foc.ctx.bank ∧ owedLine.eng = none ∧ owedLine.ord ≠ 2) := by
  simp only [ready_iff]; decide +kernel

/-- In handler mode after an ALIGN of the A stream. -/
theorem meets_TrapAndReturnWords :
    let h := onWith 2 .c (fun x => { x with trapc := 0x0700500000000000 })
    (on 2 .c).Ready {} ∧ (on 2 .c).fctx.normal = true ∧ h.fctx.normal = false ∧ h.Ready {} ∧ skippable h.fctx.trapc = true ∧
    wfield h.fctx.trapc 46 2 = 1 := by
  simp only [ready_iff]; decide +kernel

theorem meets_WaypointAndRetireWords :
    let s := on 2 .c
    let t := s.flush s.foc.ctx
    s.fctx.normal = true ∧ s.Ready {} ∧ s.fctx.handler = none ∧ s.fstrm.begun = false ∧ t.fctx.guarded = false ∧
    t.fctx.stopReq = false ∧ t.isLate s.foc.ctx = false ∧ s.fctx.eng.idle = true ∧
    (t.core 2).comb.any (fun q => q.bank == 0) = false ∧ (t.core 2).mirrors.any (fun q => q.2.job == s.fctx.job) = false ∧
    (let g := onWith 2 .c (fun x => { x with guarded := true, atWay := some 7, waypoint := some 7, ways := 1, c := { x.c with begun := true } })
     g.fctx.normal = true ∧ g.Ready {} ∧ g.fctx.handler = none ∧ g.fstrm.begun = true ∧ g.fctx.guarded = true ∧ g.fctx.stopReq = false ∧
     g.isLate g.foc.ctx = false ∧ g.foc.ctx.bank < 2 ∧ (g.fellows g.foc.ctx).all (g.reached g.fctx 7) = true ∧
     (let o := g.putCtx ⟨5, 0⟩ someCtx
      o.foc = g.foc ∧ o.fctx = g.fctx ∧ (o.fellows o.foc.ctx).all (o.reached o.fctx 7) = false)) := by
  simp only [ready_iff]; decide +kernel

/-- The header, the parcel entry and the edition entry of a plat of one parcel (05 R119 to R121; the values of chapter 19). -/
def platImage : List Byte :=
  bytesLE 4 1 ++ bytesLE 4 0 ++ bytesLE 8 9 ++ bytesLE 2 21 ++ bytesLE 2 1 ++ bytesLE 2 1 ++ bytesLE 2 0 ++ bytesLE 4 0 ++ bytesLE 4 16384 ++
  bytesLE 8 0x200 ++ bytesLE 8 0x240 ++ bytesLE 8 0x248 ++ List.replicate 456 0 ++
  bytesLE 8 0xF2000 ++ bytesLE 8 0 ++ bytesLE 8 0x60010000 ++ List.replicate 16 0 ++ bytesLE 8 0x10000 ++ List.replicate 16 0 ++ bytesLE 8 0x3100000000

/-- On the dispatch core, job 0. MREPAIR of a station of the pod (KIND 0) and of none (KIND 3). -/
theorem meets_LaunchAndRepairWords :
    let s := withTable 0 ((on 8 .c).modF (fun x => regs3 .c 0x60000000 2000000 0x30000000 { x with job := 0 }))
    let l : State := { s with mem := Memory.writeN s.mem 0x100000 platImage }
    let t := l.flush l.foc.ctx
    l.fctx.job = 0 ∧ kindOf l.foc.ctx.core = .dispatch ∧ l.Ready { guard := ⟨false, 0⟩, srcs := [1, 2], outs := [31] } ∧
    t.performed l.foc 4 false = true ∧
    (let p := l.modFcore (fun k => { k with owed := [owedLine] })
     p.Ready { guard := ⟨false, 0⟩, srcs := [1, 2], outs := [31] } ∧ (p.flush p.foc.ctx).performed p.foc 4 false = false ∧
     (match (p.flush p.foc.ctx).readImage p.foc.ctx (wfield ((p.flush p.foc.ctx).rd 1) 0 56) ((p.flush p.foc.ctx).rd 2).toNat with | .ok _ => true | .bad _ => false) = true) ∧
    (match t.readImage l.foc.ctx (wfield (t.rd 1) 0 56) (t.rd 2).toNat with | .ok _ => true | .bad _ => false) = true ∧
    l.Ready { srcs := [3], outs := [0] } ∧ wfield (l.rd 3) 28 2 = 3 ∧
    ¬ (wfield (l.rd 0) 28 2 = 3 ∨ 12 ≤ wfield (l.rd 0) 18 4 ∨ l.pod.mods.contains (wfield (l.rd 0) 22 6) = false) := by
  simp only [ready_iff]; decide +kernel

theorem meets_ActiveElements :
    ([7, 8] : List Elem)[1]? = some 8 ∧ ([1, 2] : List Elem)[1]? = some 2 ∧ (BitVec.twoPow 1024 1).getLsbD 1 = true ∧ (BitVec.twoPow 1024 1).getLsbD 0 = false ∧
    (⟨0, 31, .vec [1, 2], 5, false, BitVec.twoPow 1024 1, 0, false⟩ : Pend).val = .vec [1, 2] ∧ BitVec.twoPow 1024 1 ≠ maskAll := by decide +kernel

theorem meets_FloatElementWords :
    let s := on 2 .v
    s.Ready { guard := ⟨true, 5⟩, srcs := [1, 31], dsts := [(0, s.lat 4)] } ∧ s.Ready { guard := ⟨false, 0⟩, srcs := [0], dsts := [(31, s.lat 4)] } ∧
    s.fctx.hasFeature 0 = true ∧ s.Ready { guard := ⟨false, 0⟩, srcs := [1], dsts := [(1, s.lat 10)] } ∧
    s.Ready { guard := ⟨false, (0#4).setWidth 6⟩, srcs := [1, 2, 31], dsts := [(31, s.lat 4)] } := by
  simp only [ready_iff]; decide +kernel

theorem meets_IntegerElementWords :
    let s := on 2 .v
    s.Ready { guard := ⟨false, 0⟩, srcs := [1, 31], dsts := [(0, 2)] } ∧ s.Ready { srcs := [1, 31], dsts := [(codeP 47, s.lat 4)] } ∧
    s.Ready { srcs := [0, 1], dsts := [(codeP 1, 2)] } ∧ s.Ready { srcs := [codeP 47, 1, 2], dsts := [(31, 2)] } := by
  simp only [ready_iff]; decide +kernel

theorem meets_MoveAndReduceWords :
    let s := on 2 .v
    s.Ready { srcs := [31], dsts := [(31, 2)] } ∧ s.Ready { srcs := [0], dsts := [(1, 6)] } ∧ s.Ready { srcs := [1], dsts := [(0, 8)] } ∧
    s.Ready { srcs := [1], dsts := [(0, s.lat 8)] } ∧ s.Ready { srcs := [1], dsts := [(31, s.lat 12)] } ∧ s.Ready { dsts := [(31, 2)] } ∧ s.foc.st = .v := by
  simp only [ready_iff]; decide +kernel

theorem meets_VectorImmediateWords : (on 2 .v).Ready { dsts := [(31, 2)] } ∧ (on 2 .v).faultyGroups 2 = [] := by
  simp only [ready_iff]; decide +kernel

/-- Rows that can be read. -/
def grans (n : Nat) (e : Elem) : DataQ := ⟨(List.range n).map (fun i => ⟨i, some (List.replicate 64 e), 90⟩), 0, 0⟩

theorem meets_VectorQueueAndSpillWords :
    let s := onWith 2 .v (fun x => { x with q4 := grans 16 9, q1 := ⟨[(5, 90)], 0, 0⟩ })
    s.Ready { outs := [31] } ∧ (s.fctx.dq 4).heads 16 s.clk = some (List.replicate 16 (List.replicate 64 9)) ∧ s.Ready { srcs := [31] } ∧
    (s.fctx.dq 9).room 16 s.clk = true ∧ s.fctx.q3.full 8 s.clk = false ∧ s.fctx.q1.head s.clk = some 5 ∧ s.Ready { dsts := [(0, 3)] } ∧
    (304#12).toNat ≤ 304 ∧ 304 < (305#12).toNat := by
  simp only [ready_iff]; decide +kernel

/-- d1 and d2 carry tag bit 0 with one stamp, d3 carries bit 1. -/
def withDregs (x : Ctx) : Ctx :=
  let d (t l : BitVec 16) : DReg := { DReg.zero with tag := t, lin := l }
  { x with vf := { x.vf with dregs := [(1, d 1 3), (2, d 1 3), (3, d 2 4)] } }

theorem meets_DistributionResults :
    let s := onWith 2 .v withDregs
    let q := onWith 2 .v (fun x => { x with q5 := grans 12 0 })
    dCase (s.fctx.dreg 1) (s.fctx.dreg 2) = .lockstep ∧ s.Ready { feature := some 2, srcs := [codeD 1, codeD 2], dsts := [(codeD 15, s.lat 8)] } ∧
    dCase (s.fctx.dreg 1) (s.fctx.dreg 3) = .independent ∧
    s.Ready { feature := some 2, srcs := [codeD 1, codeD 3], dsts := [(codeD 0, s.lat 24)], pairing := true } ∧
    s.Ready { feature := some 2, srcs := [codeD 1, 31], dsts := [(codeD 1, s.lat 6)] } ∧ s.Ready { feature := some 2, srcs := [codeD 1], dsts := [(codeD 1, s.lat 6)] } ∧
    s.Ready { feature := some 2, srcs := [31], dsts := [(codeD 15, 2)] } ∧ s.Ready { feature := some 2, srcs := [1], dsts := [(codeD 1, s.lat 6)] } ∧
    q.Ready { feature := some 2, outs := [codeD 15] } ∧ (q.fctx.dq 5).heads 12 q.clk = some (List.replicate 12 (List.replicate 64 0)) ∧
    s.Ready { feature := some 2, srcs := [codeD 0] } ∧ (s.fctx.dq 8).room 12 s.clk = true := by
  simp only [ready_iff]; decide +kernel

theorem meets_DistributionReadsAndStatus :
    let s := onWith 2 .v withDregs
    s.Ready { feature := some 2, srcs := [codeD 15], dsts := [(31, s.lat 12)] } ∧ s.Ready { feature := some 2, srcs := [codeD 1, 0], dsts := [(0, s.lat 14)] } ∧
    s.Ready { feature := some 2, srcs := [codeD 1], dsts := [(codeD 1, 2)] } ∧ (1#16) ≠ 0 ∧ s.Ready { feature := some 2 } ∧ s.fctx.q3.full 8 s.clk = false := by
  simp only [ready_iff]; decide +kernel

/-- What locating an access gives. -/
def spotsOf : Nat × Located → List Spot
  | (_, .at xs _) => xs
  | (_, .stop _) => []

def locatedState : Nat × Located → State
  | (_, .at _ s) => s
  | (_, .stop _) => State.reset

def isAt : Nat × Located → Bool
  | (_, .at _ _) => true
  | (_, .stop _) => false

theorem at_of (r : Nat × Located) (h : isAt r = true) : r = (r.1, .at (spotsOf r) (locatedState r)) := by
  rcases r with ⟨f, x⟩; cases x <;> simp_all [isAt, spotsOf, locatedState]

/-- Index lanes: lane 0 at the base, the others inactive (15 R364). -/
def oneLane : List Elem := 0 :: List.replicate 63 0x80000000

/-- A unit of one row that lies where it is given, and a word of it in the request order. -/
def oneSpot (p : Place) : Spot := ⟨⟨0, 256, 0, 0⟩, p, 0, 0, 1⟩

def oneUnit (p : Place) : ApUnit := ⟨0, none, [oneSpot p], none⟩

def apWordOf (k : ApKind) (p : Place) : ApWord :=
  ⟨1, ⟨2, 0⟩, k, 0, 1, [oneUnit p], [List.replicate 64 7], 0, none, none, none, [], 100, false⟩

/-- Sixteen words in the request order, none of them done. -/
def orderFilled (s : State) : State := s.modFcore (fun k => { k with ap := List.replicate 16 (apWordOf .store (.buf 1 0)) })

/-- Rows and lanes that can be located, rows of X, a full order, a full queue, no index granules, a row that is not aligned. -/
theorem meets_VectorLoadWords :
    let s := withPage page (onWith 2 .a (fun x => regs3 .a 0x60000000 0xF100000000000000 0x60000002 { x with q8 := ⟨[⟨0, some oneLane, 90⟩], 0, 0⟩ }))
    let z := s.modF (fun x => { x with q4 := grans 64 7 })
    let i : StreamId := ⟨s.foc.ctx, .a⟩
    isAt (s.locateRows .read 1 0 1) = true ∧ isAt (s.locateRows .read 2 0 1) = true ∧ isAt (s.locateLanes .read 1 [oneLane]) = true ∧
    s.orderFull = false ∧ (s.fctx.dq 4).room 1 s.clk = true ∧ s.Ready { srcs := [1, 0] } ∧ s.Ready { srcs := [1] } ∧
    (s.fctx.dq 8).heads 1 s.clk = some [oneLane] ∧ (s.fctx.dq 9).heads 1 s.clk = none ∧
    (orderFilled s).orderFull = true ∧ (orderFilled s).Ready { srcs := [1, 0] } ∧ z.orderFull = false ∧ (z.fctx.dq 4).room 1 z.clk = false ∧
    (oneSpot (.buf 1 0)).p.g = 0 ∧ s.fctx.displaced = false ∧ s.fcore.poisoned 1 0 256 = false ∧ s.fcore.ap = [] ∧ s.fcore.apFree ≤ s.clk ∧
    (s.fctx.dq 4).items = [] ∧ s.soFlight i none = false ∧ s.fcore.ownMeets i false (.buf 1 0) 256 = false ∧
    s.Ready { srcs := [3, 0] } ∧ s.locateRows .read 3 0 64 = (0, .stop (.trap 0x07 0x60000002)) ∧
    (s.fctx.dq 8).room 64 s.clk = false ∧ (s.fctx.dq 4).room 64 s.clk = true ∧ s.locateRows .write 3 0 1 = (0, .stop (.trap 0x07 0x60000002)) := by
  simp only [ready_iff]; decide +kernel

theorem meets_VectorStoreWords :
    let s := withPage page (onWith 2 .a (fun x => regs3 .a 0x60000000 0 0 { x with q8 := grans 64 7, q9 := ⟨[⟨0, some oneLane, 90⟩], 0, 0⟩ }))
    let w (k : ApKind) (p : Place) : Bool := (apWordOf k p).units == [oneUnit p] && (apWordOf k p).data[(oneUnit p).g]? == some (List.replicate 64 7)
    let m : Place := .mem page 0 0x100000
    isAt (s.locateRows .write 1 0 2) = true ∧ s.orderFull = false ∧ s.Ready { srcs := [1, 0] } ∧ s.Ready { srcs := [1] } ∧
    (s.fctx.dq 8).heads 2 s.clk = some [List.replicate 64 7, List.replicate 64 7] ∧ (s.fctx.dq 4).heads 2 s.clk = none ∧
    (s.fctx.dq 9).heads 1 s.clk = some [oneLane] ∧ (s.fctx.dq 8).heads 1 s.clk = some [List.replicate 64 7] ∧
    isAt (s.locateLanes .write 1 [oneLane]) = true ∧ isAt (s.locateLanes .atomic 1 [oneLane]) = true ∧
    w .store (.buf 1 0) = true ∧ w (.atomic true) m = true ∧ s.foc = ⟨(apWordOf .store m).ctx, .a⟩ ∧
    s.soFlight s.foc ((Place.buf 1 0).station (modOf 2)) = false ∧ (s.core 2).ownMeets s.foc true (.buf 1 0) 256 = false ∧
    s.soFlight s.foc (m.station (modOf 2)) = false ∧ s.forwardCase 2 (.global 0 (homeStation 0x100000)) 0x100000 64 = .go := by
  simp only [ready_iff]; decide +kernel

theorem meets_TranslationProbes :
    let s := withTable 21 (onWith 2 .a (regs3 .a 0x60000000 0xF100000000000000 0x70000000))
    let p := withPage page (onWith 2 .a (regs3 .a 0x60000000 0 0))
    s.Ready { srcs := [2] } ∧ decodeEa .compute (s.rd 2 + (0#12).signExtend 64) 1 = .buf 1 0 ∧ s.Ready { srcs := [3] } ∧
    decodeEa .compute (s.rd 3 + (0#12).signExtend 64) 1 = .glob 0x70000000 ∧ s.walk 2 21 .prefetch 0x70000000 = .fault 1 2 0 ∧
    s.Ready { srcs := [1] } ∧ decodeEa .compute (s.rd 1 + (0xFFF#12).signExtend 64) 1 = .glob 0x5FFFFFFF ∧
    (match s.walk 2 21 .prefetch 0x60000000, s.translate s.foc.ctx 1 .prefetch 0x60000000 with | .ok l, .leaf m _ => l == m | _, _ => false) = true ∧
    s.Ready { srcs := [1], outs := [31] } ∧ decodeEa .compute (p.rd 1) 1 = .glob 0x60000000 ∧ p.fcore.tlbHit p.fctx.job 0x60000000 = some page ∧
    p.acquiring p.foc = false := by
  simp only [ready_iff]; decide +kernel

/-- CLD of record 0 of the set that will be live; one whose record is not set up raises ILLEGAL; PUSH of the word of MCLR. -/
theorem meets_EngineCommandWords :
    let e : EngArgs := ⟨false, 0, 0, 2, 1⟩
    let w : Cmd := ⟨.load, 0, 0, e⟩
    let s := onWith 2 .c (fun x => regs3 .c 0 0 0x00020931 { x with eng := { x.eng with copySet := ⟨[(1, 0x0000004000000040), (3, 0x400040)], []⟩ } })
    let h := s.modF (fun x => { x with trapc := withField x.trapc 44 2 1 })
    let p := s.modFcore (fun k => { k with owed := [ownLine] })
    let g := s.modF (fun x => { x with eng := { x.eng with loadQ := List.replicate 64 ⟨0, 0, true, 2, 1, 0, 0, 5, 90, 3, 0, [], ⟨0, 0, true, 2, 1, 0, 0⟩⟩ } })
    s.fctx.normal = true ∧ s.Ready { srcs := [1, 2] } ∧ s.fctx.eng.full .load s.clk = false ∧ s.ownPending s.foc = false ∧
    s.acquirePending s.foc = false ∧ s.pushCheck w (s.rd 1) (s.rd 2) = none ∧
    -- a handler mode, a full queue, a store on its way
    h.fctx.normal = false ∧ h.Ready { srcs := [1, 2] } ∧ h.cmdIllegal w (h.rd 1) (h.rd 2) = false ∧ (h.cmdNeed w).feature = none ∧
    g.fctx.normal = true ∧ g.Ready { srcs := [1, 2] } ∧ g.pushCheck w (g.rd 1) (g.rd 2) = none ∧ g.fctx.eng.full .load g.clk = true ∧
    p.Ready { srcs := [1, 2] } ∧ p.pushCheck w (p.rd 1) (p.rd 2) = none ∧ p.fctx.eng.full .load p.clk = false ∧ (p.ownPending p.foc || p.acquirePending p.foc) = true ∧
    (on 2 .c).Ready { srcs := [1, 2] } ∧ (on 2 .c).pushCheck w 0 0 = some (0x01, 0) ∧ (on 2 .c).fctx.normal = true ∧
    (decode32 .compute .c ((s.rd 3).setWidth 32)).toOption = some (.mclr e) ∧ s.Ready { guard := ⟨false, 0⟩, srcs := [3, 1, 2] } := by
  simp only [ready_iff]; decide +kernel

theorem meets_TokenSetupAndSlotWords :
    let s := onWith 2 .c (fun x => regs3 .c 0 5 0x203 { x with tokens := [(1, 1)] })
    let k (h : Option Nat) (l : Option (BitVec 12)) : State := s.modFcore (fun k => { k with slots := [(23, ⟨0, 0, h, l⟩)] })
    s.fctx.normal = true ∧ (s.modF (fun x => { x with trapc := withField x.trapc 44 2 1 })).fctx.normal = false ∧
    s.Ready { guard := ⟨false, 0⟩ } ∧ s.fctx.token 1 ≠ 0 ∧ s.fctx.eng.claims 1 = false ∧ ¬ (s.fctx.token 4 ≠ 0 ∧ s.fctx.eng.claims 4 = false) ∧
    s.Ready { guard := ⟨false, 0⟩, dsts := [(codeP 31, 1)] } ∧ s.Ready { guard := ⟨false, 0⟩, srcs := [3, 2] } ∧
    setupWords .compute (wfield (s.rd 3) 8 4) = some (.row, 4) ∧ wfield (s.rd 3) 0 8 < 4 ∧ s.fctx.eng.swaps .row = 0 ∧
    s.Ready { dsts := [(31, 2)] } ∧ 23 < 24 ∧ (Sp.get SlotInfo.reset s.fcore.slots 24).last = none ∧
    (Sp.get SlotInfo.reset (k (some 0) (some 21)).fcore.slots 23).holder = some 0 ∧ (k (some 1) (some 9)).Ready { dsts := [(0, 2)] } ∧
    (Sp.get SlotInfo.reset (k none (some 21)).fcore.slots 23).last = some (k none (some 21)).fctx.job ∧
    (k none (some 9)).Ready { dsts := [(31, 66)] } ∧ (Sp.get SlotInfo.reset (k none (some 9)).fcore.slots 23).last = some 9 ∧
    s.fcore.holds 0 23 = false ∧ (k (some 0) (some 21)).fcore.holds 0 23 = true ∧ (k (some 0) (some 21)).fctx.eng.names 23 = false := by
  simp only [ready_iff]; decide +kernel

/-- A plat of one parcel on die 0, core 2 that runs. -/
def somePlat : PlatRec :=
  { plat := 7, bank := 0, core := 8, va := 0x60000000, job := 21, prio := 1, ckpt := true, frame := 4096, start := 8388608, params := [],
    preds := [], ckptVa := 0x60010000, parcels := [⟨0, 0, 0, 2, none, 0, 0, 0, 0, ⟨0, 1, 0⟩, ⟨0, 0, 0⟩, ⟨0, 0, 0⟩⟩], edits := [(0, 0, 1)], res := [],
    code := 2, detail := 0, k := 0, since := 0, age := 0, asked := none, verdicts := [], ended := [], stopped := none, late := false,
    ckptAt := none, recoverable := false, banks := [], loads := [], wpmax := 0 }

/-- The die 0 with that plat changed. -/
def withPlat (f : PlatRec → PlatRec) (s : State) : State := s.modDie 0 (fun d => { d with plats := [f somePlat] })

/-- A C stream alone at waypoint 5, whose map has one entry for it without locations (06 R157). -/
def atRecord (f : Ctx → Ctx) : State :=
  let s := withPlat id (withTable 21 (onWith 2 .c (fun x => f (regs3 .c 0x60000000 0 0
    { x with waypoint := some 5, a := StreamSt.reset, v := StreamSt.reset }))))
  let m := Memory.writeN s.mem 0x100000 (bytesLE 8 0x60001000 ++ bytesLE 8 0x60002000)
  { s with mem := Memory.writeN m 0x102000 (bytesLE 4 5 ++ List.replicate 12 0 ++ bytesLE 4 0xFFFFFFFF) }

/-- Whether the writing of a record ends in the clk. -/
def recordOver : Except EvacStop (Bool × State) → Option Bool
  | .ok (b, _) => some b
  | .error _ => none

/-- The record of a request: its length and what beginning to write it gives. -/
def begun (s : State) (ra : Word) (at_ : Option Nat) : Option (Nat × Option Bool) :=
  match s.evacRequest s.foc.ctx ra with
  | .ok (va, some bs) => some (bs.length, recordOver (s.recordBegin s.foc.ctx (at_.getD va) bs))
  | .ok (_, none) => none
  | .error _ => none

theorem meets_RecordWords :
    let s := atRecord (fun x => { x with trapc := 0x0500100000000000, staleAt := true })
    let u := (s.modF (fun x => { x with avHold := true, avAt := s.resumeAt s.foc.ctx (s.rd 1) })).flush s.foc.ctx
    let c := atRecord id
    let k := c.modF (fun x => { x with atCkpt := x.waypoint, avHold := true, avAt := c.resumeAt c.foc.ctx (c.rd 1) })
    let n : State := { c with mem := Memory.writeN c.mem 0x102000 (bytesLE 4 6) }
    let v := k.flush c.foc.ctx
    -- its page on another module: the record's lines are posted
    let r (left : List (Nat × List Byte)) : State := c.modF (fun x => { x with c := { x.c with writing := some ⟨64, left⟩ } })
    s.fctx.normal = false ∧ wfield s.fctx.trapc 56 8 = 0x05 ∧ s.fctx.staleAt = true ∧ s.Ready { srcs := [1], outs := [31] } ∧
    s.fstrm.writing = none ∧ (s.requestStop s.foc.ctx (s.rd 1) none).isNone = true ∧ s.fctx.handler = none ∧ s.fctx.granulesReady = true ∧
    u.performed u.foc 4 true = true ∧ begun u (s.rd 1) none = some (64, some true) ∧
    c.fctx.normal = true ∧ c.Ready { srcs := [1], outs := [0] } ∧ k.fctx.avStopped = true ∧
    -- a map without an entry for the waypoint
    (match ((n.modF (fun x => { x with avHold := true, avAt := n.resumeAt n.foc.ctx (n.rd 1) })).flush n.foc.ctx).evacRequest n.foc.ctx (n.rd 1) with
     | .ok (va, none) => va == 0x60001000
     | .ok (_, some _) => false
     | .error _ => false) = true ∧
    -- a record under way
    (r []).fstrm.writing = some ⟨64, []⟩ ∧ recordOver ((r []).recordStep c.foc.ctx ⟨64, []⟩) = some true ∧
    (let q := (r []).modFcore (fun k => { k with owed := [owedLine] })
     recordOver (q.recordStep c.foc.ctx ⟨64, []⟩) = some false ∧ recordOver (q.recordBegin c.foc.ctx 0x60001000 (List.replicate 64 0)) = some false) ∧
    c.Ready { feature := some 9, srcs := [1] } ∧ c.platRec c.foc.ctx = some somePlat ∧ somePlat.ckpt = true ∧
    (c.requestStop c.foc.ctx (c.rd 1) (some (somePlat.ckptVa.toNat + 0x1000000 * c.fctx.parcel))).isNone = true ∧
    c.fctx.waypoint.isSome = true ∧ c.fellows c.foc.ctx = [c.foc.ctx] ∧ c.fctx.granulesReady = true ∧ v.performed v.foc 4 true = true ∧
    begun v (c.rd 1) (some (somePlat.ckptVa.toNat + 0x1000000 * c.fctx.parcel)) = some (64, some true) ∧ 64 ≤ 2 ^ 24 := by
  simp only [ready_iff]; decide +kernel

/-! ## Events -/

/-- The headers of a C block of four halfwords that stands at the start of the scratchpad, with the edition given. -/
def headed (ed : Nat) (f : Ctx → Ctx) : State :=
  (onWith 2 .c (fun x => f { x with c := { x.c with atHeader := true, pc := 0 } })).modFcore (fun k =>
    { k with regions := [⟨0, .c, 0, 127, false⟩], padC := Memory.writeN k.padC 0 (bytesLE 4 0x23F ++ bytesLE 4 (0x7F + 512 * ed)) })

theorem meets_FetchAndWaitEvents :
    let s := on 2 .c
    let k := fun (ed : Nat) => (headed ed id).fcore
    let hd := fun (ed : Nat) => headerOf ((k ed).word .c 0) ((k ed).word .c 2)
    let i : StreamId := ⟨⟨2, 0⟩, .c⟩
    let held (h : Hold) (e : Event) : State := (during e s).modStrm i (fun y => { y with hold := h })
    let u : BarUnit := ⟨7, 1, 0, 3⟩
    let b : State := { during (.barrierRelease u 2) (s.modCtx ⟨2, 0⟩ (fun x =>
      { x with parties := [(u, 1, true)], c := { x.c with hold := .barrier 1 3 } })) with bars := [(u, ⟨2, 0, 2, 100, []⟩)] }
    let q : QReg := ⟨⟨2, 0⟩, false, 90, 21⟩
    let w := (held .quiet (.qwaitComplete ⟨2, 0⟩ false 91)).modSta 0 (fun t => { t with qregs := [q] })
    (headed 0 id).fcore.loaded 0 .c 0 4 = true ∧ (hd 0).len = 4 ∧ headerShape ((k 0).word .c 0) ((k 0).word .c 2) = true ∧ (hd 0).strm = streamCode .c ∧
    (hd 0).reserved = false ∧ (hd 0).edition = 0 ∧ (hd 3).edition = 3 ∧ (headed 3 id).fctx.edCode = 0 ∧ (headed 3 id).fctx.guarded = false ∧
    s.fcore.loaded s.foc.ctx.bank .c 0 4 = false ∧ headerShape 0x23E 0x7F = false ∧
    (s.strm i).stall = 0 ∧ ((held (.memory 8) (.waitmWake i)).strm i).hold = .memory 8 ∧ ((held (.cycle 100 none 90) (.twaitExpiry i)).strm i).hold = .cycle 100 none 90 ∧ s.partner i.ctx = none ∧
    s.clk = 100 ∧ b.residents = [⟨2, 0⟩] ∧ (b.strm ⟨⟨2, 0⟩, .c⟩).hold = .barrier 1 3 ∧ b.barUnitOf ⟨2, 0⟩ 1 3 = u ∧ b.bar u = some ⟨2, 0, 2, 100, []⟩ ∧
    (b.ctx ⟨2, 0⟩).party u = some (1, true) ∧ b.clk = 100 ∧
    q ∈ (w.sta (stationOf 2)).qregs ∧ q.since < 91 ∧ (w.strm ⟨⟨2, 0⟩, .c⟩).hold = .quiet ∧ s.frozen 2 = false ∧
    (s.modCore 2 (fun k => { k with freeze := some 130 })).frozen 2 = true := by
  decide +kernel

theorem meets_TrapEntry :
    let c : CtxId := ⟨2, 0⟩
    let p := during (.trapDelivery c) (onWith 2 .c (fun x => { x with pending := [(0x21, (4, false))] }))
    let e : Entry := ⟨0x31, 9, 3, 0, false, .handler⟩
    let s (ev : Event) (f : Ctx → Ctx) : State := during ev (onWith 2 .c (fun x => f { x with entry := some e }))
    let t := s (.trapCapture c) (fun x => { x with phase := .stopping 90 })
    let h (v : Word) : State := s (.handlerStart c) (fun x => { x with phase := .entering 90 91, tvec := v })
    let r := during (.rteResume c) (onWith 2 .c (fun x => { x with phase := .returning 99, trapc := 0x3100100000000000, saved := some (x.c.record 60 61) }))
    p.pendingCause c causesFirst = some 0x21 ∧ p.partner c = none ∧
    (t.ctx c).phase = .stopping 90 ∧ (t.ctx c).entry = some e ∧ (t.ctx c).canCapture = true ∧ t.frozen 2 = false ∧ t.faultDue c = false ∧
    ((h 0x8000000000000010).ctx c).phase = .entering 90 91 ∧ wbit ((h 0x8000000000000010).ctx c).tvec 63 = true ∧ wbit ((h 0).ctx c).tvec 63 = false ∧
    (r.ctx c).phase = .returning 99 ∧ (r.ctx c).secondary = none ∧ (r.ctx c).displaced = false ∧ (r.ctx c).handlerSaved = none ∧
    (r.ctx c).saved = some ((r.ctx c).c.record 60 61) := by
  decide +kernel

/-- A slot to station 2 of module 0. -/
def aSlot (kind arg : Nat) (data : List Byte) : Slot :=
  ⟨BitVec.ofNat 4 kind, 21, 0, 2, 0, 1, 3, 4, 0, false, false, false, false, 6, BitVec.ofNat 16 arg, 0, 0, false, data⟩

theorem meets_InterruptEvents :
    let c : CtxId := ⟨32, 0⟩
    let s (e : Event) (b : Word) : State := during e (onWith 32 .c (fun x => { x with timecmp := 100, trapc := b }))
    let g := Event.signalArrival (aSlot 12 7 (bytesLE 8 0))
    ((s (.timerMatch c) 1).ctx c).timecmp ≠ 0 ∧ (s (.timerMatch c) 1).cyc 32 = 100 ∧ wbit ((s (.timerMatch c) 1).ctx c).trapc 0 = true ∧
    wbit ((s (.timerMatch c) 0).ctx c).trapc 0 = false ∧ 128 * 0 + 16 * 2 + 0 = c.core ∧ ofBytesLE ((aSlot 12 7 (bytesLE 8 0)).data.take 8) % 2 = c.bank ∧
    ((s g 2).ctx c).resident = true ∧ ((s g 2).ctx c).job = 21 ∧ wbit ((s g 2).ctx c).trapc 1 = true ∧ wbit ((s g 1).ctx c).trapc 1 = false ∧
    (State.reset.ctx c).resident = false ∧ (s (.dbgreqRequest c) 0).cur = some (.dbgreqRequest c) := by
  decide +kernel

theorem meets_TranslationAndBankEvents :
    let r : WalkReq := ⟨⟨2, 0⟩, 21, 0x60000000, .read, 1⟩
    let s := withTable 21 (on 2 .c)
    let t := during (.tlbWalkComplete 2 r) (s.modCore 2 (fun k => { k with walks := [r] }))
    let n := t.modCore 2 (fun k => { k with walks := k.walks.filter (fun w => w != r) })
    let f : FaultRec := ⟨65, r, 1, 3, 0, 0⟩
    let a := s.modFn 0 0 (fun g => { g with unanswered := [f] })
    let b := (during (.bankSwitchComplete 2) s).modCore 2 (fun k => { k with switching := some 1, switchEnd := 100 })
    let m := (withTable 21 (on 2 .a))
    (m.core 2).tlbHit (m.ctx ⟨2, 0⟩).job 0x60000000 = none ∧ (m.core 2).walks = [] ∧ m.walkerFull 2 = false ∧
    (match m.walk 2 (m.ctx ⟨2, 0⟩).job.toNat .read 0x60000000 with | .ok _ => true | .fault .. => false) = true ∧
    (n.core 2).walkLeaf.find? (fun w => w.1 == r) = none ∧
    ((n.modCore 2 (fun k => { k with walkLeaf := [(r, 0, page)] })).core 2).walkLeaf.find? (fun w => w.1 == r) = some (r, 0, page) ∧
    r ∈ (t.core 2).walks ∧ (match n.walk 2 21 .read 0x60000000 with | .ok _ => true | .fault .. => false) = true ∧
    (s.ctx r.ctx).resident = true ∧ (s.ctx r.ctx).phase = .running ∧ s.partner r.ctx = none ∧
    (s.ctx r.ctx).beforeHandler r = false ∧ ((s.modCtx ⟨2, 0⟩ (fun x => { x with trapc := withField x.trapc 44 2 1 })).ctx r.ctx).beforeHandler r = true ∧
    (a.takeAnswer 0 0 1 0).1 = some f ∧ (a.takeAnswer 0 0 1 1).1 = some f ∧ (a.takeAnswer 0 0 1 2).1 = some f ∧ f.req.src < 2 ∧
    (b.core 2).switching = some 1 ∧ (b.core 2).switchEnd ≤ b.clk ∧ (b.ctx ⟨2, 1⟩).displaced = false ∧ (b.ctx ⟨2, 1⟩).phase = .running ∧
    ({ b with clk := 99 } : State).clk < (b.core 2).switchEnd := by
  decide +kernel

/-- A command of an engine that signals 2 after 1, its set swapped, and a run of it. -/
def aCmd (cmd : Nat) : Command := ⟨cmd, 0, true, 2, 1, 0, 0, 5, 90, 3, 0, [], ⟨cmd, 0, true, 2, 1, 0, 0⟩⟩

def aRun (cmd step : Nat) (promise : Nat) : Run :=
  { c := aCmd cmd, row0 := 0, col0 := 0, step := step, steps := 4, begun := 95, due := 96, promise := promise, error := 0, errArg := 0, words := [], shape := [], bpt := [],
    gone := [], esz := 1, fmt := none, done := none, count := 0 }

theorem meets_EngineEvents :
    let c : CtxId := ⟨2, 0⟩
    let e (f : Engines → Engines) : State := onWith 2 .c (fun x => { x with tokens := [(1, 2)], eng := f x.eng })
    let b := e (fun g => { g with matrixQ := [aCmd 4] })
    let s (k : Nat) : State := e (fun g => { g with loadRun := some (aRun k 1 100), storeRun := some (aRun 1 1 0), matrixRun := some (aRun k 1 0), rowRun := some (aRun k 1 0) })
    let d := e (fun g => { g with matrixRun := some { aRun 4 5 0 with done := some 99 } })
    let bad := e (fun g => { g with loadRun := some { aRun 0 1 100 with error := 1 } })
    b.mayBegin c .matrix = true ∧ (b.ctx c).eng.queue .matrix = [aCmd 4] ∧ (aCmd 4).wait ≠ 0 ∧ (aCmd 4).sw = true ∧ (aCmd 4).chk = (aCmd 4).own ∧
    ({ aCmd 4 with va := 1 } : Command).chk ≠ ({ aCmd 4 with va := 1 } : Command).own ∧ (e (fun g => { g with matrixQ := [{ aCmd 4 with va := 1 }] })).mayBegin c .matrix = true ∧
    (s 0).complete c .load (aRun 0 1 100) = false ∧
    ((s 0).ctx c).eng.run .load = some (aRun 0 1 100) ∧ ((s 0).ctx c).eng.run .store = some (aRun 1 1 0) ∧
    ((s 0).ctx c).eng.run .matrix = some (aRun 0 1 0) ∧ ((s 0).ctx c).eng.run .row = some (aRun 0 1 0) ∧ (s 0).engineLive c = true ∧
    ((s 0).ctx c).engineFault .load = false ∧ (aRun 0 1 100).done = none ∧
    (let q := (s 0).sized c .load (aRun 0 1 100)
     q.error = 0) ∧ (bad.sized c .load { aRun 0 1 100 with error := 1 }).error ≠ 0 ∧
    (aRun 0 1 100).due ≤ (s 0).clk ∧ (aRun 0 1 100).step ≤ (aRun 0 1 100).steps ∧ (bad.ctx c).eng.run .load = some { aRun 0 1 100 with error := 1 } ∧
    d.ending c .matrix = some { aRun 4 5 0 with done := some 99 } ∧ ((s 0).ctx c).eng.live .load = [aRun 0 1 100] ∧
    ((s 0).modCtx c (fun x => { x with guarded := true }) |>.ctx c).guarded = true ∧
    (aRun 0 1 100).promise ≤ ((s 0).cyc 2).toNat % 2 ^ 48 ∧ ((s 0).ctx c).guarded = false := by
  decide +kernel

/-- Every cell of every clockwise track of a ring taken. -/
def fullRing : List (Bool × Nat × Nat) := (List.range 4).flatMap (fun j => (List.range 24).map (fun cell => (false, j, cell)))

theorem meets_HopEvents :
    let h : HopId := ⟨2, false, false⟩
    let k : HopId := ⟨9, true, false⟩
    let x := { aSlot 3 1 (bytesLE 8 0) with dsta := 5, smod := 0, ssta := 2, seq := 7 }
    let q := (on 2 .c).modSta 2 (fun t => { t with outq := [(99, x)] })
    let full (b : Bool) : State := q.modMod 0 (fun m => { m with ring := cond b fullRing [] })
    let t (b : Bool) : State := (full b).modSta 2 (fun t => { t with outq := t.outq.erase (99, x) })
    let p (g : HopId) (tries : Nat) : State := (on 2 .c).modHop g (fun y => { y with kept := [x], tries := tries, since := 90 })
    let r := (on 2 .c).modCore 2 (fun k => { k with returned := [x], returnClk := 36 })
    nextOut 100 (q.sta 2).outq [] = some (99, x) ∧ ((q.modHop h (fun y => { y with dead := [7] })).hop h).dead.contains x.seq = true ∧ x.rfs = false ∧ (t false).wayOf 2 none false x = .loc false ∧
    ((t false).hop h).down = false ∧ ((t false).freeTrack 0 2 false ((t false).hopsLeft 2 false x) 100).isSome = true ∧
    ((t true).freeTrack 0 2 false ((t true).hopsLeft 2 false x) 100) = none ∧ (t true).wayOf 2 none false x = .loc false ∧
    q.behindFlow h x = false ∧
    (let b := q.modHop h (fun y => { y with kept := [{ x with seq := 6 }, x] })
     b.behindFlow h x = true ∧ (b.hop h).dead.contains x.seq = false) ∧
    passingKind x = false ∧ passingKind { x with kind := 1 } = true ∧ passingKind { x with kind := 10 } = true ∧ (q.hop h).dead.contains x.seq = false ∧ (q.hop k).dead.contains x.seq = false ∧
    ((p h 0).hop h).kept.find? (fun t => t.seq == 7) = some x ∧ ((p k 0).hop k).kept.find? (fun t => t.seq == 7) = some x ∧ countedKind x.kind.toNat = true ∧
    ((p h 0).hop h).down = false ∧ ((p h 0).hop h).tries = 0 ∧ ((p h 8).hop h).tries = 8 ∧ (p h 8).clk ≤ ((p h 8).hop h).since + 2100 ∧
    (q.hop h).kept = [] ∧ (r.core 2).returned = [x] ∧ (r.core 2).returnClk + 64 ≤ r.clk ∧ ({ r with clk := 99 } : State).clk < (r.core 2).returnClk + 64 := by
  decide +kernel

theorem meets_TrunkEvents :
    let s := on 2 .c
    let n (l : LinkSt) : State := s.modSta 9 (fun t => { t with linkCw := l })
    (s.link 0 1 false).unlock = false ∧ ((n { LinkSt.reset with unlock := true }).link 0 1 false).unlock = true ∧ 8 ≤ 9 % 16 ∧ 9 % 16 < 12 ∧ (9 / 16, 9 % 16 - 8) = (0, 1) ∧
    ((n { LinkSt.reset with bad := 63 }).link 0 1 false).bad = 63 ∧ ((n { LinkSt.reset with lanes := 18 }).link 0 1 false).lanes - 1 = 17 ∧
    -- a group of clk 5 * 18 at clk 100 over a link of latency 10, one of clk 100, and one of clk 0
    (let t (g : Nat) : Int := 5 * (g : Int) + (s.link 0 1 false).lat - (s.staCyc 9).toNat
     t 18 ≤ 163830 ∧ -163840 ≤ t 18 ∧ t 18 < -2 ∧ ¬ (t 20 < -2 ∨ 2 < t 20) ∧ 2 < t 30) ∧
    ([3, 0] : List Nat) ≠ [] ∧ (∀ m ∈ ([3, 0] : List Nat), m < 32) ∧ (aSlot 11 0 []).smod.toNat ≠ 9 / 16 ∧
    ([⟨59, true, 17, 321⟩] : List LinkReport).find? (fun l => l.sta == 16 * 3 + 8 + 3 && l.ccw == true) = some ⟨59, true, 17, 321⟩ := by
  decide +kernel

/-- A posted write of the first 8 bytes of the line at 0x10_0000 of its home, as a core that posts it builds it. -/
def posted : Slot :=
  { aSlot 3 1 [] with nfl := 1, data := bytesLE 8 0x100000 ++ bytesLE 8 0xFF ++ List.replicate 48 0 ++ bytesLE 8 0x1122334455667788 ++ List.replicate 56 0 }

theorem meets_PostedWriteEvents :
    let s := on 32 .c
    let e : CombEntry := ⟨3, 0, .global 0 5, 0, 21, 60, none, 0, [⟨0x100000, 1, [9]⟩], [], [], []⟩
    let j (x : JobState) : State := s.modSta 2 (fun t => { t with jobs := [(21, x)] })
    let o : Owed := ⟨0, none, 6, .global 0 5, 0, 1, [], [], [], []⟩
    let c := s.modCore 32 (fun k => { k with owed := [o], comb := [e], mirrors := [(6, posted)] })
    let x := { aSlot 1 0 (List.replicate 64 0) with tag := 0 }
    let l := s.modCore 32 (fun k => { k with landing := [x] })
    let f := s.modCore 32 (fun k => { k with landing := List.replicate 64 x })
    (c.core 32).comb.find? (fun e => e.id == 3) = some e ∧ e.sent = none ∧ c.pairOf 32 e.job = none ∧ (j .opened).jobState (destSta posted) posted.job = .opened ∧ posted.arg = 1 ∧ posted.mir = false ∧
    (slotLines posted).length = 1 ∧ posted.kind = 3 ∧ (j .opened).waitingAt posted = none ∧
    (let w := (j .opened).modCore 32 (fun k => { k with inbound := [posted] })
     let z := { posted with arg := 0, tag := 9 }
     w.waitingAt z = some 32 ∧ z.arg = 0 ∧ w.bankOfJob (destCore z) z.job = some ⟨32, 0⟩ ∧ w.pairOf 32 z.job = none ∧
     (w.core 32).landing = [] ∧ (w.core 32).inbound = [posted] ∧ w.frozen 32 = false ∧ w.bankOfJob 32 posted.job = some ⟨32, 0⟩ ∧
     (j .opened).waitingAt z = none) ∧ 32 ∈ c.twins (destCore posted) posted.job ∧ (j .closing).jobState (destSta posted) 21 = .closing ∧ s.jobState (destSta posted) 21 = .free ∧
    destCore posted = 32 ∧ s.pairOf 32 21 = none ∧ (c.core 32).owed.find? (fun o => o.tag == posted.tag.toNat) = some o ∧
    (s.core 32).owed.find? (fun o => o.tag == posted.tag.toNat) = none ∧ s.bankOfJob 32 21 = some ⟨32, 0⟩ ∧ s.bankOfJob 33 21 = none ∧
    (s.core 32).landing.length < 64 ∧ 64 ≤ (f.core 32).landing.length ∧ f.bankOfJob 32 x.job = some ⟨32, 0⟩ ∧
    (l.core 32).landing = [x] ∧ l.frozen 32 = false ∧ x.tag.getLsbD 13 = false ∧ c.frozen 32 = false := by
  decide +kernel

theorem meets_MessageEvents :
    let s (x : JobState) : State := (on 32 .c).modSta 2 (fun t => { t with jobs := [(21, x)] })
    let r := aSlot 6 1 (bytesLE 8 0x100000 ++ bytesLE 8 8)
    let a := aSlot 4 3 (bytesLE 8 0x100000 ++ bytesLE 8 8 ++ bytesLE 8 0)
    let f := (s .opened).modCore 32 (fun k => { k with freeze := some 130 })
    r.kind = 6 ∧ (s .opened).waitingAt r = none ∧ a.kind = 4 ∧ (s .opened).waitingAt a = none ∧ a.arg.toNat < 16 ∧
    (s .opened).jobState (destSta r) 21 = .opened ∧ (s .closing).jobState (destSta r) 21 = .closing ∧ (s .opened).pairOf (destCore r) 21 = none ∧
    (s .opened).bankOfJob (destCore r) 21 = some ⟨32, 0⟩ ∧ ((s .opened).ctx ⟨32, 0⟩).freeEntry.isSome = true ∧
    ((s .opened).ctx ⟨32, 0⟩).q15.full 32 100 = false ∧
    (((s .opened).modCtx ⟨32, 0⟩ (fun x => { x with inbox := List.range 32 })).ctx ⟨32, 0⟩).freeEntry = none ∧ (s .opened).bankOfJob (destCore { r with dcore := 1 }) 21 = none ∧ r.arg = 1 ∧
    (s .opened).frozen (destCore r) = false ∧ (f.core (destCore r)).freeze = some 130 ∧ f.clk < 130 := by
  decide +kernel

/-- A module wave of module 0 that began at clk 60 and has taken job 21. -/
def aWave : Wave := ⟨⟨false, 0, 60⟩, [21], [21], [], [], [], [], [], [], [], false, false⟩

theorem meets_MusterEvents :
    let s := { on 2 .c with pod := { PodSt.reset with waves := [aWave, { aWave with id := ⟨true, 0, 50⟩ }], ring := some 1 } }
    let u := s.modSta 2 (fun t => { t with unrepaired := true })
    s.podWave = some { aWave with id := ⟨true, 0, 50⟩ } ∧ s.pod.ring.isSome = true ∧ aWave.gone = false ∧ s.wave ⟨false, 0, 60⟩ = some aWave ∧
    (s.sta 2).unrepaired = false ∧ (u.sta 2).unrepaired = true ∧ u.wave ⟨false, 0, 60⟩ = some aWave := by
  decide +kernel

theorem meets_JobEvents :
    let s := on 2 .c
    let o := s.modSta 2 (fun t => { t with jobs := [(21, .opened)] })
    let i : StreamId := ⟨⟨2, 0⟩, .c⟩
    let p : Pend := ⟨4, 7, .word 0, 0, true, 0, 0, false⟩
    let w := s.modStrm i (fun y => { y with pend := [p] })
    s.jobState 2 21 = .free ∧ o.jobState 2 21 ≠ .free ∧ (21 : BitVec 12) ≠ 0 ∧ wfield (0xFFFFFFFF80000015 : Word) 28 2 = 0 ∧ (s.ctx i.ctx).saved = none ∧
    (w.strm i).pend.any (fun p => p.id == 4 && p.inter && p.land == 0) = true ∧ (w.strm i).pend.all (fun p => p.id != 5) = true ∧ (w.strm i).latch = [] := by
  decide +kernel
/-- A pair of contexts of one plat on cores 2 and 5 of die 0, the second the partner of the first. -/
def pairState : State :=
  let s := withPlat (fun p => { p with parcels := p.parcels.map (fun q => { q with partner := some 5 }) }) (on 2 .c)
  s.putCtx ⟨5, 0⟩ someCtx

theorem meets_ErrorEvents :
    let s := on 2 .c
    let c : CtxId := ⟨2, 0⟩
    let f := (s.modCore 2 (fun k => { k with freeze := some 100 })).modCtx c (fun x => { x with guarded := true })
    let x := aSlot 3 1 (List.replicate 64 0)
    let w := pairState.modCore 5 (fun k => { k with pairWait := [(4, { x with score := 5, tag := 9 })] })
    let d := pairState.modCore 5 (fun k => { k with pairWait := [(4, { x with data := [1] })] })
    let t := pairState.modCore 2 (fun k => { k with pairWait := [(4, x)] })
    s.partner c = none ∧ f.issuing 2 = c ∧ s.frozen 2 = false ∧
    (f.core 2).freeze = some f.clk ∧ (f.ctx c).onTime = true ∧ (f.ctx c).freezes = 0 ∧ (f.ctx c).guarded = true ∧
    ((⟨3, 8⟩ : UnitId).kind < 0x0B) ∧ (s.ctx c).resident = true ∧ s.recoverable (s.ctx c).plat = false ∧
    pairState.pairOf 2 21 = some (⟨5, 0⟩, false) ∧ pairState.pairOf 5 21 = some (⟨2, 0⟩, true) ∧ w.pairOf 2 21 = some (⟨5, 0⟩, false) ∧
    (w.core 5).pairWait = [(4, { x with score := 5, tag := 9 })] ∧ pairForm { x with score := 5 } = pairForm x ∧
    (d.core 5).pairWait = [(4, { x with data := [1] })] ∧ pairForm { x with data := [1] } ≠ pairForm x ∧ (pairState.core 5).pairWait = [] ∧
    (t.core 2).pairWait.find? (fun p => p.1 == 4) = some (4, x) := by
  decide +kernel

theorem meets_SurveyEvents :
    let u : UnitId := ⟨3, 31⟩
    let s := withPlat id (on 2 .c)
    ((s.modDie 0 (fun d => { d with survey := { d.survey with running := true } })).die 0).survey.running = true ∧ (s.die 0).survey.running = false ∧
    unitExists 0 u = true ∧ hasClass u.kind = true ∧ ((State.reset.die 0).unit u.kind u.index) = (0, 0) ∧ 0 < 2 ∧ State.reset.allPlats = [] ∧
    (⟨2, 0⟩ : CtxId) ∈ s.residents ∧ modOf 2 = 0 ∧ (⟨2, 0⟩ : CtxId) ∈ s.ctxsOf (s.ctx ⟨2, 0⟩).plat := by
  decide +kernel

/-- Edition 2 of die 0 struck core 2, which the plat's only block of that edition touches. -/
theorem meets_SurveyEvents_change :
    let p : PlatRec := { somePlat with edits := [(0, 0, 1)] }
    let s := (withPlat (fun _ => p) (on 2 .c)).modDie 0 (fun d => { d with survey := { d.survey with edition := 2, history := [⟨2, 3, 32, 0, false, false⟩] } })
    s.allPlats = [p] ∧ p.plat ∉ ([9] : List Word) ∧ s.ctxsOf p.plat = [⟨2, 0⟩] ∧ (s.ctx ⟨2, 0⟩).phase = .running ∧ (s.ctx ⟨2, 0⟩).guarded = false ∧
    s.editionTouch 0 p ((s.die 0).survey.history.filter (fun h => h.edition == (2 : BitVec 16).toNat)) = .change ∧
    -- the clockwise link of waystation 0 is out of lock, and the plat's timetable crosses it
    (let r : PlatRec := { somePlat with res := [⟨true, false, 0, 0, 0, 8, 0, 8, 1⟩] }
     let z := ((withPlat (fun _ => r) { on 2 .c with pod := { PodSt.reset with mods := [0, 1] } }).modDie 0 (fun d => { d with survey := { d.survey with
       edition := 2, paths := [⟨1, 0, 0, 10, 2, true⟩], history := [⟨2, 0, 0, 0x9000, false, true⟩] } }))
     z.allPlats = [r] ∧ z.ctxsOf r.plat ≠ [] ∧
     z.editionTouch 0 r ((z.die 0).survey.history.filter (fun h => h.edition == (2 : BitVec 16).toNat)) = .lock) := by
  decide +kernel

theorem meets_SchedulerAndReleaseEvents :
    let s (n : Nat) (f : PlatRec → PlatRec) : State := withPlat f { State.reset with clk := n }
    let w (p : PlatRec) : PlatRec := { p with code := 1 }
    let r (n : Nat) : State := s n w
    let o := (withPlat id { on 2 .c with clk := 2 ^ 20 }).modDie 0 (fun d => { d with plats := d.plats ++ [{ w somePlat with plat := 9 }] })
    let z (p : PlatRec) : PlatRec := { p with code := 3, stopped := some (5, 50), loads := [⟨2, .c, none, 0⟩] }
    let g := somePlat.parcels
    ((r 0).die 0).plat 7 = some (w somePlat) ∧ ((s 0 id).die 0).plat 7 = some somePlat ∧ somePlat.code ≠ 1 ∧ (w somePlat).diesOf = [0] ∧
    ((s 0 (fun p => { w p with preds := [9] })).requestCores 0 { w somePlat with preds := [9] }).latePred 0 { w somePlat with preds := [9] } = none ∧
    (((s 0 (fun p => { w p with preds := [9] })).modDie 0 (fun d => { d with seen := [9] })).requestCores 0 { w somePlat with preds := [9] }).latePred 0
      { w somePlat with preds := [9] } = some 0 ∧
    ((r 0).requestCores 0 (w somePlat)).latePred 0 (w somePlat) = none ∧
    -- a region still to load
    (((s 0 (fun p => { w p with loads := [⟨2, .c, none, 0⟩] })).requestCores 0 { w somePlat with loads := [⟨2, .c, none, 0⟩] }).readyBanks 0
      { w somePlat with loads := [⟨2, .c, none, 0⟩] } (somePlat.start + 0 * somePlat.frame)) = none ∧
    -- a bank whose switch is still to come
    ((((r 0).requestCores 0 (w somePlat)).modCore 2 (fun k => { k with active := 1 })).bankSet ⟨2, 0⟩) = false ∧
    ((r 0).requestCores 0 (w somePlat)).readyBanks 0 (w somePlat) (somePlat.start + 0 * somePlat.frame) = some [⟨2, 0⟩] ∧
    ([⟨2, 0⟩] : List CtxId).all ((r 0).requestCores 0 (w somePlat)).bankSet = true ∧ (r 0).releaseDue 0 7 = false ∧ (w somePlat).verdicts = [] ∧ (r 0).clk < somePlat.start + 0 * somePlat.frame ∧
    (w { somePlat with age := 1 }).since + (1 + 1) * 2 ^ 20 = (s (2 ^ 21) w).clk ∧ 1 < 3 ∧ ¬ 3 < 3 ∧
    (w { somePlat with age := 3 }).since + (3 + 1) * 2 ^ 20 = (s (2 ^ 22) w).clk ∧
    (o.die 0).plat 7 = some somePlat ∧ somePlat.code = 2 ∧ somePlat.since + 2 ^ 20 ≤ o.clk ∧ { w somePlat with plat := 9 } ∈ (o.die 0).plats ∧
    o.outranks ({ w somePlat with plat := 9 } : PlatRec).rank somePlat = true ∧ (o.occupants 0 { w somePlat with plat := 9 }).any (fun q => q.plat == 7) = true ∧
    somePlat.asked = none ∧ 60 + 2 ^ 20 ≤ (s (60 + 2 ^ 20) id).clk ∧ (r 0).ctxsOf 7 = [] ∧
    (z somePlat).lead? = some 0 ∧ (s 4146 z).canResume (z somePlat) = false ∧ (4146 - 50) % somePlat.frame = 0 ∧ (4145 - 50) % somePlat.frame ≠ 0 ∧
    ({ somePlat with params := [1, 2, 3, 4, 5, 6, 7, 8] } : PlatRec).params.length = 8 ∧ g.length = 1 := by
  decide +kernel

/-- A waiting plat of dies 0 and 1: late for a predecessor, ready, with a region still to load; and its verdicts, one of them missing, all ready, one
of them not ready. -/
theorem meets_SchedulerAndReleaseEvents_dies :
    let p : PlatRec := { somePlat with code := 1, parcels := somePlat.parcels ++ [⟨1, 0, 1, 2, none, 0, 0, 0, 0, ⟨0, 1, 0⟩, ⟨0, 0, 0⟩, ⟨0, 0, 0⟩⟩] }
    let s (q : PlatRec) : State := withPlat (fun _ => q) State.reset
    let t (q : PlatRec) : State := (s q).requestCores 0 q
    let late : PlatRec := { p with preds := [9] }
    let wait : PlatRec := { p with loads := [⟨2, .c, none, 0⟩] }
    let sk := p.start + 0 * p.frame
    let verdict (vs : List (Nat × Nat × Nat)) (d : Nat) : Option Nat := (vs.find? (fun v => v.1 == d && v.2.1 == 0)).map (fun v => v.2.2)
    p.diesOf = [0, 1] ∧ p.code = 1 ∧ ((s p).die 0).plat 7 = some p ∧ (s p).releaseDue 0 7 = false ∧ (((s late).modDie 0 (fun d => { d with seen := [9] })).requestCores 0 late).latePred 0 late = some 0 ∧ (t p).latePred 0 p = none ∧
    (t p).readyBanks 0 p sk = some [⟨2, 0⟩] ∧ (t wait).latePred 0 wait = none ∧ wait.verdicts = [] ∧ (t wait).readyBanks 0 wait sk = none ∧
    verdict [(0, 0, 1)] 0 ≠ none ∧ verdict [(0, 0, 1)] 1 = none ∧ p.diesOf.all (fun d => verdict [(1, 0, 1), (0, 0, 1)] d == some 1) = true ∧
    verdict [(1, 0, 2), (0, 0, 1)] 1 ≠ some 1 ∧ p.diesOf.all (fun d => (verdict [(1, 0, 2), (0, 0, 1)] d).isSome) = true := by
  decide +kernel

/-- The clk of release, and a stopped plat whose banks can take it again, a whole number of frames after its stop and 8 clk before. -/
theorem meets_SchedulerAndReleaseEvents_start :
    let p : PlatRec := { somePlat with code := 1, banks := [⟨2, 0⟩] }
    let s := withPlat (fun _ => p) { State.reset with clk := p.start + 3 * p.frame }
    let z : PlatRec := { somePlat with code := 3, stopped := some (5, 50), banks := [] }
    let r (n : Nat) : State := withPlat (fun _ => z) { onWith 2 .c (fun x => { x with phase := .atWaypoint, waypoint := some 5 }) with clk := n }
    (s.die 0).plat 7 = some p ∧ s.clk = p.start + 3 * p.frame ∧ (p.parcelAt 2).isSome = true ∧
    ((r 4146).die 0).plat 7 = some z ∧ z.lead? = some 0 ∧ z.diesOf = [0] ∧ (r 4146).canResume z = true ∧
    (((r 4146).resumeBanks 7).getD []).all (fun c => (r 4146).bankSet c.1) = true ∧
    ((r 4146).resumeBanks 7).isSome = true ∧
    -- its bank is not the active one, and no switch lies behind
    (((r 4146).modCore 2 (fun k => { k with active := 1, busyAt := 4146 })).bankSet ⟨2, 0⟩) = false ∧
    ((r 4146).modCore 2 (fun k => { k with active := 1, busyAt := 4146 })).resumeBanks 7 = some [(⟨2, 0⟩, none)] ∧ ((r 4146).clk - 50) % z.frame = 0 ∧
    ((r 4138).clk - 50) % z.frame ≠ 0 := by
  decide +kernel

theorem meets_FunctionEvents :
    let s := on 2 .c
    let h (w : Nat) : State := s.modMod 0 (fun x => { x with hsem := Sp.set 0 x.hsem 5 w })
    let g (f : FnSt → FnSt) : State := s.modFn 0 3 f
    Sp.get 0 (s.modu 0).hsem 5 = 0 ∧ Sp.get 0 ((h 2).modu 0).hsem 5 = 2 ∧ wbit 0x4000 14 = true ∧ s.jobsFree 0 3 = true ∧
    (((g (fun x => { x with en := true })).modu 0).fn 3).en = true ∧ ((s.modu 0).fn 3).en = false ∧ (s.modu 0).fns = [] ∧
    wfield 0x00100000 16 12 ≠ 0 ∧ wfield 0x00100000 0 12 = 0 ∧ 1 ≤ wfield 0x00010FFF 0 12 ∧ wfield 0x00010FFF 0 12 + wfield 0x00010FFF 16 12 = 4096 ∧
    (((g (fun x => { x with accLock := true })).modu 0).fn 3).accLock = true ∧ ((s.modu 0).fn 3).accLock = false ∧
    ((s.modMod 0 (fun x => { x with port0 := true })).modu 0).port (3 / 64) = true ∧ ((s.modu 0).port 0 = false) ∧ (0x3FF : Word) &&& ~~~featOffered = 0 ∧
    (0x400 : Word) &&& ~~~featOffered ≠ 0 ∧ (63 : Word).toNat < 64 ∧ ¬ (64 : Word).toNat < 64 ∧ ((s.modu 0).fn 3).pending = false ∧
    (((g (fun x => { x with pending := true })).modu 0).fn 3).pending = true := by
  decide +kernel

theorem meets_HostEvents :
    let s := (on 2 .c).modMod 0 (fun x => { x with ready := true, port0 := true })
    let b (f : ModuleSt → ModuleSt) : State := s.modMod 0 f
    (s.modu 0).serves 0 = true ∧ 0xFFFF % 65536 + 1 ≤ 65536 ∧ s.bar2 0 0 0xFFFF true = some 0xFFFF ∧ s.bar2 0 0 0xFFFF false = some 0xFFFF ∧
    s.watchers (memKey 0 0xFFFF) 1 = [] ∧ s.inInterval 0 = false ∧ 0 < 2 ∧
    ((b (fun x => { x with stage := 1 })).modu 0).stage = 1 ∧ ((b (fun x => { x with stage := 2 })).modu 0).fail = false ∧
    ((b (fun x => { x with stage := 2 })).modu 0).stage = 2 ∧ ((b (fun x => { x with stage := 4 })).modu 0).stage = 4 ∧
    bar0 0 0x50000 8 = some 0x50000 ∧ bar0 64 4 8 = none ∧ bar0 3 0x10000 4 = none ∧ (s.modu 0).serves 64 = (s.modu 0).port1 ∧
    ((b (fun x => { x with stage := 2 })).modu 0).minVersion.toNat ≤ (4 : Word).toNat ∧
    ((b (fun x => { x with stage := 2, tries := 2 })).modu 0).tries = 2 ∧
    Sp.get 0 ((b (fun x => { x with hsem := [(1, 3)], passed := [4] })).modu 0).hsem 1 = 3 ∧
    ((b (fun x => { x with passed := [4] })).modu 0).passed.contains 4 = true ∧ (b id |>.modu 0).minVersion.toNat < (4 : Word).toNat := by
  decide +kernel

/-- A request at VA 0x6000_0000 for the object at 0x6001_0000, of one section, one edition record and `n` relocations of no kind, bound to a plat
image at 0x6000_0100; the object names the module's own serial number. -/
def loadable (n : Byte) : State :=
  let s := withTable 0 (on 2 .c)
  let put (m : Memory) (e : Nat × List Byte) : Memory := Memory.writeN m e.1 e.2
  { s with mem := (List.range 8).map (fun i => (0x110008 + i, (Config.serial 0).extractLsb' (8 * i) 8)) ++
      [(0x100000, bytesLE 8 0x60010000 ++ bytesLE 8 0x60000100 ++ bytesLE 8 0x60000800), (0x110000, [0x42, 0x4F, 0x4E, 0x5A, 1, 0, 1, 0]),
        (0x110010, [n, 0, 0, 0, 1]), (0x110018, [0x40]), (0x110020, [0x70]), (0x110028, [0x60]), (0x110040, [4, 3]), (0x110048, [0x80]),
        (0x110050, [8])].foldl put s.mem }

theorem bytes_of_serial (x : BitVec 64) :
    ofBytesLE ((List.range 8).map (fun i => x.extractLsb' (8 * i) 8)) = x.toNat := by
  have h := x.isLt
  simp [List.range, List.range.loop, ofBytesLE, BitVec.extractLsb'_toNat, Nat.shiftRight_eq_div_pow]
  omega

/-- The leaf of the object's page. -/
def objLeaf : Leaf := match (loadable 0).walk 9 0 .read 0x60010000 with | .ok l => l | .fault .. => page

theorem header_read (n : Byte) (hn : n = 0 ∨ n = 1) :
    (loadable n).readVirt 9 0 .read (0x60010000 + 0) 64 = some (Memory.readN (loadable n).mem 0x110000 64) := by
  have h : (loadable n).walk 9 0 .read 0x60010000 = .ok objLeaf := by rcases hn with rfl | rfl <;> decide +kernel
  have h2 : memKey (objLeaf.homeMod (modOf 9)) (objLeaf.pa 0x60010000) = 0x110000 := by decide +kernel
  simp [State.readVirt, List.range, List.range.loop, h, h2]

theorem header_serial (n : Byte) (hn : n = 0 ∨ n = 1) : leAt (Memory.readN (loadable n).mem 0x110000 64) 8 8 = (Config.serial 0).toNat := by
  rw [← bytes_of_serial]; rcases hn with rfl | rfl <;> rfl

/-- The one section of the object, and what its form gives. -/
def objSect : List Byte := [4, 3, 0, 0, 0, 0, 0, 0, 0x80] ++ List.replicate 7 0 ++ [8] ++ List.replicate 15 0

def objForm (n : Byte) : ObjectForm :=
  let sects := (chunks 32 1 objSect).map sectOf
  ⟨sects, sects.map (fun x => ((loadable n).readVirt 9 0 .read (0x60010000 + x.foff) x.size).getD []),
   (chunks 16 n.toNat (List.replicate (16 * n.toNat) 0)).map relocOf, elemsLE 8 1 (List.replicate 8 0)⟩

theorem form_reads (n : Byte) (hn : n = 0 ∨ n = 1) :
    (loadable n).objectForm 0 (fun off k => (loadable n).readVirt 9 0 .read (0x60010000 + off) k) = .ok (objForm n) := by
  have hr := header_read n hn
  have hs := header_serial n hn
  have h1 : (loadable n).readVirt 9 0 .read (0x60010000 + leAt (Memory.readN (loadable n).mem 0x110000 64) 0x18 8)
      (32 * leAt (Memory.readN (loadable n).mem 0x110000 64) 6 2) = some objSect := by rcases hn with rfl | rfl <;> decide +kernel
  have h2 : (loadable n).readVirt 9 0 .read (0x60010000 + leAt (Memory.readN (loadable n).mem 0x110000 64) 0x20 8)
      (16 * leAt (Memory.readN (loadable n).mem 0x110000 64) 0x10 4) = some (List.replicate (16 * n.toNat) 0) := by
    rcases hn with rfl | rfl <;> decide +kernel
  have h3 : (loadable n).readVirt 9 0 .read (0x60010000 + leAt (Memory.readN (loadable n).mem 0x110000 64) 0x28 8)
      (8 * leAt (Memory.readN (loadable n).mem 0x110000 64) 0x14 2) = some (List.replicate 8 0) := by rcases hn with rfl | rfl <;> decide +kernel
  have h4 : (chunks 32 (leAt (Memory.readN (loadable n).mem 0x110000 64) 6 2) objSect).map sectOf = (objForm n).sects := by
    rcases hn with rfl | rfl <;> decide +kernel
  have h5 : List.find? (fun (x : Sect × Nat) => !x.1.sound (fun off k => (loadable n).readVirt 9 0 .read (0x60010000 + off) k)) (objForm n).sects.zipIdx = none := by
    rcases hn with rfl | rfl <;> decide +kernel
  unfold State.objectForm
  simp only [hr, h1, h2, h3, h4, hs]
  rw [if_neg (by rcases hn with rfl | rfl <;> decide +kernel)]
  simp only [h5]
  rw [if_neg (by rcases hn with rfl | rfl <;> decide +kernel), if_neg (by simp), if_neg (by rcases hn with rfl | rfl <;> decide +kernel)]
  simp only [Except.ok.injEq, ObjectForm.mk.injEq, objForm]
  rcases hn with rfl | rfl <;> decide +kernel

/-- The object without relocations can be bound, and the relocation of the other one fails. -/
theorem object_reads (n : Byte) (hn : n = 0 ∨ n = 1) : ∃ o pe pva, (loadable n).readObject 9 0x60010000 0x60000100 = .ok (o, pe, pva) ∧
    o.failure = if n = 0 then none else some (0x20, 0) := by
  have h4 : (loadable n).platTables 9 0x60000100 = some ([], [], 0x60000100) := by rcases hn with rfl | rfl <;> decide +kernel
  have hm : modOf 9 = 0 := by decide
  have h5 : List.find? (fun (x : (Sect × Nat) × Nat) => !x.1.1.aligned x.1.2)
      ((objForm n).sects.zip ((objForm n).sects.zipIdx.map (fun x => (loadable n).sectAddr 0x60010000 [] x.1 x.2))).zipIdx = none := by
    rcases hn with rfl | rfl <;> decide +kernel
  unfold State.readObject
  simp only [form_reads n hn, h4, hm, h5]
  exact ⟨_, _, _, rfl, by rcases hn with rfl | rfl <;> decide +kernel⟩

/-- The same object without relocations as one piece of a pass's output. -/
def passBytes : List Byte :=
  [0x42, 0x4F, 0x4E, 0x5A, 1, 0, 1, 0] ++ (List.range 8).map (fun i => (Config.serial 0).extractLsb' (8 * i) 8) ++ [0, 0, 0, 0, 1, 0, 0, 0] ++
  bytesLE 8 0x40 ++ bytesLE 8 0x60 ++ bytesLE 8 0x70 ++ List.replicate 16 0 ++ objSect ++ List.replicate 40 0

def passRead (off n : Nat) : Option (List Byte) := if off + n ≤ passBytes.length then some ((passBytes.drop off).take n) else none

def passForm : ObjectForm :=
  let sects := (chunks 32 1 objSect).map sectOf
  ⟨sects, sects.map (fun x => (passRead x.foff x.size).getD []), [], elemsLE 8 1 (List.replicate 8 0)⟩

theorem pass_reads : (on 2 .c).passOutput 0 [(0x110000, passBytes)] = some passForm := by
  have hl : 64 ≤ passBytes.length := by decide +kernel
  have hr : passRead 0 64 = some (passBytes.take 64) := by simp [passRead, hl]
  have hs : leAt (passBytes.take 64) 8 8 = (Config.serial 0).toNat := by rw [← bytes_of_serial]; rfl
  have h1 : passRead (leAt (passBytes.take 64) 0x18 8) (32 * leAt (passBytes.take 64) 6 2) = some objSect := by decide +kernel
  have h2 : passRead (leAt (passBytes.take 64) 0x20 8) (16 * leAt (passBytes.take 64) 0x10 4) = some [] := by decide +kernel
  have h3 : passRead (leAt (passBytes.take 64) 0x28 8) (8 * leAt (passBytes.take 64) 0x14 2) = some (List.replicate 8 0) := by decide +kernel
  have h4 : (chunks 32 (leAt (passBytes.take 64) 6 2) objSect).map sectOf = passForm.sects := by decide +kernel
  have h5 : List.find? (fun (x : Sect × Nat) => !x.1.sound passRead) passForm.sects.zipIdx = none := by decide +kernel
  have h : (on 2 .c).objectForm 0 passRead = .ok passForm := by
    unfold State.objectForm
    simp only [hr, h1, h2, h3, h4, hs]
    rw [if_neg (by decide +kernel)]
    simp only [h5]
    rw [if_neg (by decide +kernel), if_neg (by simp), if_neg (by decide +kernel)]
    simp only [Except.ok.injEq]
    decide +kernel
  have hb : ([(0x110000, passBytes)] : List (Nat × List Byte)).flatMap Prod.snd = passBytes := by simp
  unfold State.passOutput
  simp only [hb]
  rw [show (fun off n => if off + n ≤ passBytes.length then some ((passBytes.drop off).take n) else none) = passRead from rfl, h]

/-- Requests that cannot be read, whose reserved bytes are not zero, whose object is of another form, and one whose object can be bound. -/
theorem meets_LoaderEvents :
    let s := withTable 0 (on 2 .c)
    let l : State := { s with mem := Memory.writeN s.mem 0x100000 (List.replicate 64 1) }
    s.readVirt (16 * 0 + 9) 0 .read (0x70000000 : Word).toNat 64 = none ∧
    (l.readVirt (16 * 0 + 9) 0 .read (0x60000000 : Word).toNat 64).any (fun q => (q.drop 0x18).any (fun b => b != 0)) = true ∧
    (match s.readObject 9 0x60010000 0x60000100 with | .ok _ => false | .error e => e == (0x20, 0)) = true ∧
    ((loadable 0).readVirt (16 * 0 + 9) 0 .read (0x60000000 : Word).toNat 64).any (fun q => !(q.drop 0x18).any (fun b => b != 0) &&
      leAt q 0 8 == 0x60010000 && leAt q 8 8 == 0x60000100) = true ∧
    ((s.modMod 0 (fun x => { x with mgmt := [0] })).mgmtRuns 0 = true ∧ (s.modMod 0 (fun x => { x with mgmt := [0] })).translates 0 = true ∧ s.dies = []) ∧
    ([(0, 0)] : List (Nat × BitVec 32)).all (fun e => e.2.toNat == (s.die e.1).survey.edition) = true ∧ passForm.madeFor [(0, 0)] = true ∧
    (1 : BitVec 32).toNat ≠ (s.die 0).survey.edition ∧ (s.passOutput 0 []).isNone = true ∧ s.keptObjects = [] ∧
    -- the text of a plat
    ((withTable 21 (withPlat (fun p => { p with parcels := p.parcels.map (fun q => { q with csrc := 0x60000000 }) }) (on 2 .c))).keptObjects).all
      (rangesMeet (0, 0x100000, 8)) = true := by
  decide +kernel

/-! ## The machine as a whole -/

/-- A stream whose turn it is, in a block of 40 halfwords at 0, with the word given at halfword 4. -/
def turned (w : Nat) (n : Nat) : State :=
  let s := on 2 .c
  { s.modFcore (fun k => { k with regions := [⟨0, .c, 0, 127, false⟩], padC := Memory.writeN k.padC 8 (bytesLE n w) }) with turn := [.issue s.foc] }

theorem meets_StepRunsTheWord :
    let s := on 2 .c
    let i := s.foc
    let t (w : Nat) : State := { turned w 4 with turn := [] }
    let u := (turned 0x80 2).modStrm i (fun y => { y with pc := 44 })
    let a := (turned 0x80 2).modFcore (fun k => { k with regions := [⟨0, .c, 0, 4, false⟩] })
    ({ s with agenda := [(99, .stallEnd i)] } : State).agenda = (99, .stallEnd i) :: [] ∧ 99 ≤ s.clk ∧
    (turned 0x80 2).agenda = [] ∧ s.turn = [] ∧ (turned 0x80 2).turn = [.issue i] ∧ ((turned 0x80 2).ctx i.ctx).resident = true ∧
    (turned 0x80 2).act i = .word ∧ (turned 0x80 2).pairHeld i = false ∧
    (t 0x4000002D).absentHalf = none ∧ (t 0x4000002D).fstrm.pc + (t 0x4000002D).halvesHere = 6 ∧ (t 0x4000002D).fstrm.blk + 4 + (t 0x4000002D).fstrm.len = 44 ∧
    (t 0x4000002D).firstHalf.getLsbD 0 = true ∧ (decode32 (kindOf 2) .c ((t 0x4000002D).fcore.word .c 4)).toOption = some .retire ∧
    (t 0x80).firstHalf.getLsbD 0 = false ∧ (decode16 (kindOf 2) .c (t 0x80).firstHalf).toOption = some (.stall 4) ∧
    (t 0x80001061).decodeHere.toOption = none ∧ (t 0x80001061).absentHalf = none ∧
    u.fstrm.pc + u.halvesHere = 45 ∧ u.absentHalf = none ∧ ({ turned 0x4000002D 4 with turn := [] }.modFcore (fun k => { k with regions := a.fcore.regions })).absentHalf = some 5 := by
  decide +kernel

/-- An instruction that is well-formed and its bytes. -/
theorem meets_DecodeEncode : (Instr.ldAcq 4 16 20 7).wf .compute .c = true := by decide

theorem meets_DecodedIsWellFormed :
    (decodeBytes .compute .c [0x2D, 0, 0, 0x40, 9]).map (fun r => (r.1.toOption, r.2)) = some (some .retire, [9]) := by decide +kernel

/-- A step that stores: the bytes of a plain register of the host that an event writes through BAR2. -/
theorem meets_MemoryStaysCanonical :
    let s : State := { (on 2 .c).modMod 0 (fun x => { x with ready := true, port0 := true }) with
      agenda := [(100, .hostBar2Write 0 0 8 [1])], mem := [(3, 7)] }
    Memory.wf s.mem = true ∧ (after (step s)).mem = [(3, 7), (8, 1)] := by
  decide +kernel

theorem meets_RegisterFrame :
    let s := onWith 2 .c (regs3 .c 6 7 0)
    let v := on 2 .v
    ((after (exec (.add ⟨false, 0⟩ 2 1 3) s)).rd 3 = 13) ∧ (after (exec (.cmpLt false 2 1 4) s)).cur = s.cur ∧ (after (exec (.pbr 4 1) s)).clk = s.clk ∧
    (after (exec (.br ⟨false, 0⟩ 0) s)).clk = s.clk ∧ (after (exec (.vadd ⟨false, 0⟩ 0 1 2) v)).clk = v.clk ∧
    (⟨0, 31, .vec [1, 2], 5, false, 0, 0, false⟩ : Pend).val = .vec [1, 2] := by
  decide +kernel

end Sys2Proof.Tests
end

/-! PROOFS. The control stream's compares, predicate logic and divides (14 R322, R323, R333; 18 R388). The support comes first: what a
ready word of each shape does, and what the words of their majors decode to. -/

namespace Sys2Proof

/-! ## Decoding one word -/

/-- The four bytes of a 32-bit word at the head of a list decode as the word does (13 R300). -/
theorem decodeBytes_word_bytes {w : BitVec 32} (hb : w.getLsbD 0 = true) (kd : CoreKind) (st : Stream) (rest : List Byte) :
    decodeBytes kd st ((Code.word w).bytes ++ rest) = some (decode32 kd st w, rest) := by
  have hlow : (w.extractLsb' 0 8).getLsbD 0 = true := by simpa [BitVec.getLsbD_extractLsb'] using hb
  calc decodeBytes kd st ((Code.word w).bytes ++ rest)
      = some (decode32 kd st (w.extractLsb' 24 8 ++ w.extractLsb' 16 8 ++ w.extractLsb' 8 8 ++ w.extractLsb' 0 8), rest) := if_pos hlow
    _ = some (decode32 kd st w, rest) := by rw [byte_append]

/-- The word of a well-formed instruction decodes to it. -/
theorem decode32_of_roundTrip {i : Instr} {w : BitVec 32} {kd : CoreKind} {st : Stream} (hi : Laws.RoundTrip.Statement i)
    (hw : encode i = .word w) (hb : w.getLsbD 0 = true) (hwf : i.wf kd st = true) : decode32 kd st w = .ok i := by
  have hd := hi kd st [] hwf
  rw [hw, decodeBytes_word_bytes hb] at hd
  simpa using hd

/-- A word that does not parse is an error on every kind of core. -/
theorem decode32_error {w : BitVec 32} {st : Stream} {e : Illegal} (kd : CoreKind) (h : parse32 st w = .error e) :
    decode32 kd st w = .error e := by
  rw [decode32, h, checkWf]

theorem inCA_of_ne_v {st : Stream} (h : st ≠ .v) : inCA st = true := by
  cases st with
  | c => rfl
  | a => rfl
  | v => exact absurd rfl h

/-- V runs on compute cores only (07 R190). -/
theorem inAll_of_compute {kd : CoreKind} {st : Stream} (h : st = .v → kd = .compute) : inAll kd st = true := by
  cases st with
  | c => rfl
  | a => rfl
  | v => rw [h rfl]; rfl

/-! ## The words of majors 0x04, 0x05, 0x06 and 0x10 -/

theorem decode32_cmp {kd : CoreKind} {st : Stream} {p : BitVec 6} (n : Bool) (b a : BitVec 5) (hst : st ≠ .v) (hp : p.toNat < 48) :
    ∀ e ∈ [(0#4, Instr.cmpEq n b a p), (1#4, .cmpNe n b a p), (2#4, .cmpLt n b a p), (3#4, .cmpGe n b a p), (4#4, .cmpLtu n b a p),
      (5#4, .cmpGeu n b a p)], decode32 kd st (joinWP 0x04#5 ⟨0#5, BitVec.ofBool n, e.1, b, a, p⟩) = .ok e.2 := by
  have hwf : (inCA st && okP p) = true := by simp [inCA_of_ne_v hst, okP, hp]
  simp only [List.forall_mem_cons]
  exact ⟨decode32_of_roundTrip (Laws.RoundTrip.cmpEq n b a p) rfl (bit0_joinWP _ _) hwf,
    decode32_of_roundTrip (Laws.RoundTrip.cmpNe n b a p) rfl (bit0_joinWP _ _) hwf,
    decode32_of_roundTrip (Laws.RoundTrip.cmpLt n b a p) rfl (bit0_joinWP _ _) hwf,
    decode32_of_roundTrip (Laws.RoundTrip.cmpGe n b a p) rfl (bit0_joinWP _ _) hwf,
    decode32_of_roundTrip (Laws.RoundTrip.cmpLtu n b a p) rfl (bit0_joinWP _ _) hwf,
    decode32_of_roundTrip (Laws.RoundTrip.cmpGeu n b a p) rfl (bit0_joinWP _ _) hwf, List.forall_mem_nil _⟩

theorem decode32_cmpi {kd : CoreKind} {st : Stream} {p : BitVec 6} (n : Bool) (m : BitVec 11) (a : BitVec 5) (hst : st ≠ .v)
    (hp : p.toNat < 48) :
    ∀ e ∈ [(0#3, Instr.cmpiEq n m a p), (1#3, .cmpiNe n m a p), (2#3, .cmpiLt n m a p), (3#3, .cmpiGe n m a p), (4#3, .cmpiLtu n m a p),
      (5#3, .cmpiGeu n m a p)], decode32 kd st (joinWPI 0x05#5 ⟨BitVec.ofBool n, e.1, m, a, p⟩) = .ok e.2 := by
  have hwf : (inCA st && okP p) = true := by simp [inCA_of_ne_v hst, okP, hp]
  simp only [List.forall_mem_cons]
  exact ⟨decode32_of_roundTrip (Laws.RoundTrip.cmpiEq n m a p) rfl (bit0_joinWPI _ _) hwf,
    decode32_of_roundTrip (Laws.RoundTrip.cmpiNe n m a p) rfl (bit0_joinWPI _ _) hwf,
    decode32_of_roundTrip (Laws.RoundTrip.cmpiLt n m a p) rfl (bit0_joinWPI _ _) hwf,
    decode32_of_roundTrip (Laws.RoundTrip.cmpiGe n m a p) rfl (bit0_joinWPI _ _) hwf,
    decode32_of_roundTrip (Laws.RoundTrip.cmpiLtu n m a p) rfl (bit0_joinWPI _ _) hwf,
    decode32_of_roundTrip (Laws.RoundTrip.cmpiGeu n m a p) rfl (bit0_joinWPI _ _) hwf, List.forall_mem_nil _⟩

theorem decode32_plogic {kd : CoreKind} {st : Stream} {p : BitVec 6} (n : Bool) (b a : BitVec 5) (hst : st = .v → kd = .compute)
    (hp : p.toNat < 48) :
    ∀ e ∈ [(0#4, b, Instr.pand n b a p), (1#4, b, .por n b a p), (2#4, b, .pxor n b a p), (3#4, b, .pandn n b a p),
      (4#4, 0#5, .pmov n a p), (5#4, 0#5, .pnot n a p)],
      decode32 kd st (joinWP 0x06#5 ⟨0#5, BitVec.ofBool n, e.1, e.2.1, a, p⟩) = .ok e.2.2 := by
  have hwf : (inAll kd st && okP p) = true := by simp [inAll_of_compute hst, okP, hp]
  simp only [List.forall_mem_cons]
  exact ⟨decode32_of_roundTrip (Laws.RoundTrip.pand n b a p) rfl (bit0_joinWP _ _) hwf,
    decode32_of_roundTrip (Laws.RoundTrip.por n b a p) rfl (bit0_joinWP _ _) hwf,
    decode32_of_roundTrip (Laws.RoundTrip.pxor n b a p) rfl (bit0_joinWP _ _) hwf,
    decode32_of_roundTrip (Laws.RoundTrip.pandn n b a p) rfl (bit0_joinWP _ _) hwf,
    decode32_of_roundTrip (Laws.RoundTrip.pmov n a p) rfl (bit0_joinWP _ _) hwf,
    decode32_of_roundTrip (Laws.RoundTrip.pnot n a p) rfl (bit0_joinWP _ _) hwf, List.forall_mem_nil _⟩

theorem parseCA04_fn_ge_six {w : BitVec 32} (h : 6 ≤ (splitWP w).fn.toNat) : parseCA04 w = .error .unallocatedFn := by
  obtain ⟨k, hk⟩ := Nat.exists_eq_add_of_le' h
  rw [parseCA04, hk]
  rfl

theorem parseCA05_fn_ge_six {w : BitVec 32} (h : 6 ≤ (splitWPI w).fn.toNat) : parseCA05 w = .error .unallocatedFn := by
  obtain ⟨k, hk⟩ := Nat.exists_eq_add_of_le' h
  rw [parseCA05, hk]
  rfl

theorem parseCA06_fn_ge_six {w : BitVec 32} (h : 6 ≤ (splitWP w).fn.toNat) : parseCA06 w = .error .unallocatedFn := by
  obtain ⟨k, hk⟩ := Nat.exists_eq_add_of_le' h
  rw [parseCA06, hk]
  rfl

/-- The mask logic of V has the words of C and A (18 R388). -/
theorem parseV06_eq_parseCA06 (w : BitVec 32) : parseV06 w = parseCA06 w := rfl

theorem parse32_06 (st : Stream) {w : BitVec 32} (hm : majorOf w = 0x06#5) : parse32 st w = parseCA06 w := by
  cases st with
  | c => exact parse32_CA06 rfl hm
  | a => exact parse32_CA06 rfl hm
  | v => rw [parse32_V06 hm, parseV06_eq_parseCA06]

theorem decode32_cmp_unallocated {st : Stream} {fn : BitVec 4} (n : Bool) (b a : BitVec 5) (p : BitVec 6) (kd : CoreKind) (hst : st ≠ .v)
    (hfn : 6 ≤ fn.toNat) : decode32 kd st (joinWP 0x04#5 ⟨0#5, BitVec.ofBool n, fn, b, a, p⟩) = .error .unallocatedFn := by
  refine decode32_error kd ?_
  rw [parse32_CA04 (inCA_of_ne_v hst) (majorOf_joinWP _ _), parseCA04_fn_ge_six (by rwa [splitWP_joinWP])]

theorem decode32_cmpi_unallocated {st : Stream} {fn : BitVec 3} (n : Bool) (m : BitVec 11) (a : BitVec 5) (p : BitVec 6) (kd : CoreKind)
    (hst : st ≠ .v) (hfn : 6 ≤ fn.toNat) : decode32 kd st (joinWPI 0x05#5 ⟨BitVec.ofBool n, fn, m, a, p⟩) = .error .unallocatedFn := by
  refine decode32_error kd ?_
  rw [parse32_CA05 (inCA_of_ne_v hst) (majorOf_joinWPI _ _), parseCA05_fn_ge_six (by rwa [splitWPI_joinWPI])]

theorem decode32_plogic_unallocated {fn : BitVec 4} (n : Bool) (b a : BitVec 5) (p : BitVec 6) (kd : CoreKind) (st : Stream)
    (hfn : 6 ≤ fn.toNat) : decode32 kd st (joinWP 0x06#5 ⟨0#5, BitVec.ofBool n, fn, b, a, p⟩) = .error .unallocatedFn := by
  refine decode32_error kd ?_
  rw [parse32_06 st (majorOf_joinWP _ _), parseCA06_fn_ge_six (by rwa [splitWP_joinWP])]

theorem decode32_divides (kd : CoreKind) {g : Guard} (b a d : BitVec 5) (hp : g.p.toNat < 48) :
    ∀ e ∈ [(0#4, Instr.div g b a d), (1#4, .divu g b a d), (2#4, .rem g b a d), (3#4, .remu g b a d)],
      decode32 kd .c (joinW3 0x10#5 ⟨e.1, BitVec.ofBool g.neg, g.p, b, a, d⟩) = .ok e.2 := by
  have hwf : (inC .c && okG g) = true := by simp [inC, okG, okP, hp]
  simp only [List.forall_mem_cons]
  exact ⟨decode32_of_roundTrip (Laws.RoundTrip.div g b a d) rfl (bit0_joinW3 _ _) hwf,
    decode32_of_roundTrip (Laws.RoundTrip.divu g b a d) rfl (bit0_joinW3 _ _) hwf,
    decode32_of_roundTrip (Laws.RoundTrip.rem g b a d) rfl (bit0_joinW3 _ _) hwf,
    decode32_of_roundTrip (Laws.RoundTrip.remu g b a d) rfl (bit0_joinW3 _ _) hwf, List.forall_mem_nil _⟩

end Sys2Proof

namespace Sys2Proof.Machine

/-! ## The conditions, on integers (14 R322) -/

theorem Cond.holds_eq (x y : Word) : Cond.eq.holds x y = decide (x = y) := rfl

theorem Cond.holds_ne (x y : Word) : Cond.ne.holds x y = decide (x ≠ y) := (decide_not).symm

theorem Cond.holds_lt (x y : Word) : Cond.lt.holds x y = decide (x.toInt < y.toInt) := rfl

theorem Cond.holds_ge (x y : Word) : Cond.ge.holds x y = decide (y.toInt ≤ x.toInt) := by
  simp [Cond.holds, BitVec.slt, ← decide_not]

theorem Cond.holds_ltu (x y : Word) : Cond.ltu.holds x y = decide (x.toNat < y.toNat) := rfl

theorem Cond.holds_geu (x y : Word) : Cond.geu.holds x y = decide (y.toNat ≤ x.toNat) := by
  simp [Cond.holds, BitVec.ult, ← decide_not]

/-! ## Compares and predicate logic that are ready -/

theorem State.Ready.cmp3 {s : State} {a b : BitVec 5} {p : BitVec 6} (h : s.Ready { srcs := [a.toNat, b.toNat], dsts := [(codeP p.toNat, 1)] })
    (n : Bool) {c : Cond} {v : Bool} (hv : c.holds (s.rd a) (s.rd b) = v) :
    cmp3 c n b a p s = .next ((s.resPred p.toNat (v != n)).issued 2) := by
  subst hv
  exact h.word32 rfl

theorem State.Ready.cmpI {s : State} {a : BitVec 5} {p : BitVec 6} (h : s.Ready { srcs := [a.toNat], dsts := [(codeP p.toNat, 1)] })
    (n : Bool) {m : BitVec 11} {c : Cond} {v : Bool} (hv : c.holds (s.rd a) (m.signExtend 64) = v) :
    cmpI c n m a p s = .next ((s.resPred p.toNat (v != n)).issued 2) := by
  subst hv
  exact h.word32 rfl

/-- Predicate logic on C and A (14 R323). -/
theorem State.Ready.plogic_pred {s : State} {srcs : List Nat} {p : BitVec 6} (h : s.Ready { srcs := srcs, dsts := [(codeP p.toNat, 1)] })
    (hst : s.foc.st ≠ .v) (f : Bool → Bool → Bool) (fm : Mask → Mask → Mask) (n : Bool) (b a : BitVec 5) :
    plogic f fm n srcs b a p s = .next ((s.resPred p.toNat (f (s.rdP a) (s.rdP b) != n)).issued 2) := by
  rw [plogic, if_neg hst]
  exact h.word32 rfl

/-- Mask logic on V (18 R388). -/
theorem State.Ready.plogic_mask {s : State} {srcs : List Nat} {p : BitVec 6} (h : s.Ready { srcs := srcs, dsts := [(codeP p.toNat, 2)] })
    (hst : s.foc.st = .v) (f : Bool → Bool → Bool) (fm : Mask → Mask → Mask) (n : Bool) (b a : BitVec 5) :
    plogic f fm n srcs b a p s = .next ((s.result (codeP p.toNat) 2
      (.mask (if n then ~~~(fm (s.rdM a) (s.rdM b)) else fm (s.rdM a) (s.rdM b))) maskAll 0 false).issued 2) := by
  rw [plogic, if_pos hst]
  exact h.word32 rfl

/-- No window moves p0 (07 R163). -/
theorem physCode_p0 (st : Stream) (swin : Nat) : physCode st swin (codeP 0) = 32 := by
  cases st <;> rfl

/-- A write of p0 is discarded (07 R162). -/
theorem State.resPred_p0 (s : State) (c : Bool) : s.resPred 0 c = s := by
  unfold State.resPred State.result
  simp [physCode_p0, discarded]

/-! ## Divides that are ready -/

/-- A divide waits while the result of the stream's previous divide is in flight (14 R333). -/
theorem State.Ready.divWord_waits {s : State} {g : Guard} {a b d : BitVec 5}
    (h : s.Ready { guard := g, srcs := [a.toNat, b.toNat], outs := [d.toNat] }) (op : Word → Word → Word × Nat)
    (hprev : s.fstrm.pend.any (fun p => s.fstrm.divId == some p.id) = true) : divWord op g b a d s = .next (s.waits 0x03) := by
  rw [divWord, Machine.word32, h.runWord, if_pos hprev]

/-- With no earlier divide in flight it puts its result in flight, `divClk` of the quotient after its issue (14 R333). -/
theorem State.Ready.divWord_issues {s : State} {g : Guard} {a b d : BitVec 5}
    (h : s.Ready { guard := g, srcs := [a.toNat, b.toNat], outs := [d.toNat] }) {op : Word → Word → Word × Nat} {v : Word} {q : Nat}
    (hprev : s.fstrm.pend.any (fun p => s.fstrm.divId == some p.id) = false) (hop : op (s.rd a) (s.rd b) = (v, q)) :
    divWord op g b a d s = .next (((s.interlocked d.toNat (s.clk + divClk q - 1) v).modFs
      (fun y => { y with divId := some s.fresh })).issued 2) := by
  refine h.word32 ?_
  rw [if_neg (Bool.eq_false_iff.1 hprev), hop]

/-! The result of each divide and the quotient whose bits count; for a divisor of 0 that quotient is 0 (14 R333). -/

theorem divS_eq (x y : Word) : divS x y =
    (if y = 0 then BitVec.allOnes 64 else BitVec.ofInt 64 (if y = 0 then 0 else x.toInt.tdiv y.toInt),
      (if y = 0 then 0 else x.toInt.tdiv y.toInt).natAbs) := by
  by_cases h : y = 0
  · simp only [divS, if_pos h, Int.natAbs_zero]
  · simp only [divS, if_neg h]

theorem divU_eq (x y : Word) : divU x y =
    (if y = 0 then BitVec.allOnes 64 else BitVec.ofNat 64 (if y = 0 then 0 else x.toNat / y.toNat), if y = 0 then 0 else x.toNat / y.toNat) := by
  by_cases h : y = 0
  · simp only [divU, if_pos h]
  · simp only [divU, if_neg h]

theorem remS_eq (x y : Word) : remS x y =
    (if y = 0 then x else BitVec.ofInt 64 (x.toInt - y.toInt * (if y = 0 then 0 else x.toInt.tdiv y.toInt)),
      (if y = 0 then 0 else x.toInt.tdiv y.toInt).natAbs) := by
  by_cases h : y = 0
  · simp only [remS, if_pos h, Int.natAbs_zero]
  · simp only [remS, if_neg h]

theorem remU_eq (x y : Word) : remU x y =
    (if y = 0 then x else BitVec.ofNat 64 (x.toNat % y.toNat), if y = 0 then 0 else x.toNat / y.toNat) := by
  by_cases h : y = 0
  · simp only [remU, if_pos h]
  · simp only [remU, if_neg h]

/-! ## The obligations -/

/-- Settles O3: the words of one shape have one result lemma, and each encoding is that of its round trip. -/
theorem compareAndPredicateResults : Obligations.CompareAndPredicateResults := by
  unfold Obligations.CompareAndPredicateResults
  refine ⟨fun s n m b a p => ⟨fun h => ?_, fun h => ?_⟩,
    fun s n b a p => ⟨fun hst => ⟨fun h => ?_, fun h => ?_⟩, fun hst => ⟨fun h => ?_, fun h => ?_⟩⟩,
    fun s kd st n c b a p m => ⟨fun hst hp => ⟨decode32_cmp n b a hst hp, decode32_cmpi n m a hst hp⟩,
      fun hst => ⟨fun fn hfn => ⟨_, decode32_cmp_unallocated n b a p kd hst hfn⟩,
        fun fn hfn => ⟨_, decode32_cmpi_unallocated n m a p kd hst hfn⟩⟩,
      fun hst hp => decode32_plogic n b a hst hp, fun fn hfn => ⟨_, decode32_plogic_unallocated n b a p kd st hfn⟩, fun _ => s.resPred_p0 c⟩⟩
  · simp only [exec_cmpEq, exec_cmpNe, exec_cmpLt, exec_cmpGe, exec_cmpLtu, exec_cmpGeu]
    exact ⟨h.cmp3 n (Cond.holds_eq _ _), h.cmp3 n (Cond.holds_ne _ _), h.cmp3 n (Cond.holds_lt _ _), h.cmp3 n (Cond.holds_ge _ _),
      h.cmp3 n (Cond.holds_ltu _ _), h.cmp3 n (Cond.holds_geu _ _)⟩
  · simp only [exec_cmpiEq, exec_cmpiNe, exec_cmpiLt, exec_cmpiGe, exec_cmpiLtu, exec_cmpiGeu]
    exact ⟨h.cmpI n (Cond.holds_eq _ _), h.cmpI n (Cond.holds_ne _ _), h.cmpI n (Cond.holds_lt _ _), h.cmpI n (Cond.holds_ge _ _),
      h.cmpI n (Cond.holds_ltu _ _), h.cmpI n (Cond.holds_geu _ _)⟩
  · simp only [exec_pand, exec_por, exec_pxor, exec_pandn]
    exact ⟨h.plogic_pred hst _ _ n b a, h.plogic_pred hst _ _ n b a, h.plogic_pred hst _ _ n b a, h.plogic_pred hst _ _ n b a⟩
  · simp only [exec_pmov, exec_pnot]
    exact ⟨h.plogic_pred hst _ _ n a a, h.plogic_pred hst _ _ n a a⟩
  · simp only [exec_pand, exec_por, exec_pxor, exec_pandn]
    exact ⟨h.plogic_mask hst _ _ n b a, h.plogic_mask hst _ _ n b a, h.plogic_mask hst _ _ n b a, h.plogic_mask hst _ _ n b a⟩
  · simp only [exec_pmov, exec_pnot]
    exact ⟨h.plogic_mask hst _ _ n a a, h.plogic_mask hst _ _ n a a⟩

/-- Settles O4: one lemma says when a divide waits, one what it puts in flight, and four what each divide computes. -/
theorem divideResults : Obligations.DivideResults := by
  unfold Obligations.DivideResults
  intro s g b a d
  refine ⟨fun hp kd => ?_, fun h => ⟨fun hprev => ?_, fun hprev => ?_⟩⟩
  · obtain ⟨hdiv, hdivu, hrem, hremu, -⟩ := by simpa only [List.forall_mem_cons] using decode32_divides kd b a d hp
    exact ⟨hdiv, hdivu, hrem, hremu⟩
  · simp only [List.forall_mem_cons, exec_div, exec_divu, exec_rem, exec_remu]
    exact ⟨h.divWord_waits divS hprev, h.divWord_waits divU hprev, h.divWord_waits remS hprev, h.divWord_waits remU hprev,
      List.forall_mem_nil _⟩
  · simp only [exec_div, exec_divu, exec_rem, exec_remu]
    exact ⟨h.divWord_issues hprev (divS_eq _ _), h.divWord_issues hprev (divU_eq _ _), h.divWord_issues hprev (remS_eq _ _),
      h.divWord_issues hprev (remU_eq _ _)⟩

end Sys2Proof.Machine

/-! PROOFS. The vector stream's immediate word (18 R393; 13 R303): what major 0x0A decodes to, and what a vector result is on a core
without faulty lanes. -/

namespace Sys2Proof

/-! ## The words of major 0x0A of V -/

theorem decode32_vli (i : BitVec 20) (d : BitVec 5) : decode32 .compute .v (joinWU 0x0A#5 ⟨0#1, i, d⟩) = .ok (.vli i d) :=
  decode32_of_roundTrip (Laws.RoundTrip.vli i d) rfl (bit0_joinWU _ _) rfl

theorem parseV0A_fn_one {w : BitVec 32} (h : (splitWU w).fn = 1#1) : parseV0A w = .error .unallocatedFn := by
  rw [parseV0A, h]
  rfl

theorem decode32_vli_unallocated (kd : CoreKind) (i : BitVec 20) (d : BitVec 5) :
    decode32 kd .v (joinWU 0x0A#5 ⟨1#1, i, d⟩) = .error .unallocatedFn := by
  refine decode32_error kd ?_
  rw [parse32_V0A (majorOf_joinWU _ _), parseV0A_fn_one (by rw [splitWU_joinWU])]

end Sys2Proof

namespace Sys2Proof.Machine

/-! ## Vector results -/

/-- With no lane group struck for a lasting fault a vector result holds the elements given (04 R112). -/
theorem State.vresult_of_no_faultyGroups {s : State} (h : s.faultyGroups s.foc.ctx.core = []) (d lat : Nat) (v : List Elem) (m : Mask)
    (fl : Flags) : s.vresult d lat v m fl = s.result d lat (.vec v) m fl false := by
  rw [State.vresult, h, List.isEmpty_nil, if_pos rfl]

/-- A VLI that is ready puts its result in flight (18 R393). -/
theorem State.Ready.execVli {s : State} {d : BitVec 5} (h : s.Ready { dsts := [(d.toNat, 2)] }) (i : BitVec 20) :
    execVli i d s = .next ((s.vresult d.toNat 2 (List.replicate 1024 (i ++ 0#12)) maskAll 0).issued 2) :=
  h.word32 rfl

/-! ## The obligation -/

/-- Settles O27: the code is the joined WU word of major 0x0A, and the result is the vector result of a word that is ready. -/
theorem vectorImmediateWords : Obligations.VectorImmediateWords := by
  unfold Obligations.VectorImmediateWords
  intro s i d
  refine ⟨decode32_vli i d, decode32_vli_unallocated .compute i d, fun h => ?_, fun hf => ?_⟩
  · rw [exec_vli]
    exact h.execVli i
  · exact State.vresult_of_no_faultyGroups hf d.toNat 2 _ maskAll 0

end Sys2Proof.Machine

/-! PROOFS. The decoder and the encoder agree: every instruction has its round trip, and what decodes is well-formed and no event
(13 R300). -/

namespace Sys2Proof

/-- Every constructor has its round trip. -/
theorem Laws.RoundTrip.every (i : Instr) : Laws.RoundTrip.Statement i :=
  match i with
  | .add g b a d => Laws.RoundTrip.add g b a d
  | .sub g b a d => Laws.RoundTrip.sub g b a d
  | .and g b a d => Laws.RoundTrip.and g b a d
  | .or g b a d => Laws.RoundTrip.or g b a d
  | .xor g b a d => Laws.RoundTrip.xor g b a d
  | .andn g b a d => Laws.RoundTrip.andn g b a d
  | .shl g b a d => Laws.RoundTrip.shl g b a d
  | .shr g b a d => Laws.RoundTrip.shr g b a d
  | .sar g b a d => Laws.RoundTrip.sar g b a d
  | .rol g b a d => Laws.RoundTrip.rol g b a d
  | .min g b a d => Laws.RoundTrip.min g b a d
  | .max g b a d => Laws.RoundTrip.max g b a d
  | .minu g b a d => Laws.RoundTrip.minu g b a d
  | .maxu g b a d => Laws.RoundTrip.maxu g b a d
  | .mul g b a d => Laws.RoundTrip.mul g b a d
  | .mulhu g b a d => Laws.RoundTrip.mulhu g b a d
  | .addi i a d => Laws.RoundTrip.addi i a d
  | .andi i a d => Laws.RoundTrip.andi i a d
  | .ori i a d => Laws.RoundTrip.ori i a d
  | .xori i a d => Laws.RoundTrip.xori i a d
  | .shli i a d => Laws.RoundTrip.shli i a d
  | .shri i a d => Laws.RoundTrip.shri i a d
  | .sari i a d => Laws.RoundTrip.sari i a d
  | .muli i a d => Laws.RoundTrip.muli i a d
  | .lui i d => Laws.RoundTrip.lui i d
  | .auib i d => Laws.RoundTrip.auib i d
  | .bext g b a d => Laws.RoundTrip.bext g b a d
  | .bexts g b a d => Laws.RoundTrip.bexts g b a d
  | .bins g b a d => Laws.RoundTrip.bins g b a d
  | .clz g a d => Laws.RoundTrip.clz g a d
  | .ctz g a d => Laws.RoundTrip.ctz g a d
  | .popc g a d => Laws.RoundTrip.popc g a d
  | .bexti w o a d => Laws.RoundTrip.bexti w o a d
  | .binsi w o a d => Laws.RoundTrip.binsi w o a d
  | .cmpEq n b a p => Laws.RoundTrip.cmpEq n b a p
  | .cmpNe n b a p => Laws.RoundTrip.cmpNe n b a p
  | .cmpLt n b a p => Laws.RoundTrip.cmpLt n b a p
  | .cmpGe n b a p => Laws.RoundTrip.cmpGe n b a p
  | .cmpLtu n b a p => Laws.RoundTrip.cmpLtu n b a p
  | .cmpGeu n b a p => Laws.RoundTrip.cmpGeu n b a p
  | .cmpiEq n i a p => Laws.RoundTrip.cmpiEq n i a p
  | .cmpiNe n i a p => Laws.RoundTrip.cmpiNe n i a p
  | .cmpiLt n i a p => Laws.RoundTrip.cmpiLt n i a p
  | .cmpiGe n i a p => Laws.RoundTrip.cmpiGe n i a p
  | .cmpiLtu n i a p => Laws.RoundTrip.cmpiLtu n i a p
  | .cmpiGeu n i a p => Laws.RoundTrip.cmpiGeu n i a p
  | .pand n b a p => Laws.RoundTrip.pand n b a p
  | .por n b a p => Laws.RoundTrip.por n b a p
  | .pxor n b a p => Laws.RoundTrip.pxor n b a p
  | .pandn n b a p => Laws.RoundTrip.pandn n b a p
  | .pmov n a p => Laws.RoundTrip.pmov n a p
  | .pnot n a p => Laws.RoundTrip.pnot n a p
  | .movqPop g q d => Laws.RoundTrip.movqPop g q d
  | .movqPush g a q => Laws.RoundTrip.movqPush g a q
  | .trypopQueue g p q d => Laws.RoundTrip.trypopQueue g p q d
  | .ldB i b r => Laws.RoundTrip.ldB i b r
  | .ldH i b r => Laws.RoundTrip.ldH i b r
  | .ldW i b r => Laws.RoundTrip.ldW i b r
  | .ld i b r => Laws.RoundTrip.ld i b r
  | .ldSb i b r => Laws.RoundTrip.ldSb i b r
  | .ldSh i b r => Laws.RoundTrip.ldSh i b r
  | .ldSw i b r => Laws.RoundTrip.ldSw i b r
  | .ldAcq s i b r => Laws.RoundTrip.ldAcq s i b r
  | .stB i b r => Laws.RoundTrip.stB i b r
  | .stH i b r => Laws.RoundTrip.stH i b r
  | .stW i b r => Laws.RoundTrip.stW i b r
  | .st i b r => Laws.RoundTrip.st i b r
  | .stRel s i b r => Laws.RoundTrip.stRel s i b r
  | .amoAdd g b a d => Laws.RoundTrip.amoAdd g b a d
  | .amoAnd g b a d => Laws.RoundTrip.amoAnd g b a d
  | .amoOr g b a d => Laws.RoundTrip.amoOr g b a d
  | .amoXor g b a d => Laws.RoundTrip.amoXor g b a d
  | .amoMin g b a d => Laws.RoundTrip.amoMin g b a d
  | .amoMax g b a d => Laws.RoundTrip.amoMax g b a d
  | .amoMinu g b a d => Laws.RoundTrip.amoMinu g b a d
  | .amoMaxu g b a d => Laws.RoundTrip.amoMaxu g b a d
  | .amoSwap g b a d => Laws.RoundTrip.amoSwap g b a d
  | .cas g b a d => Laws.RoundTrip.cas g b a d
  | .ldlB i r => Laws.RoundTrip.ldlB i r
  | .ldlH i r => Laws.RoundTrip.ldlH i r
  | .ldlW i r => Laws.RoundTrip.ldlW i r
  | .ldl i r => Laws.RoundTrip.ldl i r
  | .ldlSb i r => Laws.RoundTrip.ldlSb i r
  | .ldlSh i r => Laws.RoundTrip.ldlSh i r
  | .ldlSw i r => Laws.RoundTrip.ldlSw i r
  | .stlB i r => Laws.RoundTrip.stlB i r
  | .stlH i r => Laws.RoundTrip.stlH i r
  | .stlW i r => Laws.RoundTrip.stlW i r
  | .stl i r => Laws.RoundTrip.stl i r
  | .fence u s => Laws.RoundTrip.fence u s
  | .pbr o t => Laws.RoundTrip.pbr o t
  | .pbrx a g t => Laws.RoundTrip.pbrx a g t
  | .br g t => Laws.RoundTrip.br g t
  | .brl g t => Laws.RoundTrip.brl g t
  | .sloop e a => Laws.RoundTrip.sloop e a
  | .snext t => Laws.RoundTrip.snext t
  | .div g b a d => Laws.RoundTrip.div g b a d
  | .divu g b a d => Laws.RoundTrip.divu g b a d
  | .rem g b a d => Laws.RoundTrip.rem g b a d
  | .remu g b a d => Laws.RoundTrip.remu g b a d
  | .mfs s d => Laws.RoundTrip.mfs s d
  | .mts s a => Laws.RoundTrip.mts s a
  | .barArrive s i => Laws.RoundTrip.barArrive s i
  | .barWait s i => Laws.RoundTrip.barWait s i
  | .barAw s i => Laws.RoundTrip.barAw s i
  | .twait p a => Laws.RoundTrip.twait p a
  | .waitm a d => Laws.RoundTrip.waitm a d
  | .qwait s => Laws.RoundTrip.qwait s
  | .signal a => Laws.RoundTrip.signal a
  | .push g a => Laws.RoundTrip.push g a
  | .pop g t => Laws.RoundTrip.pop g t
  | .trypopToken g p t => Laws.RoundTrip.trypopToken g p t
  | .setup g b a => Laws.RoundTrip.setup g b a
  | .oclaim i d => Laws.RoundTrip.oclaim i d
  | .orelease i => Laws.RoundTrip.orelease i
  | .send g b a => Laws.RoundTrip.send g b a
  | .hret g => Laws.RoundTrip.hret g
  | .trap c => Laws.RoundTrip.trap c
  | .rte => Laws.RoundTrip.rte
  | .rteSkip => Laws.RoundTrip.rteSkip
  | .waypt i => Laws.RoundTrip.waypt i
  | .evac a d => Laws.RoundTrip.evac a d
  | .retire => Laws.RoundTrip.retire
  | .mrepair a d => Laws.RoundTrip.mrepair a d
  | .launch g b a d => Laws.RoundTrip.launch g b a d
  | .ckpt a => Laws.RoundTrip.ckpt a
  | .cld e => Laws.RoundTrip.cld e
  | .cst e => Laws.RoundTrip.cst e
  | .csta e => Laws.RoundTrip.csta e
  | .cchn e head last => Laws.RoundTrip.cchn e head last
  | .cslc e => Laws.RoundTrip.cslc e
  | .covl e => Laws.RoundTrip.covl e
  | .cmig e big => Laws.RoundTrip.cmig e big
  | .cinv e all => Laws.RoundTrip.cinv e all
  | .mma e tb fmt => Laws.RoundTrip.mma e tb fmt
  | .mmas e tb fmt => Laws.RoundTrip.mmas e tb fmt
  | .mrot e => Laws.RoundTrip.mrot e
  | .mdrn e => Laws.RoundTrip.mdrn e
  | .mclr e => Laws.RoundTrip.mclr e
  | .msgn e => Laws.RoundTrip.msgn e
  | .wmax e => Laws.RoundTrip.wmax e
  | .wexs e => Laws.RoundTrip.wexs e
  | .wscl e => Laws.RoundTrip.wscl e
  | .wmom e => Laws.RoundTrip.wmom e
  | .wapl e => Laws.RoundTrip.wapl e
  | .ldv n r b q => Laws.RoundTrip.ldv n r b q
  | .stv n r b q => Laws.RoundTrip.stv n r b q
  | .ldg n r b q => Laws.RoundTrip.ldg n r b q
  | .stsc n r b q => Laws.RoundTrip.stsc n r b q
  | .amovAdd n r b q => Laws.RoundTrip.amovAdd n r b q
  | .amovMax n r b q => Laws.RoundTrip.amovMax n r b q
  | .pref i a => Laws.RoundTrip.pref i a
  | .tlbp a d => Laws.RoundTrip.tlbp a d
  | .vadd g b a d => Laws.RoundTrip.vadd g b a d
  | .vsub g b a d => Laws.RoundTrip.vsub g b a d
  | .vmul g b a d => Laws.RoundTrip.vmul g b a d
  | .vmin g b a d => Laws.RoundTrip.vmin g b a d
  | .vmax g b a d => Laws.RoundTrip.vmax g b a d
  | .vabs g a d => Laws.RoundTrip.vabs g a d
  | .vneg g a d => Laws.RoundTrip.vneg g a d
  | .vmov g a d => Laws.RoundTrip.vmov g a d
  | .vfma g c b a d => Laws.RoundTrip.vfma g c b a d
  | .vfms g c b a d => Laws.RoundTrip.vfms g c b a d
  | .vfnma g c b a d => Laws.RoundTrip.vfnma g c b a d
  | .vfnms g c b a d => Laws.RoundTrip.vfnms g c b a d
  | .vrcp g a d => Laws.RoundTrip.vrcp g a d
  | .vrsq g a d => Laws.RoundTrip.vrsq g a d
  | .vsqrt g a d => Laws.RoundTrip.vsqrt g a d
  | .vexp2 g a d => Laws.RoundTrip.vexp2 g a d
  | .vlog2 g a d => Laws.RoundTrip.vlog2 g a d
  | .vsin g a d => Laws.RoundTrip.vsin g a d
  | .vcos g a d => Laws.RoundTrip.vcos g a d
  | .vtanh g a d => Laws.RoundTrip.vtanh g a d
  | .viadd g b a d => Laws.RoundTrip.viadd g b a d
  | .visub g b a d => Laws.RoundTrip.visub g b a d
  | .vimul g b a d => Laws.RoundTrip.vimul g b a d
  | .vand g b a d => Laws.RoundTrip.vand g b a d
  | .vor g b a d => Laws.RoundTrip.vor g b a d
  | .vxor g b a d => Laws.RoundTrip.vxor g b a d
  | .vshl g b a d => Laws.RoundTrip.vshl g b a d
  | .vshr g b a d => Laws.RoundTrip.vshr g b a d
  | .vsar g b a d => Laws.RoundTrip.vsar g b a d
  | .vimin g b a d => Laws.RoundTrip.vimin g b a d
  | .vimax g b a d => Laws.RoundTrip.vimax g b a d
  | .vcmpEq n b a p => Laws.RoundTrip.vcmpEq n b a p
  | .vcmpNe n b a p => Laws.RoundTrip.vcmpNe n b a p
  | .vcmpLt n b a p => Laws.RoundTrip.vcmpLt n b a p
  | .vcmpLe n b a p => Laws.RoundTrip.vcmpLe n b a p
  | .vcmpGt n b a p => Laws.RoundTrip.vcmpGt n b a p
  | .vcmpGe n b a p => Laws.RoundTrip.vcmpGe n b a p
  | .vcmpOrd n b a p => Laws.RoundTrip.vcmpOrd n b a p
  | .vcmpUno n b a p => Laws.RoundTrip.vcmpUno n b a p
  | .vcmpIeq n b a p => Laws.RoundTrip.vcmpIeq n b a p
  | .vcmpIlt n b a p => Laws.RoundTrip.vcmpIlt n b a p
  | .vcmpIltu n b a p => Laws.RoundTrip.vcmpIltu n b a p
  | .vsel k b a d => Laws.RoundTrip.vsel k b a d
  | .vcvtI32 g a d => Laws.RoundTrip.vcvtI32 g a d
  | .vcvtF32 g a d => Laws.RoundTrip.vcvtF32 g a d
  | .vrndBf16 g a d => Laws.RoundTrip.vrndBf16 g a d
  | .vrndT8 g a d => Laws.RoundTrip.vrndT8 g a d
  | .vrndT6 g a d => Laws.RoundTrip.vrndT6 g a d
  | .vrotr k a d => Laws.RoundTrip.vrotr k a d
  | .vrotc k a d => Laws.RoundTrip.vrotc k a d
  | .vbcr k a d => Laws.RoundTrip.vbcr k a d
  | .vbcc k a d => Laws.RoundTrip.vbcc k a d
  | .vtrn16 a d => Laws.RoundTrip.vtrn16 a d
  | .vredrSum a d => Laws.RoundTrip.vredrSum a d
  | .vredrMax a d => Laws.RoundTrip.vredrMax a d
  | .vredrMin a d => Laws.RoundTrip.vredrMin a d
  | .vredcSum a d => Laws.RoundTrip.vredcSum a d
  | .vredcMax a d => Laws.RoundTrip.vredcMax a d
  | .vredcMin a d => Laws.RoundTrip.vredcMin a d
  | .vli i d => Laws.RoundTrip.vli i d
  | .vpop c r q d => Laws.RoundTrip.vpop c r q d
  | .vpush c r q a => Laws.RoundTrip.vpush c r q a
  | .vtos j r a => Laws.RoundTrip.vtos j r a
  | .vfrs h d => Laws.RoundTrip.vfrs h d
  | .vldl o d => Laws.RoundTrip.vldl o d
  | .vstl o a => Laws.RoundTrip.vstl o a
  | .vSloop e => Laws.RoundTrip.vSloop e
  | .dadd b a d => Laws.RoundTrip.dadd b a d
  | .dsub b a d => Laws.RoundTrip.dsub b a d
  | .dmul b a d => Laws.RoundTrip.dmul b a d
  | .dmix b a d => Laws.RoundTrip.dmix b a d
  | .dmuls b a d => Laws.RoundTrip.dmuls b a d
  | .dadds b a d => Laws.RoundTrip.dadds b a d
  | .dmaxs b a d => Laws.RoundTrip.dmaxs b a d
  | .dmapExp2 a d => Laws.RoundTrip.dmapExp2 a d
  | .dmapLog2 a d => Laws.RoundTrip.dmapLog2 a d
  | .dmapTanh a d => Laws.RoundTrip.dmapTanh a d
  | .dmapSigmoid a d => Laws.RoundTrip.dmapSigmoid a d
  | .dpt r a d => Laws.RoundTrip.dpt r a d
  | .dgauss r a d => Laws.RoundTrip.dgauss r a d
  | .dpop q d => Laws.RoundTrip.dpop q d
  | .dpush q a => Laws.RoundTrip.dpush q a
  | .dmom k r a d => Laws.RoundTrip.dmom k r a d
  | .dqnt r a d => Laws.RoundTrip.dqnt r a d
  | .dtag i d => Laws.RoundTrip.dtag i d
  | .dlin i d => Laws.RoundTrip.dlin i d
  | .dflg i => Laws.RoundTrip.dflg i
  | .dflgRd i => Laws.RoundTrip.dflgRd i
  | .stall n => Laws.RoundTrip.stall n
  | .mvh a d => Laws.RoundTrip.mvh a d
  | .addih i d => Laws.RoundTrip.addih i d
  | .brh g t => Laws.RoundTrip.brh g t
  | .blockFetch => Laws.RoundTrip.blockFetch
  | .stallEnd => Laws.RoundTrip.stallEnd
  | .resultLand => Laws.RoundTrip.resultLand
  | .interlockedResultArrival => Laws.RoundTrip.interlockedResultArrival
  | .granuleDataArrival => Laws.RoundTrip.granuleDataArrival
  | .twaitExpiry => Laws.RoundTrip.twaitExpiry
  | .waitmWake => Laws.RoundTrip.waitmWake
  | .qwaitComplete => Laws.RoundTrip.qwaitComplete
  | .barrierRelease => Laws.RoundTrip.barrierRelease
  | .combiningEntrySend => Laws.RoundTrip.combiningEntrySend
  | .combiningEntryInject => Laws.RoundTrip.combiningEntryInject
  | .slotInject => Laws.RoundTrip.slotInject
  | .slotHopArrival => Laws.RoundTrip.slotHopArrival
  | .hopAcknowledge => Laws.RoundTrip.hopAcknowledge
  | .hopRetransmit => Laws.RoundTrip.hopRetransmit
  | .retryExhausted => Laws.RoundTrip.retryExhausted
  | .hopRetrained => Laws.RoundTrip.hopRetrained
  | .returnedSlotReinject => Laws.RoundTrip.returnedSlotReinject
  | .timetabledSlotArrival => Laws.RoundTrip.timetabledSlotArrival
  | .landingBufferDrain => Laws.RoundTrip.landingBufferDrain
  | .trunkGroupArrival => Laws.RoundTrip.trunkGroupArrival
  | .linkOutOfLock => Laws.RoundTrip.linkOutOfLock
  | .laneFailure => Laws.RoundTrip.laneFailure
  | .linkBringUp => Laws.RoundTrip.linkBringUp
  | .mirrorAcceptance => Laws.RoundTrip.mirrorAcceptance
  | .resetNoticeArrival => Laws.RoundTrip.resetNoticeArrival
  | .activeMessageArrival => Laws.RoundTrip.activeMessageArrival
  | .postedWriteArrival => Laws.RoundTrip.postedWriteArrival
  | .remoteReadRequest => Laws.RoundTrip.remoteReadRequest
  | .remoteReadReply => Laws.RoundTrip.remoteReadReply
  | .remoteAtomicRequest => Laws.RoundTrip.remoteAtomicRequest
  | .remoteAtomicReply => Laws.RoundTrip.remoteAtomicReply
  | .migrationDataArrival => Laws.RoundTrip.migrationDataArrival
  | .lossNoticeArrival => Laws.RoundTrip.lossNoticeArrival
  | .creditReturn => Laws.RoundTrip.creditReturn
  | .moduleWaveBegin => Laws.RoundTrip.moduleWaveBegin
  | .podWaveBegin => Laws.RoundTrip.podWaveBegin
  | .podWavePart => Laws.RoundTrip.podWavePart
  | .musterSlotMerge => Laws.RoundTrip.musterSlotMerge
  | .musterRollReturn => Laws.RoundTrip.musterRollReturn
  | .jobOpenNotice => Laws.RoundTrip.jobOpenNotice
  | .jobCloseNotice => Laws.RoundTrip.jobCloseNotice
  | .jobFreeNotice => Laws.RoundTrip.jobFreeNotice
  | .stationReset => Laws.RoundTrip.stationReset
  | .mrepairArrival => Laws.RoundTrip.mrepairArrival
  | .signalArrival => Laws.RoundTrip.signalArrival
  | .invalidationMarkerArrival => Laws.RoundTrip.invalidationMarkerArrival
  | .tlbWalkComplete => Laws.RoundTrip.tlbWalkComplete
  | .pageFault => Laws.RoundTrip.pageFault
  | .fnfresRetry => Laws.RoundTrip.fnfresRetry
  | .fnfresRaisePerm => Laws.RoundTrip.fnfresRaisePerm
  | .fnfresEndPlat => Laws.RoundTrip.fnfresEndPlat
  | .fnfresAnswerNothing => Laws.RoundTrip.fnfresAnswerNothing
  | .bankSwitchComplete => Laws.RoundTrip.bankSwitchComplete
  | .trapDelivery => Laws.RoundTrip.trapDelivery
  | .trapCapture => Laws.RoundTrip.trapCapture
  | .handlerStart => Laws.RoundTrip.handlerStart
  | .rteResume => Laws.RoundTrip.rteResume
  | .latchReinject => Laws.RoundTrip.latchReinject
  | .timerMatch => Laws.RoundTrip.timerMatch
  | .promiseMiss => Laws.RoundTrip.promiseMiss
  | .engineCommandBegin => Laws.RoundTrip.engineCommandBegin
  | .engineMicroStep => Laws.RoundTrip.engineMicroStep
  | .engineCommandComplete => Laws.RoundTrip.engineCommandComplete
  | .eccFreezeBegin => Laws.RoundTrip.eccFreezeBegin
  | .eccFreezeEnd => Laws.RoundTrip.eccFreezeEnd
  | .selfTestEnd => Laws.RoundTrip.selfTestEnd
  | .uncorrectableErrorConsumed => Laws.RoundTrip.uncorrectableErrorConsumed
  | .memoryUncorrectableError => Laws.RoundTrip.memoryUncorrectableError
  | .pairSlotCompare => Laws.RoundTrip.pairSlotCompare
  | .pairCompareTimeout => Laws.RoundTrip.pairCompareTimeout
  | .periodicResurvey => Laws.RoundTrip.periodicResurvey
  | .resurveyEnd => Laws.RoundTrip.resurveyEnd
  | .surveyChangePost => Laws.RoundTrip.surveyChangePost
  | .thermalStop => Laws.RoundTrip.thermalStop
  | .thermalPowerOff => Laws.RoundTrip.thermalPowerOff
  | .readinessDeadline => Laws.RoundTrip.readinessDeadline
  | .readinessVerdict => Laws.RoundTrip.readinessVerdict
  | .verdictTimeout => Laws.RoundTrip.verdictTimeout
  | .platRelease => Laws.RoundTrip.platRelease
  | .priorityAging => Laws.RoundTrip.priorityAging
  | .runQuantumExpiry => Laws.RoundTrip.runQuantumExpiry
  | .forcedStop => Laws.RoundTrip.forcedStop
  | .platResume => Laws.RoundTrip.platResume
  | .loaderRequest => Laws.RoundTrip.loaderRequest
  | .templatePass => Laws.RoundTrip.templatePass
  | .profilePass => Laws.RoundTrip.profilePass
  | .manselWrite => Laws.RoundTrip.manselWrite
  | .jopenWrite => Laws.RoundTrip.jopenWrite
  | .jcloseWrite => Laws.RoundTrip.jcloseWrite
  | .losscntClear => Laws.RoundTrip.losscntClear
  | .mirentWrite => Laws.RoundTrip.mirentWrite
  | .plostClear => Laws.RoundTrip.plostClear
  | .hsemAcquire => Laws.RoundTrip.hsemAcquire
  | .hsemRelease => Laws.RoundTrip.hsemRelease
  | .fnctlRst => Laws.RoundTrip.fnctlRst
  | .functionResetComplete => Laws.RoundTrip.functionResetComplete
  | .fnctlGo => Laws.RoundTrip.fnctlGo
  | .fnctlEn => Laws.RoundTrip.fnctlEn
  | .fnjobsWrite => Laws.RoundTrip.fnjobsWrite
  | .feataccWrite => Laws.RoundTrip.feataccWrite
  | .featmaskWrite => Laws.RoundTrip.featmaskWrite
  | .fnnotifyWrite => Laws.RoundTrip.fnnotifyWrite
  | .fnerrclrWrite => Laws.RoundTrip.fnerrclrWrite
  | .attctlRequest => Laws.RoundTrip.attctlRequest
  | .attestReportReady => Laws.RoundTrip.attestReportReady
  | .dbgreqRequest => Laws.RoundTrip.dbgreqRequest
  | .dbgreqWithdraw => Laws.RoundTrip.dbgreqWithdraw
  | .registerWrite => Laws.RoundTrip.registerWrite
  | .hostBar2Write => Laws.RoundTrip.hostBar2Write
  | .hostBar2Read => Laws.RoundTrip.hostBar2Read
  | .hostConfigRequest => Laws.RoundTrip.hostConfigRequest
  | .portReset => Laws.RoundTrip.portReset
  | .powerOn => Laws.RoundTrip.powerOn
  | .dhcpv6Timeout => Laws.RoundTrip.dhcpv6Timeout
  | .imageFetchComplete => Laws.RoundTrip.imageFetchComplete
  | .firmwareUpdate => Laws.RoundTrip.firmwareUpdate
  | .moduleReset => Laws.RoundTrip.moduleReset
  | .ptimeSync => Laws.RoundTrip.ptimeSync
  | .mrepairNoAnswer => Laws.RoundTrip.mrepairNoAnswer
  | .hostPortTrained => Laws.RoundTrip.hostPortTrained

/-- Settles O56: it is the round trip of the instruction's constructor. -/
theorem decodeEncode : Obligations.DecodeEncode :=
  Laws.RoundTrip.every

/-- No event of the device is a well-formed word of any stream. -/
theorem Event.wf_instr (e : Event) (kd : CoreKind) (st : Stream) : e.instr.wf kd st = false := by
  cases e <;> rfl

/-- The operand check lets an instruction pass only where it is well-formed. -/
theorem wf_of_checkWf {kd : CoreKind} {st : Stream} {r : Except Illegal Instr} {i : Instr} (h : checkWf kd st r = .ok i) : i.wf kd st = true := by
  cases r with
  | error e => exact nomatch h
  | ok j =>
    rw [checkWf] at h
    split at h
    next hwf => injection h with hi; exact hi ▸ hwf
    next => exact nomatch h

/-- Whatever bytes give an instruction, its operand check has passed (13 R300 step 4). -/
theorem wf_of_decodeBytes {kd : CoreKind} {st : Stream} {bs rest : List Byte} {i : Instr} (h : decodeBytes kd st bs = some (.ok i, rest)) :
    i.wf kd st = true := by
  unfold decodeBytes at h
  split at h
  next b0 b1 bs =>
    split at h
    next hlong =>
      split at h
      next => injection h with h; exact wf_of_checkWf (Prod.ext_iff.1 h).1
      next => exact nomatch h
    next hshort => injection h with h; exact wf_of_checkWf (Prod.ext_iff.1 h).1
  next => exact nomatch h

/-- Settles O57: the decoder ends in the operand check, and no event passes it. -/
theorem decodedIsWellFormed : Obligations.DecodedIsWellFormed := by
  unfold Obligations.DecodedIsWellFormed
  intro kd st bs rest i h
  have hwf := wf_of_decodeBytes h
  refine ⟨hwf, fun e hi => ?_⟩
  rw [hi, e.wf_instr] at hwf
  exact nomatch hwf

/-- The words that the spec writes out, one evaluation of the decoder for each: settles O55. -/
theorem encodedWordsDecode : Obligations.EncodedWordsDecode := by
  unfold Obligations.EncodedWordsDecode
  decide +kernel

end Sys2Proof

namespace Sys2Proof.Machine

/-! ## The reset state -/

theorem StreamSt.reg_reset (n : Nat) : StreamSt.reset.reg n = 0 := by
  unfold StreamSt.reg
  split <;> rfl

/-- No table of the reset state lists anything, so that a context, a core or a station reads as its own reset value. -/
theorem State.strm_reset (i : StreamId) : State.reset.strm i = StreamSt.reset := by
  obtain ⟨c, st⟩ := i
  cases st <;> rfl

/-- Settles O59: every part reads as its reset value, and every table of that as its default. -/
theorem resetState : Obligations.ResetState := by
  unfold Obligations.ResetState
  intro s
  refine ⟨fun c => ⟨rfl, (by decide : Ctx.reset.mode = 0), rfl, rfl, fun _ => rfl⟩, fun i n => ?_, fun sta job => ⟨rfl, rfl, rfl, rfl⟩, fun m n => ⟨rfl, rfl⟩,
    fun d => rfl, fun k => ⟨rfl, rfl⟩, rfl, fun a => rfl, rfl, rfl, rfl⟩
  simp only [s, State.strm_reset, StreamSt.reg_reset]
  exact ⟨trivial, rfl, rfl, rfl⟩

/-! ## What stands at the position of a stream (13 R300; 07 R165) -/

section
variable {s : State}

theorem State.fetchWord_absent {h : Nat} (ha : s.absentHalf = some h) : s.fetchWord = .bad cABSENT (BitVec.ofNat 64 h) := by
  rw [State.fetchWord, ha]

theorem State.fetchWord_beyond (ha : s.absentHalf = none) (hb : ¬ s.fstrm.pc + s.halvesHere ≤ s.fstrm.blk + 4 + s.fstrm.len) :
    s.fetchWord = .bad cILLEGAL (s.firstHalf.setWidth 64) := by
  rw [State.fetchWord, ha]
  exact if_pos (Nat.lt_of_not_le hb)

/-- Inside the regions and the block the decoder decides. -/
theorem State.fetchWord_inside (ha : s.absentHalf = none) (hb : s.fstrm.pc + s.halvesHere ≤ s.fstrm.blk + 4 + s.fstrm.len) :
    s.fetchWord = match s.decodeHere with
      | .ok i => .word i s.halvesHere
      | .error _ => .bad cILLEGAL (s.firstHalf.setWidth 64) := by
  rw [State.fetchWord, ha]
  exact (if_neg (Nat.not_lt_of_le hb)).trans rfl

theorem State.decodeHere_long (h : s.firstHalf.getLsbD 0 = true) :
    s.decodeHere = decode32 (kindOf s.foc.ctx.core) s.foc.st (s.fcore.word s.foc.st s.fstrm.pc) := if_pos h

theorem State.decodeHere_short (h : s.firstHalf.getLsbD 0 = false) :
    s.decodeHere = decode16 (kindOf s.foc.ctx.core) s.foc.st s.firstHalf := if_neg (Bool.eq_false_iff.1 h)

theorem runFetched_bad {c : Nat} {v : Word} (h : s.fetchWord = .bad c v) : runFetched s = .next (s.raise c v) := by
  rw [runFetched, h]

theorem runFetched_ok {w : Instr} (ha : s.absentHalf = none) (hb : s.fstrm.pc + s.halvesHere ≤ s.fstrm.blk + 4 + s.fstrm.len)
    (hd : s.decodeHere = .ok w) : runFetched s = mapNext (fun u => u.afterWord w) (exec w s) := by
  rw [runFetched, State.fetchWord_inside ha hb, hd]

theorem runFetched_error {e : Illegal} (ha : s.absentHalf = none) (hb : s.fstrm.pc + s.halvesHere ≤ s.fstrm.blk + 4 + s.fstrm.len)
    (hd : s.decodeHere = .error e) : runFetched s = .next (s.raise 0x01 (s.firstHalf.setWidth 64)) :=
  runFetched_bad (by rw [State.fetchWord_inside ha hb, hd]; rfl)

/-! ## One step -/

/-- With nothing due the turn goes on. -/
theorem step_of_none_due (h : ∀ e ∈ s.agenda, s.clk < e.1) : step s = turnStep s := by
  rw [step, stepOnce]
  split
  next due e rest ha => exact if_neg (Nat.not_le_of_lt (h (due, e) (by rw [ha]; exact List.mem_cons_self)))
  next => rfl

/-- A stream that may issue a word runs what stands at its position. -/
theorem turnStep_word {i : StreamId} {rest : List Turn} (ht : s.turn = .issue i :: rest) (hr : (s.ctx i.ctx).resident = true)
    (ha : s.act i = .word) (hp : s.pairHeld i = false) : turnStep s = runFetched { s with turn := rest, foc := i } := by
  simp only [turnStep, ht, hr, ha, hp, Bool.not_true, Bool.false_eq_true, if_false]

end

/-- Settles O54: the agenda's head first, else the turn, and of a word what its fetch finds. -/
theorem stepRunsTheWord : Obligations.StepRunsTheWord := by
  unfold Obligations.StepRunsTheWord
  intro s
  refine ⟨fun due e rest h hd => ?_, fun hq => ⟨fun ht => ?_, fun i rest ht hr ha hp => ?_⟩⟩
  · rw [step, stepOnce, h]
    exact if_pos hd
  · rw [step_of_none_due hq, turnStep, ht]
  · rw [step_of_none_due hq, turnStep_word ht hr ha hp]
    exact ⟨fun habs hin => ⟨fun w hl hd => runFetched_ok habs hin ((State.decodeHere_long hl).trans hd),
        fun w hl hd => runFetched_ok habs hin ((State.decodeHere_short hl).trans hd), fun e hd => runFetched_error habs hin hd⟩,
      fun habs hout => runFetched_bad (State.fetchWord_beyond habs hout), fun h habs => runFetched_bad (State.fetchWord_absent habs)⟩

end Sys2Proof.Machine

namespace Sys2Proof.Machine

/-! ## Memory through an operation -/

/-- A fold of operations that leave memory leaves it. -/
theorem State.foldl_mem {α : Type} {f : State → α → State} {l : List α} {s : State} (h : ∀ t a, (f t a).mem = t.mem) : (l.foldl f s).mem = s.mem := by
  induction l generalizing s with
  | nil => rfl
  | cons a l ih => rw [List.foldl_cons, ih, h]

/-- A memory in its canonical form (log 4). -/
def Canonical (m : Memory) : Prop := Memory.wf m = true

/-- A fold of operations that keep the canonical form keeps it. -/
theorem State.foldl_canonical {α : Type} {f : State → α → State} {l : List α} {s : State} (h : Canonical s.mem)
    (hf : ∀ t a, Canonical t.mem → Canonical (f t a).mem) : Canonical (l.foldl f s).mem := by
  induction l generalizing s with
  | nil => exact h
  | cons a l ih => exact ih (hf s a h)

/-- A memory equal to one with a property has it. -/
theorem of_mem_eq (Q : Memory → Prop) {m m' : Memory} (e : m' = m) (h : Q m) : Q m' := e ▸ h

section
variable (Q : Memory → Prop)

/-! Whatever state an answer holds has a memory with a property. -/

def Res.MemAll : Res → Prop
  | .done s => Q s.mem
  | .jumped s => Q s.mem
  | .wait _ s => Q s.mem
  | .whole s => Q s.mem
  | .trap _ _ => True

def Trans.MemAll : Trans → Prop
  | .leaf _ s => Q s.mem
  | .wait s => Q s.mem
  | .fault _ _ => True

def Resolve.MemAll : Resolve → Prop
  | .at _ s => Q s.mem
  | .stop r => r.MemAll Q

def Located.MemAll : Located → Prop
  | .at _ s => Q s.mem
  | .stop r => r.MemAll Q

def Scales.MemAll : Scales → Prop
  | .known _ s => Q s.mem
  | .wait s => Q s.mem

def Beat.MemAll : Beat → Prop
  | .go _ s => Q s.mem
  | .hold s => Q s.mem
  | .fault _ _ _ => True
  | .bad _ _ => True

def Peek.MemAll : Peek → Prop
  | .value _ _ => True
  | .wait s => Q s.mem

/-- The next state, where there is one, has a memory with a property. -/
def MemNext : Host.Outcome State Fault Refusal → Prop
  | .next s => Q s.mem
  | .fault _ => True
  | .refused _ => True

end

theorem Res.memAll_ite {Q : Memory → Prop} {c : Prop} [Decidable c] {a b : Res} (ha : a.MemAll Q) (hb : b.MemAll Q) :
    (if c then a else b).MemAll Q := by
  split <;> assumption

theorem Located.memAll_ite {Q : Memory → Prop} {c : Prop} [Decidable c] {a b : Located} (ha : a.MemAll Q) (hb : b.MemAll Q) :
    (if c then a else b).MemAll Q := by
  split <;> assumption

section
variable {Q : Memory → Prop} {n : Need} {body : State → Res} {s : State}

/-- A word changes memory in its own effect alone: its checks, a trap and a wait leave it. -/
theorem runWord_memAll (k : Nat) (h : Q s.mem) (hb : (body s).MemAll Q) : Q (runWord k n body s).mem := by
  unfold runWord
  cases gate n s with
  | trap c t => exact h
  | wait => exact h
  | waitSlip => exact h
  | skip => exact h
  | go =>
    cases s.verdictPerm with
    | some va => exact h
    | none =>
      revert hb
      cases body s with
      | done t => exact id
      | jumped t => exact id
      | wait code t => exact id
      | whole t => exact id
      | trap c t => exact fun _ => h

theorem word32_memNext (h : Q s.mem) (hb : (body s).MemAll Q) : MemNext Q (word32 n body s) := runWord_memAll 2 h hb

theorem word16_memNext (h : Q s.mem) (hb : (body s).MemAll Q) : MemNext Q (word16 n body s) := runWord_memAll 1 h hb

end


@[simp] theorem State.nextId_mem (s : State) : (s.nextId).2.mem = s.mem := rfl

@[simp] theorem State.result_mem (s : State) (code lat : ℕ) (v : RVal) (elems : Mask) (fl : Flags) (dst : Bool) :
    (s.result code lat v elems fl dst).mem = s.mem := by
  unfold State.result
  dsimp only
  (repeat' split) <;> simp

@[simp] theorem State.resWord_mem (s : State) (rd lat : ℕ) (v : Word) : (s.resWord rd lat v).mem = s.mem := by
  unfold State.resWord
  simp

/-! ### Memory through the functions of Machine/Scalar -/

theorem alu3_memNext {Q : Memory → Prop} (lat : ℕ) (op : Word → Word → Word) (g : Guard) (b a d : BitVec 5) (s : State) (h : Q s.mem) :
    MemNext Q (alu3 lat op g b a d s) := word32_memNext h (by simp [Res.MemAll, h])

theorem execAdd_memNext {Q : Memory → Prop} (g : Guard) (b a d : BitVec 5) (s : State) (h : Q s.mem) :
    MemNext Q (execAdd g b a d s) := alu3_memNext (h := h) ..

theorem execSub_memNext {Q : Memory → Prop} (g : Guard) (b a d : BitVec 5) (s : State) (h : Q s.mem) :
    MemNext Q (execSub g b a d s) := alu3_memNext (h := h) ..

theorem execAnd_memNext {Q : Memory → Prop} (g : Guard) (b a d : BitVec 5) (s : State) (h : Q s.mem) :
    MemNext Q (execAnd g b a d s) := alu3_memNext (h := h) ..

theorem execOr_memNext {Q : Memory → Prop} (g : Guard) (b a d : BitVec 5) (s : State) (h : Q s.mem) :
    MemNext Q (execOr g b a d s) := alu3_memNext (h := h) ..

theorem execXor_memNext {Q : Memory → Prop} (g : Guard) (b a d : BitVec 5) (s : State) (h : Q s.mem) :
    MemNext Q (execXor g b a d s) := alu3_memNext (h := h) ..

theorem execAndn_memNext {Q : Memory → Prop} (g : Guard) (b a d : BitVec 5) (s : State) (h : Q s.mem) :
    MemNext Q (execAndn g b a d s) := alu3_memNext (h := h) ..

theorem execShl_memNext {Q : Memory → Prop} (g : Guard) (b a d : BitVec 5) (s : State) (h : Q s.mem) :
    MemNext Q (execShl g b a d s) := alu3_memNext (h := h) ..

theorem execShr_memNext {Q : Memory → Prop} (g : Guard) (b a d : BitVec 5) (s : State) (h : Q s.mem) :
    MemNext Q (execShr g b a d s) := alu3_memNext (h := h) ..

theorem execSar_memNext {Q : Memory → Prop} (g : Guard) (b a d : BitVec 5) (s : State) (h : Q s.mem) :
    MemNext Q (execSar g b a d s) := alu3_memNext (h := h) ..

theorem execRol_memNext {Q : Memory → Prop} (g : Guard) (b a d : BitVec 5) (s : State) (h : Q s.mem) :
    MemNext Q (execRol g b a d s) := alu3_memNext (h := h) ..

theorem execMin_memNext {Q : Memory → Prop} (g : Guard) (b a d : BitVec 5) (s : State) (h : Q s.mem) :
    MemNext Q (execMin g b a d s) := alu3_memNext (h := h) ..

theorem execMax_memNext {Q : Memory → Prop} (g : Guard) (b a d : BitVec 5) (s : State) (h : Q s.mem) :
    MemNext Q (execMax g b a d s) := alu3_memNext (h := h) ..

theorem execMinu_memNext {Q : Memory → Prop} (g : Guard) (b a d : BitVec 5) (s : State) (h : Q s.mem) :
    MemNext Q (execMinu g b a d s) := alu3_memNext (h := h) ..

theorem execMaxu_memNext {Q : Memory → Prop} (g : Guard) (b a d : BitVec 5) (s : State) (h : Q s.mem) :
    MemNext Q (execMaxu g b a d s) := alu3_memNext (h := h) ..

theorem execMul_memNext {Q : Memory → Prop} (g : Guard) (b a d : BitVec 5) (s : State) (h : Q s.mem) :
    MemNext Q (execMul g b a d s) := alu3_memNext (h := h) ..

theorem execMulhu_memNext {Q : Memory → Prop} (g : Guard) (b a d : BitVec 5) (s : State) (h : Q s.mem) :
    MemNext Q (execMulhu g b a d s) := alu3_memNext (h := h) ..

theorem aluI_memNext {Q : Memory → Prop} (lat : ℕ) (op : Word → Word → Word) (imm : Word) (a d : BitVec 5) (s : State) (h : Q s.mem) :
    MemNext Q (aluI lat op imm a d s) := word32_memNext h (by simp [Res.MemAll, h])

theorem execAddi_memNext {Q : Memory → Prop} (i : BitVec 12) (a d : BitVec 5) (s : State) (h : Q s.mem) :
    MemNext Q (execAddi i a d s) := aluI_memNext (h := h) ..

theorem execAndi_memNext {Q : Memory → Prop} (i : BitVec 12) (a d : BitVec 5) (s : State) (h : Q s.mem) :
    MemNext Q (execAndi i a d s) := aluI_memNext (h := h) ..

theorem execOri_memNext {Q : Memory → Prop} (i : BitVec 12) (a d : BitVec 5) (s : State) (h : Q s.mem) :
    MemNext Q (execOri i a d s) := aluI_memNext (h := h) ..

theorem execXori_memNext {Q : Memory → Prop} (i : BitVec 12) (a d : BitVec 5) (s : State) (h : Q s.mem) :
    MemNext Q (execXori i a d s) := aluI_memNext (h := h) ..

theorem execShli_memNext {Q : Memory → Prop} (i : BitVec 6) (a d : BitVec 5) (s : State) (h : Q s.mem) :
    MemNext Q (execShli i a d s) := aluI_memNext (h := h) ..

theorem execShri_memNext {Q : Memory → Prop} (i : BitVec 6) (a d : BitVec 5) (s : State) (h : Q s.mem) :
    MemNext Q (execShri i a d s) := aluI_memNext (h := h) ..

theorem execSari_memNext {Q : Memory → Prop} (i : BitVec 6) (a d : BitVec 5) (s : State) (h : Q s.mem) :
    MemNext Q (execSari i a d s) := aluI_memNext (h := h) ..

theorem execMuli_memNext {Q : Memory → Prop} (i : BitVec 12) (a d : BitVec 5) (s : State) (h : Q s.mem) :
    MemNext Q (execMuli i a d s) := aluI_memNext (h := h) ..

theorem execLui_memNext {Q : Memory → Prop} (i : BitVec 20) (d : BitVec 5) (s : State) (h : Q s.mem) :
    MemNext Q (execLui i d s) := word32_memNext h (by simp [Res.MemAll, h])

theorem execAuib_memNext {Q : Memory → Prop} (i : BitVec 20) (d : BitVec 5) (s : State) (h : Q s.mem) :
    MemNext Q (execAuib i d s) := word32_memNext h (by simp [Res.MemAll, h])

theorem execBext_memNext {Q : Memory → Prop} (g : Guard) (b a d : BitVec 5) (s : State) (h : Q s.mem) :
    MemNext Q (execBext g b a d s) := alu3_memNext (h := h) ..

theorem execBexts_memNext {Q : Memory → Prop} (g : Guard) (b a d : BitVec 5) (s : State) (h : Q s.mem) :
    MemNext Q (execBexts g b a d s) := alu3_memNext (h := h) ..

theorem execBins_memNext {Q : Memory → Prop} (g : Guard) (b a d : BitVec 5) (s : State) (h : Q s.mem) :
    MemNext Q (execBins g b a d s) := word32_memNext h (by simp [Res.MemAll, h])

theorem alu1_memNext {Q : Memory → Prop} (op : Word → Word) (g : Guard) (a d : BitVec 5) (s : State) (h : Q s.mem) :
    MemNext Q (alu1 op g a d s) := word32_memNext h (by simp [Res.MemAll, h])

theorem execClz_memNext {Q : Memory → Prop} (g : Guard) (a d : BitVec 5) (s : State) (h : Q s.mem) :
    MemNext Q (execClz g a d s) := alu1_memNext (h := h) ..

theorem execCtz_memNext {Q : Memory → Prop} (g : Guard) (a d : BitVec 5) (s : State) (h : Q s.mem) :
    MemNext Q (execCtz g a d s) := alu1_memNext (h := h) ..

theorem execPopc_memNext {Q : Memory → Prop} (g : Guard) (a d : BitVec 5) (s : State) (h : Q s.mem) :
    MemNext Q (execPopc g a d s) := alu1_memNext (h := h) ..

theorem execBexti_memNext {Q : Memory → Prop} (w o : BitVec 6) (a d : BitVec 5) (s : State) (h : Q s.mem) :
    MemNext Q (execBexti w o a d s) := aluI_memNext (h := h) ..

theorem execBinsi_memNext {Q : Memory → Prop} (w o : BitVec 6) (a d : BitVec 5) (s : State) (h : Q s.mem) :
    MemNext Q (execBinsi w o a d s) := word32_memNext h (by simp [Res.MemAll, h])

@[simp] theorem State.resPred_mem (s : State) (p : ℕ) (b : Bool) : (s.resPred p b).mem = s.mem := by
  unfold State.resPred
  simp

theorem cmp3_memNext {Q : Memory → Prop} (c : Cond) (n : Bool) (b a : BitVec 5) (p : BitVec 6) (s : State) (h : Q s.mem) :
    MemNext Q (cmp3 c n b a p s) := word32_memNext h (by simp [Res.MemAll, h])

theorem execCmpEq_memNext {Q : Memory → Prop} (n : Bool) (b a : BitVec 5) (p : BitVec 6) (s : State) (h : Q s.mem) :
    MemNext Q (execCmpEq n b a p s) := cmp3_memNext (h := h) ..

theorem execCmpNe_memNext {Q : Memory → Prop} (n : Bool) (b a : BitVec 5) (p : BitVec 6) (s : State) (h : Q s.mem) :
    MemNext Q (execCmpNe n b a p s) := cmp3_memNext (h := h) ..

theorem execCmpLt_memNext {Q : Memory → Prop} (n : Bool) (b a : BitVec 5) (p : BitVec 6) (s : State) (h : Q s.mem) :
    MemNext Q (execCmpLt n b a p s) := cmp3_memNext (h := h) ..

theorem execCmpGe_memNext {Q : Memory → Prop} (n : Bool) (b a : BitVec 5) (p : BitVec 6) (s : State) (h : Q s.mem) :
    MemNext Q (execCmpGe n b a p s) := cmp3_memNext (h := h) ..

theorem execCmpLtu_memNext {Q : Memory → Prop} (n : Bool) (b a : BitVec 5) (p : BitVec 6) (s : State) (h : Q s.mem) :
    MemNext Q (execCmpLtu n b a p s) := cmp3_memNext (h := h) ..

theorem execCmpGeu_memNext {Q : Memory → Prop} (n : Bool) (b a : BitVec 5) (p : BitVec 6) (s : State) (h : Q s.mem) :
    MemNext Q (execCmpGeu n b a p s) := cmp3_memNext (h := h) ..

theorem cmpI_memNext {Q : Memory → Prop} (c : Cond) (n : Bool) (i : BitVec 11) (a : BitVec 5) (p : BitVec 6) (s : State) (h : Q s.mem) :
    MemNext Q (cmpI c n i a p s) := word32_memNext h (by simp [Res.MemAll, h])

theorem execCmpiEq_memNext {Q : Memory → Prop} (n : Bool) (i : BitVec 11) (a : BitVec 5) (p : BitVec 6) (s : State) (h : Q s.mem) :
    MemNext Q (execCmpiEq n i a p s) := cmpI_memNext (h := h) ..

theorem execCmpiNe_memNext {Q : Memory → Prop} (n : Bool) (i : BitVec 11) (a : BitVec 5) (p : BitVec 6) (s : State) (h : Q s.mem) :
    MemNext Q (execCmpiNe n i a p s) := cmpI_memNext (h := h) ..

theorem execCmpiLt_memNext {Q : Memory → Prop} (n : Bool) (i : BitVec 11) (a : BitVec 5) (p : BitVec 6) (s : State) (h : Q s.mem) :
    MemNext Q (execCmpiLt n i a p s) := cmpI_memNext (h := h) ..

theorem execCmpiGe_memNext {Q : Memory → Prop} (n : Bool) (i : BitVec 11) (a : BitVec 5) (p : BitVec 6) (s : State) (h : Q s.mem) :
    MemNext Q (execCmpiGe n i a p s) := cmpI_memNext (h := h) ..

theorem execCmpiLtu_memNext {Q : Memory → Prop} (n : Bool) (i : BitVec 11) (a : BitVec 5) (p : BitVec 6) (s : State) (h : Q s.mem) :
    MemNext Q (execCmpiLtu n i a p s) := cmpI_memNext (h := h) ..

theorem execCmpiGeu_memNext {Q : Memory → Prop} (n : Bool) (i : BitVec 11) (a : BitVec 5) (p : BitVec 6) (s : State) (h : Q s.mem) :
    MemNext Q (execCmpiGeu n i a p s) := cmpI_memNext (h := h) ..

theorem plogic_memNext {Q : Memory → Prop} (f : Bool → Bool → Bool) (fm : Mask → Mask → Mask) (n : Bool) (srcs : List ℕ) (b a : BitVec 5) (p : BitVec 6) (s : State) (h : Q s.mem) :
    MemNext Q (plogic f fm n srcs b a p s) := by
  unfold plogic
  split
  · exact word32_memNext h (by simp [Res.MemAll, h])
  · exact word32_memNext h (by simp [Res.MemAll, h])

theorem execPand_memNext {Q : Memory → Prop} (n : Bool) (b a : BitVec 5) (p : BitVec 6) (s : State) (h : Q s.mem) :
    MemNext Q (execPand n b a p s) := plogic_memNext (h := h) ..

theorem execPor_memNext {Q : Memory → Prop} (n : Bool) (b a : BitVec 5) (p : BitVec 6) (s : State) (h : Q s.mem) :
    MemNext Q (execPor n b a p s) := plogic_memNext (h := h) ..

theorem execPxor_memNext {Q : Memory → Prop} (n : Bool) (b a : BitVec 5) (p : BitVec 6) (s : State) (h : Q s.mem) :
    MemNext Q (execPxor n b a p s) := plogic_memNext (h := h) ..

theorem execPandn_memNext {Q : Memory → Prop} (n : Bool) (b a : BitVec 5) (p : BitVec 6) (s : State) (h : Q s.mem) :
    MemNext Q (execPandn n b a p s) := plogic_memNext (h := h) ..

theorem execPmov_memNext {Q : Memory → Prop} (n : Bool) (a : BitVec 5) (p : BitVec 6) (s : State) (h : Q s.mem) :
    MemNext Q (execPmov n a p s) := plogic_memNext (h := h) ..

theorem execPnot_memNext {Q : Memory → Prop} (n : Bool) (a : BitVec 5) (p : BitVec 6) (s : State) (h : Q s.mem) :
    MemNext Q (execPnot n a p s) := plogic_memNext (h := h) ..

theorem execMovqPop_memNext {Q : Memory → Prop} (g : Guard) (q d : BitVec 5) (s : State) (h : Q s.mem) :
    MemNext Q (execMovqPop g q d s) := word32_memNext h (by
  dsimp only
  (repeat' split) <;> simp [Res.MemAll, h])

@[simp] theorem State.sendEntries_mem (s : State) (core : ℕ) (p : CombEntry → Bool) :
    (s.sendEntries core p).mem = s.mem := by
  unfold State.sendEntries
  dsimp only
  refine (State.foldl_mem fun t id => ?_).trans ?_
  · rfl
  · rfl

@[simp] theorem State.flush_mem (s : State) (c : CtxId) : (s.flush c).mem = s.mem := by
  unfold State.flush
  simp

theorem execMovqPush_memNext {Q : Memory → Prop} (g : Guard) (a q : BitVec 5) (s : State) (h : Q s.mem) :
    MemNext Q (execMovqPush g a q s) := word32_memNext h (by
  dsimp only
  (repeat' split) <;> simp [Res.MemAll, h])

theorem execTrypopQueue_memNext {Q : Memory → Prop} (g : Guard) (p q d : BitVec 5) (s : State) (h : Q s.mem) :
    MemNext Q (execTrypopQueue g p q d s) := word32_memNext h (by
  dsimp only
  (repeat' split) <;> simp [Res.MemAll, h])

@[simp] theorem State.freeTime_mem (s : State) : (s.freeTime).2.mem = s.mem := rfl

@[simp] theorem State.beginWalk_mem (s : State) (core : ℕ) (r : WalkReq) : (s.beginWalk core r).mem = s.mem := rfl

@[simp] theorem State.walkPages_mem (s : State) (core : ℕ) (rs : List (WalkReq × ℕ × Leaf)) :
    (s.walkPages core rs).mem = s.mem := by
  unfold State.walkPages
  split <;> rfl

theorem State.translate_memAll {Q : Memory → Prop} (s : State) (c : CtxId) (src : ℕ) (acc : Access) (va : ℕ) (h : Q s.mem) :
    (s.translate c src acc va).MemAll Q := by
  unfold State.translate
  dsimp only
  split
  · split
    · trivial
    · exact h
  · split
    · exact h
    · split
      · split <;> exact h
      · split
        · simpa [Trans.MemAll] using h
        · split <;> simpa [Trans.MemAll] using h

theorem State.pageFaults_memAll {Q : Memory → Prop} (s : State) (acc : Access) (va kind level : ℕ) (h : Q s.mem) :
    (s.pageFaults acc va kind level).MemAll Q := h

theorem State.resolve_memAll {Q : Memory → Prop} (s : State) (acc : Access) (n : ℕ) (ea : Word) (h : Q s.mem) :
    (s.resolve acc n ea).MemAll Q := by
  unfold State.resolve
  dsimp only
  split
  · trivial
  · split_ifs
    · trivial
    · exact h
  · split_ifs
    · trivial
    · split
      · trivial
      · exact h
  · next va _ =>
    have ht := s.translate_memAll s.foc.ctx (srcCode s.foc.st) acc va h
    revert ht
    cases s.translate s.foc.ctx (srcCode s.foc.st) acc va with
    | wait t => exact id
    | fault kind level =>
      intro _
      dsimp only
      split
      · split_ifs
        · trivial
        · trivial
        · trivial
        · exact h
      · exact h
    | leaf l t =>
      intro ht
      dsimp only
      split_ifs
      · trivial
      · trivial
      · trivial
      · exact ht
      · exact ht

@[simp] theorem State.loadNear_mem (s : State) (rd n : ℕ) (signed : Bool) (src : NearSrc) :
    (s.loadNear rd n signed src).mem = s.mem := rfl

@[simp] theorem State.awaited_mem (s : State) (rd : ℕ) : (s.awaited rd).2.mem = s.mem := rfl

/-! ### Memory through the functions of Machine/Egress -/

@[simp] theorem State.newGroup_mem (s : State) (c : CtxId) (st : Stream) (acq : Bool) (want : Want) (got : Memory) (so : Bool) :
    (s.newGroup c st acq want got so).2.mem = s.mem := rfl

@[simp] theorem State.enqueue_mem (s : State) (sta : ℕ) (slot : Slot) (due : ℕ) : (s.enqueue sta slot due).mem = s.mem := rfl

@[simp] theorem State.egress_mem (s : State) (core : ℕ) (slot : Slot) (due : ℕ) : (s.egress core slot due).mem = s.mem := by
  unfold State.egress
  split <;> rfl

@[simp] theorem State.countInj_mem (s : State) (sta : ℕ) (job : BitVec 12) : (s.countInj sta job).mem = s.mem := rfl

@[simp] theorem State.countSent_mem (s : State) (core : ℕ) (job : BitVec 12) : (s.countSent core job).mem = s.mem := by
  unfold State.countSent
  split <;> rfl

@[simp] theorem State.sendCounted_mem (s : State) (core : ℕ) (slot : Slot) (due : ℕ) :
    (s.sendCounted core slot due).mem = s.mem := by
  unfold State.sendCounted
  split <;> simp

@[simp] theorem State.request_mem (s : State) (c : CtxId) (group at_ len kind dmod dsta dcore arg : ℕ) (data : List Byte) (mir : Bool) :
    (s.request c group at_ len kind dmod dsta dcore arg data mir).mem = s.mem := by
  unfold State.request
  dsimp only
  (repeat' split) <;> simp

@[simp] theorem State.readRemote_mem (s : State) (c : CtxId) (group at_ : ℕ) (dest : Dest) (addr n : ℕ) (mir : Bool) :
    (s.readRemote c group at_ dest addr n mir).mem = s.mem := by
  unfold State.readRemote
  split <;> simp

/-! ### Memory through the functions of Machine/LoadStore -/

theorem State.loadRemote_memAll {Q : Memory → Prop} (s : State) (rd n : ℕ) (signed acq : Bool) (dest : Dest) (addr : ℕ) (mir so : Bool) (h : Q s.mem) :
    (s.loadRemote rd n signed acq dest addr mir so).MemAll Q := by
  unfold State.loadRemote
  dsimp only
  simp [Res.MemAll, h]

theorem loadAt_memAll {Q : Memory → Prop} (n : ℕ) (signed acq : Bool) (rd : ℕ) (p : Place) (s : State) (h : Q s.mem) :
    (loadAt n signed acq rd p s).MemAll Q := by
  unfold loadAt
  dsimp only
  split
  · exact h
  · split
    · exact h
    · exact h
    · exact State.loadRemote_memAll (h := h) ..
  · exact h
  · split
    · exact h
    · split
      · exact h
      · exact h
      · split
        · exact State.loadRemote_memAll (h := h) ..
        · exact h

theorem loadBody_memAll {Q : Memory → Prop} (n : ℕ) (signed acq : Bool) (ea : Word) (rd : ℕ) (s : State) (h : Q s.mem) :
    (loadBody n signed acq ea rd s).MemAll Q := by
  unfold loadBody
  split
  · trivial
  · split
    · exact h
    · have hr := s.resolve_memAll .read n ea h
      revert hr
      cases s.resolve .read n ea with
      | stop r => exact id
      | _ p t =>
        intro ht
        dsimp only
        split
        · exact ht
        · exact loadAt_memAll (h := ht) ..

theorem loadWord_memNext {Q : Memory → Prop} (n : ℕ) (signed acq : Bool) (i : BitVec 12) (b r : BitVec 5) (s : State) (h : Q s.mem) :
    MemNext Q (loadWord n signed acq i b r s) := word32_memNext h (loadBody_memAll (h := h) ..)

theorem execLdB_memNext {Q : Memory → Prop} (i : BitVec 12) (b r : BitVec 5) (s : State) (h : Q s.mem) :
    MemNext Q (execLdB i b r s) := loadWord_memNext (h := h) ..

theorem execLdH_memNext {Q : Memory → Prop} (i : BitVec 12) (b r : BitVec 5) (s : State) (h : Q s.mem) :
    MemNext Q (execLdH i b r s) := loadWord_memNext (h := h) ..

theorem execLdW_memNext {Q : Memory → Prop} (i : BitVec 12) (b r : BitVec 5) (s : State) (h : Q s.mem) :
    MemNext Q (execLdW i b r s) := loadWord_memNext (h := h) ..

theorem execLd_memNext {Q : Memory → Prop} (i : BitVec 12) (b r : BitVec 5) (s : State) (h : Q s.mem) :
    MemNext Q (execLd i b r s) := loadWord_memNext (h := h) ..

theorem execLdSb_memNext {Q : Memory → Prop} (i : BitVec 12) (b r : BitVec 5) (s : State) (h : Q s.mem) :
    MemNext Q (execLdSb i b r s) := loadWord_memNext (h := h) ..

theorem execLdSh_memNext {Q : Memory → Prop} (i : BitVec 12) (b r : BitVec 5) (s : State) (h : Q s.mem) :
    MemNext Q (execLdSh i b r s) := loadWord_memNext (h := h) ..

theorem execLdSw_memNext {Q : Memory → Prop} (i : BitVec 12) (b r : BitVec 5) (s : State) (h : Q s.mem) :
    MemNext Q (execLdSw i b r s) := loadWord_memNext (h := h) ..

theorem execLdAcq_memNext {Q : Memory → Prop} (a0 : BitVec 3) (i : BitVec 12) (b r : BitVec 5) (s : State) (h : Q s.mem) :
    MemNext Q (execLdAcq a0 i b r s) := loadWord_memNext (h := h) ..

theorem State.placeLine_mem (s : State) (i : StreamId) (names : List ℕ) (dest : Dest) (ord mir : ℕ) (line : CombLine) :
    ∀ t ∈ s.placeLine i names dest ord mir line, t.mem = s.mem := by
  have hs (u : State) (hu : u.mem = s.mem) : ∀ t ∈ some u, t.mem = s.mem := fun t ht => Option.some.inj ht ▸ hu
  have hnone : ∀ t ∈ (none : Option State), t.mem = s.mem := fun t ht => absurd ht (Option.not_mem_none t)
  unfold State.placeLine
  extract_lets c core job mine es join paid
  have hp : ∀ t ∈ paid, t.mem = s.mem := by
    unfold paid
    split
    · extract_lets cur
      split
      · exact hnone
      · exact hs _ rfl
    · exact hs s rfl
  split
  · exact hs s rfl
  · split
    · exact hs _ rfl
    · clear_value paid
      cases paid with
      | none => exact hnone
      | some t =>
        have hc : t.mem = s.mem := hp t rfl
        dsimp -zeta only
        split
        · exact hs _ hc
        · extract_lets t1 id t2
          have h1 : t1.mem = s.mem := by
            unfold t1
            split
            · split
              · exact (State.sendEntries_mem _ _ _).trans hc
              · exact hc
            · exact hc
          have h2 : t2.mem = s.mem := (State.countSent_mem _ _ _).trans h1
          split
          · exact hs _ ((t2.sendEntries_mem _ _).trans h2)
          · exact hs _ h2

@[simp] theorem State.postReg_mem (s : State) (e : Event) : (s.postReg e).mem = s.mem := by
  unfold State.postReg
  dsimp only
  (repeat' split) <;> simp

@[simp] theorem State.writeReg_mem (s : State) (mod off : ℕ) (v mask : Word) (who : ℕ) :
    (s.writeReg mod off v mask who).mem = s.mem := by
  unfold State.writeReg
  simp [State.foldl_mem]

@[simp] theorem State.regWrite_mem (s : State) (c : CtxId) (off : ℕ) (v : Word) : (s.regWrite c off v).mem = s.mem := by
  unfold State.regWrite
  simp

@[simp] theorem State.logLine_mem (s : State) (plat : Word) (mod line : ℕ) : (s.logLine plat mod line).mem = s.mem := by
  unfold State.logLine
  dsimp only
  (repeat' split) <;> simp

theorem State.writeMem_canonical (s : State) (plat : Word) (mod pa : ℕ) (bs : List Byte) (h : Canonical s.mem) :
    Canonical (s.writeMem plat mod pa bs).mem := by
  have hlog : Canonical (if s.inInterval plat then (linesOf pa bs.length).foldl (fun t l => t.logLine plat mod l) s else s).mem := by
    split
    · rw [State.foldl_mem fun t l => t.logLine_mem plat mod l]
      exact h
    · exact h
  unfold State.writeMem
  refine State.foldl_canonical ?_ fun t i ht => ht
  exact Memory.wf_writeN bs _ _ hlog

theorem State.storeLine_canonical (s : State) (i : StreamId) (names : List ℕ) (l : Leaf) (mod : ℕ) (line : CombLine) (h : Canonical s.mem) :
    ∀ t ∈ s.storeLine i names l mod line, Canonical t.mem := by
  unfold State.storeLine
  dsimp only
  split
  · split
    · simp
    · split
      · simp
      · next t ht =>
        intro u hu
        rw [t.placeLine_mem _ _ _ _ _ _ u hu]
        split at ht
        · cases ht
          exact h
        · rw [s.placeLine_mem _ _ _ _ _ _ t ht]
          exact h
  · split
    · rintro t ⟨⟩
      exact State.foldl_canonical h fun t r ht => t.writeMem_canonical _ _ _ _ ht
    · intro t ht
      rw [s.placeLine_mem _ _ _ _ _ _ t ht]
      exact h

theorem State.storeHome_canonical (s : State) (i : StreamId) (l : Leaf) (mod pa : ℕ) (bs : List Byte) (h : Canonical s.mem) :
    ∀ t ∈ s.storeHome i l mod pa bs, Canonical t.mem := by
  unfold State.storeHome
  split
  · rintro t ⟨⟩
    exact s.writeMem_canonical _ _ _ _ h
  · exact s.storeLine_canonical _ _ _ _ _ h

theorem storeAt_canonical (ea v : Word) (bs : List Byte) (p : Place) (s : State) (h : Canonical s.mem) :
    (storeAt ea v bs p s).MemAll Canonical := by
  unfold storeAt
  dsimp only
  split
  · exact h
  · split
    · exact h
    · next t ht => exact of_mem_eq Canonical (s.placeLine_mem _ _ _ _ _ _ t ht) h
  · exact of_mem_eq Canonical (s.regWrite_mem _ _ _) h
  · split_ifs
    · trivial
    · split
      · exact h
      · next t ht => exact s.storeHome_canonical _ _ _ _ _ h t ht

theorem storeBody_canonical (n : ℕ) (rel : Option ℕ) (ea v : Word) (s : State) (h : Canonical s.mem) :
    (storeBody n rel ea v s).MemAll Canonical := by
  unfold storeBody
  refine Res.memAll_ite trivial (Res.memAll_ite h ?_)
  have hr := s.resolve_memAll (Q := Canonical) .write n ea h
  revert hr
  cases s.resolve .write n ea with
  | stop r => exact id
  | _ p t =>
    intro ht
    have hf : Canonical (if rel.isSome then t.flush t.foc.ctx else t).mem := by
      split_ifs
      · exact of_mem_eq Canonical (t.flush_mem _) ht
      · exact ht
    exact Res.memAll_ite hf (storeAt_canonical _ _ _ _ _ hf)

theorem storeWord_canonical (n : ℕ) (rel : Option ℕ) (i : BitVec 12) (b r : BitVec 5) (s : State) (h : Canonical s.mem) :
    MemNext Canonical (storeWord n rel i b r s) := word32_memNext h (storeBody_canonical (h := h) ..)

theorem execStB_canonical (i : BitVec 12) (b r : BitVec 5) (s : State) (h : Canonical s.mem) :
    MemNext Canonical (execStB i b r s) := storeWord_canonical (h := h) ..

theorem execStH_canonical (i : BitVec 12) (b r : BitVec 5) (s : State) (h : Canonical s.mem) :
    MemNext Canonical (execStH i b r s) := storeWord_canonical (h := h) ..

theorem execStW_canonical (i : BitVec 12) (b r : BitVec 5) (s : State) (h : Canonical s.mem) :
    MemNext Canonical (execStW i b r s) := storeWord_canonical (h := h) ..

theorem execSt_canonical (i : BitVec 12) (b r : BitVec 5) (s : State) (h : Canonical s.mem) :
    MemNext Canonical (execSt i b r s) := storeWord_canonical (h := h) ..

theorem execStRel_canonical (sc : BitVec 3) (i : BitVec 12) (b r : BitVec 5) (s : State) (h : Canonical s.mem) :
    MemNext Canonical (execStRel sc i b r s) := storeWord_canonical (h := h) ..

theorem amoBody_canonical (o : Amo) (ea b expected : Word) (rd : ℕ) (s : State) (h : Canonical s.mem) :
    (amoBody o ea b expected rd s).MemAll Canonical := by
  unfold amoBody
  dsimp only
  split_ifs
  · trivial
  · exact h
  · have hr := s.resolve_memAll (Q := Canonical) .atomic 8 ea h
    revert hr
    cases s.resolve .atomic 8 ea with
    | stop r => exact id
    | _ p t =>
      intro ht
      cases p with
      | mem l mod pa =>
        refine Res.memAll_ite ht (Res.memAll_ite ?_ ?_)
        · exact State.writeMem_canonical (h := ht) ..
        · exact of_mem_eq Canonical ((State.request_mem _ _ _ _ _ _ _ _ _ _ _ _).trans ((State.newGroup_mem _ _ _ _ _ _ _).trans (State.awaited_mem _ _))) ht
      | buf b off => trivial
      | win d a o => trivial
      | regs off => trivial

theorem amoWord_canonical (o : Amo) (g : Guard) (b a d : BitVec 5) (s : State) (h : Canonical s.mem) :
    MemNext Canonical (amoWord o g b a d s) := word32_memNext h (amoBody_canonical (h := h) ..)

theorem execAmoAdd_canonical (g : Guard) (b a d : BitVec 5) (s : State) (h : Canonical s.mem) :
    MemNext Canonical (execAmoAdd g b a d s) := amoWord_canonical (h := h) ..

theorem execAmoAnd_canonical (g : Guard) (b a d : BitVec 5) (s : State) (h : Canonical s.mem) :
    MemNext Canonical (execAmoAnd g b a d s) := amoWord_canonical (h := h) ..

theorem execAmoOr_canonical (g : Guard) (b a d : BitVec 5) (s : State) (h : Canonical s.mem) :
    MemNext Canonical (execAmoOr g b a d s) := amoWord_canonical (h := h) ..

theorem execAmoXor_canonical (g : Guard) (b a d : BitVec 5) (s : State) (h : Canonical s.mem) :
    MemNext Canonical (execAmoXor g b a d s) := amoWord_canonical (h := h) ..

theorem execAmoMin_canonical (g : Guard) (b a d : BitVec 5) (s : State) (h : Canonical s.mem) :
    MemNext Canonical (execAmoMin g b a d s) := amoWord_canonical (h := h) ..

theorem execAmoMax_canonical (g : Guard) (b a d : BitVec 5) (s : State) (h : Canonical s.mem) :
    MemNext Canonical (execAmoMax g b a d s) := amoWord_canonical (h := h) ..

theorem execAmoMinu_canonical (g : Guard) (b a d : BitVec 5) (s : State) (h : Canonical s.mem) :
    MemNext Canonical (execAmoMinu g b a d s) := amoWord_canonical (h := h) ..

theorem execAmoMaxu_canonical (g : Guard) (b a d : BitVec 5) (s : State) (h : Canonical s.mem) :
    MemNext Canonical (execAmoMaxu g b a d s) := amoWord_canonical (h := h) ..

theorem execAmoSwap_canonical (g : Guard) (b a d : BitVec 5) (s : State) (h : Canonical s.mem) :
    MemNext Canonical (execAmoSwap g b a d s) := amoWord_canonical (h := h) ..

theorem execCas_canonical (g : Guard) (b a d : BitVec 5) (s : State) (h : Canonical s.mem) :
    MemNext Canonical (execCas g b a d s) := amoWord_canonical (h := h) ..

theorem ldlWord_memNext {Q : Memory → Prop} (n : ℕ) (signed : Bool) (i : BitVec 12) (r : BitVec 5) (s : State) (h : Q s.mem) :
    MemNext Q (ldlWord n signed i r s) := word32_memNext h (by
  dsimp only
  (repeat' split) <;> simp [Res.MemAll, h])

theorem execLdlB_memNext {Q : Memory → Prop} (i : BitVec 12) (r : BitVec 5) (s : State) (h : Q s.mem) :
    MemNext Q (execLdlB i r s) := ldlWord_memNext (h := h) ..

theorem execLdlH_memNext {Q : Memory → Prop} (i : BitVec 12) (r : BitVec 5) (s : State) (h : Q s.mem) :
    MemNext Q (execLdlH i r s) := ldlWord_memNext (h := h) ..

theorem execLdlW_memNext {Q : Memory → Prop} (i : BitVec 12) (r : BitVec 5) (s : State) (h : Q s.mem) :
    MemNext Q (execLdlW i r s) := ldlWord_memNext (h := h) ..

theorem execLdl_memNext {Q : Memory → Prop} (i : BitVec 12) (r : BitVec 5) (s : State) (h : Q s.mem) :
    MemNext Q (execLdl i r s) := ldlWord_memNext (h := h) ..

theorem execLdlSb_memNext {Q : Memory → Prop} (i : BitVec 12) (r : BitVec 5) (s : State) (h : Q s.mem) :
    MemNext Q (execLdlSb i r s) := ldlWord_memNext (h := h) ..

theorem execLdlSh_memNext {Q : Memory → Prop} (i : BitVec 12) (r : BitVec 5) (s : State) (h : Q s.mem) :
    MemNext Q (execLdlSh i r s) := ldlWord_memNext (h := h) ..

theorem execLdlSw_memNext {Q : Memory → Prop} (i : BitVec 12) (r : BitVec 5) (s : State) (h : Q s.mem) :
    MemNext Q (execLdlSw i r s) := ldlWord_memNext (h := h) ..

theorem stlWord_memNext {Q : Memory → Prop} (n : ℕ) (i : BitVec 12) (r : BitVec 5) (s : State) (h : Q s.mem) :
    MemNext Q (stlWord n i r s) := word32_memNext h (by
  dsimp only
  (repeat' split) <;> simp [Res.MemAll, h])

theorem execStlB_memNext {Q : Memory → Prop} (i : BitVec 12) (r : BitVec 5) (s : State) (h : Q s.mem) :
    MemNext Q (execStlB i r s) := stlWord_memNext (h := h) ..

theorem execStlH_memNext {Q : Memory → Prop} (i : BitVec 12) (r : BitVec 5) (s : State) (h : Q s.mem) :
    MemNext Q (execStlH i r s) := stlWord_memNext (h := h) ..

theorem execStlW_memNext {Q : Memory → Prop} (i : BitVec 12) (r : BitVec 5) (s : State) (h : Q s.mem) :
    MemNext Q (execStlW i r s) := stlWord_memNext (h := h) ..

theorem execStl_memNext {Q : Memory → Prop} (i : BitVec 12) (r : BitVec 5) (s : State) (h : Q s.mem) :
    MemNext Q (execStl i r s) := stlWord_memNext (h := h) ..

@[simp] theorem State.fenceOf_mem (s : State) (i : StreamId) (scope : ℕ) (uo : Bool) :
    (s.fenceOf i scope uo).mem = s.mem := rfl

theorem execFence_memNext {Q : Memory → Prop} (u : Bool) (sc : BitVec 3) (s : State) (h : Q s.mem) :
    MemNext Q (execFence u sc s) := word32_memNext h (by simp [Res.MemAll, h])

/-! ### Memory through the functions of Machine/Branch -/

theorem execPbr_memNext {Q : Memory → Prop} (o : BitVec 20) (t : BitVec 3) (s : State) (h : Q s.mem) :
    MemNext Q (execPbr o t s) := word32_memNext h h

theorem execPbrx_memNext {Q : Memory → Prop} (a : BitVec 5) (g : Guard) (t : BitVec 3) (s : State) (h : Q s.mem) :
    MemNext Q (execPbrx a g t s) := word32_memNext h h

theorem branchTo_memAll {Q : Memory → Prop} (t : ℕ) (link : Option Half) (s : State) (h : Q s.mem) :
    (branchTo t link s).MemAll Q := by
  unfold branchTo
  dsimp only
  (repeat' split) <;> simp [Res.MemAll, h]

theorem execBr_memNext {Q : Memory → Prop} (g : Guard) (t : BitVec 3) (s : State) (h : Q s.mem) :
    MemNext Q (execBr g t s) := word32_memNext h (branchTo_memAll (h := h) ..)

theorem execBrl_memNext {Q : Memory → Prop} (g : Guard) (t : BitVec 3) (s : State) (h : Q s.mem) :
    MemNext Q (execBrl g t s) := by
  unfold execBrl
  split
  · exact h
  · exact word32_memNext h (branchTo_memAll (h := h) ..)

theorem execSloop_memNext {Q : Memory → Prop} (e : BitVec 4) (a : BitVec 5) (s : State) (h : Q s.mem) :
    MemNext Q (execSloop e a s) := word32_memNext h h

@[simp] theorem State.rotate_mem (s : State) (b : Bool) : (s.rotate b).mem = s.mem := by
  unfold State.rotate
  dsimp only
  (repeat' split) <;> simp

theorem execSnext_memNext {Q : Memory → Prop} (t : BitVec 3) (s : State) (h : Q s.mem) : MemNext Q (execSnext t s) := by
  refine word32_memNext h ?_
  dsimp only
  split
  · exact branchTo_memAll (h := (State.rotate_mem _ _).symm ▸ h) ..
  · split
    · exact branchTo_memAll (h := (State.rotate_mem _ _).symm ▸ h) ..
    · exact h

/-! ### Memory through the functions of Machine/Scalar -/

theorem divWord_memNext {Q : Memory → Prop} (op : Word → Word → Word × ℕ) (g : Guard) (b a d : BitVec 5) (s : State) (h : Q s.mem) :
    MemNext Q (divWord op g b a d s) := word32_memNext h (by
  dsimp only
  (repeat' split) <;> simp [Res.MemAll, h])

theorem execDiv_memNext {Q : Memory → Prop} (g : Guard) (b a d : BitVec 5) (s : State) (h : Q s.mem) :
    MemNext Q (execDiv g b a d s) := divWord_memNext (h := h) ..

theorem execDivu_memNext {Q : Memory → Prop} (g : Guard) (b a d : BitVec 5) (s : State) (h : Q s.mem) :
    MemNext Q (execDivu g b a d s) := divWord_memNext (h := h) ..

theorem execRem_memNext {Q : Memory → Prop} (g : Guard) (b a d : BitVec 5) (s : State) (h : Q s.mem) :
    MemNext Q (execRem g b a d s) := divWord_memNext (h := h) ..

theorem execRemu_memNext {Q : Memory → Prop} (g : Guard) (b a d : BitVec 5) (s : State) (h : Q s.mem) :
    MemNext Q (execRemu g b a d s) := divWord_memNext (h := h) ..

theorem execMfs_memNext {Q : Memory → Prop} (sr : BitVec 12) (d : BitVec 5) (s : State) (h : Q s.mem) :
    MemNext Q (execMfs sr d s) := word32_memNext h (by
  dsimp only
  (repeat' split) <;> simp [Res.MemAll, h])

@[simp] theorem State.postOnce_mem (s : State) (due : ℕ) (e : Event) : (s.postOnce due e).mem = s.mem := by
  unfold State.postOnce
  split <;> rfl

@[simp] theorem State.postTimer_mem (s : State) (c : CtxId) : (s.postTimer c).mem = s.mem := by
  unfold State.postTimer
  dsimp only
  (repeat' split) <;> simp

/-! ### Memory through the functions of Machine/System -/

@[simp] theorem State.flushWindow_mem (s : State) (c : CtxId) (n : ℕ) : (s.flushWindow c n).mem = s.mem := by
  unfold State.flushWindow
  simp

theorem mtsBody_memAll {Q : Memory → Prop} (n : ℕ) (v : Word) (s : State) (h : Q s.mem) : (mtsBody n v s).MemAll Q := by
  unfold mtsBody
  dsimp only
  (repeat' split) <;> simp [Res.MemAll, h]

theorem execMts_memNext {Q : Memory → Prop} (sr : BitVec 12) (a : BitVec 5) (s : State) (h : Q s.mem) :
    MemNext Q (execMts sr a s) := word32_memNext h (mtsBody_memAll (h := h) ..)

@[simp] theorem State.putBar_mem (s : State) (u : BarUnit) (b : BarState) : (s.putBar u b).mem = s.mem := rfl

@[simp] theorem State.countArrival_mem (s : State) (core : ℕ) (u : BarUnit) (pair : Option CtxId) :
    (s.countArrival core u pair).mem = s.mem := by
  unfold State.countArrival
  dsimp only
  (repeat' split) <;> simp

@[simp] theorem State.arriveAt_mem (s : State) (i : StreamId) (u : BarUnit) : (s.arriveAt i u).mem = s.mem := by
  unfold State.arriveAt
  split <;> simp

theorem execBarArrive_memNext {Q : Memory → Prop} (sc : BitVec 3) (i : BitVec 5) (s : State) (h : Q s.mem) :
    MemNext Q (execBarArrive sc i s) := by
  refine word32_memNext h ?_
  unfold barArrive
  dsimp only
  split
  · trivial
  · refine Res.memAll_ite trivial ?_
    simpa [Res.MemAll] using h

theorem barWait_memAll {Q : Memory → Prop} (scope bid : ℕ) (s : State) (h : Q s.mem) : (barWait scope bid s).MemAll Q := by
  unfold barWait
  dsimp only
  split
  · split <;> exact h
  · trivial

theorem execBarWait_memNext {Q : Memory → Prop} (sc : BitVec 3) (i : BitVec 5) (s : State) (h : Q s.mem) :
    MemNext Q (execBarWait sc i s) := word32_memNext h (barWait_memAll (h := h) ..)

theorem execBarAw_memNext {Q : Memory → Prop} (sc : BitVec 3) (i : BitVec 5) (s : State) (h : Q s.mem) :
    MemNext Q (execBarAw sc i s) := by
  refine word32_memNext h (Res.memAll_ite (barWait_memAll (h := h) ..) ?_)
  unfold barArrive
  dsimp only
  split
  · trivial
  · refine Res.memAll_ite trivial (barWait_memAll (h := ?_) ..)
    simpa using h

theorem execTwait_memNext {Q : Memory → Prop} (p : Bool) (a : BitVec 5) (s : State) (h : Q s.mem) :
    MemNext Q (execTwait p a s) := word32_memNext h (by
  dsimp only
  (repeat' split) <;> simp [Res.MemAll, h])

@[simp] theorem State.beginFetch_mem (s : State) (i : StreamId) (ls : List (ℕ × ℕ × ℕ × Bool × ℕ)) :
    (s.beginFetch i ls).mem = s.mem := by
  unfold State.beginFetch
  simp [State.foldl_mem]

theorem State.peek_memAll {Q : Memory → Prop} (s : State) (l : Leaf) (mod pa : ℕ) (h : Q s.mem) :
    (s.peek l mod pa).MemAll Q := by
  unfold State.peek
  dsimp only
  split
  · exact h
  · split
    · exact h
    · split
      · trivial
      · exact h
      · split
        · trivial
        · split
          · trivial
          · exact h
          · simpa [Peek.MemAll] using h

theorem execWaitm_memNext {Q : Memory → Prop} (a d : BitVec 5) (s : State) (h : Q s.mem) : MemNext Q (execWaitm a d s) := by
  refine word32_memNext h ?_
  dsimp only
  split
  · trivial
  · split
    · trivial
    · split
      · exact h
      · have hr := s.resolve_memAll .read 8 (s.rd a) h
        revert hr
        cases s.resolve .read 8 (s.rd a) with
        | stop r => cases r <;> exact id
        | _ p t =>
          intro ht
          cases p with
          | mem l m pa =>
            dsimp only
            have hp := t.peek_memAll l m pa ht
            revert hp
            cases t.peek l m pa with
            | wait u => exact id
            | value key v =>
              intro _
              dsimp only
              split <;> exact ht
          | buf b off => trivial
          | win d a o => trivial
          | regs off => trivial

theorem execQwait_memNext {Q : Memory → Prop} (sc : BitVec 3) (s : State) (h : Q s.mem) : MemNext Q (execQwait sc s) := word32_memNext h (by
  dsimp only
  (repeat' split) <;> simp [Res.MemAll, h])

theorem execSignal_memNext {Q : Memory → Prop} (a : BitVec 5) (s : State) (h : Q s.mem) : MemNext Q (execSignal a s) := word32_memNext h (by
  dsimp only
  (repeat' split) <;> simp [Res.MemAll, h])

/-! ### Memory through the functions of Machine/Commands -/

theorem pushBody_memAll {Q : Memory → Prop} (w : Cmd) (s : State) (h : Q s.mem) : (pushBody w s).MemAll Q := by
  unfold pushBody
  dsimp only
  split
  · trivial
  · split
    · exact h
    · split <;> simpa [Res.MemAll] using h

theorem execPush_memNext {Q : Memory → Prop} (g : Guard) (a : BitVec 5) (s : State) (h : Q s.mem) :
    MemNext Q (execPush g a s) := by
  refine word32_memNext h ?_
  split
  · exact pushBody_memAll (h := h) ..
  · trivial

theorem execPop_memNext {Q : Memory → Prop} (g : Guard) (t : BitVec 5) (s : State) (h : Q s.mem) :
    MemNext Q (execPop g t s) := word32_memNext h (by
  dsimp only
  (repeat' split) <;> simp [Res.MemAll, h])

theorem execTrypopToken_memNext {Q : Memory → Prop} (g : Guard) (p t : BitVec 5) (s : State) (h : Q s.mem) :
    MemNext Q (execTrypopToken g p t s) := word32_memNext h (by
  dsimp only
  (repeat' split) <;> simp [Res.MemAll, h])

theorem execSetup_memNext {Q : Memory → Prop} (g : Guard) (b a : BitVec 5) (s : State) (h : Q s.mem) :
    MemNext Q (execSetup g b a s) := word32_memNext h (by
  dsimp only
  (repeat' split) <;> simp [Res.MemAll, h])

theorem execOclaim_memNext {Q : Memory → Prop} (i d : BitVec 5) (s : State) (h : Q s.mem) :
    MemNext Q (execOclaim i d s) := word32_memNext h (by
  dsimp only
  (repeat' split) <;> simp [Res.MemAll, h])

theorem execOrelease_memNext {Q : Memory → Prop} (i : BitVec 5) (s : State) (h : Q s.mem) :
    MemNext Q (execOrelease i s) := word32_memNext h (by
  dsimp only
  (repeat' split) <;> simp [Res.MemAll, h])

@[simp] theorem State.countErr_mem (s : State) (mod job n : ℕ) : (s.countErr mod job n).mem = s.mem := rfl

@[simp] theorem State.raiseAsync_mem (s : State) (c : CtxId) (cause : ℕ) (tval : Word) :
    (s.raiseAsync c cause tval).mem = s.mem := by
  unfold State.raiseAsync
  dsimp only
  (repeat' split) <;> simp

@[simp] theorem State.sendMessage_mem (s : State) (i : StreamId) (slot : Slot) : (s.sendMessage i slot).mem = s.mem := by
  unfold State.sendMessage
  dsimp only
  (repeat' split) <;> simp

theorem execSend_memNext {Q : Memory → Prop} (g : Guard) (b a : BitVec 5) (s : State) (h : Q s.mem) :
    MemNext Q (execSend g b a s) := word32_memNext h (by
  dsimp only
  (repeat' split) <;> simp [Res.MemAll, h])

@[simp] theorem State.countCon_mem (s : State) (sta : ℕ) (job : BitVec 12) : (s.countCon sta job).mem = s.mem := rfl

@[simp] theorem State.countTaken_mem (s : State) (core : ℕ) (job : BitVec 12) : (s.countTaken core job).mem = s.mem := by
  unfold State.countTaken
  split <;> rfl

theorem execHret_memNext {Q : Memory → Prop} (g : Guard) (s : State) (h : Q s.mem) : MemNext Q (execHret g s) := word32_memNext h (by
  dsimp only
  (repeat' split) <;> simp [Res.MemAll, h])

theorem execTrap_memNext {Q : Memory → Prop} (code : BitVec 12) (s : State) (h : Q s.mem) :
    MemNext Q (execTrap code s) := word32_memNext h h

/-! ### Memory through the functions of Machine/Life -/

theorem State.writeVirt_canonical (s : State) (core job va : ℕ) (bs : List Byte) (h : Canonical s.mem) :
    Canonical (s.writeVirt core job va bs).mem := by
  have page : ∀ (t : State) (a : Nat) (cs : List Byte), Canonical t.mem → Canonical (if cs = [] then t else
      match t.walk core job .write a with
      | .ok l => t.writeMem 0 (l.homeMod (modOf core)) (l.pa a) cs
      | .fault .. => t).mem := by
    intro t a cs ht
    split_ifs
    · exact ht
    · split
      · exact t.writeMem_canonical _ _ _ _ ht
      · exact ht
  exact page _ _ _ (page _ _ _ h)

theorem State.writeStatus_canonical (s : State) (die : ℕ) (p : PlatRec) (code detail cyc : ℕ) (h : Canonical s.mem) :
    Canonical (s.writeStatus die p code detail cyc).mem := State.writeVirt_canonical (h := State.writeVirt_canonical (h := h) ..) ..

@[simp] theorem State.modPlat_mem (s : State) (die : ℕ) (plat : Word) (f : PlatRec → PlatRec) :
    (s.modPlat die plat f).mem = s.mem := rfl

theorem State.setStatus_canonical (s : State) (die : ℕ) (plat : Word) (code detail : ℕ) (h : Canonical s.mem) :
    Canonical (s.setStatus die plat code detail).mem := by
  unfold State.setStatus
  split
  · exact h
  · next p _ =>
    have hw := s.writeStatus_canonical die p code detail s.clk h
    dsimp only
    split_ifs
    · refine State.foldl_canonical ?_ fun t k ht => ht
      exact hw
    · exact of_mem_eq Canonical (State.modPlat_mem _ _ _ _) hw

@[simp] theorem State.beginSwitch_mem (s : State) (core bank start : ℕ) : (s.beginSwitch core bank start).mem = s.mem := rfl

@[simp] theorem State.reconsider_mem (s : State) (core start : ℕ) : (s.reconsider core start).mem = s.mem := by
  unfold State.reconsider
  dsimp only
  (repeat' split) <;> simp

@[simp] theorem State.freeCtx_mem (s : State) (c : CtxId) : (s.freeCtx c).mem = s.mem := by
  unfold State.freeCtx
  simp

@[simp] theorem State.freeUnits_mem (s : State) (die : ℕ) (plat : Word) : (s.freeUnits die plat).mem = s.mem := rfl

theorem State.endPlat_canonical (s : State) (plat : Word) (cause : ℕ) (h : Canonical s.mem) :
    Canonical (s.endPlat plat cause).mem := by
  unfold State.endPlat
  dsimp only
  rw [State.foldl_mem fun t d => t.freeUnits_mem d plat]
  refine of_mem_eq Canonical (State.foldl_mem fun t c => t.freeCtx_mem c) ?_
  exact State.foldl_canonical h fun t d ht => t.setStatus_canonical d plat 0x06 cause ht

theorem State.endPlatOf_canonical (s : State) (c : CtxId) (cause : ℕ) (h : Canonical s.mem) :
    Canonical (s.endPlatOf c cause).mem := by
  unfold State.endPlatOf
  dsimp only
  split_ifs
  · exact of_mem_eq Canonical (s.freeCtx_mem c) h
  · exact s.endPlat_canonical _ cause h

/-! ### Memory through the functions of Machine/Waypoint -/

@[simp] theorem State.leaveGuarded_mem (s : State) (c : CtxId) : (s.leaveGuarded c).mem = s.mem := rfl

theorem State.platStopped_canonical (s : State) (plat : Word) (id : BitVec 12) (h : Canonical s.mem) :
    Canonical (s.platStopped plat id).mem := by
  refine State.foldl_canonical h fun t d ht => ?_
  split
  · exact ht
  · rw [State.post_mem, State.post_mem, State.modPlat_mem]
    exact t.setStatus_canonical d plat 0x03 id.toNat ht

theorem State.stopAll_canonical (s : State) (cs : List CtxId) (plat : Word) (id : BitVec 12) (h : Canonical s.mem) :
    Canonical (s.stopAll cs plat id).mem := by
  unfold State.stopAll
  refine of_mem_eq Canonical (State.foldl_mem fun t (c : CtxId) => t.reconsider_mem c.core (t.clk + 1)) ?_
  refine State.platStopped_canonical (h := State.foldl_canonical h fun t c ht => ?_) ..
  exact of_mem_eq Canonical (t.leaveGuarded_mem c) ht

@[simp] theorem State.leaveWay_mem (s : State) (d : CtxId) : (s.leaveWay d).mem = s.mem := by
  unfold State.leaveWay
  dsimp only
  (repeat' split) <;> simp

theorem wayptBody_canonical (id : BitVec 12) (s : State) (h : Canonical s.mem) : (wayptBody id s).MemAll Canonical := by
  unfold wayptBody
  refine Res.memAll_ite trivial ?_
  have hf : Canonical (if s.fstrm.begun then s else ((s.flush s.foc.ctx).modF (fun x => { x with
      waypoint := some id, freezes := 0, evacuated := none, staleAt := false, atWay := some id,
      wayCyc := (s.flush s.foc.ctx).clk - (s.flush s.foc.ctx).fctx.origin - (s.flush s.foc.ctx).fstrm.slip, ways := x.ways + 1 })).modFs
        (fun y => { y with begun := true })).mem := by
    split_ifs
    · exact h
    · exact of_mem_eq Canonical (s.flush_mem _) h
  refine Res.memAll_ite hf (Res.memAll_ite hf (Res.memAll_ite ?_ (Res.memAll_ite (Res.memAll_ite hf (Res.memAll_ite ?_ ?_)) ?_)))
  · exact State.endPlat_canonical (h := hf) ..
  · exact State.endPlatOf_canonical (h := hf) ..
  · exact State.stopAll_canonical (h := hf) ..
  · refine State.foldl_canonical hf fun t d ht => ?_
    split_ifs
    · exact of_mem_eq Canonical (t.leaveGuarded_mem d) ht
    · exact of_mem_eq Canonical (t.leaveWay_mem d) ht
    · exact ht

theorem execWaypt_canonical (id : BitVec 12) (s : State) (h : Canonical s.mem) : MemNext Canonical (execWaypt id s) := word32_memNext h (wayptBody_canonical (h := h) ..)

theorem State.evacStopped_memAll {Q : Memory → Prop} (s : State) (e : EvacStop) (zero : Res) (h : Q s.mem) (hz : zero.MemAll Q) :
    (s.evacStopped e zero).MemAll Q := by
  unfold State.evacStopped
  cases e with
  | zero => exact hz
  | masked => trivial
  | align va => trivial
  | perm va => trivial
  | fault acc va k l => exact s.pageFaults_memAll acc va k l h

theorem State.recordStore_canonical (s : State) (c : CtxId) (w : ℕ × List Byte) (h : Canonical s.mem) :
    ∀ t, s.recordStore c w = .ok (some t) → Canonical t.mem := by
  intro t ht
  unfold State.recordStore at ht
  split at ht
  · exact nomatch ht
  · injection ht with ht
    exact s.storeHome_canonical _ _ _ _ _ h t ht

theorem State.recordLines_canonical (c : CtxId) (a0 : State) (a1 : List (ℕ × List Byte)) (h : Canonical a0.mem) :
    ∀ t, State.recordLines c a0 a1 = .ok t → Canonical t.1.mem := by
  induction a1 generalizing a0 with
  | nil =>
    rintro t ⟨⟩
    exact h
  | cons w ws ih =>
    intro t ht
    unfold State.recordLines at ht
    generalize hu : (if ws.isEmpty then a0.flush c else a0) = u at ht
    have hf : Canonical u.mem := by
      subst hu
      split_ifs
      · exact of_mem_eq Canonical (a0.flush_mem c) h
      · exact h
    dsimp only at ht
    split at ht
    · injection ht with ht
      exact ht ▸ hf
    · split at ht
      · exact nomatch ht
      · injection ht with ht
        exact ht ▸ hf
      · next v hv => exact ih v (State.recordStore_canonical _ c w hf v hv) t ht

theorem State.recordStep_canonical (s : State) (c : CtxId) (r : RecWrite) (h : Canonical s.mem) :
    ∀ t, s.recordStep c r = .ok t → Canonical t.2.mem := by
  intro t ht
  unfold State.recordStep at ht
  split at ht
  · exact nomatch ht
  · next u left hu =>
    injection ht with ht
    subst ht
    exact of_mem_eq Canonical (u.flush_mem c) (State.recordLines_canonical c s r.left h (u, left) hu)

theorem State.requestStop_memAll {Q : Memory → Prop} (s : State) (c : CtxId) (ra : Word) (at_ : Option ℕ) :
    ∀ r ∈ s.requestStop c ra at_, r.MemAll Q := by
  unfold State.requestStop
  dsimp only
  (repeat' split) <;> simp [Res.MemAll]

theorem State.recordBegin_canonical (s : State) (c : CtxId) (va : ℕ) (bs : List Byte) (h : Canonical s.mem) :
    ∀ t, s.recordBegin c va bs = .ok t → Canonical t.2.mem := by
  intro t ht
  unfold State.recordBegin at ht
  dsimp only at ht
  split at ht
  · exact nomatch ht
  · exact s.recordStep_canonical c _ h t ht

theorem execEvac_canonical (a d : BitVec 5) (s : State) (h : Canonical s.mem) : MemNext Canonical (execEvac a d s) := by
  refine word32_memNext h ?_
  extract_lets c ra none_ went at_ t1 x t2
  have hn (t : State) (ht : Canonical t.mem) : (none_ t).MemAll Canonical := ht
  have hw (t : State) (n : Nat) (w : Except EvacStop (Bool × State)) (ht : Canonical t.mem) (hr : ∀ r, w = .ok r → Canonical r.2.mem) :
      (went t n w).MemAll Canonical := by
    unfold went
    split
    · exact t.evacStopped_memAll _ _ ht (hn t ht)
    · exact hr _ rfl
    · exact of_mem_eq Canonical (State.freeTime_mem _) (hr _ rfl)
  split
  · exact hw _ _ _ h (s.recordStep_canonical _ _ h)
  · split
    · next r hr => exact s.requestStop_memAll c ra none r hr
    · split
      · trivial
      · split
        · exact h
        · have h2 : Canonical t2.mem := of_mem_eq Canonical (t1.flush_mem c) h
          split
          · exact h2
          · split
            · exact t2.evacStopped_memAll _ _ h2 (hn t2 h2)
            · exact hn t2 h2
            · exact hw _ _ _ h2 (t2.recordBegin_canonical _ _ _ h2)

theorem execMrepair_memNext {Q : Memory → Prop} (a d : BitVec 5) (s : State) (h : Q s.mem) :
    MemNext Q (execMrepair a d s) := word32_memNext h (by
  dsimp only
  (repeat' split) <;> simp [Res.MemAll, h])

@[simp] theorem State.nameStop_mem (s : State) (plat : Word) : (s.nameStop plat).mem = s.mem := by
  simp only [State.nameStop]
  split
  · rfl
  · exact State.foldl_mem fun _ _ => rfl

@[simp] theorem State.askStop_mem (s : State) (plat : Word) : (s.askStop plat).mem = s.mem := by
  refine (State.foldl_mem fun _ _ => ?_).trans (State.nameStop_mem s plat)
  rfl

/-! ### Memory through the functions of Machine/Launch -/

@[simp] theorem State.preempt_mem (s : State) (plat : Word) : (s.preempt plat).mem = s.mem := by
  rw [State.preempt, State.foldl_mem, State.askStop_mem]
  intro t d
  split
  · split <;> simp
  · rfl

@[simp] theorem State.requestCores_mem (s : State) (die : ℕ) (p : PlatRec) : (s.requestCores die p).mem = s.mem := by
  unfold State.requestCores
  simp [State.foldl_mem]

theorem State.acceptPlat_canonical (s : State) (die : ℕ) (i : Image) (h : Canonical s.mem) :
    Canonical (s.acceptPlat die i).mem := by
  have hu : Canonical (if (s.modu (die / 8)).booked.any (fun b => b.1 == i.rec_.plat) then s
      else s.modMod (die / 8) (fun m => { m with booked := m.booked ++ (i.rec_.res.filter (s.isMine (die / 8))).map (fun r => (i.rec_.plat, r)) })).mem := by
    split_ifs <;> exact h
  unfold State.acceptPlat
  dsimp only
  revert hu
  generalize (if (s.modu (die / 8)).booked.any (fun b => b.1 == i.rec_.plat) then s else s.modMod (die / 8) _) = u
  intro hu
  generalize hw : State.writeStatus _ die i.rec_ 0x01 0 u.clk = w
  have hc : Canonical w.mem := hw ▸ State.writeStatus_canonical (h := hu) ..
  split_ifs
  · exact hc
  · exact hc
  · exact of_mem_eq Canonical (State.requestCores_mem _ _ _) hc

theorem execLaunch_canonical (g : Guard) (b a d : BitVec 5) (s : State) (h : Canonical s.mem) :
    MemNext Canonical (execLaunch g b a d s) := by
  refine word32_memNext h ?_
  have hf : Canonical (s.flush s.foc.ctx).mem := of_mem_eq Canonical (s.flush_mem _) h
  refine Res.memAll_ite hf ?_
  dsimp only
  cases (s.flush s.foc.ctx).readImage s.foc.ctx (wfield ((s.flush s.foc.ctx).rd a) 0 56) ((s.flush s.foc.ctx).rd b).toNat with
  | bad off => exact State.writeVirt_canonical (h := State.writeVirt_canonical (h := hf) ..) ..
  | ok i =>
    have hi : Canonical (if ((s.flush s.foc.ctx).launchCode (dieOf s.foc.ctx.core) i).1 = 1 then (s.flush s.foc.ctx).acceptPlat (dieOf s.foc.ctx.core) i
        else (s.flush s.foc.ctx).writeStatus (dieOf s.foc.ctx.core) i.rec_ ((s.flush s.foc.ctx).launchCode (dieOf s.foc.ctx.core) i).1
          ((s.flush s.foc.ctx).launchCode (dieOf s.foc.ctx.core) i).2 (s.flush s.foc.ctx).clk).mem := by
      split_ifs
      · exact State.acceptPlat_canonical (h := hf) ..
      · exact State.writeStatus_canonical (h := hf) ..
    exact hi

@[simp] theorem State.openInterval_mem (s : State) (plat : Word) (wp : Option (BitVec 12)) :
    (s.openInterval plat wp).mem = s.mem := rfl

theorem execCkpt_canonical (a : BitVec 5) (s : State) (h : Canonical s.mem) : MemNext Canonical (execCkpt a s) := by
  refine word32_memNext h ?_
  extract_lets c ra x p on va cs ended went at_ t1 t2
  have hn (t : State) (ht : Canonical t.mem) : (ended t).MemAll Canonical := by
    unfold ended
    refine Res.memAll_ite ?_ ht
    have hf (u : State) : (cs.foldl (fun t d => t.modCtx d (fun x => { x with atCkpt := none, ckptDone := false })) u).mem = u.mem :=
      State.foldl_mem fun u d => u.modCtx_mem d _
    exact of_mem_eq Canonical ((hf _).trans (State.openInterval_mem _ _ _)) ht
  have hw (t : State) (w : Except EvacStop (Bool × State)) (ht : Canonical t.mem) (hr : ∀ r, w = .ok r → Canonical r.2.mem) :
      (went t w).MemAll Canonical := by
    unfold went
    split
    · exact t.evacStopped_memAll _ _ ht (hn t ht)
    · exact hr _ rfl
    · exact hn _ (hr _ rfl)
  split
  · exact hw _ _ h (s.recordStep_canonical _ _ h)
  · split
    · next r hr => exact s.requestStop_memAll c ra _ r hr
    · split
      · trivial
      · split
        · exact h
        · split
          · exact h
          · have h2 : Canonical t2.mem := of_mem_eq Canonical (t1.flush_mem c) h
            split
            · exact h2
            · split
              · exact t2.evacStopped_memAll _ _ h2 (hn t2 h2)
              · exact hn t2 h2
              · split
                · exact State.endPlatOf_canonical (h := h2) ..
                · exact hw _ _ h2 (t2.recordBegin_canonical _ _ _ h2)

/-! ### Memory through the functions of Machine/Commands -/

theorem cmdWord_memNext {Q : Memory → Prop} (w : Cmd) (s : State) (h : Q s.mem) : MemNext Q (cmdWord w s) := word32_memNext h (pushBody_memAll (h := h) ..)

theorem execCld_memNext {Q : Memory → Prop} (e : EngArgs) (s : State) (h : Q s.mem) : MemNext Q (execCld e s) := cmdWord_memNext (h := h) ..

theorem execCst_memNext {Q : Memory → Prop} (e : EngArgs) (s : State) (h : Q s.mem) : MemNext Q (execCst e s) := cmdWord_memNext (h := h) ..

theorem execCsta_memNext {Q : Memory → Prop} (e : EngArgs) (s : State) (h : Q s.mem) : MemNext Q (execCsta e s) := cmdWord_memNext (h := h) ..

theorem execCchn_memNext {Q : Memory → Prop} (e : EngArgs) (head last : Bool) (s : State) (h : Q s.mem) :
    MemNext Q (execCchn e head last s) := cmdWord_memNext (h := h) ..

theorem execCslc_memNext {Q : Memory → Prop} (e : EngArgs) (s : State) (h : Q s.mem) : MemNext Q (execCslc e s) := cmdWord_memNext (h := h) ..

theorem execCovl_memNext {Q : Memory → Prop} (e : EngArgs) (s : State) (h : Q s.mem) : MemNext Q (execCovl e s) := cmdWord_memNext (h := h) ..

theorem execCmig_memNext {Q : Memory → Prop} (e : EngArgs) (big : Bool) (s : State) (h : Q s.mem) :
    MemNext Q (execCmig e big s) := cmdWord_memNext (h := h) ..

theorem execCinv_memNext {Q : Memory → Prop} (e : EngArgs) (all : Bool) (s : State) (h : Q s.mem) :
    MemNext Q (execCinv e all s) := cmdWord_memNext (h := h) ..

theorem execMma_memNext {Q : Memory → Prop} (e : EngArgs) (tb : Bool) (fmt : BitVec 3) (s : State) (h : Q s.mem) :
    MemNext Q (execMma e tb fmt s) := cmdWord_memNext (h := h) ..

theorem execMmas_memNext {Q : Memory → Prop} (e : EngArgs) (tb : Bool) (fmt : BitVec 3) (s : State) (h : Q s.mem) :
    MemNext Q (execMmas e tb fmt s) := cmdWord_memNext (h := h) ..

theorem execMrot_memNext {Q : Memory → Prop} (e : EngArgs) (s : State) (h : Q s.mem) : MemNext Q (execMrot e s) := cmdWord_memNext (h := h) ..

theorem execMdrn_memNext {Q : Memory → Prop} (e : EngArgs) (s : State) (h : Q s.mem) : MemNext Q (execMdrn e s) := cmdWord_memNext (h := h) ..

theorem execMclr_memNext {Q : Memory → Prop} (e : EngArgs) (s : State) (h : Q s.mem) : MemNext Q (execMclr e s) := cmdWord_memNext (h := h) ..

theorem execMsgn_memNext {Q : Memory → Prop} (e : EngArgs) (s : State) (h : Q s.mem) : MemNext Q (execMsgn e s) := cmdWord_memNext (h := h) ..

theorem execWmax_memNext {Q : Memory → Prop} (e : EngArgs) (s : State) (h : Q s.mem) : MemNext Q (execWmax e s) := cmdWord_memNext (h := h) ..

theorem execWexs_memNext {Q : Memory → Prop} (e : EngArgs) (s : State) (h : Q s.mem) : MemNext Q (execWexs e s) := cmdWord_memNext (h := h) ..

theorem execWscl_memNext {Q : Memory → Prop} (e : EngArgs) (s : State) (h : Q s.mem) : MemNext Q (execWscl e s) := cmdWord_memNext (h := h) ..

theorem execWmom_memNext {Q : Memory → Prop} (e : EngArgs) (s : State) (h : Q s.mem) : MemNext Q (execWmom e s) := cmdWord_memNext (h := h) ..

theorem execWapl_memNext {Q : Memory → Prop} (e : EngArgs) (s : State) (h : Q s.mem) : MemNext Q (execWapl e s) := cmdWord_memNext (h := h) ..

/-! ### Memory through the functions of Machine/Access -/

theorem State.locate_memAll {Q : Memory → Prop} (s : State) (acc : Access) (win : Bool) (base : Word) (ps : List Piece) (h : Q s.mem) :
    (s.locate acc win base ps).MemAll Q := by
  unfold State.locate
  dsimp only
  refine Located.memAll_ite trivial ?_
  split
  · trivial
  · split
    · trivial
    · refine Located.memAll_ite trivial ?_
      split
      · exact h
      · refine Located.memAll_ite h ?_
        exact of_mem_eq Q (State.walkPages_mem _ _ _) h

theorem State.locateRows_memAll {Q : Memory → Prop} (s : State) (acc : Access) (b r : BitVec 5) (n : ℕ) (h : Q s.mem) :
    (s.locateRows acc b r n).2.MemAll Q := by
  unfold State.locateRows
  dsimp only
  split
  · trivial
  · exact State.locate_memAll (h := h) ..

theorem State.scalesOf_memAll {Q : Memory → Prop} (s : State) (w : ApWord) (u : ApUnit) (h : Q s.mem) :
    (s.scalesOf w u).MemAll Q := by
  unfold State.scalesOf
  dsimp only
  split
  · split <;> exact h
  · split
    · exact h
    · split
      · exact h
      · exact h
      · split
        · exact h
        · split
          · exact h
          · show Q (State.modCore _ _ _).mem
            rw [State.modCore_mem, State.foldl_mem fun t l => State.readRemote_mem _ _ _ _ _ _ _ _, State.newGroup_mem]
            exact h

@[simp] theorem State.poisonCheck_mem (s : State) (xs : List Spot) : (s.poisonCheck xs).mem = s.mem := by
  refine State.foldl_mem fun t x => ?_
  split
  · split <;> simp
  · rfl

@[simp] theorem State.apNext_mem (s : State) (w : ApWord) (u : ApUnit) (rest : List ApUnit) (cost : ℕ) (f : ApWord → ApWord) :
    (s.apNext w u rest cost f).mem = s.mem := rfl

@[simp] theorem State.partsCome_mem (s : State) (core g : ℕ) : (s.partsCome core g).mem = s.mem := by
  unfold State.partsCome
  dsimp only
  (repeat' split) <;> simp

@[simp] theorem State.askFor_mem (s : State) (g : ℕ) (line : Option ℕ) (parts : List (Spot × Source)) :
    (s.askFor g line parts).mem = s.mem := by
  unfold State.askFor
  split
  · split <;> simp
  · refine State.foldl_mem fun t p => ?_
    split <;> simp

@[simp] theorem State.apLoad_mem (s : State) (w : ApWord) (u : ApUnit) (rest : List ApUnit) (q : ℕ) (es : List (ℕ × Option ℤ)) :
    (s.apLoad w u rest q es).mem = s.mem := by
  unfold State.apLoad
  dsimp only
  (repeat' split) <;> simp

@[simp] theorem State.writeBufIn_mem (s : State) (c : CtxId) (b off : ℕ) (bs : List Byte) :
    (s.writeBufIn c b off bs).mem = s.mem := by
  unfold State.writeBufIn
  split <;> rfl

theorem State.storePlace_canonical (s : State) (id ord : ℕ) (p : Place × CombLine) (h : Canonical s.mem) :
    ∀ t ∈ s.storePlace id ord p, Canonical t.mem := by
  unfold State.storePlace
  split
  · intro t ht
    exact of_mem_eq Canonical (s.placeLine_mem _ _ _ _ _ _ t ht) h
  · exact s.storeLine_canonical _ _ _ _ _ h
  · rintro t ⟨⟩
    exact h

theorem State.storeAll_canonical (a0 : State) (a1 a2 : ℕ) (a3 : List (Place × CombLine)) (h : Canonical a0.mem) :
    Canonical (a0.storeAll a1 a2 a3).1.mem := by
  induction a3 generalizing a0 with
  | nil => exact h
  | cons p ps ih =>
    unfold State.storeAll
    split
    · next t ht => exact ih t (a0.storePlace_canonical _ _ p h t ht)
    · exact h

theorem State.apStore_canonical (s : State) (w : ApWord) (u : ApUnit) (rest : List ApUnit) (es : List (ℕ × Option ℤ)) (h : Canonical s.mem) :
    Canonical (s.apStore w u rest es).mem := by
  unfold State.apStore
  extract_lets c gran
  split
  · exact h
  · split
    next s1 todo hb =>
    have h1 : Canonical s1.mem := by
      refine (congrArg (fun p => Canonical p.1.mem) hb).mp ?_
      split
      · exact h
      · refine State.foldl_canonical h fun t x ht => ?_
        split
        · exact of_mem_eq Canonical (t.writeBufIn_mem _ _ _ _) ht
        · exact ht
    have h2 := s1.storeAll_canonical w.id w.ord todo h1
    split
    · next e => exact of_mem_eq Canonical (State.apNext_mem _ _ _ _ _ _) ((congrArg (fun p => Canonical p.1.mem) e).mp h2)
    · next e => exact (congrArg (fun p => Canonical p.1.mem) e).mp h2

@[simp] theorem State.amovRemote_mem (s : State) (mx : Bool) (d : Dest) (line : ℕ) (ls : List (ℕ × Elem)) (so : Bool) :
    (s.amovRemote mx d line ls so).2.mem = s.mem := by
  unfold State.amovRemote
  split <;> simp

theorem State.apAtomic_canonical (s : State) (w : ApWord) (u : ApUnit) (rest : List ApUnit) (mx : Bool) (h : Canonical s.mem) :
    Canonical (s.apAtomic w u rest mx).mem := by
  unfold State.apAtomic
  dsimp only
  split
  · exact of_mem_eq Canonical (s.apNext_mem _ _ _ _ _) h
  · split
    · split_ifs
      · rw [State.apNext_mem]
        exact State.foldl_canonical h fun t l ht => t.writeMem_canonical _ _ _ _ ht
      · rw [State.apNext_mem, State.amovRemote_mem]
        exact h
    · exact h

theorem State.apStart_canonical (s : State) (w : ApWord) (u : ApUnit) (rest : List ApUnit) (h : Canonical s.mem) :
    Canonical (s.apStart w u rest).mem := by
  unfold State.apStart
  have hs := s.scalesOf_memAll w u h
  revert hs
  cases s.scalesOf w u with
  | wait t => exact id
  | known es t =>
    intro ht
    dsimp only
    split_ifs
    · exact ht
    · split
      · exact of_mem_eq Canonical (t.apLoad_mem _ _ _ _ _) ht
      · exact t.apStore_canonical w u rest es ht
      · exact t.apAtomic_canonical w u rest _ ht

theorem State.apStep_canonical (s : State) (core : ℕ) (h : Canonical s.mem) : Canonical (s.apStep core).mem := by
  unfold State.apStep
  split_ifs
  · exact h
  · split
    · exact h
    · split
      · exact h
      · exact State.apStart_canonical (h := h) ..

theorem State.apEnter_canonical (s : State) (kind : ApKind) (fmt ticket : ℕ) (xs : List Spot) (us : List ApUnit) (data : List (List Elem)) (h : Canonical s.mem) :
    Canonical (s.apEnter kind fmt ticket xs us data).mem := State.apStep_canonical (h := h) ..

@[simp] theorem State.reserve_mem (s : State) (q n : ℕ) : (s.reserve q n).mem = s.mem := rfl

theorem State.vectorLoad_canonical (s : State) (q fmt n : ℕ) (xs : List Spot) (us : List ApUnit) (h : Canonical s.mem) :
    Canonical (s.vectorLoad q fmt n xs us).mem := State.apEnter_canonical (h := of_mem_eq Canonical (s.reserve_mem q n) h) ..

theorem execLdv_canonical (n : BitVec 6) (r b q : BitVec 5) (s : State) (h : Canonical s.mem) :
    MemNext Canonical (execLdv n r b q s) := by
  refine word32_memNext h (Res.memAll_ite h (Res.memAll_ite h ?_))
  have hl := s.locateRows_memAll .read b r (n.toNat + 1) h
  split
  · next fmt res he =>
    rw [he] at hl
    exact hl
  · next fmt xs t he =>
    rw [he] at hl
    exact State.vectorLoad_canonical (h := hl) ..

theorem execStv_canonical (n : BitVec 6) (r b q : BitVec 5) (s : State) (h : Canonical s.mem) :
    MemNext Canonical (execStv n r b q s) := by
  refine word32_memNext h (Res.memAll_ite h ?_)
  split
  · exact h
  · have hl := s.locateRows_memAll .write b r (n.toNat + 1) h
    split
    · next fmt res he =>
      rw [he] at hl
      exact hl
    · next fmt xs t he =>
      rw [he] at hl
      exact State.apEnter_canonical (h := hl) ..

theorem State.locateLanes_memAll {Q : Memory → Prop} (s : State) (acc : Access) (b : BitVec 5) (idx : List (List Elem)) (h : Q s.mem) :
    (s.locateLanes acc b idx).2.MemAll Q := by
  unfold State.locateLanes
  dsimp only
  split
  · trivial
  · exact State.locate_memAll (h := h) ..

theorem execLdg_canonical (n : BitVec 6) (r b q : BitVec 5) (s : State) (h : Canonical s.mem) :
    MemNext Canonical (execLdg n r b q s) := by
  refine word32_memNext h (Res.memAll_ite h ?_)
  split
  · exact h
  · next idx _ =>
    refine Res.memAll_ite h ?_
    have hl := s.locateLanes_memAll .read b idx h
    split
    · next fmt res he =>
      rw [he] at hl
      exact hl
    · next fmt xs t he =>
      rw [he] at hl
      exact State.vectorLoad_canonical (h := hl) ..

theorem scatterWord_canonical (acc : Access) (kind : ApKind) (n : BitVec 6) (r b q : BitVec 5) (s : State) (h : Canonical s.mem) :
    MemNext Canonical (scatterWord acc kind n r b q s) := by
  refine word32_memNext h (Res.memAll_ite h ?_)
  split
  · exact h
  · next idx gs _ =>
    have hl := s.locateLanes_memAll acc b idx h
    split
    · next fmt res he =>
      rw [he] at hl
      exact hl
    · next fmt xs t he =>
      rw [he] at hl
      exact State.apEnter_canonical (h := hl) ..

theorem execStsc_canonical (n : BitVec 6) (r b q : BitVec 5) (s : State) (h : Canonical s.mem) :
    MemNext Canonical (execStsc n r b q s) := scatterWord_canonical (h := h) ..

theorem execAmovAdd_canonical (n : BitVec 6) (r b q : BitVec 5) (s : State) (h : Canonical s.mem) :
    MemNext Canonical (execAmovAdd n r b q s) := scatterWord_canonical (h := h) ..

theorem execAmovMax_canonical (n : BitVec 6) (r b q : BitVec 5) (s : State) (h : Canonical s.mem) :
    MemNext Canonical (execAmovMax n r b q s) := scatterWord_canonical (h := h) ..

theorem execPref_memNext {Q : Memory → Prop} (i : BitVec 12) (a : BitVec 5) (s : State) (h : Q s.mem) :
    MemNext Q (execPref i a s) := by
  refine word32_memNext h ?_
  split
  · next va _ =>
    split
    · exact h
    · have ht := s.translate_memAll s.foc.ctx 1 .prefetch va h
      revert ht
      cases s.translate s.foc.ctx 1 .prefetch va with
      | wait t => exact id
      | leaf l t => exact id
      | fault k l => exact fun _ => h
  · exact h

theorem execTlbp_memNext {Q : Memory → Prop} (a d : BitVec 5) (s : State) (h : Q s.mem) : MemNext Q (execTlbp a d s) := word32_memNext h (by
  dsimp only
  (repeat' split) <;> simp [Res.MemAll, h])

@[simp] theorem State.free_mem (s : State) : (s.free).2.mem = s.mem := rfl

/-! ### Memory through the functions of Machine/Vector -/

@[simp] theorem State.vresult_mem (s : State) (d lat : ℕ) (v : List Elem) (m : Mask) (fl : Flags) :
    (s.vresult d lat v m fl).mem = s.mem := by
  unfold State.vresult
  split <;> simp

theorem vword2_memNext {Q : Memory → Prop} (lat : State → ℕ) (f : RM → Elem → Elem → Elem × Flags) (g : Guard) (b a d : BitVec 5) (s : State) (h : Q s.mem) :
    MemNext Q (vword2 lat f g b a d s) := word32_memNext h (by simp [Res.MemAll, h])

theorem execVadd_memNext {Q : Memory → Prop} (g : Guard) (b a d : BitVec 5) (s : State) (h : Q s.mem) :
    MemNext Q (execVadd g b a d s) := vword2_memNext (h := h) ..

theorem execVsub_memNext {Q : Memory → Prop} (g : Guard) (b a d : BitVec 5) (s : State) (h : Q s.mem) :
    MemNext Q (execVsub g b a d s) := vword2_memNext (h := h) ..

theorem execVmul_memNext {Q : Memory → Prop} (g : Guard) (b a d : BitVec 5) (s : State) (h : Q s.mem) :
    MemNext Q (execVmul g b a d s) := vword2_memNext (h := h) ..

theorem execVmin_memNext {Q : Memory → Prop} (g : Guard) (b a d : BitVec 5) (s : State) (h : Q s.mem) :
    MemNext Q (execVmin g b a d s) := vword2_memNext (h := h) ..

theorem execVmax_memNext {Q : Memory → Prop} (g : Guard) (b a d : BitVec 5) (s : State) (h : Q s.mem) :
    MemNext Q (execVmax g b a d s) := vword2_memNext (h := h) ..

theorem vword1_memNext {Q : Memory → Prop} (feature : Option ℕ) (lat : State → ℕ) (f : RM → Elem → Elem × Flags) (g : Guard) (a d : BitVec 5) (s : State) (h : Q s.mem) :
    MemNext Q (vword1 feature lat f g a d s) := word32_memNext h (by simp [Res.MemAll, h])

theorem execVabs_memNext {Q : Memory → Prop} (g : Guard) (a d : BitVec 5) (s : State) (h : Q s.mem) :
    MemNext Q (execVabs g a d s) := vword1_memNext (h := h) ..

theorem execVneg_memNext {Q : Memory → Prop} (g : Guard) (a d : BitVec 5) (s : State) (h : Q s.mem) :
    MemNext Q (execVneg g a d s) := vword1_memNext (h := h) ..

theorem execVmov_memNext {Q : Memory → Prop} (g : Guard) (a d : BitVec 5) (s : State) (h : Q s.mem) :
    MemNext Q (execVmov g a d s) := vword1_memNext (h := h) ..

theorem vword3_memNext {Q : Memory → Prop} (np nc : Bool) (g : BitVec 4) (c b a d : BitVec 5) (s : State) (h : Q s.mem) :
    MemNext Q (vword3 np nc g c b a d s) := word32_memNext h (by simp [Res.MemAll, h])

theorem execVfma_memNext {Q : Memory → Prop} (g : BitVec 4) (c b a d : BitVec 5) (s : State) (h : Q s.mem) :
    MemNext Q (execVfma g c b a d s) := vword3_memNext (h := h) ..

theorem execVfms_memNext {Q : Memory → Prop} (g : BitVec 4) (c b a d : BitVec 5) (s : State) (h : Q s.mem) :
    MemNext Q (execVfms g c b a d s) := vword3_memNext (h := h) ..

theorem execVfnma_memNext {Q : Memory → Prop} (g : BitVec 4) (c b a d : BitVec 5) (s : State) (h : Q s.mem) :
    MemNext Q (execVfnma g c b a d s) := vword3_memNext (h := h) ..

theorem execVfnms_memNext {Q : Memory → Prop} (g : BitVec 4) (c b a d : BitVec 5) (s : State) (h : Q s.mem) :
    MemNext Q (execVfnms g c b a d s) := vword3_memNext (h := h) ..

theorem execVrcp_memNext {Q : Memory → Prop} (g : Guard) (a d : BitVec 5) (s : State) (h : Q s.mem) :
    MemNext Q (execVrcp g a d s) := vword1_memNext (h := h) ..

theorem execVrsq_memNext {Q : Memory → Prop} (g : Guard) (a d : BitVec 5) (s : State) (h : Q s.mem) :
    MemNext Q (execVrsq g a d s) := vword1_memNext (h := h) ..

theorem execVsqrt_memNext {Q : Memory → Prop} (g : Guard) (a d : BitVec 5) (s : State) (h : Q s.mem) :
    MemNext Q (execVsqrt g a d s) := vword1_memNext (h := h) ..

theorem execVexp2_memNext {Q : Memory → Prop} (g : Guard) (a d : BitVec 5) (s : State) (h : Q s.mem) :
    MemNext Q (execVexp2 g a d s) := vword1_memNext (h := h) ..

theorem execVlog2_memNext {Q : Memory → Prop} (g : Guard) (a d : BitVec 5) (s : State) (h : Q s.mem) :
    MemNext Q (execVlog2 g a d s) := vword1_memNext (h := h) ..

theorem execVsin_memNext {Q : Memory → Prop} (g : Guard) (a d : BitVec 5) (s : State) (h : Q s.mem) :
    MemNext Q (execVsin g a d s) := vword1_memNext (h := h) ..

theorem execVcos_memNext {Q : Memory → Prop} (g : Guard) (a d : BitVec 5) (s : State) (h : Q s.mem) :
    MemNext Q (execVcos g a d s) := vword1_memNext (h := h) ..

theorem execVtanh_memNext {Q : Memory → Prop} (g : Guard) (a d : BitVec 5) (s : State) (h : Q s.mem) :
    MemNext Q (execVtanh g a d s) := vword1_memNext (h := h) ..

theorem execViadd_memNext {Q : Memory → Prop} (g : Guard) (b a d : BitVec 5) (s : State) (h : Q s.mem) :
    MemNext Q (execViadd g b a d s) := vword2_memNext (h := h) ..

theorem execVisub_memNext {Q : Memory → Prop} (g : Guard) (b a d : BitVec 5) (s : State) (h : Q s.mem) :
    MemNext Q (execVisub g b a d s) := vword2_memNext (h := h) ..

theorem execVimul_memNext {Q : Memory → Prop} (g : Guard) (b a d : BitVec 5) (s : State) (h : Q s.mem) :
    MemNext Q (execVimul g b a d s) := vword2_memNext (h := h) ..

theorem execVand_memNext {Q : Memory → Prop} (g : Guard) (b a d : BitVec 5) (s : State) (h : Q s.mem) :
    MemNext Q (execVand g b a d s) := vword2_memNext (h := h) ..

theorem execVor_memNext {Q : Memory → Prop} (g : Guard) (b a d : BitVec 5) (s : State) (h : Q s.mem) :
    MemNext Q (execVor g b a d s) := vword2_memNext (h := h) ..

theorem execVxor_memNext {Q : Memory → Prop} (g : Guard) (b a d : BitVec 5) (s : State) (h : Q s.mem) :
    MemNext Q (execVxor g b a d s) := vword2_memNext (h := h) ..

theorem execVshl_memNext {Q : Memory → Prop} (g : Guard) (b a d : BitVec 5) (s : State) (h : Q s.mem) :
    MemNext Q (execVshl g b a d s) := vword2_memNext (h := h) ..

theorem execVshr_memNext {Q : Memory → Prop} (g : Guard) (b a d : BitVec 5) (s : State) (h : Q s.mem) :
    MemNext Q (execVshr g b a d s) := vword2_memNext (h := h) ..

theorem execVsar_memNext {Q : Memory → Prop} (g : Guard) (b a d : BitVec 5) (s : State) (h : Q s.mem) :
    MemNext Q (execVsar g b a d s) := vword2_memNext (h := h) ..

theorem execVimin_memNext {Q : Memory → Prop} (g : Guard) (b a d : BitVec 5) (s : State) (h : Q s.mem) :
    MemNext Q (execVimin g b a d s) := vword2_memNext (h := h) ..

theorem execVimax_memNext {Q : Memory → Prop} (g : Guard) (b a d : BitVec 5) (s : State) (h : Q s.mem) :
    MemNext Q (execVimax g b a d s) := vword2_memNext (h := h) ..

theorem vcmpWord_memNext {Q : Memory → Prop} (c : VCond) (n : Bool) (b a : BitVec 5) (p : BitVec 6) (s : State) (h : Q s.mem) :
    MemNext Q (vcmpWord c n b a p s) := word32_memNext h (by simp [Res.MemAll, h])

theorem execVcmpEq_memNext {Q : Memory → Prop} (n : Bool) (b a : BitVec 5) (p : BitVec 6) (s : State) (h : Q s.mem) :
    MemNext Q (execVcmpEq n b a p s) := vcmpWord_memNext (h := h) ..

theorem execVcmpNe_memNext {Q : Memory → Prop} (n : Bool) (b a : BitVec 5) (p : BitVec 6) (s : State) (h : Q s.mem) :
    MemNext Q (execVcmpNe n b a p s) := vcmpWord_memNext (h := h) ..

theorem execVcmpLt_memNext {Q : Memory → Prop} (n : Bool) (b a : BitVec 5) (p : BitVec 6) (s : State) (h : Q s.mem) :
    MemNext Q (execVcmpLt n b a p s) := vcmpWord_memNext (h := h) ..

theorem execVcmpLe_memNext {Q : Memory → Prop} (n : Bool) (b a : BitVec 5) (p : BitVec 6) (s : State) (h : Q s.mem) :
    MemNext Q (execVcmpLe n b a p s) := vcmpWord_memNext (h := h) ..

theorem execVcmpGt_memNext {Q : Memory → Prop} (n : Bool) (b a : BitVec 5) (p : BitVec 6) (s : State) (h : Q s.mem) :
    MemNext Q (execVcmpGt n b a p s) := vcmpWord_memNext (h := h) ..

theorem execVcmpGe_memNext {Q : Memory → Prop} (n : Bool) (b a : BitVec 5) (p : BitVec 6) (s : State) (h : Q s.mem) :
    MemNext Q (execVcmpGe n b a p s) := vcmpWord_memNext (h := h) ..

theorem execVcmpOrd_memNext {Q : Memory → Prop} (n : Bool) (b a : BitVec 5) (p : BitVec 6) (s : State) (h : Q s.mem) :
    MemNext Q (execVcmpOrd n b a p s) := vcmpWord_memNext (h := h) ..

theorem execVcmpUno_memNext {Q : Memory → Prop} (n : Bool) (b a : BitVec 5) (p : BitVec 6) (s : State) (h : Q s.mem) :
    MemNext Q (execVcmpUno n b a p s) := vcmpWord_memNext (h := h) ..

theorem execVcmpIeq_memNext {Q : Memory → Prop} (n : Bool) (b a : BitVec 5) (p : BitVec 6) (s : State) (h : Q s.mem) :
    MemNext Q (execVcmpIeq n b a p s) := vcmpWord_memNext (h := h) ..

theorem execVcmpIlt_memNext {Q : Memory → Prop} (n : Bool) (b a : BitVec 5) (p : BitVec 6) (s : State) (h : Q s.mem) :
    MemNext Q (execVcmpIlt n b a p s) := vcmpWord_memNext (h := h) ..

theorem execVcmpIltu_memNext {Q : Memory → Prop} (n : Bool) (b a : BitVec 5) (p : BitVec 6) (s : State) (h : Q s.mem) :
    MemNext Q (execVcmpIltu n b a p s) := vcmpWord_memNext (h := h) ..

theorem execVsel_memNext {Q : Memory → Prop} (k : Guard) (b a d : BitVec 5) (s : State) (h : Q s.mem) :
    MemNext Q (execVsel k b a d s) := word32_memNext h (by simp [Res.MemAll, h])

theorem execVcvtI32_memNext {Q : Memory → Prop} (g : Guard) (a d : BitVec 5) (s : State) (h : Q s.mem) :
    MemNext Q (execVcvtI32 g a d s) := vword1_memNext (h := h) ..

theorem execVcvtF32_memNext {Q : Memory → Prop} (g : Guard) (a d : BitVec 5) (s : State) (h : Q s.mem) :
    MemNext Q (execVcvtF32 g a d s) := vword1_memNext (h := h) ..

theorem execVrndBf16_memNext {Q : Memory → Prop} (g : Guard) (a d : BitVec 5) (s : State) (h : Q s.mem) :
    MemNext Q (execVrndBf16 g a d s) := vword1_memNext (h := h) ..

theorem execVrndT8_memNext {Q : Memory → Prop} (g : Guard) (a d : BitVec 5) (s : State) (h : Q s.mem) :
    MemNext Q (execVrndT8 g a d s) := vword1_memNext (h := h) ..

theorem execVrndT6_memNext {Q : Memory → Prop} (g : Guard) (a d : BitVec 5) (s : State) (h : Q s.mem) :
    MemNext Q (execVrndT6 g a d s) := vword1_memNext (h := h) ..

theorem vmoveWord_memNext {Q : Memory → Prop} (lat : ℕ) (f : List Elem → List Elem) (a d : BitVec 5) (s : State) (h : Q s.mem) :
    MemNext Q (vmoveWord lat f a d s) := word32_memNext h (by simp [Res.MemAll, h])

theorem execVrotr_memNext {Q : Memory → Prop} (k : BitVec 4) (a d : BitVec 5) (s : State) (h : Q s.mem) :
    MemNext Q (execVrotr k a d s) := vmoveWord_memNext (h := h) ..

theorem execVrotc_memNext {Q : Memory → Prop} (k : BitVec 6) (a d : BitVec 5) (s : State) (h : Q s.mem) :
    MemNext Q (execVrotc k a d s) := vmoveWord_memNext (h := h) ..

theorem execVbcr_memNext {Q : Memory → Prop} (k : BitVec 4) (a d : BitVec 5) (s : State) (h : Q s.mem) :
    MemNext Q (execVbcr k a d s) := vmoveWord_memNext (h := h) ..

theorem execVbcc_memNext {Q : Memory → Prop} (k : BitVec 6) (a d : BitVec 5) (s : State) (h : Q s.mem) :
    MemNext Q (execVbcc k a d s) := vmoveWord_memNext (h := h) ..

theorem execVtrn16_memNext {Q : Memory → Prop} (a d : BitVec 5) (s : State) (h : Q s.mem) :
    MemNext Q (execVtrn16 a d s) := vmoveWord_memNext (h := h) ..

theorem vredWord_memNext {Q : Memory → Prop} (cols : Bool) (f : RM → Elem → Elem → Elem × Flags) (a d : BitVec 5) (s : State) (h : Q s.mem) :
    MemNext Q (vredWord cols f a d s) := word32_memNext h (by simp [Res.MemAll, h])

theorem execVredrSum_memNext {Q : Memory → Prop} (a d : BitVec 5) (s : State) (h : Q s.mem) :
    MemNext Q (execVredrSum a d s) := vredWord_memNext (h := h) ..

theorem execVredrMax_memNext {Q : Memory → Prop} (a d : BitVec 5) (s : State) (h : Q s.mem) :
    MemNext Q (execVredrMax a d s) := vredWord_memNext (h := h) ..

theorem execVredrMin_memNext {Q : Memory → Prop} (a d : BitVec 5) (s : State) (h : Q s.mem) :
    MemNext Q (execVredrMin a d s) := vredWord_memNext (h := h) ..

theorem execVredcSum_memNext {Q : Memory → Prop} (a d : BitVec 5) (s : State) (h : Q s.mem) :
    MemNext Q (execVredcSum a d s) := vredWord_memNext (h := h) ..

theorem execVredcMax_memNext {Q : Memory → Prop} (a d : BitVec 5) (s : State) (h : Q s.mem) :
    MemNext Q (execVredcMax a d s) := vredWord_memNext (h := h) ..

theorem execVredcMin_memNext {Q : Memory → Prop} (a d : BitVec 5) (s : State) (h : Q s.mem) :
    MemNext Q (execVredcMin a d s) := vredWord_memNext (h := h) ..

theorem execVli_memNext {Q : Memory → Prop} (i : BitVec 20) (d : BitVec 5) (s : State) (h : Q s.mem) :
    MemNext Q (execVli i d s) := word32_memNext h (of_mem_eq Q (State.vresult_mem _ _ _ _ _ _) h)

@[simp] theorem State.taken_mem (s : State) (code : ℕ) (v : RVal) (m : Mask) (fl : Flags) (dst : Bool) :
    (s.taken code v m fl dst).mem = s.mem := rfl

theorem execVpop_memNext {Q : Memory → Prop} (c r q : BitVec 4) (d : BitVec 5) (s : State) (h : Q s.mem) :
    MemNext Q (execVpop c r q d s) := word32_memNext h (by
  dsimp only
  (repeat' split) <;> simp [Res.MemAll, h])

theorem execVpush_memNext {Q : Memory → Prop} (c r q : BitVec 4) (a : BitVec 5) (s : State) (h : Q s.mem) :
    MemNext Q (execVpush c r q a s) := word32_memNext h (by
  dsimp only
  (repeat' split) <;> simp [Res.MemAll, h])

theorem execVtos_memNext {Q : Memory → Prop} (j : BitVec 5) (r : BitVec 4) (a : BitVec 5) (s : State) (h : Q s.mem) :
    MemNext Q (execVtos j r a s) := word32_memNext h (by
  dsimp only
  (repeat' split) <;> simp [Res.MemAll, h])

theorem execVfrs_memNext {Q : Memory → Prop} (h : Bool) (d : BitVec 5) (s : State) (hQ : Q s.mem) :
    MemNext Q (execVfrs h d s) := by
  refine word32_memNext hQ ?_
  cases s.fctx.q1.head s.clk with
  | none => exact hQ
  | some e => exact of_mem_eq Q (State.taken_mem _ _ _ _ _ _) hQ

theorem execVldl_memNext {Q : Memory → Prop} (o : BitVec 12) (d : BitVec 5) (s : State) (h : Q s.mem) :
    MemNext Q (execVldl o d s) := word32_memNext h (by
  dsimp only
  (repeat' split) <;> simp [Res.MemAll, h])

theorem execVstl_memNext {Q : Memory → Prop} (o : BitVec 12) (a : BitVec 5) (s : State) (h : Q s.mem) :
    MemNext Q (execVstl o a s) := word32_memNext h (by
  dsimp only
  (repeat' split) <;> simp [Res.MemAll, h])

theorem execVSloop_memNext {Q : Memory → Prop} (e : BitVec 4) (s : State) (h : Q s.mem) : MemNext Q (execVSloop e s) := word32_memNext h (by
  dsimp only
  (repeat' split) <;> simp [Res.MemAll, h])

/-! ### Memory through the functions of Machine/DistWords -/

@[simp] theorem State.dresult_mem (s : State) (d lat : ℕ) (v : DReg) (fl : Flags) : (s.dresult d lat v fl).mem = s.mem := by
  unfold State.dresult
  dsimp only
  (repeat' split) <;> simp

theorem pairWord_memNext {Q : Memory → Prop} (op : DOp) (b a d : BitVec 5) (s : State) (h : Q s.mem) :
    MemNext Q (pairWord op b a d s) := word32_memNext h (by
  dsimp only
  (repeat' split) <;> simp [Res.MemAll, h])

theorem execDadd_memNext {Q : Memory → Prop} (b a d : BitVec 5) (s : State) (h : Q s.mem) :
    MemNext Q (execDadd b a d s) := pairWord_memNext (h := h) ..

theorem execDsub_memNext {Q : Memory → Prop} (b a d : BitVec 5) (s : State) (h : Q s.mem) :
    MemNext Q (execDsub b a d s) := pairWord_memNext (h := h) ..

theorem execDmul_memNext {Q : Memory → Prop} (b a d : BitVec 5) (s : State) (h : Q s.mem) :
    MemNext Q (execDmul b a d s) := pairWord_memNext (h := h) ..

theorem execDmix_memNext {Q : Memory → Prop} (b a d : BitVec 5) (s : State) (h : Q s.mem) :
    MemNext Q (execDmix b a d s) := pairWord_memNext (h := h) ..

theorem dscalarWord_memNext {Q : Memory → Prop} (f : RM → Elem → Elem → Elem × Flags) (b a d : BitVec 5) (s : State) (h : Q s.mem) :
    MemNext Q (dscalarWord f b a d s) := word32_memNext h (by simp [Res.MemAll, h])

theorem execDmuls_memNext {Q : Memory → Prop} (b a d : BitVec 5) (s : State) (h : Q s.mem) :
    MemNext Q (execDmuls b a d s) := dscalarWord_memNext (h := h) ..

theorem execDadds_memNext {Q : Memory → Prop} (b a d : BitVec 5) (s : State) (h : Q s.mem) :
    MemNext Q (execDadds b a d s) := dscalarWord_memNext (h := h) ..

theorem execDmaxs_memNext {Q : Memory → Prop} (b a d : BitVec 5) (s : State) (h : Q s.mem) :
    MemNext Q (execDmaxs b a d s) := dscalarWord_memNext (h := h) ..

theorem dmapWord_memNext {Q : Memory → Prop} (f : RM → Elem → Elem × Flags) (a d : BitVec 5) (s : State) (h : Q s.mem) :
    MemNext Q (dmapWord f a d s) := word32_memNext h (by simp [Res.MemAll, h])

theorem execDmapExp2_memNext {Q : Memory → Prop} (a d : BitVec 5) (s : State) (h : Q s.mem) :
    MemNext Q (execDmapExp2 a d s) := dmapWord_memNext (h := h) ..

theorem execDmapLog2_memNext {Q : Memory → Prop} (a d : BitVec 5) (s : State) (h : Q s.mem) :
    MemNext Q (execDmapLog2 a d s) := dmapWord_memNext (h := h) ..

theorem execDmapTanh_memNext {Q : Memory → Prop} (a d : BitVec 5) (s : State) (h : Q s.mem) :
    MemNext Q (execDmapTanh a d s) := dmapWord_memNext (h := h) ..

theorem execDmapSigmoid_memNext {Q : Memory → Prop} (a d : BitVec 5) (s : State) (h : Q s.mem) :
    MemNext Q (execDmapSigmoid a d s) := dmapWord_memNext (h := h) ..

theorem buildWord_memNext {Q : Memory → Prop} (lat : ℕ) (lanes : RM → List Elem → List (Lane × Flags)) (a d : BitVec 5) (s : State) (h : Q s.mem) :
    MemNext Q (buildWord lat lanes a d s) := word32_memNext h (by simp [Res.MemAll, h])

theorem execDpt_memNext {Q : Memory → Prop} (r : BitVec 4) (a d : BitVec 5) (s : State) (h : Q s.mem) :
    MemNext Q (execDpt r a d s) := buildWord_memNext (h := h) ..

theorem execDgauss_memNext {Q : Memory → Prop} (r : BitVec 4) (a d : BitVec 5) (s : State) (h : Q s.mem) :
    MemNext Q (execDgauss r a d s) := buildWord_memNext (h := h) ..

theorem execDpop_memNext {Q : Memory → Prop} (q : BitVec 4) (d : BitVec 5) (s : State) (h : Q s.mem) :
    MemNext Q (execDpop q d s) := word32_memNext h (by
  dsimp only
  (repeat' split) <;> simp [Res.MemAll, h])

theorem execDpush_memNext {Q : Memory → Prop} (q : BitVec 4) (a : BitVec 5) (s : State) (h : Q s.mem) :
    MemNext Q (execDpush q a s) := word32_memNext h (by
  dsimp only
  (repeat' split) <;> simp [Res.MemAll, h])

@[simp] theorem State.statResult_mem (s : State) (d lat r : ℕ) (es : List (Elem × Flags)) :
    (s.statResult d lat r es).mem = s.mem := by
  unfold State.statResult
  simp

theorem execDmom_memNext {Q : Memory → Prop} (k : BitVec 2) (r : BitVec 4) (a d : BitVec 5) (s : State) (h : Q s.mem) :
    MemNext Q (execDmom k r a d s) := word32_memNext h (by simp [Res.MemAll, h])

theorem execDqnt_memNext {Q : Memory → Prop} (r : BitVec 4) (a d : BitVec 5) (s : State) (h : Q s.mem) :
    MemNext Q (execDqnt r a d s) := word32_memNext h (by simp [Res.MemAll, h])

theorem execDtag_memNext {Q : Memory → Prop} (i : BitVec 16) (d : BitVec 5) (s : State) (h : Q s.mem) :
    MemNext Q (execDtag i d s) := word32_memNext h h

theorem execDlin_memNext {Q : Memory → Prop} (i : BitVec 16) (d : BitVec 5) (s : State) (h : Q s.mem) :
    MemNext Q (execDlin i d s) := word32_memNext h h

theorem execDflg_memNext {Q : Memory → Prop} (i : BitVec 16) (s : State) (h : Q s.mem) : MemNext Q (execDflg i s) := word32_memNext h h

theorem execDflgRd_memNext {Q : Memory → Prop} (i : BitVec 16) (s : State) (h : Q s.mem) : MemNext Q (execDflgRd i s) := word32_memNext h (by
  dsimp only
  (repeat' split) <;> simp [Res.MemAll, h])

theorem execStall_memNext {Q : Memory → Prop} (n : BitVec 11) (s : State) (h : Q s.mem) : MemNext Q (execStall n s) := word16_memNext h (by
  dsimp only
  (repeat' split) <;> simp [Res.MemAll, h])

theorem execMvh_memNext {Q : Memory → Prop} (a d : BitVec 5) (s : State) (h : Q s.mem) : MemNext Q (execMvh a d s) := by
  unfold execMvh
  split
  · exact word16_memNext h (by simp [Res.MemAll, h])
  · exact word16_memNext h (by simp [Res.MemAll, h])

theorem execAddih_memNext {Q : Memory → Prop} (i : BitVec 6) (d : BitVec 5) (s : State) (h : Q s.mem) :
    MemNext Q (execAddih i d s) := word16_memNext h (by simp [Res.MemAll, h])

theorem execBrh_memNext {Q : Memory → Prop} (g : Guard) (t : BitVec 3) (s : State) (h : Q s.mem) :
    MemNext Q (execBrh g t s) := word16_memNext h (branchTo_memAll (h := h) ..)

theorem rteBody_memAll {Q : Memory → Prop} (skip : Bool) (s : State) (h : Q s.mem) : (rteBody skip s).MemAll Q := by
  unfold rteBody
  dsimp only
  simp [Res.MemAll, h]

theorem execRte_memNext {Q : Memory → Prop} (s : State) (h : Q s.mem) : MemNext Q (execRte s) := word32_memNext h h

theorem execRteSkip_memNext {Q : Memory → Prop} (s : State) (h : Q s.mem) : MemNext Q (execRteSkip s) := word32_memNext h h

theorem State.finishGuests_canonical (s : State) (plat : Word) (code detail : ℕ) (h : Canonical s.mem) :
    Canonical (s.finishGuests plat code detail).mem := by
  unfold State.finishGuests
  split_ifs
  · exact h
  · refine State.foldl_canonical h fun t d ht => ?_
    exact of_mem_eq Canonical (State.freeUnits_mem _ _ _) (t.setStatus_canonical d plat code detail ht)

theorem State.finishDie_canonical (s : State) (die : ℕ) (plat : Word) (h : Canonical s.mem) :
    Canonical (s.finishDie die plat).mem := by
  unfold State.finishDie
  split
  · exact h
  · dsimp only
    split_ifs
    · exact h
    · refine State.finishGuests_canonical (h := of_mem_eq Canonical (State.freeUnits_mem _ _ _) ?_) ..
      split
      · split_ifs
        · exact State.setStatus_canonical (h := h) ..
        · exact State.setStatus_canonical (h := h) ..
      · exact State.setStatus_canonical (h := h) ..

theorem execRetire_canonical (s : State) (h : Canonical s.mem) : MemNext Canonical (execRetire s) := by
  refine word32_memNext h (Res.memAll_ite trivial ?_)
  have hf : Canonical (s.flush s.foc.ctx).mem := of_mem_eq Canonical (s.flush_mem _) h
  refine Res.memAll_ite hf (State.finishDie_canonical (h := ?_) ..)
  simpa using hf

theorem execBlockFetch_memNext {Q : Memory → Prop} (s : State) (h : Q s.mem) : MemNext Q (execBlockFetch s) := by
  unfold execBlockFetch
  dsimp only
  (repeat' split) <;> simp [MemNext, h]

/-! ### Memory through the functions of Machine/Traps -/

theorem execStallEnd_memNext {Q : Memory → Prop} (s : State) (h : Q s.mem) : MemNext Q (execStallEnd s) := by
  unfold execStallEnd
  split <;> exact h

@[simp] theorem State.depLanded_mem (s : State) (c : CtxId) (p : Pend) : (s.depLanded c p).mem = s.mem := by
  unfold State.depLanded
  split
  · split <;> simp
  · rfl

@[simp] theorem State.landPend_mem (s : State) (i : StreamId) (id : ℕ) : (s.landPend i id).mem = s.mem := by
  unfold State.landPend
  dsimp only
  (repeat' split) <;> simp

theorem execResultLand_memNext {Q : Memory → Prop} (s : State) (h : Q s.mem) : MemNext Q (execResultLand s) := by
  unfold execResultLand
  split <;> simp [MemNext, h]

theorem execInterlockedResultArrival_memNext {Q : Memory → Prop} (s : State) (h : Q s.mem) :
    MemNext Q (execInterlockedResultArrival s) := by
  unfold execInterlockedResultArrival
  split <;> simp [MemNext, h]

theorem execGranuleDataArrival_memNext {Q : Memory → Prop} (s : State) (h : Q s.mem) :
    MemNext Q (execGranuleDataArrival s) := by
  unfold execGranuleDataArrival
  split
  · split_ifs
    · exact h
    · exact h
  · exact h

@[simp] theorem State.promiseDone_mem (s : State) (c : CtxId) : (s.promiseDone c).mem = s.mem := by
  simp only [State.promiseDone]
  split
  · exact State.foldl_mem fun _ _ => rfl
  · rfl

theorem execTwaitExpiry_memNext {Q : Memory → Prop} (s : State) (h : Q s.mem) : MemNext Q (execTwaitExpiry s) := by
  unfold execTwaitExpiry
  split
  · split
    · split_ifs
      · exact h
      · split
        · exact h
        · exact of_mem_eq Q (State.promiseDone_mem _ _) h
    · exact h
  · exact h

@[simp] theorem State.endHold_mem (s : State) (i : StreamId) (p : Hold → Bool) : (s.endHold i p).mem = s.mem := rfl

theorem execWaitmWake_memNext {Q : Memory → Prop} (s : State) (h : Q s.mem) : MemNext Q (execWaitmWake s) := by
  unfold execWaitmWake
  split
  · exact of_mem_eq Q (State.foldl_mem fun t c => t.endHold_mem _ _) h
  · exact h

theorem execQwaitComplete_memNext {Q : Memory → Prop} (s : State) (h : Q s.mem) : MemNext Q (execQwaitComplete s) := by
  unfold execQwaitComplete
  dsimp only
  (repeat' split) <;> simp [MemNext, h]

@[simp] theorem State.leaveBarrier_mem (s : State) (c : CtxId) (u : BarUnit) : (s.leaveBarrier c u).mem = s.mem := by
  unfold State.leaveBarrier
  split
  · split <;> rfl
  · rfl

theorem execBarrierRelease_memNext {Q : Memory → Prop} (s : State) (h : Q s.mem) : MemNext Q (execBarrierRelease s) := by
  unfold execBarrierRelease
  split
  · exact of_mem_eq Q (State.foldl_mem fun t c => t.leaveBarrier_mem c _) h
  · exact h

theorem execCombiningEntrySend_memNext {Q : Memory → Prop} (s : State) (h : Q s.mem) :
    MemNext Q (execCombiningEntrySend s) := by
  unfold execCombiningEntrySend
  split
  · dsimp only [MemNext]
    split_ifs
    · exact h
    · exact of_mem_eq Q (s.sendEntries_mem _ _) h
  · exact h

@[simp] theorem State.postSlot_mem (s : State) (core bank : ℕ) (job : BitVec 12) (dest : Dest) (ord : ℕ) (eng : Option (EngQ × ℕ)) (mir : ℕ) (by_ fenced : List Stream) (before : List ℕ) (lines : List CombLine) (due : ℕ) :
    (s.postSlot core bank job dest ord eng mir by_ fenced before lines due).mem = s.mem := by
  unfold State.postSlot
  simp

theorem execCombiningEntryInject_memNext {Q : Memory → Prop} (s : State) (h : Q s.mem) :
    MemNext Q (execCombiningEntryInject s) := by
  unfold execCombiningEntryInject
  split
  · split_ifs
    · exact h
    · split
      · exact h
      · exact of_mem_eq Q (State.postSlot_mem _ _ _ _ _ _ _ _ _ _ _ _ _) h
  · exact h

@[simp] theorem State.logLoss_mem (s : State) (sta : ℕ) (slot : Slot) (cause : ℕ) :
    (s.logLoss sta slot cause).mem = s.mem := rfl

@[simp] theorem State.countLos_mem (s : State) (sta : ℕ) (job : BitVec 12) : (s.countLos sta job).mem = s.mem := rfl

/-! ### Memory through the functions of Machine/Ring -/

@[simp] theorem State.lose_mem (s : State) (sta : ℕ) (slot : Slot) (cause : ℕ) : (s.lose sta slot cause).mem = s.mem := by
  unfold State.lose
  split <;> rfl

@[simp] theorem State.leaveRing_mem (s : State) (sta : ℕ) (ccw : Bool) (slot : Slot) :
    (s.leaveRing sta ccw slot).mem = s.mem := rfl

@[simp] theorem State.takeBack_mem (s : State) (slot : Slot) : (s.takeBack slot).mem = s.mem := rfl

@[simp] theorem State.headInject_mem (s : State) (sta : ℕ) (slot : Slot) : (s.headInject sta slot).mem = s.mem := rfl

@[simp] theorem State.modHop_mem (s : State) (h : HopId) (f : Hop → Hop) : (s.modHop h f).mem = s.mem := rfl

@[simp] theorem State.sendHop_mem (s : State) (h : HopId) (slot : Slot) (due : ℕ) : (s.sendHop h slot due).mem = s.mem := rfl

@[simp] theorem State.localSend_mem (s : State) (sta : ℕ) (ccw : Bool) (slot : Slot) :
    (s.localSend sta ccw slot).mem = s.mem := rfl

@[simp] theorem State.refuse_mem (s : State) (sta : ℕ) (via : Option Bool) (slot : Slot) :
    (s.refuse sta via slot).mem = s.mem := by
  unfold State.refuse
  dsimp only
  (repeat' split) <;> simp

@[simp] theorem State.accept_mem (s : State) (sta : ℕ) (slot : Slot) : (s.accept sta slot).mem = s.mem := by
  exact State.foldl_mem fun _ _ => rfl

@[simp] theorem State.atTarget_mem (s : State) (sta : ℕ) (via : Option Bool) (slot : Slot) :
    (s.atTarget sta via slot).mem = s.mem := by
  unfold State.atTarget
  dsimp only
  (repeat' split) <;> simp

@[simp] theorem State.retryInject_mem (s : State) (sta : ℕ) (slot : Slot) : (s.retryInject sta slot).mem = s.mem := rfl

@[simp] theorem State.postGroup_mem (s : State) (h : HopId) (g lat : ℕ) : (s.postGroup h g lat).mem = s.mem := by
  unfold State.postGroup
  dsimp only
  (repeat' split) <;> simp

@[simp] theorem State.takePlace_mem (s : State) (h : HopId) (g p : ℕ) : (s.takePlace h g p).2.mem = s.mem := by
  unfold State.takePlace
  simp

@[simp] theorem State.trunkSend_mem (s : State) (sta : ℕ) (ccw : Bool) (slot : Slot) :
    (s.trunkSend sta ccw slot).mem = s.mem := by
  unfold State.trunkSend
  dsimp only
  (repeat' split) <;> simp

theorem execSlotInject_memNext {Q : Memory → Prop} (s : State) (h : Q s.mem) : MemNext Q (execSlotInject s) := by
  unfold execSlotInject
  dsimp only
  (repeat' split) <;> simp [MemNext, h]

@[simp] theorem State.modWaves_mem (s : State) (p : Wave → Bool) (f : Wave → Wave) : (s.modWaves p f).mem = s.mem := rfl

@[simp] theorem State.poisonTimed_mem (s : State) (p : ℕ → Slot → Bool) : (s.poisonTimed p).mem = s.mem := rfl

@[simp] theorem State.poisonPassing_mem (s : State) (h : HopId) (slot : Slot) : (s.poisonPassing h slot).mem = s.mem := by
  unfold State.poisonPassing
  split <;> rfl

@[simp] theorem State.queueSlot_mem (s : State) (sta : ℕ) (slot : Slot) (due : ℕ) :
    (s.queueSlot sta slot due).mem = s.mem := rfl

@[simp] theorem State.passOn_mem (s : State) (h : HopId) (slot : Slot) (rides : Bool) :
    (s.passOn h slot rides).mem = s.mem := by
  unfold State.passOn
  dsimp only
  (repeat' split) <;> simp

theorem execSlotHopArrival_memNext {Q : Memory → Prop} (s : State) (h : Q s.mem) : MemNext Q (execSlotHopArrival s) := by
  unfold execSlotHopArrival
  dsimp only
  (repeat' split) <;> simp [MemNext, h]

theorem execHopAcknowledge_memNext {Q : Memory → Prop} (s : State) (h : Q s.mem) : MemNext Q (execHopAcknowledge s) := by
  unfold execHopAcknowledge
  dsimp only
  (repeat' split) <;> simp [MemNext, h]

@[simp] theorem State.sendAgain_mem (s : State) (h : HopId) (slot : Slot) : (s.sendAgain h slot).mem = s.mem := by
  unfold State.sendAgain
  dsimp only
  (repeat' split) <;> simp

theorem execHopRetransmit_memNext {Q : Memory → Prop} (s : State) (h : Q s.mem) : MemNext Q (execHopRetransmit s) := by
  unfold execHopRetransmit
  dsimp only
  (repeat' split) <;> simp [MemNext, h]

@[simp] theorem State.linkTest_mem (s : State) (h : HopId) : (s.linkTest h).mem = s.mem := rfl

@[simp] theorem State.abandon_mem (s : State) (h : HopId) : (s.abandon h).mem = s.mem := by
  unfold State.abandon
  simp [State.foldl_mem]

@[simp] theorem State.forgive_mem (s : State) (mod : ℕ) (hit : Dest → Bool) : (s.forgive mod hit).mem = s.mem := by
  refine State.foldl_mem fun t core => State.foldl_mem fun u o => ?_
  split <;> rfl

@[simp] theorem State.failOver_mem (s : State) (core lost mirror : ℕ) : (s.failOver core lost mirror).mem = s.mem := by
  unfold State.failOver
  dsimp only
  (repeat' split) <;> simp [State.foldl_mem]

@[simp] theorem State.failOverAll_mem (s : State) (mod lost : ℕ) : (s.failOverAll mod lost).mem = s.mem := by
  unfold State.failOverAll
  dsimp only
  (repeat' split) <;> simp [State.foldl_mem]

@[simp] theorem State.declareLost_mem (s : State) (mod n : ℕ) : (s.declareLost mod n).mem = s.mem := by
  unfold State.declareLost
  simp

theorem execRetryExhausted_memNext {Q : Memory → Prop} (s : State) (h : Q s.mem) : MemNext Q (execRetryExhausted s) := by
  unfold execRetryExhausted
  split
  · next x _ =>
    have ha : Q (((s.abandon x).countErr (x.sta / 16) 0 4).linkTest x).mem := by simpa using h
    dsimp only [MemNext]
    split_ifs
    · exact of_mem_eq Q (State.foldl_mem fun t n => t.declareLost_mem _ n) ha
    · exact ha
  · exact h

theorem execHopRetrained_memNext {Q : Memory → Prop} (s : State) (h : Q s.mem) : MemNext Q (execHopRetrained s) := by
  unfold execHopRetrained
  split
  · next x _ =>
    split_ifs
    · exact h
    · exact of_mem_eq Q (State.foldl_mem fun t slot => t.trunkSend_mem _ _ slot) h
    · exact of_mem_eq Q (State.foldl_mem fun t slot => t.post_mem _ _) h
  · exact h

theorem execReturnedSlotReinject_memNext {Q : Memory → Prop} (s : State) (h : Q s.mem) :
    MemNext Q (execReturnedSlotReinject s) := by
  unfold execReturnedSlotReinject
  split
  · dsimp only
    split_ifs
    · exact h
    · refine of_mem_eq Q (State.foldl_mem fun t slot => ?_) h
      rfl
  · exact h

@[simp] theorem State.overrunPlat_mem (s : State) (plat : Word) (tval : ℕ) : (s.overrunPlat plat tval).mem = s.mem := by
  unfold State.overrunPlat
  simp [State.foldl_mem]

@[simp] theorem State.overrun_mem (s : State) (c : CtxId) (tval : ℕ) : (s.overrun c tval).mem = s.mem := by
  unfold State.overrun
  split <;> simp

theorem execTimetabledSlotArrival_memNext {Q : Memory → Prop} (s : State) (h : Q s.mem) :
    MemNext Q (execTimetabledSlotArrival s) := by
  unfold execTimetabledSlotArrival
  split
  · refine of_mem_eq Q (State.foldl_mem fun t core => ?_) h
    split_ifs
    · rfl
    · split
      · exact t.overrun_mem _ 3
      · rfl
  · exact h

@[simp] theorem State.putRun_mem (s : State) (c : CtxId) (e : EngQ) (r : Run) : (s.putRun c e r).mem = s.mem := rfl

@[simp] theorem State.failed_mem (s : State) (c : CtxId) (e : EngQ) (r : Run) (code arg : ℕ) :
    (s.failed c e r code arg).mem = s.mem := rfl

@[simp] theorem State.chainSend_mem (s : State) (c : CtxId) (r : Run) (index : ℕ) (last poison : Bool) (bs : List Byte) :
    (s.chainSend c r index last poison bs).mem = s.mem := by
  unfold State.chainSend
  dsimp only
  (repeat' split) <;> simp

theorem State.chainArrive_mem (s : State) (c : CtxId) (slot : Slot) : ∀ t ∈ s.chainArrive c slot, t.mem = s.mem := by
  unfold State.chainArrive
  split
  · next r _ =>
    split
    · extract_lets base index at_ s1 last s2 r2
      split
      · exact fun t ht => Option.some.inj ht ▸ s.failed_mem _ _ _ _ _
      · refine fun t ht => (congrArg State.mem (Option.some.inj ht)).symm.trans ((State.putRun_mem _ _ _ _).trans ?_)
        unfold s2
        split
        · rfl
        · exact State.chainSend_mem _ _ _ _ _ _ _
    · exact fun t ht => absurd ht (Option.not_mem_none t)
  · exact fun t ht => absurd ht (Option.not_mem_none t)

@[simp] theorem State.grantInbound_mem (s : State) (core : ℕ) : (s.grantInbound core).mem = s.mem := by
  unfold State.grantInbound
  split <;> rfl

/-! ### Memory through the functions of Machine/Arrivals -/

@[simp] theorem State.takeInbound_mem (s : State) (slot : Slot) : (s.takeInbound slot).mem = s.mem := by
  unfold State.takeInbound
  split <;> simp [State.foldl_mem]

@[simp] theorem State.consumed_mem (s : State) (slot : Slot) : (s.consumed slot).mem = s.mem := rfl

@[simp] theorem State.credit_mem (s : State) (slot : Slot) : (s.credit slot).mem = s.mem := rfl

@[simp] theorem State.written_mem (s : State) (slot : Slot) : (s.written slot).mem = s.mem := by
  rw [State.written, State.consumed_mem]
  exact State.foldl_mem fun _ _ => State.credit_mem _ _

theorem State.writeHome_canonical (s : State) (slot : Slot) (h : Canonical s.mem) : Canonical (s.writeHome slot).mem := by
  unfold State.writeHome
  dsimp only
  rw [State.written_mem]
  have hl : Canonical ((slotLines slot).foldl (fun t l => l.runs.foldl (fun t r =>
      t.writeMem (s.platOf (srcCore slot) slot.job) slot.dmod.toNat (l.addr + r.1) r.2) t) s).mem :=
    State.foldl_canonical h fun t l ht => State.foldl_canonical ht fun u r hu => u.writeMem_canonical _ _ _ _ hu
  split_ifs
  · exact of_mem_eq Canonical (State.enqueue_mem _ _ _ _) hl
  · exact hl

@[simp] theorem State.reply_mem (s : State) (req : Slot) (kind status : ℕ) (poison : Bool) (data : List Byte) :
    (s.reply req kind status poison data).mem = s.mem := rfl

theorem State.atomicFor_canonical (s : State) (slot : Slot) (h : Canonical s.mem) : Canonical (s.atomicFor slot).mem := by
  unfold State.atomicFor
  dsimp only
  split_ifs
  · rw [State.consumed_mem, State.reply_mem]
    exact s.writeMem_canonical _ _ _ _ h
  · rw [State.consumed_mem, State.reply_mem]
    exact State.foldl_canonical h fun t l ht => t.writeMem_canonical _ _ _ _ ht

@[simp] theorem State.readFor_mem (s : State) (slot : Slot) : (s.readFor slot).mem = s.mem := by
  unfold State.readFor
  dsimp only
  (repeat' split) <;> simp

theorem State.perform_canonical (s : State) (slot : Slot) (h : Canonical s.mem) : Canonical (s.perform slot).mem := by
  unfold State.perform
  split
  · split_ifs
    · exact of_mem_eq Canonical (s.takeInbound_mem slot) h
    · exact s.writeHome_canonical slot h
  · exact s.atomicFor_canonical slot h
  · exact of_mem_eq Canonical (s.readFor_mem slot) h

theorem State.performFront_canonical (s : State) (core a0 : ℕ) (h : Canonical s.mem) :
    Canonical (s.performFront core a0).mem := by
  induction a0 generalizing s with
  | zero => exact h
  | succ n ih =>
    unfold State.performFront
    split
    · split_ifs
      · exact h
      · exact ih _ (State.perform_canonical (h := h) ..)
    · exact h

@[simp] theorem State.lineIntoX_mem (s : State) (c : CtxId) (l : CombLine) : (s.lineIntoX c l).mem = s.mem := by
  refine State.foldl_mem fun t r => ?_
  split <;> rfl

@[simp] theorem State.writeX_mem (s : State) (core : ℕ) (slot : Slot) : (s.writeX core slot).mem = s.mem := by
  unfold State.writeX
  dsimp only
  (repeat' split) <;> simp [State.foldl_mem]

theorem execLandingBufferDrain_canonical (s : State) (h : Canonical s.mem) :
    MemNext Canonical (execLandingBufferDrain s) := by
  unfold execLandingBufferDrain
  split
  · split
    · dsimp only
      split
      · exact h
      · split_ifs
        · dsimp only [MemNext]
          cases hc : State.chainArrive _ _ _ with
          | none => exact h
          | some t => exact of_mem_eq Canonical (State.chainArrive_mem _ _ _ t hc) h
        · exact h
    · exact State.performFront_canonical (h := of_mem_eq Canonical (State.writeX_mem _ _ _) h) ..
    · exact h
  · exact h

/-! ### Memory through the functions of Machine/SurveyEv -/

@[simp] theorem State.groupFails_mem (s : State) (sta : ℕ) (ccw : Bool) : (s.groupFails sta ccw).mem = s.mem := by
  unfold State.groupFails
  dsimp only
  (repeat' split) <;> simp

@[simp] theorem State.modLink_mem (s : State) (sta : ℕ) (ccw : Bool) (f : LinkSt → LinkSt) :
    (s.modLink sta ccw f).mem = s.mem := rfl

theorem execTrunkGroupArrival_memNext {Q : Memory → Prop} (s : State) (h : Q s.mem) :
    MemNext Q (execTrunkGroupArrival s) := by
  unfold execTrunkGroupArrival
  dsimp only
  (repeat' split) <;> simp [MemNext, h]

@[simp] theorem State.setLinkPath_mem (s : State) (sta : ℕ) (ccw : Bool) : (s.setLinkPath sta ccw).1.mem = s.mem := by
  unfold State.setLinkPath
  dsimp only
  (repeat' split) <;> simp

@[simp] theorem State.publish_mem (s : State) (die : ℕ) : (s.publish die).mem = s.mem := rfl

@[simp] theorem State.signEdition_mem (s : State) (die : ℕ) (changes : List HistEntry) :
    (s.signEdition die changes).mem = s.mem := by
  unfold State.signEdition
  split <;> rfl

@[simp] theorem State.hopLost_mem (s : State) (h : HopId) : (s.hopLost h).mem = s.mem := by
  refine (State.foldl_mem fun _ _ => State.logLoss_mem _ _ _ _).trans ?_
  rw [State.modHop_mem, State.abandon_mem]

@[simp] theorem State.linkChange_mem (s : State) (sta : ℕ) (ccw : Bool) (f : LinkSt → LinkSt) :
    (s.linkChange sta ccw f).mem = s.mem := by
  unfold State.linkChange
  dsimp only
  (repeat' split) <;> simp

theorem execLinkOutOfLock_memNext {Q : Memory → Prop} (s : State) (h : Q s.mem) : MemNext Q (execLinkOutOfLock s) := by
  unfold execLinkOutOfLock
  split <;> simp [MemNext, h]

theorem execLaneFailure_memNext {Q : Memory → Prop} (s : State) (h : Q s.mem) : MemNext Q (execLaneFailure s) := by
  unfold execLaneFailure
  split <;> simp [MemNext, h]

@[simp] theorem State.setCyc_mem (s : State) (m sent : ℕ) (v : Word) : (s.setCyc m sent v).mem = s.mem := rfl

@[simp] theorem State.startWaves_mem (s : State) : (s.startWaves).mem = s.mem := by
  exact State.foldl_mem fun _ _ => rfl

@[simp] theorem State.chooseRing_mem (s : State) : (s.chooseRing).mem = s.mem := by
  unfold State.chooseRing
  split
  · rfl
  · exact State.foldl_mem fun _ _ => rfl

@[simp] theorem State.alignCyc_mem (s : State) : (s.alignCyc).mem = s.mem := by
  exact State.foldl_mem fun _ _ => rfl

@[simp] theorem State.postResurvey_mem (s : State) (die : ℕ) : (s.postResurvey die).mem = s.mem := rfl

theorem execLinkBringUp_memNext {Q : Memory → Prop} (s : State) (h : Q s.mem) : MemNext Q (execLinkBringUp s) := by
  unfold execLinkBringUp
  split
  · exact of_mem_eq Q (s.setCyc_mem _ _ _) h
  · next mods links _ =>
    extract_lets pod t1 t2 hops t3 t4 t5
    have h1 : t1.mem = s.mem := by
      unfold t1
      split <;> rfl
    have h2 : t2.mem = t1.mem := by
      refine State.foldl_mem fun t m => State.foldl_mem fun t k => ?_
      refine (State.signEdition_mem _ _ _).trans ?_
      exact (State.setLinkPath_mem _ _ _).trans ((State.setLinkPath_mem _ _ _).trans rfl)
    have h3 : t3.mem = t2.mem := State.foldl_mem fun t h => t.postNow_mem _
    have h4 : t4.mem = t3.mem := State.foldl_mem fun t h => t.hopLost_mem h
    have h5 : t5.mem = t4.mem := by
      unfold t5
      rw [State.startWaves_mem, State.chooseRing_mem, State.alignCyc_mem]
    have h6 : t5.mem = s.mem := h5.trans (h4.trans (h3.trans (h2.trans h1)))
    refine of_mem_eq Q ((State.foldl_mem fun t m => ?_).trans h6) h
    split
    · exact (State.foldl_mem fun t d => t.postResurvey_mem _).trans (t.modMod_mem _ _)
    · rfl
  · exact h

/-! ### Memory through the functions of Machine/Arrivals -/

theorem execMirrorAcceptance_memNext {Q : Memory → Prop} (s : State) (h : Q s.mem) :
    MemNext Q (execMirrorAcceptance s) := by
  unfold execMirrorAcceptance
  split
  · refine of_mem_eq Q (State.foldl_mem fun t core => (State.foldl_mem fun u n => ?_).trans ?_) h
    · dsimp only
      split_ifs
      · exact u.failOver_mem core n _
      · rfl
    · rfl
  · exact h

theorem execResetNoticeArrival_memNext {Q : Memory → Prop} (s : State) (h : Q s.mem) :
    MemNext Q (execResetNoticeArrival s) := by
  unfold execResetNoticeArrival
  dsimp only
  (repeat' split) <;> simp [MemNext, h]

theorem State.takeSlot_memAll {Q : Memory → Prop} (s : State) (slot : Slot) (perform closing : State → State) (h : Q s.mem) (hp : Q (perform s).mem) (hc : Q (closing s).mem) :
    Q (s.takeSlot slot perform closing).mem := by
  unfold State.takeSlot
  split
  · exact hp
  · exact hc
  · exact of_mem_eq Q (s.logLoss_mem _ _ _) h

@[simp] theorem State.intoInbox_mem (s : State) (c : CtxId) (slot : Slot) : (s.intoInbox c slot).mem = s.mem := by
  unfold State.intoInbox
  split <;> rfl

theorem execActiveMessageArrival_memNext {Q : Memory → Prop} (s : State) (h : Q s.mem) :
    MemNext Q (execActiveMessageArrival s) := by
  unfold execActiveMessageArrival
  split
  · next slot _ =>
    refine State.takeSlot_memAll (h := h) (hp := ?_) (hc := of_mem_eq Q ((State.logLoss_mem _ _ _ _).trans (s.consumed_mem slot)) h) ..
    split
    · exact of_mem_eq Q (State.lose_mem _ _ _ _) h
    · split_ifs
      · exact of_mem_eq Q (State.refuse_mem _ _ _ _) h
      · refine of_mem_eq Q (State.foldl_mem fun t k => ?_) h
        split
        · exact State.intoInbox_mem _ _ _
        · rfl
  · exact h

theorem State.performInOrder_canonical (s : State) (slot : Slot) (h : Canonical s.mem) :
    Canonical (s.performInOrder slot).mem := by
  unfold State.performInOrder
  split
  · exact h
  · exact s.perform_canonical slot h

theorem execPostedWriteArrival_canonical (s : State) (h : Canonical s.mem) :
    MemNext Canonical (execPostedWriteArrival s) := by
  unfold execPostedWriteArrival
  split
  · exact State.takeSlot_memAll (h := h) (hp := s.performInOrder_canonical _ h) (hc := by simpa using h) ..
  · exact h

theorem execRemoteReadRequest_canonical (s : State) (h : Canonical s.mem) :
    MemNext Canonical (execRemoteReadRequest s) := by
  unfold execRemoteReadRequest
  split
  · exact State.takeSlot_memAll (h := h) (hp := s.performInOrder_canonical _ h) (hc := by simpa using h) ..
  · exact h

@[simp] theorem State.arrive_mem (s : State) (i : StreamId) (id land : ℕ) (v : RVal) :
    (s.arrive i id land v).mem = s.mem := rfl

@[simp] theorem State.freeGranule_mem (s : State) : (s.freeGranule).2.mem = s.mem := rfl

theorem State.commandReply_memAll {Q : Memory → Prop} (s : State) (c : CtxId) (e : EngQ) (seq ea code : ℕ) (write : State → State) (h : Q s.mem) (hw : Q (write s).mem) :
    Q (s.commandReply c e seq ea code write).mem := by
  unfold State.commandReply
  split
  · split_ifs
    · exact h
    · exact of_mem_eq Q (s.failed_mem _ _ _ _ _) h
    · exact hw
  · exact h

@[simp] theorem State.chainFlush_mem (s : State) (c : CtxId) (seq a0 : ℕ) : (s.chainFlush c seq a0).mem = s.mem := by
  induction a0 generalizing s with
  | zero => rfl
  | succ n ih =>
    unfold State.chainFlush
    split
    · dsimp only
      split
      · rw [ih, State.putRun_mem]
        split <;> simp
      · rfl
    · rfl

@[simp] theorem State.chainGo_mem (s : State) (c : CtxId) (seq : ℕ) : (s.chainGo c seq).mem = s.mem := by
  unfold State.chainGo
  split <;> simp

@[simp] theorem State.groupDone_mem (s : State) (core : ℕ) (g : Group) (n : ℕ) (closed poison : Bool) :
    (s.groupDone core g n closed poison).mem = s.mem := by
  unfold State.groupDone
  dsimp only
  cases g.want with
  | reg i id b signed => exact State.arrive_mem _ _ _ _ _
  | granule c q ticket fmt lanes =>
    cases closed with
    | false => rfl
    | true => exact State.freeGranule_mem _
  | atomic => rfl
  | place c e seq ea space off => exact State.commandReply_memAll (Q := (· = s.mem)) (h := rfl) (hw := (State.chainGo_mem _ _ _).trans rfl) ..
  | done c e seq ea => exact State.commandReply_memAll (Q := (· = s.mem)) (h := rfl) (hw := rfl) ..
  | scales id => rfl
  | word i => rfl

@[simp] theorem State.takeReply_mem (s : State) (core : ℕ) (slot : Slot) : (s.takeReply core slot).mem = s.mem := by
  unfold State.takeReply
  dsimp only
  (repeat' split) <;> simp

@[simp] theorem State.replyArrives_mem (s : State) (slot : Slot) : (s.replyArrives slot).mem = s.mem := by
  refine State.takeSlot_memAll (Q := (· = s.mem)) (h := rfl) (hp := ?_) (hc := s.consumed_mem _) ..
  exact (State.consumed_mem _ _).trans (State.foldl_mem fun t k => t.takeReply_mem k slot)

theorem execRemoteReadReply_memNext {Q : Memory → Prop} (s : State) (h : Q s.mem) : MemNext Q (execRemoteReadReply s) := by
  unfold execRemoteReadReply
  split
  · split
    · exact h
    · exact of_mem_eq Q (s.replyArrives_mem _) h
  · exact h

theorem execRemoteAtomicRequest_canonical (s : State) (h : Canonical s.mem) :
    MemNext Canonical (execRemoteAtomicRequest s) := by
  unfold execRemoteAtomicRequest
  split
  · exact State.takeSlot_memAll (h := h) (hp := s.performInOrder_canonical _ h) (hc := by simpa using h) ..
  · exact h

theorem execRemoteAtomicReply_memNext {Q : Memory → Prop} (s : State) (h : Q s.mem) :
    MemNext Q (execRemoteAtomicReply s) := by
  unfold execRemoteAtomicReply
  split
  · split
    · exact h
    · exact of_mem_eq Q (s.replyArrives_mem _) h
  · exact h

theorem execMigrationDataArrival_canonical (s : State) (h : Canonical s.mem) :
    MemNext Canonical (execMigrationDataArrival s) := by
  unfold execMigrationDataArrival
  split
  · refine State.takeSlot_memAll (h := h) (hp := ?_) (hc := by simpa using h) ..
    rw [State.consumed_mem]
    exact State.writeMem_canonical (h := h) ..
  · exact h

@[simp] theorem State.giveBack_mem (s : State) (core : ℕ) (o : Owed) (n : ℕ) : (s.giveBack core o n).mem = s.mem := by
  unfold State.giveBack
  dsimp only
  (repeat' split) <;> simp

theorem execLossNoticeArrival_memNext {Q : Memory → Prop} (s : State) (h : Q s.mem) :
    MemNext Q (execLossNoticeArrival s) := by
  unfold execLossNoticeArrival
  split
  · next slot _ =>
    refine of_mem_eq Q (State.foldl_mem fun t core => ?_) h
    dsimp only
    split
    · rw [State.raiseAsync_mem, State.modCtx_mem]
      split
      · split_ifs
        · exact t.giveBack_mem core _ _
        · rfl
      · rfl
    · rw [State.countErr_mem, State.modMod_mem]
      split
      · split_ifs
        · exact t.giveBack_mem core _ _
        · rfl
      · rfl
  · exact h

theorem execCreditReturn_memNext {Q : Memory → Prop} (s : State) (h : Q s.mem) : MemNext Q (execCreditReturn s) := by
  unfold execCreditReturn
  split
  · refine of_mem_eq Q (State.foldl_mem fun t core => ?_) h
    split
    · exact t.giveBack_mem core _ 1
    · rfl
  · exact h

/-! ### Memory through the functions of Machine/Manifest -/

@[simp] theorem State.newWave_mem (s : State) (id : WaveId) : (s.newWave id).mem = s.mem := rfl

@[simp] theorem State.sendModule_mem (s : State) (id : WaveId) (part place leave : ℕ) :
    (s.sendModule id part place leave).mem = s.mem := by
  exact State.foldl_mem fun _ _ => rfl

theorem execModuleWaveBegin_memNext {Q : Memory → Prop} (s : State) (h : Q s.mem) : MemNext Q (execModuleWaveBegin s) := by
  unfold execModuleWaveBegin
  split <;> simp [MemNext, h]

theorem execPodWaveBegin_memNext {Q : Memory → Prop} (s : State) (h : Q s.mem) : MemNext Q (execPodWaveBegin s) := by
  unfold execPodWaveBegin
  dsimp only
  (repeat' split) <;> simp [MemNext, h]

@[simp] theorem State.sendPod_mem (s : State) (id : WaveId) (part place leave : ℕ) :
    (s.sendPod id part place leave).1.mem = s.mem := by
  unfold State.sendPod
  refine List.foldlRecOn (motive := fun a : State × Nat => a.1.mem = s.mem) _ _ rfl fun a ha v _ => ?_
  cases v <;> exact ha

theorem execPodWavePart_memNext {Q : Memory → Prop} (s : State) (h : Q s.mem) : MemNext Q (execPodWavePart s) := by
  unfold execPodWavePart
  split
  · next part _ =>
    split
    · exact h
    · next w _ =>
      split
      · exact h
      · extract_lets r t1
        have hr : Q r.1.mem := List.foldlRecOn (motive := fun a : State × Nat => Q a.1.mem) _ _ h fun a ha i _ =>
          of_mem_eq Q (a.1.sendPod_mem w.id part i _) ha
        have h1 : Q t1.mem := by
          unfold t1
          split <;> exact hr
        refine (?_ : Q (State.mem _))
        split <;> exact h1
  · exact h

@[simp] theorem State.sendNotices_mem (s : State) (sta code : ℕ) (job : BitVec 12) :
    (s.sendNotices sta code job).mem = s.mem := by
  exact State.foldl_mem fun _ _ => by simp

@[simp] theorem State.declare_mem (s : State) (w : Wave) : (s.declare w).mem = s.mem := by
  unfold State.declare
  dsimp only
  (repeat' split) <;> simp [State.foldl_mem]

theorem execMusterSlotMerge_memNext {Q : Memory → Prop} (s : State) (h : Q s.mem) : MemNext Q (execMusterSlotMerge s) := by
  unfold execMusterSlotMerge
  split
  · next id part place sta _ =>
    split
    · exact h
    · split
      · exact h
      · extract_lets t t1 w1 mine bits t2 quiet done
        have h1 : Q t1.mem := by
          unfold t1
          split <;> exact h
        split
        · exact h1
        · exact h1
        · exact h1
        · refine of_mem_eq Q (State.foldl_mem fun u q => u.post_mem _ _) ?_
          unfold t2
          split
          · exact of_mem_eq Q (t1.declare_mem _) h1
          · exact h1
  · exact h

theorem execMusterRollReturn_memNext {Q : Memory → Prop} (s : State) (h : Q s.mem) :
    MemNext Q (execMusterRollReturn s) := by
  unfold execMusterRollReturn
  split
  · next id _ =>
    split
    · exact h
    · split
      · exact h
      · extract_lets last taken t1 pod t2 places t3
        have h2 : Q t2.mem := by
          unfold t2
          split
          · exact h
          · split <;> exact h
        split
        · exact h2
        · have h3 : t3.mem = t2.mem := State.foldl_mem fun t i => (State.sendModule_mem _ _ _ _ _).trans (t.sendModule_mem _ _ _ _)
          exact of_mem_eq Q ((t3.sendModule_mem _ _ _ _).trans h3) h2
  · exact h

theorem execJobOpenNotice_memNext {Q : Memory → Prop} (s : State) (h : Q s.mem) : MemNext Q (execJobOpenNotice s) := by
  unfold execJobOpenNotice
  split
  · split_ifs
    · exact h
    · exact h
  · exact h

@[simp] theorem State.closeCtx_mem (s : State) (c : CtxId) : (s.closeCtx c).mem = s.mem := by
  unfold State.closeCtx
  simp [State.foldl_mem]

theorem execJobCloseNotice_memNext {Q : Memory → Prop} (s : State) (h : Q s.mem) : MemNext Q (execJobCloseNotice s) := by
  unfold execJobCloseNotice
  split
  · split_ifs
    · exact h
    · refine of_mem_eq Q ((State.foldl_mem fun t c => t.closeCtx_mem c).trans (State.foldl_mem fun t k => ?_)) h
      exact (State.foldl_mem fun u e => u.countTaken_mem k _).trans rfl
  · exact h

theorem execJobFreeNotice_memNext {Q : Memory → Prop} (s : State) (h : Q s.mem) : MemNext Q (execJobFreeNotice s) := by
  unfold execJobFreeNotice
  split
  · split_ifs
    · exact h
    · refine of_mem_eq Q (State.foldl_mem fun t w => ?_) h
      rfl
  · exact h

@[simp] theorem State.emptyHop_mem (s : State) (h : HopId) : (s.emptyHop h).mem = s.mem := by
  rw [State.emptyHop, State.foldl_mem fun _ _ => by simp, State.modHop_mem]

theorem execStationReset_memNext {Q : Memory → Prop} (s : State) (h : Q s.mem) : MemNext Q (execStationReset s) := by
  unfold execStationReset
  split
  · refine of_mem_eq Q (State.foldl_mem fun t m => t.enqueue_mem _ _ _) ?_
    refine of_mem_eq Q (State.modWaves_mem _ _ _) ?_
    rw [State.modSta_mem]
    refine of_mem_eq Q (State.foldl_mem fun t x => t.emptyHop_mem x) h
  · exact h

theorem execMrepairArrival_memNext {Q : Memory → Prop} (s : State) (h : Q s.mem) : MemNext Q (execMrepairArrival s) := by
  unfold execMrepairArrival
  split <;> exact h

theorem execSignalArrival_memNext {Q : Memory → Prop} (s : State) (h : Q s.mem) : MemNext Q (execSignalArrival s) := by
  unfold execSignalArrival
  dsimp only
  (repeat' split) <;> simp [MemNext, h]

theorem execInvalidationMarkerArrival_memNext {Q : Memory → Prop} (s : State) (h : Q s.mem) :
    MemNext Q (execInvalidationMarkerArrival s) := by
  unfold execInvalidationMarkerArrival
  split
  · refine of_mem_eq Q (State.foldl_mem fun t k => ?_) h
    split <;> rfl
  · exact h

@[simp] theorem State.beginWaiting_mem (s : State) (die : ℕ) : (s.beginWaiting die).mem = s.mem := by
  unfold State.beginWaiting
  dsimp only
  (repeat' split) <;> simp

@[simp] theorem State.walkDone_mem (s : State) (core : ℕ) (r : WalkReq) (gen : ℕ) (l : Leaf) :
    (s.walkDone core r gen l).mem = s.mem := by
  unfold State.walkDone
  dsimp only
  (repeat' split) <;> simp

@[simp] theorem State.walkFault_mem (s : State) (r : WalkReq) (kind level : ℕ) :
    (s.walkFault r kind level).mem = s.mem := rfl

theorem execTlbWalkComplete_memNext {Q : Memory → Prop} (s : State) (h : Q s.mem) : MemNext Q (execTlbWalkComplete s) := by
  unfold execTlbWalkComplete
  dsimp only
  (repeat' split) <;> simp [MemNext, h]

theorem State.recordFault_canonical (s : State) (port : ℕ) (f : FaultRec) (h : Canonical s.mem) :
    Canonical (s.recordFault port f).mem := by
  unfold State.recordFault
  dsimp only
  split_ifs
  · exact State.endPlatOf_canonical (h := h) ..
  · exact h
  · exact State.writeMem_canonical (h := h) ..

theorem State.reportFault_canonical (s : State) (f : FaultRec) (h : Canonical s.mem) : Canonical (s.reportFault f).mem := by
  unfold State.reportFault
  split
  · exact State.recordFault_canonical (h := h) ..
  · exact State.endPlatOf_canonical (h := h) ..

theorem State.secondFault_canonical (s : State) (f : FaultRec) (h : Canonical s.mem) : Canonical (s.secondFault f).mem := by
  unfold State.secondFault
  split_ifs
  · exact h
  · exact State.reportFault_canonical (h := h) ..

@[simp] theorem State.stopPair_mem (s : State) (c : CtxId) (e : Entry) : (s.stopPair c e).mem = s.mem := by
  unfold State.stopPair
  dsimp only
  (repeat' split) <;> simp

theorem execPageFault_canonical (s : State) (h : Canonical s.mem) : MemNext Canonical (execPageFault s) := by
  unfold execPageFault
  split
  · next r kind level _ =>
    extract_lets c x gpa f
    have hs : Canonical (s.secondFault f).mem := s.secondFault_canonical f h
    have hi (b : Bool) : MemNext Canonical (.next (if b then s.secondFault f else s)) := by
      cases b with
      | true => exact hs
      | false => exact h
    split
    · exact h
    · split
      · split
        · exact hs
        · exact of_mem_eq Canonical (State.stopPair_mem _ _ _) h
      · split
        · exact h
        · split
          · refine of_mem_eq Canonical (State.foldl_mem fun (t : State) d => ?_) h
            exact t.modCtx_mem _ _
          · exact hi _
      · exact hi _
      · exact hi _
      · exact h
  · exact h

/-! ### Memory through the functions of Machine/Life -/

theorem State.takeAnswer_canonical (s : State) (m port slot verdict : ℕ) (h : Canonical s.mem) :
    Canonical (s.takeAnswer m port slot verdict).2.mem := by
  unfold State.takeAnswer
  dsimp only
  split_ifs
  · exact h
  · split
    · exact State.foldl_canonical h fun t w ht => t.recordFault_canonical port w ht
    · exact h

@[simp] theorem State.displace_mem (s : State) (c : CtxId) : (s.displace c).mem = s.mem := by
  unfold State.displace
  dsimp only
  (repeat' split) <;> simp

@[simp] theorem State.swapIn_mem (s : State) (c : CtxId) : (s.swapIn c).mem = s.mem := by
  unfold State.swapIn
  split <;> simp

@[simp] theorem State.reinject_mem (s : State) (i : StreamId) (ls : List Pend) (tr : ℕ) :
    (s.reinject i ls tr).mem = s.mem := by
  refine State.foldl_mem fun t p => ?_
  split <;> rfl

@[simp] theorem State.restore_mem (s : State) (c : CtxId) : (s.restore c).mem = s.mem := by
  unfold State.restore
  dsimp only
  (repeat' split) <;> simp

@[simp] theorem State.wake_mem (s : State) (c : CtxId) : (s.wake c).mem = s.mem := by
  unfold State.wake
  dsimp only
  (repeat' split) <;> simp

/-! ### Memory through the functions of Machine/Traps -/

@[simp] theorem State.answered_mem (s : State) (f : FaultRec) (g : Ctx → Ctx) : (s.answered f g).mem = s.mem := by
  unfold State.answered
  dsimp only
  (repeat' split) <;> simp

theorem execFnfresRetry_canonical (s : State) (h : Canonical s.mem) : MemNext Canonical (execFnfresRetry s) := by
  unfold execFnfresRetry
  split
  · next m port slot _ =>
    have ht := s.takeAnswer_canonical m port slot.toNat 0 h
    split
    · next f t e => exact of_mem_eq Canonical (State.answered_mem _ _ _) ((congrArg (fun p => Canonical p.2.mem) e).mp ht)
    · next t e => exact (congrArg (fun p => Canonical p.2.mem) e).mp ht
  · exact h

theorem execFnfresRaisePerm_canonical (s : State) (h : Canonical s.mem) : MemNext Canonical (execFnfresRaisePerm s) := by
  unfold execFnfresRaisePerm
  split
  · next m port slot _ =>
    have ht := s.takeAnswer_canonical m port slot.toNat 1 h
    split
    · next f t e => exact of_mem_eq Canonical (State.answered_mem _ _ _) ((congrArg (fun p => Canonical p.2.mem) e).mp ht)
    · next t e => exact (congrArg (fun p => Canonical p.2.mem) e).mp ht
  · exact h

theorem execFnfresEndPlat_canonical (s : State) (h : Canonical s.mem) : MemNext Canonical (execFnfresEndPlat s) := by
  unfold execFnfresEndPlat
  split
  · next m port slot _ =>
    have ht := s.takeAnswer_canonical m port slot.toNat 2 h
    split
    · next f t e => exact State.endPlatOf_canonical (h := (congrArg (fun p => Canonical p.2.mem) e).mp ht) ..
    · next t e => exact (congrArg (fun p => Canonical p.2.mem) e).mp ht
  · exact h

theorem execFnfresAnswerNothing_canonical (s : State) (h : Canonical s.mem) :
    MemNext Canonical (execFnfresAnswerNothing s) := by
  unfold execFnfresAnswerNothing
  split <;> exact h

theorem execBankSwitchComplete_memNext {Q : Memory → Prop} (s : State) (h : Q s.mem) :
    MemNext Q (execBankSwitchComplete s) := by
  unfold execBankSwitchComplete
  dsimp only
  (repeat' split) <;> simp [MemNext, h]

@[simp] theorem State.deliverPending_mem (s : State) (c : CtxId) (cause : ℕ) : (s.deliverPending c cause).mem = s.mem := by
  rw [State.deliverPending, State.stopPair_mem]
  exact State.foldl_mem fun _ _ => rfl

@[simp] theorem State.deliver_mem (s : State) (c : CtxId) : (s.deliver c).mem = s.mem := by
  unfold State.deliver
  dsimp only
  (repeat' split) <;> simp

theorem execTrapDelivery_memNext {Q : Memory → Prop} (s : State) (h : Q s.mem) : MemNext Q (execTrapDelivery s) := by
  unfold execTrapDelivery
  split <;> simp [MemNext, h]

theorem execTrapCapture_canonical (s : State) (h : Canonical s.mem) : MemNext Canonical (execTrapCapture s) := by
  unfold execTrapCapture
  split
  · next c _ =>
    dsimp only
    split
    · split_ifs
      · exact h
      · exact h
      · split
        · exact of_mem_eq Canonical (State.reconsider_mem _ _ _) h
        · refine of_mem_eq Canonical (State.reconsider_mem _ _ _) ?_
          split
          · exact State.reportFault_canonical (h := h) ..
          · exact h
        · exact h
    · exact h
  · exact h

theorem State.rollback_canonical (s : State) (plat : Word) (cause : ℕ) (h : Canonical s.mem) :
    Canonical (s.rollback plat cause).mem := by
  unfold State.rollback
  refine State.endPlat_canonical (h := ?_) ..
  exact List.foldlRecOn (motive := Canonical) _ _ h fun m hm l _ => Memory.wf_writeN l.2 m l.1 hm

theorem execHandlerStart_canonical (s : State) (h : Canonical s.mem) : MemNext Canonical (execHandlerStart s) := by
  unfold execHandlerStart
  split
  · next c _ =>
    extract_lets x t
    split
    · next e _ _ =>
      extract_lets ended
      have he : Canonical ended.mem := by
        unfold ended
        split
        · exact State.rollback_canonical (h := h) ..
        · exact State.endPlatOf_canonical (h := h) ..
      split
      · split
        · exact he
        · exact h
      · split
        · exact h
        · exact he
      · exact he
    · exact h
  · exact h

theorem execRteResume_memNext {Q : Memory → Prop} (s : State) (h : Q s.mem) : MemNext Q (execRteResume s) := by
  unfold execRteResume
  split
  · next c _ =>
    split
    · exact of_mem_eq Q (State.restore_mem _ _) h
    · refine of_mem_eq Q (State.reconsider_mem _ _ _) ?_
      exact of_mem_eq Q (State.restore_mem _ _) h
    · exact h
  · exact h

theorem execLatchReinject_memNext {Q : Memory → Prop} (s : State) (h : Q s.mem) : MemNext Q (execLatchReinject s) := by
  unfold execLatchReinject
  split <;> simp [MemNext, h]

theorem execTimerMatch_memNext {Q : Memory → Prop} (s : State) (h : Q s.mem) : MemNext Q (execTimerMatch s) := by
  unfold execTimerMatch
  dsimp only
  (repeat' split) <;> simp [MemNext, h]

theorem execPromiseMiss_memNext {Q : Memory → Prop} (s : State) (h : Q s.mem) : MemNext Q (execPromiseMiss s) := by
  unfold execPromiseMiss
  split
  · split
    · split_ifs
      · exact h
      · exact of_mem_eq Q (State.raiseAsync_mem _ _ _ _) h
    · exact h
  · exact h

@[simp] theorem State.logicTest_mem (s : State) (core : ℕ) : (s.logicTest core).mem = s.mem := rfl

@[simp] theorem State.copyMismatch_mem (s : State) (c : CtxId) (e : EngQ) : (s.copyMismatch c e).mem = s.mem := by
  unfold State.copyMismatch
  simp

@[simp] theorem State.moveBeat_mem (s : State) (core : ℕ) : (s.moveBeat core).mem = s.mem := by
  unfold State.moveBeat
  dsimp only
  (repeat' split) <;> simp

@[simp] theorem State.loadBeat_mem (s : State) (die : ℕ) (plat : Word) (l : Load) :
    (s.loadBeat die plat l).mem = s.mem := by
  unfold State.loadBeat
  dsimp only
  (repeat' split) <;> simp

@[simp] theorem State.overlayBeat_mem (s : State) (core : ℕ) : (s.overlayBeat core).mem = s.mem := by
  unfold State.overlayBeat
  split
  · simp
  · split <;> simp

@[simp] theorem State.grantCopy_mem (s : State) (core : ℕ) : (s.grantCopy core).mem = s.mem := by
  unfold State.grantCopy
  dsimp only
  (repeat' split) <;> simp

theorem execEngineCommandBegin_memNext {Q : Memory → Prop} (s : State) (h : Q s.mem) :
    MemNext Q (execEngineCommandBegin s) := by
  unfold execEngineCommandBegin
  split
  · next c e _ =>
    split
    · exact h
    · split
      · exact h
      · split
        · exact of_mem_eq Q (State.copyMismatch_mem _ _ _) h
        · cases he : isCopy e with
          | true => exact of_mem_eq Q (State.grantCopy_mem _ _) h
          | false => exact h
  · exact h

theorem State.copyTrans_memAll {Q : Memory → Prop} (s : State) (c : CtxId) (e : EngQ) (acc : Access) (cm : Command) (va : ℕ) (h : Q s.mem) :
    (s.copyTrans c e acc cm va).MemAll Q := by
  unfold State.copyTrans
  dsimp only
  split_ifs
  · exact State.translate_memAll (h := h) ..
  · split
    · split
      · trivial
      · exact h
    · split
      · exact h
      · trivial

theorem State.locateBeat_memAll {Q : Memory → Prop} (s : State) (c : CtxId) (e : EngQ) (r : Run) (acc : Access) (own : ℕ → Bool) (a0 : List Piece) (h : Q s.mem) :
    (s.locateBeat c e r acc own a0).MemAll Q := by
  induction a0 generalizing s with
  | nil => exact h
  | cons p ps ih =>
    unfold State.locateBeat
    extract_lets rest
    have hrest (t : State) (y : CLoc) (ht : Q t.mem) : (rest t y).MemAll Q := by
      have hi := ih t ht
      unfold rest
      revert hi
      cases t.locateBeat c e r acc own ps with
      | go xs s => exact id
      | hold s => exact id
      | fault va k l => exact id
      | bad code ea => exact id
    split
    · trivial
    · trivial
    · extract_lets w
      split_ifs
      · trivial
      · trivial
      · trivial
      · exact hrest _ _ h
    · next va _ =>
      have ht := s.copyTrans_memAll c e acc r.c va h
      revert ht
      cases s.copyTrans c e acc r.c va with
      | wait t => exact id
      | fault kind level =>
        intro _
        dsimp only
        split
        · split <;> trivial
        · trivial
      | leaf l t =>
        intro hl
        dsimp only
        split
        · trivial
        · exact hrest _ _ hl

@[simp] theorem State.fetchInto_mem (s : State) (c : CtxId) (e : EngQ) (seq space off : ℕ) (xs : List (Piece × CLoc)) :
    (s.fetchInto c e seq space off xs).mem = s.mem := by
  refine State.foldl_mem fun t x => ?_
  split
  · rfl
  · next l mod pa _ =>
    dsimp only
    generalize (if l.mir = true then (t.mirrorSource c.core mod).getD mod else mod) = m
    split_ifs
    · rfl
    · refine State.foldl_mem fun u i => ?_
      simp

@[simp] theorem State.stepped_mem (s : State) (c : CtxId) (e : EngQ) (r : Run) : (s.stepped c e r).mem = s.mem := by
  unfold State.stepped
  dsimp only
  (repeat' split) <;> simp

/-! ### Memory through the functions of Machine/CopyEngine -/

@[simp] theorem State.loadScales_mem (s : State) (c : CtxId) (r : Run) (space lo len valid geom : ℕ) (xs : List (Piece × CLoc)) :
    (s.loadScales c r space lo len valid geom xs).mem = s.mem := by
  unfold State.loadScales
  split_ifs
  · rfl
  · refine State.foldl_mem fun t j => ?_
    split
    · rfl
    · dsimp only
      split
      · split_ifs <;> rfl
      · split
        · rfl
        · rfl
        · (repeat' split) <;> simp

theorem State.beatStop_memAll {Q : Memory → Prop} (s : State) (c : CtxId) (e : EngQ) (r : Run) (acc : Access) (b : Beat) (h : Q s.mem) (hb : b.MemAll Q) :
    Q (s.beatStop c e r acc b).mem := by
  unfold State.beatStop
  cases b with
  | hold t => exact of_mem_eq Q (State.putRun_mem _ _ _ _) hb
  | fault va k l => exact h
  | bad code ea => exact of_mem_eq Q (State.failed_mem _ _ _ _ _ _) h
  | go xs t => exact hb

@[simp] theorem State.cldBeat_mem (s : State) (c : CtxId) (r : Run) : (s.cldBeat c r).mem = s.mem := by
  unfold State.cldBeat
  extract_lets g own
  have hb := s.locateBeat_memAll (Q := (· = s.mem)) c .load r .read own (segPieces r g) rfl
  split
  · next xs t e =>
    rw [e] at hb
    replace hb : t.mem = s.mem := hb
    split
    · exact hb
    · extract_lets lo
      split
      · exact hb
      · split
        · exact hb
        · split
          · exact hb
          · split
            · exact hb
            · split
              next sp o _ =>
              extract_lets t1 t2
              have h2 : t2.mem = s.mem := (State.fetchInto_mem _ _ _ _ _ _ _).trans (by unfold t1; split <;> exact hb)
              split
              refine (State.stepped_mem _ _ _ _).trans ((State.loadScales_mem _ _ _ _ _ _ _ _ _).trans ?_)
              split <;> exact h2
  · exact State.beatStop_memAll (Q := (· = s.mem)) (h := rfl) (hb := hb) ..

@[simp] theorem State.chainStep_mem (s : State) (c : CtxId) (r : Run) : (s.chainStep c r).mem = s.mem := by
  unfold State.chainStep
  extract_lets i len lo ps
  have hb := s.locateBeat_memAll (Q := (· = s.mem)) c .load r .read (fun _ => false) ps rfl
  split
  · next xs t e =>
    rw [e] at hb
    replace hb : t.mem = s.mem := hb
    split
    · exact hb
    · split
      · exact hb
      · split
        · exact hb
        · split
          · exact hb
          · split
            · exact hb
            · refine (State.chainGo_mem _ _ _).trans ((State.stepped_mem _ _ _ _).trans ?_)
              refine (State.loadScales_mem _ _ _ _ _ _ _ _ _).trans ?_
              exact (State.fetchInto_mem _ _ _ _ _ _ _).trans hb
  · exact State.beatStop_memAll (Q := (· = s.mem)) (h := rfl) (hb := hb) ..

@[simp] theorem State.overwrite_mem (s : State) (core : ℕ) (r : Region) : (s.overwrite core r).mem = s.mem := rfl

@[simp] theorem State.covlBeat_mem (s : State) (c : CtxId) (r : Run) : (s.covlBeat c r).mem = s.mem := by
  unfold State.covlBeat
  extract_lets total off len strm st
  have hb := s.locateBeat_memAll (Q := (· = s.mem)) c .load r .overlay (fun _ => false) (cutPages ((r.c.va.toNat + off) % 2 ^ 64) len 0 0) rfl
  split
  · next xs t e =>
    rw [e] at hb
    replace hb : t.mem = s.mem := hb
    split
    · exact hb
    · refine (State.stepped_mem _ _ _ _).trans ((State.modCore_mem _ _ _).trans ?_)
      refine (State.foldl_mem fun t g => t.overwrite_mem c.core g).trans ?_
      refine (State.foldl_mem fun t b => t.modStrm_mem _ _).trans ?_
      exact (State.fetchInto_mem _ _ _ _ _ _ _).trans hb
  · exact State.beatStop_memAll (Q := (· = s.mem)) (h := rfl) (hb := hb) ..

@[simp] theorem State.migSend_mem (s : State) (c : CtxId) (seq pa : ℕ) (bs : List Byte) :
    (s.migSend c seq pa bs).mem = s.mem := by
  unfold State.migSend
  dsimp only
  (repeat' split) <;> simp

@[simp] theorem State.cmigBeat_mem (s : State) (c : CtxId) (r : Run) : (s.cmigBeat c r).mem = s.mem := by
  unfold State.cmigBeat
  dsimp only
  (repeat' split) <;> simp [State.foldl_mem]

@[simp] theorem State.cinvStep_mem (s : State) (c : CtxId) (r : Run) : (s.cinvStep c r).mem = s.mem := by
  unfold State.cinvStep
  simp [State.foldl_mem]

@[simp] theorem State.enginePost_mem (s : State) (c : CtxId) (eng : EngQ) (seq : ℕ) (dest : Dest) (ord mir : ℕ) (lines : List CombLine) :
    (s.enginePost c eng seq dest ord mir lines).mem = s.mem := by
  unfold State.enginePost
  dsimp only
  (repeat' split) <;> simp

@[simp] theorem State.sendLines_mem (s : State) (c : CtxId) (e : EngQ) (seq : ℕ) (dest : Dest) (ord mir : ℕ) (ls : List CombLine) :
    (s.sendLines c e seq dest ord mir ls).mem = s.mem := by
  unfold State.sendLines
  simp [State.foldl_mem]

theorem State.engineStore_canonical (s : State) (c : CtxId) (e : EngQ) (seq : ℕ) (l : Leaf) (mod pa : ℕ) (bs : List Byte) (h : Canonical s.mem) :
    ∀ t ∈ s.engineStore c e seq l mod pa bs, Canonical t.mem := by
  unfold State.engineStore
  extract_lets here
  split
  · split
    split
    · exact fun t ht => absurd ht (Option.not_mem_none t)
    · refine fun t ht => Option.some.inj ht ▸ of_mem_eq Canonical (State.sendLines_mem _ _ _ _ _ _ _ _) ?_
      split
      · exact h
      · exact of_mem_eq Canonical (State.sendLines_mem _ _ _ _ _ _ _ _) h
  · split
    · exact fun t ht => Option.some.inj ht ▸ State.writeMem_canonical (h := h) ..
    · exact fun t ht => Option.some.inj ht ▸ of_mem_eq Canonical (State.sendLines_mem _ _ _ _ _ _ _ _) h

theorem State.storeScales_canonical (s : State) (c : CtxId) (e : EngQ) (r : Run) (lo : ℕ) (xs : List (Piece × CLoc)) (h : Canonical s.mem) :
    ∀ t ∈ s.storeScales c e r lo xs, Canonical t.mem := by
  unfold State.storeScales
  refine List.foldlRecOn (motive := fun o : Option State => ∀ t ∈ o, Canonical t.mem) _ _ (fun t ht => Option.some.inj ht ▸ h) fun o ho x _ t ht => ?_
  obtain ⟨u, hu, hx⟩ := Option.bind_eq_some_iff.mp ht
  have hc := ho u hu
  revert hx
  split
  · split
    · exact fun e => Option.some.inj e ▸ hc
    · exact fun e => State.engineStore_canonical (h := hc) _ _ _ _ _ _ _ _ _ e
  · exact fun e => Option.some.inj e ▸ hc

theorem State.cstBeat_canonical (s : State) (c : CtxId) (r : Run) (h : Canonical s.mem) :
    Canonical (s.cstBeat c r).mem := by
  unfold State.cstBeat
  extract_lets g lo
  have hb := s.locateBeat_memAll c .store r .write (fun _ => false) (segPieces r g) h
  split
  · next xs t e =>
    rw [e] at hb
    replace hb : Canonical t.mem := hb
    split
    · exact hb
    · split
      · exact hb
      · split
        · exact hb
        · split
          · exact hb
          · split
            · exact hb
            · extract_lets bs out
              have ho : ∀ u ∈ out, Canonical u.mem := by
                refine List.foldlRecOn (motive := fun o : Option State => ∀ t ∈ o, Canonical t.mem) _ _ (fun t ht => Option.some.inj ht ▸ hb) fun o ho x _ => ?_
                split
                · exact State.engineStore_canonical _ _ _ _ _ _ _ _ (ho _ rfl)
                · exact ho
              split
              · exact hb
              · next u hu =>
                obtain ⟨v, hv, hs⟩ := Option.bind_eq_some_iff.mp hu
                exact of_mem_eq Canonical (State.stepped_mem _ _ _ _) (State.storeScales_canonical (h := ho v hv) _ _ _ _ _ _ _ hs)
  · exact State.beatStop_memAll (h := h) (hb := hb) ..

@[simp] theorem State.addRemote_mem (s : State) (c : CtxId) (seq ea mod pa : ℕ) (els : List (ℕ × Elem)) :
    (s.addRemote c seq ea mod pa els).mem = s.mem := by
  unfold State.addRemote
  simp [State.foldl_mem]

theorem State.cstaBeat_canonical (s : State) (c : CtxId) (r : Run) (h : Canonical s.mem) :
    Canonical (s.cstaBeat c r).mem := by
  unfold State.cstaBeat
  extract_lets g lo
  have hb := s.locateBeat_memAll c .store r .atomic (fun _ => false) (segPieces r g) h
  split
  · next xs t e =>
    rw [e] at hb
    replace hb : Canonical t.mem := hb
    split
    · exact hb
    · split
      · exact hb
      · extract_lets raw
        split
        · exact hb
        · split
          · exact hb
          · refine of_mem_eq Canonical (State.stepped_mem _ _ _ _) ?_
            refine State.foldl_canonical hb fun t x ht => ?_
            split
            · split
              · exact State.foldl_canonical ht fun t v hv => State.writeMem_canonical (h := hv) ..
              · exact of_mem_eq Canonical (State.addRemote_mem _ _ _ _ _ _ _) ht
            · exact ht
  · exact State.beatStop_memAll (h := h) (hb := hb) ..

@[simp] theorem State.cslcStep_mem (s : State) (c : CtxId) (r : Run) : (s.cslcStep c r).mem = s.mem := by
  unfold State.cslcStep
  dsimp only
  split
  · simp
  · split
    · simp
    · split
      · split <;> simp
      · rw [State.stepped_mem, State.foldl_mem]
        intro t g
        split <;> simp

/-! ### Memory through the functions of Machine/MatrixEngine -/

@[simp] theorem State.mmaStep_mem (s : State) (c : CtxId) (r : Run) : (s.mmaStep c r).mem = s.mem := by
  unfold State.mmaStep
  dsimp only
  (repeat' split) <;> simp

theorem State.drainPiece_canonical (s : State) (c : CtxId) (r : Run) (fmt i : ℕ) (p : Piece) (l : Leaf) (mod pa : ℕ) (h : Canonical s.mem) :
    ∀ t ∈ s.drainPiece c r fmt i p l mod pa, Canonical t.mem := by
  unfold State.drainPiece
  extract_lets k zrow f block bs scales scale
  split
  · exact State.engineStore_canonical _ _ _ _ _ _ _ _ h
  · intro t ht
    obtain ⟨u, hu, hx⟩ := Option.bind_eq_some_iff.mp ht
    have hc := State.engineStore_canonical (h := h) _ _ _ _ _ _ _ _ u hu
    revert hx
    split
    · exact State.engineStore_canonical (h := hc) _ _ _ _ _ _ _ _ t
    · exact fun e => Option.some.inj e ▸ hc

theorem State.mdrnStep_canonical (s : State) (c : CtxId) (r : Run) (h : Canonical s.mem) :
    Canonical (s.mdrnStep c r).mem := by
  unfold State.mdrnStep
  extract_lets fmt zrow i z
  split
  · exact h
  · split
    · exact h
    · have hb := s.locateBeat_memAll c .matrix r .write (fun _ => false) (drainPieces r i) h
      split
      · next xs t e =>
        rw [e] at hb
        replace hb : Canonical t.mem := hb
        split
        · exact hb
        · exact hb
        · have ho : ∀ u ∈ xs.foldl (fun (t : Option State) x => match t, x.2 with
            | some t, .mem l mod pa => t.drainPiece c r fmt i x.1 l mod pa
            | t, _ => t) (some t), Canonical u.mem := by
            refine List.foldlRecOn (motive := fun o : Option State => ∀ t ∈ o, Canonical t.mem) _ _ (fun t ht => Option.some.inj ht ▸ hb) fun o ho x _ => ?_
            split
            · exact State.drainPiece_canonical _ _ _ _ _ _ _ _ _ (ho _ rfl)
            · exact ho
          split
          · exact hb
          · next u hu => exact of_mem_eq Canonical (State.stepped_mem _ _ _ _) (ho u hu)
      · exact State.beatStop_memAll (h := h) (hb := hb) ..

@[simp] theorem State.msgnStep_mem (s : State) (c : CtxId) (r : Run) : (s.msgnStep c r).mem = s.mem := rfl

@[simp] theorem State.zRowStep_mem (s : State) (c : CtxId) (r : Run) : (s.zRowStep c r).mem = s.mem := by
  unfold State.zRowStep
  dsimp only
  split_ifs
  · exact State.failed_mem _ _ _ _ _ _
  · exact State.stepped_mem _ _ _ _
  · exact State.stepped_mem _ _ _ _

@[simp] theorem State.putRow_mem (s : State) (due core : ℕ) (r : Run) (entry : Word) (off : ℕ) (es : List Elem) :
    (s.putRow due core r entry off es).mem = s.mem := by
  unfold State.putRow
  dsimp only
  split
  · rfl
  · refine State.foldl_mem fun t b => ?_
    (repeat' split) <;> rfl

@[simp] theorem State.rowStep_mem (s : State) (c : CtxId) (r : Run) : (s.rowStep c r).mem = s.mem := by
  unfold State.rowStep
  dsimp only
  (repeat' split) <;> simp

theorem execEngineMicroStep_canonical (s : State) (h : Canonical s.mem) : MemNext Canonical (execEngineMicroStep s) := by
  unfold execEngineMicroStep
  split
  · next c e _ =>
    split
    · exact h
    · next r _ =>
      split
      · exact h
      · extract_lets t q
        have ht : Canonical t.mem := h
        split
        · exact ht
        · refine (?_ : Canonical (State.mem _))
          split
          · exact of_mem_eq Canonical (t.cldBeat_mem _ _) ht
          · exact of_mem_eq Canonical (t.chainStep_mem _ _) ht
          · exact of_mem_eq Canonical (t.covlBeat_mem _ _) ht
          · exact of_mem_eq Canonical (t.cmigBeat_mem _ _) ht
          · exact of_mem_eq Canonical (t.cinvStep_mem _ _) ht
          · exact t.cstBeat_canonical c q ht
          · exact t.cstaBeat_canonical c q ht
          · exact of_mem_eq Canonical (t.cslcStep_mem _ _) ht
          · exact of_mem_eq Canonical (t.mmaStep_mem _ _) ht
          · exact of_mem_eq Canonical (t.mmaStep_mem _ _) ht
          · exact t.mdrnStep_canonical c q ht
          · exact of_mem_eq Canonical (t.msgnStep_mem _ _) ht
          · exact of_mem_eq Canonical (t.zRowStep_mem _ _) ht
          · exact of_mem_eq Canonical (t.rowStep_mem _ _) ht
  · exact h

@[simp] theorem State.kick_mem (s : State) (core : ℕ) : (s.kick core).mem = s.mem := by
  refine State.foldl_mem fun t b => State.foldl_mem fun u e => ?_
  split <;> rfl

theorem execEngineCommandComplete_memNext {Q : Memory → Prop} (s : State) (h : Q s.mem) :
    MemNext Q (execEngineCommandComplete s) := by
  unfold execEngineCommandComplete
  dsimp only
  (repeat' split) <;> simp [MemNext, h]

/-! ### Memory through the functions of Machine/Errors -/

@[simp] theorem State.slipActive_mem (s : State) (core n : ℕ) : (s.slipActive core n).mem = s.mem := rfl

@[simp] theorem State.freezeCore_mem (s : State) (core : ℕ) : (s.freezeCore core).mem = s.mem := by
  unfold State.freezeCore
  dsimp only
  (repeat' split) <;> simp

theorem execEccFreezeBegin_memNext {Q : Memory → Prop} (s : State) (h : Q s.mem) : MemNext Q (execEccFreezeBegin s) := by
  unfold execEccFreezeBegin
  split
  · refine of_mem_eq Q (State.foldl_mem fun t k => t.freezeCore_mem k) ?_
    exact of_mem_eq Q (s.countErr_mem _ _ _) h
  · exact h

theorem execEccFreezeEnd_memNext {Q : Memory → Prop} (s : State) (h : Q s.mem) : MemNext Q (execEccFreezeEnd s) := by
  unfold execEccFreezeEnd
  dsimp only
  (repeat' split) <;> simp [MemNext, h]

/-! ### Memory through the functions of Machine/SurveyEv -/

@[simp] theorem State.setUnit_mem (s : State) (die : ℕ) (u : UnitId) (status cls : ℕ) :
    (s.setUnit die u status cls).1.mem = s.mem := by
  unfold State.setUnit
  split <;> rfl

@[simp] theorem State.quarantineCore_mem (s : State) (die core : ℕ) : (s.quarantineCore die core).1.mem = s.mem := by
  unfold State.quarantineCore
  dsimp only
  (repeat' split) <;> simp

@[simp] theorem State.strike_mem (s : State) (die : ℕ) (u : UnitId) (cls : ℕ) : (s.strike die u cls).1.mem = s.mem := by
  unfold State.strike
  dsimp only
  (repeat' split) <;> simp

@[simp] theorem State.lastingFault_mem (s : State) (die : ℕ) (u : UnitId) : (s.lastingFault die u).1.mem = s.mem := by
  unfold State.lastingFault
  dsimp only
  (repeat' split) <;> simp

theorem execSelfTestEnd_memNext {Q : Memory → Prop} (s : State) (h : Q s.mem) : MemNext Q (execSelfTestEnd s) := by
  unfold execSelfTestEnd
  dsimp only
  (repeat' split) <;> simp [MemNext, h]

theorem execUncorrectableErrorConsumed_canonical (s : State) (h : Canonical s.mem) :
    MemNext Canonical (execUncorrectableErrorConsumed s) := by
  unfold execUncorrectableErrorConsumed
  split
  · next c addr test _ =>
    extract_lets t x
    have ht : Canonical t.mem := by
      unfold t
      split
      · exact of_mem_eq Canonical (State.foldl_mem fun t k => t.freezeCore_mem k) h
      · exact h
    split
    · exact ht
    · split
      · exact State.rollback_canonical (h := of_mem_eq Canonical (t.countErr_mem _ _ _) ht) ..
      · exact of_mem_eq Canonical (t.raiseAsync_mem _ _ _) ht
  · exact h

theorem execMemoryUncorrectableError_memNext {Q : Memory → Prop} (s : State) (h : Q s.mem) :
    MemNext Q (execMemoryUncorrectableError s) := by
  unfold execMemoryUncorrectableError
  split <;> exact h

/-! ### Memory through the functions of Machine/Ring -/

@[simp] theorem State.pairSend_mem (s : State) (core : ℕ) (slot : Slot) (at_ : Option (ℕ × ℕ × ℕ)) :
    (s.pairSend core slot at_).mem = s.mem := by
  unfold State.pairSend
  dsimp only
  (repeat' split) <;> simp

@[simp] theorem State.pairFails_mem (s : State) (core : ℕ) (job : BitVec 12) : (s.pairFails core job).mem = s.mem := by
  unfold State.pairFails
  split <;> simp

theorem execPairSlotCompare_memNext {Q : Memory → Prop} (s : State) (h : Q s.mem) : MemNext Q (execPairSlotCompare s) := by
  unfold execPairSlotCompare
  dsimp only
  (repeat' split) <;> simp [MemNext, h]

theorem execPairCompareTimeout_memNext {Q : Memory → Prop} (s : State) (h : Q s.mem) :
    MemNext Q (execPairCompareTimeout s) := by
  unfold execPairCompareTimeout
  split
  · split
    · exact h
    · exact of_mem_eq Q (State.pairFails_mem _ _ _) h
  · exact h

/-! ### Memory through the functions of Machine/SurveyEv -/

theorem execPeriodicResurvey_memNext {Q : Memory → Prop} (s : State) (h : Q s.mem) :
    MemNext Q (execPeriodicResurvey s) := by
  unfold execPeriodicResurvey
  split <;> exact h

@[simp] theorem State.resurveyUnit_mem (s : State) (die : ℕ) (c : UnitChange) : (s.resurveyUnit die c).1.mem = s.mem := by
  unfold State.resurveyUnit
  dsimp only
  (repeat' split) <;> simp

@[simp] theorem State.setPathLat_mem (s : State) (die : ℕ) (c : ℕ × ℕ) : (s.setPathLat die c).1.mem = s.mem := by
  unfold State.setPathLat
  dsimp only
  (repeat' split) <;> simp

theorem execResurveyEnd_memNext {Q : Memory → Prop} (s : State) (h : Q s.mem) : MemNext Q (execResurveyEnd s) := by
  unfold execResurveyEnd
  split
  · next die changes lats _ =>
    split
    · exact h
    · refine of_mem_eq Q (State.signEdition_mem _ _ _) ?_
      refine List.foldlRecOn (motive := fun a : State × List HistEntry => Q a.1.mem) _ _ ?_ fun a ha c _ => of_mem_eq Q (State.setPathLat_mem _ _ _) ha
      exact List.foldlRecOn (motive := fun a : State × List HistEntry => Q a.1.mem) _ _ h fun a ha c _ => of_mem_eq Q (State.resurveyUnit_mem _ _ _) ha
  · exact h

@[simp] theorem State.touchPlat_mem (s : State) (plat : Word) (edition : BitVec 32) :
    (s.touchPlat plat edition).mem = s.mem := by
  simp only [State.touchPlat]
  split
  · exact State.foldl_mem fun _ _ => rfl
  · exact State.foldl_mem fun _ _ => by simp

theorem execSurveyChangePost_memNext {Q : Memory → Prop} (s : State) (h : Q s.mem) :
    MemNext Q (execSurveyChangePost s) := by
  unfold execSurveyChangePost
  split
  · refine of_mem_eq Q (State.foldl_mem fun t p => ?_) h
    split
    · rfl
    · split
      · rfl
      · split
        · rfl
        · exact t.touchPlat_mem _ _
      · exact t.overrunPlat_mem _ _
  · exact h

theorem execThermalStop_memNext {Q : Memory → Prop} (s : State) (h : Q s.mem) : MemNext Q (execThermalStop s) := by
  unfold execThermalStop
  split
  · exact of_mem_eq Q (State.foldl_mem fun t p => t.askStop_mem p) h
  · exact h

@[simp] theorem State.dropCores_mem (s : State) (m : ℕ) : (s.dropCores m).mem = s.mem := rfl

theorem execThermalPowerOff_memNext {Q : Memory → Prop} (s : State) (h : Q s.mem) : MemNext Q (execThermalPowerOff s) := by
  unfold execThermalPowerOff
  split <;> exact h

/-! ### Memory through the functions of Machine/Sched -/

@[simp] theorem State.sendVerdict_mem (s : State) (die : ℕ) (p : PlatRec) (k verdict : ℕ) :
    (s.sendVerdict die p k verdict).mem = s.mem := by
  rw [State.sendVerdict, State.modPlat_mem]
  exact State.foldl_mem fun _ _ => State.enqueue_mem _ _ _ _

theorem State.withdraw_canonical (s : State) (die : ℕ) (plat : Word) (code detail : ℕ) (h : Canonical s.mem) :
    Canonical (s.withdraw die plat code detail).mem := by
  unfold State.withdraw
  refine State.finishGuests_canonical (h := ?_) ..
  refine of_mem_eq Canonical (State.freeUnits_mem _ _ _) ?_
  exact State.setStatus_canonical (h := h) ..

@[simp] theorem State.nextCandidate_mem (s : State) (die : ℕ) (p : PlatRec) (k : ℕ) :
    (s.nextCandidate die p k).mem = s.mem := rfl

@[simp] theorem State.keepAway_mem (s : State) (c : CtxId) : (s.keepAway c).mem = s.mem := by
  unfold State.keepAway
  dsimp only
  (repeat' split) <;> simp

@[simp] theorem State.takeBanks_mem (s : State) (die : ℕ) (plat : Word) (cs : List CtxId) :
    (s.takeBanks die plat cs).mem = s.mem := by
  rw [State.takeBanks, State.modPlat_mem, State.foldl_mem]
  intro t c
  split <;> simp

theorem execReadinessDeadline_canonical (s : State) (h : Canonical s.mem) :
    MemNext Canonical (execReadinessDeadline s) := by
  unfold execReadinessDeadline
  split
  · next die plat k _ =>
    split
    · exact h
    · next p _ =>
      split
      · exact h
      · extract_lets t many sk u kept w z
        have ht : Canonical t.mem := of_mem_eq Canonical (s.requestCores_mem _ _) h
        split
        · refine State.withdraw_canonical (h := ?_) ..
          unfold u
          split
          · exact of_mem_eq Canonical (t.sendVerdict_mem _ _ _ _) ht
          · exact ht
        · split
          · refine of_mem_eq Canonical (State.nextCandidate_mem _ _ _ _) ?_
            have hw : Canonical w.mem := by
              unfold w
              split <;> exact ht
            unfold z
            split
            · exact of_mem_eq Canonical (w.sendVerdict_mem _ _ _ _) hw
            · exact hw
          · next cs _ =>
            have hb : Canonical (t.takeBanks die plat cs).mem := of_mem_eq Canonical (t.takeBanks_mem _ _ _) ht
            split
            · refine of_mem_eq Canonical (State.nextCandidate_mem _ _ _ _) ?_
              exact of_mem_eq Canonical (State.sendVerdict_mem _ _ _ _ _) hb
            · exact hb
  · exact h

theorem execReadinessVerdict_canonical (s : State) (h : Canonical s.mem) : MemNext Canonical (execReadinessVerdict s) := by
  unfold execReadinessVerdict
  split
  · split
    · exact h
    · split
      · exact h
      · split
        · exact State.withdraw_canonical (h := h) ..
        · exact h
  · exact h

theorem execVerdictTimeout_canonical (s : State) (h : Canonical s.mem) : MemNext Canonical (execVerdictTimeout s) := by
  unfold execVerdictTimeout
  split
  · split
    · exact h
    · split
      · exact h
      · extract_lets of
        split
        · refine State.foldl_canonical h fun t e ht => ?_
          split
          · exact State.withdraw_canonical (h := ht) ..
          · exact ht
        · split <;> exact h
  · exact h

@[simp] theorem State.switchTo_mem (s : State) (cs : List CtxId) : (s.switchTo cs).mem = s.mem := by
  refine State.foldl_mem fun t c => ?_
  split <;> simp

@[simp] theorem State.pairTags_mem (s : State) (p : PlatRec) (die : ℕ) : (s.pairTags p die).mem = s.mem := by
  refine State.foldl_mem fun t q => ?_
  split <;> rfl

@[simp] theorem State.cleanCore_mem (s : State) (c : CtxId) : (s.cleanCore c).mem = s.mem := by
  unfold State.cleanCore
  simp

@[simp] theorem State.joinTurn_mem (s : State) (c : CtxId) : (s.joinTurn c).mem = s.mem := rfl

@[simp] theorem State.releaseOne_mem (s : State) (p : PlatRec) (sk : ℕ) (c : CtxId) :
    (s.releaseOne p sk c).mem = s.mem := by
  unfold State.releaseOne
  split <;> simp

@[simp] theorem State.askAgain_mem (s : State) (die : ℕ) (plat : Word) : (s.askAgain die plat).mem = s.mem := by
  unfold State.askAgain
  simp [State.foldl_mem]

theorem execPlatRelease_canonical (s : State) (h : Canonical s.mem) : MemNext Canonical (execPlatRelease s) := by
  unfold execPlatRelease
  split
  · next die plat k _ =>
    split
    · exact h
    · next p _ =>
      extract_lets sk t1 t2 t3 t4
      split
      · exact h
      · split
        · exact of_mem_eq Canonical (s.switchTo_mem _) h
        · have hr : Canonical t1.mem := by
            refine of_mem_eq Canonical (State.pairTags_mem _ _ _) ?_
            exact of_mem_eq Canonical (State.foldl_mem fun t c => t.releaseOne_mem p sk c) h
          refine of_mem_eq Canonical (State.askAgain_mem _ _ _) (?_ : Canonical t4.mem)
          unfold t4
          split
          · exact State.writeStatus_canonical (h := hr) ..
          · exact hr
  · exact h

theorem execPriorityAging_memNext {Q : Memory → Prop} (s : State) (h : Q s.mem) : MemNext Q (execPriorityAging s) := by
  unfold execPriorityAging
  dsimp only
  (repeat' split) <;> simp [MemNext, h]

theorem execRunQuantumExpiry_memNext {Q : Memory → Prop} (s : State) (h : Q s.mem) :
    MemNext Q (execRunQuantumExpiry s) := by
  unfold execRunQuantumExpiry
  split
  · split
    · exact h
    · split
      · exact of_mem_eq Q (s.preempt_mem _) h
      · exact h
  · exact h

theorem execForcedStop_canonical (s : State) (h : Canonical s.mem) : MemNext Canonical (execForcedStop s) := by
  unfold execForcedStop
  split
  · split
    · exact h
    · split
      · exact h
      · extract_lets cs moving
        split
        · exact h
        · refine State.platStopped_canonical (h := ?_) ..
          refine of_mem_eq Canonical (State.foldl_mem fun t c => t.modCtx_mem _ _) ?_
          refine of_mem_eq Canonical (State.foldl_mem fun t c => ?_) h
          dsimp only
          split
          · exact t.stopAt_mem _ _ _
          · exact (State.reconsider_mem _ _ _).trans (t.modCtx_mem _ _)
          · rfl
  · exact h

@[simp] theorem State.resumeOne_mem (s : State) (shift : ℕ) (c : CtxId) (kept : Option Ctx) :
    (s.resumeOne shift c kept).mem = s.mem := by
  unfold State.resumeOne
  dsimp only
  (repeat' split) <;> simp

theorem execPlatResume_canonical (s : State) (h : Canonical s.mem) : MemNext Canonical (execPlatResume s) := by
  unfold execPlatResume
  split
  · split
    · exact h
    · split
      · exact h
      · split
        · exact h
        · extract_lets shift
          split
          · exact h
          · split
            · exact h
            · refine of_mem_eq Canonical (State.foldl_mem fun t d => t.askAgain_mem d _) ?_
              refine State.foldl_canonical ?_ fun t d ht => ?_
              · exact of_mem_eq Canonical (State.foldl_mem fun t c => t.resumeOne_mem _ _ _) h
              · exact State.setStatus_canonical (h := ht) ..
  · exact h

/-! ### Memory through the functions of Machine/Loader -/

theorem State.bindObject_canonical (s : State) (core plat : ℕ) (o : CodeObject) (pe : List ℕ) (pva sectVa : ℕ) (h : Canonical s.mem) :
    Canonical (s.bindObject core plat o pe pva sectVa).mem := by
  unfold State.bindObject
  refine State.writeVirt_canonical (h := ?_) ..
  refine State.foldl_canonical ?_ fun t e ht => State.writeVirt_canonical (h := ht) ..
  refine State.foldl_canonical ?_ fun t a ht => State.writeVirt_canonical (h := ht) ..
  refine State.foldl_canonical h fun t r ht => ?_
  split
  · dsimp only
    split
    · exact State.writeVirt_canonical (h := ht) ..
    · exact ht
  · exact ht

theorem execLoaderRequest_canonical (s : State) (h : Canonical s.mem) : MemNext Canonical (execLoaderRequest s) := by
  unfold execLoaderRequest
  split
  · next die va _ =>
    extract_lets core
    split
    · exact h
    · extract_lets u
      split
      split
      next code index t ht =>
      have hc : Canonical t.mem := by
        refine (congrArg (fun p : Nat × Nat × State => Canonical p.2.2.mem) ht).mp ?_
        split
        · exact h
        · split
          · exact h
          · split
            · exact h
            · exact State.bindObject_canonical (h := h) ..
      exact State.writeVirt_canonical (h := State.writeVirt_canonical (h := hc) ..) ..
  · exact h

theorem State.writeAll_canonical (s : State) (mod : ℕ) (out : List (ℕ × List Byte)) (h : Canonical s.mem) :
    Canonical (s.writeAll mod out).mem := by
  exact State.foldl_canonical h fun t w ht => State.writeMem_canonical (h := ht) ..

theorem State.writeObject_canonical (s : State) (mod : ℕ) (out : List (ℕ × List Byte)) (h : Canonical s.mem) :
    Canonical (s.writeObject mod out).mem := s.writeAll_canonical mod out h

theorem execTemplatePass_canonical (s : State) (h : Canonical s.mem) : MemNext Canonical (execTemplatePass s) := by
  unfold execTemplatePass
  split
  · refine (?_ : Canonical (State.mem _))
    split
    · exact State.writeObject_canonical (h := h) ..
    · exact h
  · exact h

theorem execProfilePass_canonical (s : State) (h : Canonical s.mem) : MemNext Canonical (execProfilePass s) := by
  unfold execProfilePass
  split
  · refine (?_ : Canonical (State.mem _))
    split
    · exact State.writeObject_canonical (h := h) ..
    · exact h
  · exact h

/-! ### Memory through the functions of Machine/Manifest -/

theorem execManselWrite_memNext {Q : Memory → Prop} (s : State) (h : Q s.mem) : MemNext Q (execManselWrite s) := by
  unfold execManselWrite
  split <;> exact h

theorem execJopenWrite_memNext {Q : Memory → Prop} (s : State) (h : Q s.mem) : MemNext Q (execJopenWrite s) := by
  unfold execJopenWrite
  dsimp only
  (repeat' split) <;> simp [MemNext, h]

theorem execJcloseWrite_memNext {Q : Memory → Prop} (s : State) (h : Q s.mem) : MemNext Q (execJcloseWrite s) := by
  unfold execJcloseWrite
  dsimp only
  (repeat' split) <;> simp [MemNext, h]

theorem execLosscntClear_memNext {Q : Memory → Prop} (s : State) (h : Q s.mem) : MemNext Q (execLosscntClear s) := by
  unfold execLosscntClear
  split
  · refine (?_ : Q (State.mem _))
    split <;> exact h
  · exact h

theorem execMirentWrite_memNext {Q : Memory → Prop} (s : State) (h : Q s.mem) : MemNext Q (execMirentWrite s) := by
  unfold execMirentWrite
  split <;> exact h

theorem execPlostClear_memNext {Q : Memory → Prop} (s : State) (h : Q s.mem) : MemNext Q (execPlostClear s) := by
  unfold execPlostClear
  split
  · refine (?_ : Q (State.mem _))
    split <;> exact h
  · exact h

/-! ### Memory through the functions of Machine/HostPort -/

theorem execHsemAcquire_memNext {Q : Memory → Prop} (s : State) (h : Q s.mem) : MemNext Q (execHsemAcquire s) := by
  unfold execHsemAcquire
  dsimp only
  (repeat' split) <;> simp [MemNext, h]

theorem execHsemRelease_memNext {Q : Memory → Prop} (s : State) (h : Q s.mem) : MemNext Q (execHsemRelease s) := by
  unfold execHsemRelease
  split <;> exact h

@[simp] theorem State.modFn_mem (s : State) (m f : ℕ) (g : FnSt → FnSt) : (s.modFn m f g).mem = s.mem := rfl

theorem State.stopFunction_canonical (s : State) (m f : ℕ) (h : Canonical s.mem) : Canonical (s.stopFunction m f).mem := by
  unfold State.stopFunction
  refine of_mem_eq Canonical (State.foldl_mem fun t c => t.freeCtx_mem c) ?_
  exact State.foldl_canonical h fun t p ht => State.endPlat_canonical (h := ht) ..

theorem execFnctlRst_canonical (s : State) (h : Canonical s.mem) : MemNext Canonical (execFnctlRst s) := by
  unfold execFnctlRst
  split
  · next m f _ =>
    have hs := s.stopFunction_canonical m f h
    extract_lets t1 t2 fn jobs t3
    have h3 : Canonical t3.mem := by
      have h2 : Canonical t2.mem := by
        unfold t2
        split <;> exact hs
      exact of_mem_eq Canonical (State.foldl_mem fun t j => t.sendNotices_mem _ _ _) h2
    refine (?_ : Canonical (State.mem _))
    split <;> exact h3
  · exact h

theorem execFunctionResetComplete_memNext {Q : Memory → Prop} (s : State) (h : Q s.mem) :
    MemNext Q (execFunctionResetComplete s) := by
  unfold execFunctionResetComplete
  split
  · refine (?_ : Q (State.mem _))
    split <;> exact h
  · exact h

theorem execFnctlGo_memNext {Q : Memory → Prop} (s : State) (h : Q s.mem) : MemNext Q (execFnctlGo s) := by
  unfold execFnctlGo
  split <;> exact h

theorem execFnctlEn_memNext {Q : Memory → Prop} (s : State) (h : Q s.mem) : MemNext Q (execFnctlEn s) := by
  unfold execFnctlEn
  split <;> exact h

theorem execFnjobsWrite_memNext {Q : Memory → Prop} (s : State) (h : Q s.mem) : MemNext Q (execFnjobsWrite s) := by
  unfold execFnjobsWrite
  split <;> exact h

theorem execFeataccWrite_memNext {Q : Memory → Prop} (s : State) (h : Q s.mem) : MemNext Q (execFeataccWrite s) := by
  unfold execFeataccWrite
  split <;> exact h

theorem execFeatmaskWrite_memNext {Q : Memory → Prop} (s : State) (h : Q s.mem) : MemNext Q (execFeatmaskWrite s) := by
  unfold execFeatmaskWrite
  split
  · refine (?_ : Q (State.mem _))
    split <;> exact h
  · exact h

theorem execFnnotifyWrite_memNext {Q : Memory → Prop} (s : State) (h : Q s.mem) : MemNext Q (execFnnotifyWrite s) := by
  unfold execFnnotifyWrite
  split
  · refine (?_ : Q (State.mem _))
    split <;> exact h
  · exact h

theorem execFnerrclrWrite_memNext {Q : Memory → Prop} (s : State) (h : Q s.mem) : MemNext Q (execFnerrclrWrite s) := by
  unfold execFnerrclrWrite
  split <;> exact h

theorem execAttctlRequest_memNext {Q : Memory → Prop} (s : State) (h : Q s.mem) : MemNext Q (execAttctlRequest s) := by
  unfold execAttctlRequest
  dsimp only
  (repeat' split) <;> simp [MemNext, h]

theorem execAttestReportReady_memNext {Q : Memory → Prop} (s : State) (h : Q s.mem) :
    MemNext Q (execAttestReportReady s) := by
  unfold execAttestReportReady
  dsimp only
  (repeat' split) <;> simp [MemNext, h]

theorem execDbgreqRequest_memNext {Q : Memory → Prop} (s : State) (h : Q s.mem) : MemNext Q (execDbgreqRequest s) := by
  unfold execDbgreqRequest
  split
  · split
    · exact of_mem_eq Q (State.raiseAsync_mem _ _ _ _) h
    · exact h
  · exact h

theorem execDbgreqWithdraw_memNext {Q : Memory → Prop} (s : State) (h : Q s.mem) : MemNext Q (execDbgreqWithdraw s) := by
  unfold execDbgreqWithdraw
  split <;> exact h

@[simp] theorem State.countHost_mem (s : State) (m f : ℕ) : (s.countHost m f).mem = s.mem := by
  unfold State.countHost
  split <;> rfl

@[simp] theorem State.hostWrite_mem (s : State) (m f off n : ℕ) (v : Word) : (s.hostWrite m f off n v).mem = s.mem := by
  unfold State.hostWrite
  dsimp only
  (repeat' split) <;> simp

theorem execRegisterWrite_memNext {Q : Memory → Prop} (s : State) (h : Q s.mem) : MemNext Q (execRegisterWrite s) := by
  unfold execRegisterWrite
  dsimp only
  (repeat' split) <;> simp [MemNext, h]

theorem execHostBar2Write_canonical (s : State) (h : Canonical s.mem) : MemNext Canonical (execHostBar2Write s) := by
  unfold execHostBar2Write
  split
  · split
    · exact h
    · split
      · exact of_mem_eq Canonical (s.countHost_mem _ _) h
      · exact State.foldl_canonical h fun t p ht => State.writeMem_canonical (h := ht) ..
  · exact h

theorem execHostBar2Read_memNext {Q : Memory → Prop} (s : State) (h : Q s.mem) : MemNext Q (execHostBar2Read s) := by
  unfold execHostBar2Read
  dsimp only
  (repeat' split) <;> simp [MemNext, h]

theorem execHostConfigRequest_memNext {Q : Memory → Prop} (s : State) (h : Q s.mem) :
    MemNext Q (execHostConfigRequest s) := by
  unfold execHostConfigRequest
  split <;> exact h

theorem execPortReset_memNext {Q : Memory → Prop} (s : State) (h : Q s.mem) : MemNext Q (execPortReset s) := by
  unfold execPortReset
  split <;> exact h

/-! ### Memory through the functions of Machine/Boot -/

@[simp] theorem State.resetModule_mem (s : State) (m : ℕ) : (s.resetModule m).mem = s.mem := by
  rw [State.resetModule]
  refine (State.foldl_mem fun _ _ => State.modSta_mem _ _ _).trans ?_
  rw [State.modMod_mem]
  exact State.dropCores_mem s m

@[simp] theorem State.surveyDie_mem (s : State) (die : ℕ) : (s.surveyDie die).mem = s.mem := rfl

theorem execPowerOn_memNext {Q : Memory → Prop} (s : State) (h : Q s.mem) : MemNext Q (execPowerOn s) := by
  unfold execPowerOn
  split
  · next m _ =>
    refine (?_ : Q (State.mem _))
    rw [State.modMod_mem, State.resetModule_mem]
    exact h
  · next m _ _ _ =>
    have hf (u : State) : ((List.range 8).foldl (fun t d => t.surveyDie (8 * m + d)) u).mem = u.mem :=
      State.foldl_mem fun t d => t.surveyDie_mem _
    extract_lets x
    split
    · exact h
    · split
      · exact h
      · split
        · refine (?_ : Q (State.mem _))
          rw [hf]
          exact h
        · exact h
  · exact h

theorem execDhcpv6Timeout_memNext {Q : Memory → Prop} (s : State) (h : Q s.mem) : MemNext Q (execDhcpv6Timeout s) := by
  unfold execDhcpv6Timeout
  split <;> exact h

theorem execImageFetchComplete_memNext {Q : Memory → Prop} (s : State) (h : Q s.mem) :
    MemNext Q (execImageFetchComplete s) := by
  unfold execImageFetchComplete
  dsimp only
  (repeat' split) <;> simp [MemNext, h]

theorem execFirmwareUpdate_memNext {Q : Memory → Prop} (s : State) (h : Q s.mem) : MemNext Q (execFirmwareUpdate s) := by
  unfold execFirmwareUpdate
  split <;> exact h

theorem execModuleReset_memNext {Q : Memory → Prop} (s : State) (h : Q s.mem) : MemNext Q (execModuleReset s) := by
  have hf (m : Nat) (u : State) : ((List.range 12).foldl (fun t n => t.postNow (.stationReset (16 * m + n))) u).mem = u.mem :=
      State.foldl_mem fun t n => t.postNow_mem _
  unfold execModuleReset
  split
  · next m _ =>
    have hm : Q (s.resetModule m).mem := of_mem_eq Q (s.resetModule_mem m) h
    refine (?_ : Q (State.mem _))
    rw [hf]
    exact hm
  · exact h

theorem execPtimeSync_memNext {Q : Memory → Prop} (s : State) (h : Q s.mem) : MemNext Q (execPtimeSync s) := by
  unfold execPtimeSync
  split
  · refine (?_ : Q (State.mem _))
    split
    · exact of_mem_eq Q (State.foldl_mem fun t d => t.postResurvey_mem _) h
    · exact h
  · exact h

theorem execMrepairNoAnswer_memNext {Q : Memory → Prop} (s : State) (h : Q s.mem) : MemNext Q (execMrepairNoAnswer s) := by
  unfold execMrepairNoAnswer
  dsimp only
  (repeat' split) <;> simp [MemNext, h]

theorem execHostPortTrained_memNext {Q : Memory → Prop} (s : State) (h : Q s.mem) : MemNext Q (execHostPortTrained s) := by
  unfold execHostPortTrained
  split <;> exact h

@[simp] theorem State.arrivalsDone_mem (s : State) (core : ℕ) (p : CtxId → Bool) : (s.arrivalsDone core p).mem = s.mem := by
  unfold State.arrivalsDone
  dsimp only
  (repeat' split) <;> simp [State.foldl_mem]

@[simp] theorem State.arrivalsTick_mem (s : State) : (s.arrivalsTick).mem = s.mem := by
  unfold State.arrivalsTick
  simp [State.foldl_mem]

@[simp] theorem State.releaseSends_mem (a0 : State) (a1 : ℕ) (a2 : List HeldSend) :
    (a0.releaseSends a1 a2).mem = a0.mem := by
  induction a2 generalizing a0 with
  | nil => rfl
  | cons h rest ih =>
    rw [State.releaseSends]
    split
    · rw [ih, State.egress_mem, State.modCore_mem]
    · rfl

@[simp] theorem State.sendsTick_mem (s : State) : (s.sendsTick).mem = s.mem := by
  unfold State.sendsTick
  simp [State.foldl_mem]

@[simp] theorem State.loadBegin_mem (s : State) (die : ℕ) (plat : Word) (l : Load) :
    (s.loadBegin die plat l).mem = s.mem := by
  unfold State.loadBegin
  split
  · rfl
  · split
    · rfl
    · dsimp only
      split
      · rfl
      · rw [State.modPlat_mem]
        exact State.foldl_mem fun _ _ => State.overwrite_mem _ _ _

@[simp] theorem State.moveStep_mem (s : State) (core : ℕ) : (s.moveStep core).mem = s.mem := by
  unfold State.moveStep
  dsimp only
  (repeat' split) <;> simp

@[simp] theorem State.schedTick_mem (s : State) : (s.schedTick).mem = s.mem := by
  rw [State.schedTick, State.foldl_mem, State.foldl_mem fun _ _ => by simp, State.foldl_mem fun _ _ => by simp]
  intro t c
  split
  · split <;> simp
  · rfl

@[simp] theorem State.nearRead_mem (s : State) (core : ℕ) (l : NearLoad) : (s.nearRead core l).mem = s.mem := by
  unfold State.nearRead
  dsimp only
  (repeat' split) <;> simp

@[simp] theorem State.nearDone_mem (s : State) (core : ℕ) : (s.nearDone core).mem = s.mem := by
  unfold State.nearDone
  simp [State.foldl_mem]

@[simp] theorem State.nearTick_mem (s : State) : (s.nearTick).mem = s.mem := by
  unfold State.nearTick
  simp [State.foldl_mem]

@[simp] theorem State.groupsTick_mem (s : State) : (s.groupsTick).mem = s.mem := by
  unfold State.groupsTick
  split
  · rfl
  · refine State.foldl_mem fun t m => State.foldl_mem fun u k => State.foldl_mem fun v ccw => ?_
    dsimp only
    split <;> simp

@[simp] theorem State.markBusy_mem (s : State) : (s.markBusy).mem = s.mem := by
  exact State.foldl_mem fun _ _ => rfl

theorem State.apTick_canonical (s : State) (h : Canonical s.mem) : Canonical (s.apTick).mem := State.foldl_canonical h fun t e ht => t.apStep_canonical e.1 ht

@[simp] theorem State.enginesTick_mem (s : State) (core : ℕ) : (s.enginesTick core).mem = s.mem := by
  unfold State.enginesTick
  dsimp only
  split
  · rfl
  · rw [State.grantCopy_mem, State.foldl_mem, State.foldl_mem, State.foldl_mem]
    · exact fun t c => State.foldl_mem fun u e => State.foldl_mem fun _ _ => rfl
    · exact fun t c => State.foldl_mem fun u e => by split <;> rfl
    · exact fun t c => State.foldl_mem fun u e => by split <;> rfl

theorem State.tick_canonical (s : State) (h : Canonical s.mem) : Canonical (s.tick).mem := by
  unfold State.tick
  extract_lets t1 t2 t3 t4
  have h3 : t3.mem = t2.mem := by
    unfold t3
    rw [State.arrivalsTick_mem, State.sendsTick_mem, State.schedTick_mem, State.nearTick_mem, State.groupsTick_mem, State.markBusy_mem]
  have hf : (t3.busyCores.foldl (fun t k => if t.frozen k then t else t.enginesTick k) t3).mem = t3.mem := by
    refine State.foldl_mem fun t k => ?_
    split
    · rfl
    · exact t.enginesTick_mem k
  have h4 : Canonical t4.mem := State.apTick_canonical (h := of_mem_eq Canonical (hf.trans h3) h) ..
  clear_value t4
  exact h4

@[simp] theorem State.afterWord_mem (s : State) (i : Instr) : (s.afterWord i).mem = s.mem := by
  unfold State.afterWord
  split <;> rfl

/-- Every instruction keeps the canonical form of memory. -/
theorem exec_canonical (i : Instr) (s : State) (h : Canonical s.mem) : MemNext Canonical (exec i s) := by
  cases i with
  | add _ _ _ _ => exact execAdd_memNext (h := h) ..
  | sub _ _ _ _ => exact execSub_memNext (h := h) ..
  | and _ _ _ _ => exact execAnd_memNext (h := h) ..
  | or _ _ _ _ => exact execOr_memNext (h := h) ..
  | xor _ _ _ _ => exact execXor_memNext (h := h) ..
  | andn _ _ _ _ => exact execAndn_memNext (h := h) ..
  | shl _ _ _ _ => exact execShl_memNext (h := h) ..
  | shr _ _ _ _ => exact execShr_memNext (h := h) ..
  | sar _ _ _ _ => exact execSar_memNext (h := h) ..
  | rol _ _ _ _ => exact execRol_memNext (h := h) ..
  | min _ _ _ _ => exact execMin_memNext (h := h) ..
  | max _ _ _ _ => exact execMax_memNext (h := h) ..
  | minu _ _ _ _ => exact execMinu_memNext (h := h) ..
  | maxu _ _ _ _ => exact execMaxu_memNext (h := h) ..
  | mul _ _ _ _ => exact execMul_memNext (h := h) ..
  | mulhu _ _ _ _ => exact execMulhu_memNext (h := h) ..
  | addi _ _ _ => exact execAddi_memNext (h := h) ..
  | andi _ _ _ => exact execAndi_memNext (h := h) ..
  | ori _ _ _ => exact execOri_memNext (h := h) ..
  | xori _ _ _ => exact execXori_memNext (h := h) ..
  | shli _ _ _ => exact execShli_memNext (h := h) ..
  | shri _ _ _ => exact execShri_memNext (h := h) ..
  | sari _ _ _ => exact execSari_memNext (h := h) ..
  | muli _ _ _ => exact execMuli_memNext (h := h) ..
  | lui _ _ => exact execLui_memNext (h := h) ..
  | auib _ _ => exact execAuib_memNext (h := h) ..
  | bext _ _ _ _ => exact execBext_memNext (h := h) ..
  | bexts _ _ _ _ => exact execBexts_memNext (h := h) ..
  | bins _ _ _ _ => exact execBins_memNext (h := h) ..
  | clz _ _ _ => exact execClz_memNext (h := h) ..
  | ctz _ _ _ => exact execCtz_memNext (h := h) ..
  | popc _ _ _ => exact execPopc_memNext (h := h) ..
  | bexti _ _ _ _ => exact execBexti_memNext (h := h) ..
  | binsi _ _ _ _ => exact execBinsi_memNext (h := h) ..
  | cmpEq _ _ _ _ => exact execCmpEq_memNext (h := h) ..
  | cmpNe _ _ _ _ => exact execCmpNe_memNext (h := h) ..
  | cmpLt _ _ _ _ => exact execCmpLt_memNext (h := h) ..
  | cmpGe _ _ _ _ => exact execCmpGe_memNext (h := h) ..
  | cmpLtu _ _ _ _ => exact execCmpLtu_memNext (h := h) ..
  | cmpGeu _ _ _ _ => exact execCmpGeu_memNext (h := h) ..
  | cmpiEq _ _ _ _ => exact execCmpiEq_memNext (h := h) ..
  | cmpiNe _ _ _ _ => exact execCmpiNe_memNext (h := h) ..
  | cmpiLt _ _ _ _ => exact execCmpiLt_memNext (h := h) ..
  | cmpiGe _ _ _ _ => exact execCmpiGe_memNext (h := h) ..
  | cmpiLtu _ _ _ _ => exact execCmpiLtu_memNext (h := h) ..
  | cmpiGeu _ _ _ _ => exact execCmpiGeu_memNext (h := h) ..
  | pand _ _ _ _ => exact execPand_memNext (h := h) ..
  | por _ _ _ _ => exact execPor_memNext (h := h) ..
  | pxor _ _ _ _ => exact execPxor_memNext (h := h) ..
  | pandn _ _ _ _ => exact execPandn_memNext (h := h) ..
  | pmov _ _ _ => exact execPmov_memNext (h := h) ..
  | pnot _ _ _ => exact execPnot_memNext (h := h) ..
  | movqPop _ _ _ => exact execMovqPop_memNext (h := h) ..
  | movqPush _ _ _ => exact execMovqPush_memNext (h := h) ..
  | trypopQueue _ _ _ _ => exact execTrypopQueue_memNext (h := h) ..
  | ldB _ _ _ => exact execLdB_memNext (h := h) ..
  | ldH _ _ _ => exact execLdH_memNext (h := h) ..
  | ldW _ _ _ => exact execLdW_memNext (h := h) ..
  | ld _ _ _ => exact execLd_memNext (h := h) ..
  | ldSb _ _ _ => exact execLdSb_memNext (h := h) ..
  | ldSh _ _ _ => exact execLdSh_memNext (h := h) ..
  | ldSw _ _ _ => exact execLdSw_memNext (h := h) ..
  | ldAcq sc _ _ _ => exact execLdAcq_memNext sc (h := h) ..
  | stB _ _ _ => exact execStB_canonical (h := h) ..
  | stH _ _ _ => exact execStH_canonical (h := h) ..
  | stW _ _ _ => exact execStW_canonical (h := h) ..
  | st _ _ _ => exact execSt_canonical (h := h) ..
  | stRel _ _ _ _ => exact execStRel_canonical (h := h) ..
  | amoAdd _ _ _ _ => exact execAmoAdd_canonical (h := h) ..
  | amoAnd _ _ _ _ => exact execAmoAnd_canonical (h := h) ..
  | amoOr _ _ _ _ => exact execAmoOr_canonical (h := h) ..
  | amoXor _ _ _ _ => exact execAmoXor_canonical (h := h) ..
  | amoMin _ _ _ _ => exact execAmoMin_canonical (h := h) ..
  | amoMax _ _ _ _ => exact execAmoMax_canonical (h := h) ..
  | amoMinu _ _ _ _ => exact execAmoMinu_canonical (h := h) ..
  | amoMaxu _ _ _ _ => exact execAmoMaxu_canonical (h := h) ..
  | amoSwap _ _ _ _ => exact execAmoSwap_canonical (h := h) ..
  | cas _ _ _ _ => exact execCas_canonical (h := h) ..
  | ldlB _ _ => exact execLdlB_memNext (h := h) ..
  | ldlH _ _ => exact execLdlH_memNext (h := h) ..
  | ldlW _ _ => exact execLdlW_memNext (h := h) ..
  | ldl _ _ => exact execLdl_memNext (h := h) ..
  | ldlSb _ _ => exact execLdlSb_memNext (h := h) ..
  | ldlSh _ _ => exact execLdlSh_memNext (h := h) ..
  | ldlSw _ _ => exact execLdlSw_memNext (h := h) ..
  | stlB _ _ => exact execStlB_memNext (h := h) ..
  | stlH _ _ => exact execStlH_memNext (h := h) ..
  | stlW _ _ => exact execStlW_memNext (h := h) ..
  | stl _ _ => exact execStl_memNext (h := h) ..
  | fence _ _ => exact execFence_memNext (h := h) ..
  | pbr _ _ => exact execPbr_memNext (h := h) ..
  | pbrx _ _ _ => exact execPbrx_memNext (h := h) ..
  | br _ _ => exact execBr_memNext (h := h) ..
  | brl _ _ => exact execBrl_memNext (h := h) ..
  | sloop _ _ => exact execSloop_memNext (h := h) ..
  | snext _ => exact execSnext_memNext (h := h) ..
  | div _ _ _ _ => exact execDiv_memNext (h := h) ..
  | divu _ _ _ _ => exact execDivu_memNext (h := h) ..
  | rem _ _ _ _ => exact execRem_memNext (h := h) ..
  | remu _ _ _ _ => exact execRemu_memNext (h := h) ..
  | mfs _ _ => exact execMfs_memNext (h := h) ..
  | mts _ _ => exact execMts_memNext (h := h) ..
  | barArrive _ _ => exact execBarArrive_memNext (h := h) ..
  | barWait _ _ => exact execBarWait_memNext (h := h) ..
  | barAw _ _ => exact execBarAw_memNext (h := h) ..
  | twait _ _ => exact execTwait_memNext (h := h) ..
  | waitm _ _ => exact execWaitm_memNext (h := h) ..
  | qwait _ => exact execQwait_memNext (h := h) ..
  | signal _ => exact execSignal_memNext (h := h) ..
  | push _ _ => exact execPush_memNext (h := h) ..
  | pop _ _ => exact execPop_memNext (h := h) ..
  | trypopToken _ _ _ => exact execTrypopToken_memNext (h := h) ..
  | setup _ _ _ => exact execSetup_memNext (h := h) ..
  | oclaim _ _ => exact execOclaim_memNext (h := h) ..
  | orelease _ => exact execOrelease_memNext (h := h) ..
  | send _ _ _ => exact execSend_memNext (h := h) ..
  | hret _ => exact execHret_memNext (h := h) ..
  | trap _ => exact execTrap_memNext (h := h) ..
  | waypt _ => exact execWaypt_canonical (h := h) ..
  | evac _ _ => exact execEvac_canonical (h := h) ..
  | mrepair _ _ => exact execMrepair_memNext (h := h) ..
  | launch _ _ _ _ => exact execLaunch_canonical (h := h) ..
  | ckpt _ => exact execCkpt_canonical (h := h) ..
  | cld _ => exact execCld_memNext (h := h) ..
  | cst _ => exact execCst_memNext (h := h) ..
  | csta _ => exact execCsta_memNext (h := h) ..
  | cchn _ _ _ => exact execCchn_memNext (h := h) ..
  | cslc _ => exact execCslc_memNext (h := h) ..
  | covl _ => exact execCovl_memNext (h := h) ..
  | cmig _ _ => exact execCmig_memNext (h := h) ..
  | cinv _ _ => exact execCinv_memNext (h := h) ..
  | mma _ _ _ => exact execMma_memNext (h := h) ..
  | mmas _ _ _ => exact execMmas_memNext (h := h) ..
  | mrot _ => exact execMrot_memNext (h := h) ..
  | mdrn _ => exact execMdrn_memNext (h := h) ..
  | mclr _ => exact execMclr_memNext (h := h) ..
  | msgn _ => exact execMsgn_memNext (h := h) ..
  | wmax _ => exact execWmax_memNext (h := h) ..
  | wexs _ => exact execWexs_memNext (h := h) ..
  | wscl _ => exact execWscl_memNext (h := h) ..
  | wmom _ => exact execWmom_memNext (h := h) ..
  | wapl _ => exact execWapl_memNext (h := h) ..
  | ldv _ _ _ _ => exact execLdv_canonical (h := h) ..
  | stv _ _ _ _ => exact execStv_canonical (h := h) ..
  | ldg _ _ _ _ => exact execLdg_canonical (h := h) ..
  | stsc _ _ _ _ => exact execStsc_canonical (h := h) ..
  | amovAdd _ _ _ _ => exact execAmovAdd_canonical (h := h) ..
  | amovMax _ _ _ _ => exact execAmovMax_canonical (h := h) ..
  | pref _ _ => exact execPref_memNext (h := h) ..
  | tlbp _ _ => exact execTlbp_memNext (h := h) ..
  | vadd _ _ _ _ => exact execVadd_memNext (h := h) ..
  | vsub _ _ _ _ => exact execVsub_memNext (h := h) ..
  | vmul _ _ _ _ => exact execVmul_memNext (h := h) ..
  | vmin _ _ _ _ => exact execVmin_memNext (h := h) ..
  | vmax _ _ _ _ => exact execVmax_memNext (h := h) ..
  | vabs _ _ _ => exact execVabs_memNext (h := h) ..
  | vneg _ _ _ => exact execVneg_memNext (h := h) ..
  | vmov _ _ _ => exact execVmov_memNext (h := h) ..
  | vfma _ _ _ _ _ => exact execVfma_memNext (h := h) ..
  | vfms _ _ _ _ _ => exact execVfms_memNext (h := h) ..
  | vfnma _ _ _ _ _ => exact execVfnma_memNext (h := h) ..
  | vfnms _ _ _ _ _ => exact execVfnms_memNext (h := h) ..
  | vrcp _ _ _ => exact execVrcp_memNext (h := h) ..
  | vrsq _ _ _ => exact execVrsq_memNext (h := h) ..
  | vsqrt _ _ _ => exact execVsqrt_memNext (h := h) ..
  | vexp2 _ _ _ => exact execVexp2_memNext (h := h) ..
  | vlog2 _ _ _ => exact execVlog2_memNext (h := h) ..
  | vsin _ _ _ => exact execVsin_memNext (h := h) ..
  | vcos _ _ _ => exact execVcos_memNext (h := h) ..
  | vtanh _ _ _ => exact execVtanh_memNext (h := h) ..
  | viadd _ _ _ _ => exact execViadd_memNext (h := h) ..
  | visub _ _ _ _ => exact execVisub_memNext (h := h) ..
  | vimul _ _ _ _ => exact execVimul_memNext (h := h) ..
  | vand _ _ _ _ => exact execVand_memNext (h := h) ..
  | vor _ _ _ _ => exact execVor_memNext (h := h) ..
  | vxor _ _ _ _ => exact execVxor_memNext (h := h) ..
  | vshl _ _ _ _ => exact execVshl_memNext (h := h) ..
  | vshr _ _ _ _ => exact execVshr_memNext (h := h) ..
  | vsar _ _ _ _ => exact execVsar_memNext (h := h) ..
  | vimin _ _ _ _ => exact execVimin_memNext (h := h) ..
  | vimax _ _ _ _ => exact execVimax_memNext (h := h) ..
  | vcmpEq _ _ _ _ => exact execVcmpEq_memNext (h := h) ..
  | vcmpNe _ _ _ _ => exact execVcmpNe_memNext (h := h) ..
  | vcmpLt _ _ _ _ => exact execVcmpLt_memNext (h := h) ..
  | vcmpLe _ _ _ _ => exact execVcmpLe_memNext (h := h) ..
  | vcmpGt _ _ _ _ => exact execVcmpGt_memNext (h := h) ..
  | vcmpGe _ _ _ _ => exact execVcmpGe_memNext (h := h) ..
  | vcmpOrd _ _ _ _ => exact execVcmpOrd_memNext (h := h) ..
  | vcmpUno _ _ _ _ => exact execVcmpUno_memNext (h := h) ..
  | vcmpIeq _ _ _ _ => exact execVcmpIeq_memNext (h := h) ..
  | vcmpIlt _ _ _ _ => exact execVcmpIlt_memNext (h := h) ..
  | vcmpIltu _ _ _ _ => exact execVcmpIltu_memNext (h := h) ..
  | vsel _ _ _ _ => exact execVsel_memNext (h := h) ..
  | vcvtI32 _ _ _ => exact execVcvtI32_memNext (h := h) ..
  | vcvtF32 _ _ _ => exact execVcvtF32_memNext (h := h) ..
  | vrndBf16 _ _ _ => exact execVrndBf16_memNext (h := h) ..
  | vrndT8 _ _ _ => exact execVrndT8_memNext (h := h) ..
  | vrndT6 _ _ _ => exact execVrndT6_memNext (h := h) ..
  | vrotr _ _ _ => exact execVrotr_memNext (h := h) ..
  | vrotc _ _ _ => exact execVrotc_memNext (h := h) ..
  | vbcr _ _ _ => exact execVbcr_memNext (h := h) ..
  | vbcc _ _ _ => exact execVbcc_memNext (h := h) ..
  | vtrn16 _ _ => exact execVtrn16_memNext (h := h) ..
  | vredrSum _ _ => exact execVredrSum_memNext (h := h) ..
  | vredrMax _ _ => exact execVredrMax_memNext (h := h) ..
  | vredrMin _ _ => exact execVredrMin_memNext (h := h) ..
  | vredcSum _ _ => exact execVredcSum_memNext (h := h) ..
  | vredcMax _ _ => exact execVredcMax_memNext (h := h) ..
  | vredcMin _ _ => exact execVredcMin_memNext (h := h) ..
  | vli _ _ => exact execVli_memNext (h := h) ..
  | vpop _ _ _ _ => exact execVpop_memNext (h := h) ..
  | vpush _ _ _ _ => exact execVpush_memNext (h := h) ..
  | vtos _ _ _ => exact execVtos_memNext (h := h) ..
  | vfrs _ _ => exact execVfrs_memNext (hQ := h) ..
  | vldl _ _ => exact execVldl_memNext (h := h) ..
  | vstl _ _ => exact execVstl_memNext (h := h) ..
  | vSloop _ => exact execVSloop_memNext (h := h) ..
  | dadd _ _ _ => exact execDadd_memNext (h := h) ..
  | dsub _ _ _ => exact execDsub_memNext (h := h) ..
  | dmul _ _ _ => exact execDmul_memNext (h := h) ..
  | dmix _ _ _ => exact execDmix_memNext (h := h) ..
  | dmuls _ _ _ => exact execDmuls_memNext (h := h) ..
  | dadds _ _ _ => exact execDadds_memNext (h := h) ..
  | dmaxs _ _ _ => exact execDmaxs_memNext (h := h) ..
  | dmapExp2 _ _ => exact execDmapExp2_memNext (h := h) ..
  | dmapLog2 _ _ => exact execDmapLog2_memNext (h := h) ..
  | dmapTanh _ _ => exact execDmapTanh_memNext (h := h) ..
  | dmapSigmoid _ _ => exact execDmapSigmoid_memNext (h := h) ..
  | dpt _ _ _ => exact execDpt_memNext (h := h) ..
  | dgauss _ _ _ => exact execDgauss_memNext (h := h) ..
  | dpop _ _ => exact execDpop_memNext (h := h) ..
  | dpush _ _ => exact execDpush_memNext (h := h) ..
  | dmom _ _ _ _ => exact execDmom_memNext (h := h) ..
  | dqnt _ _ _ => exact execDqnt_memNext (h := h) ..
  | dtag _ _ => exact execDtag_memNext (h := h) ..
  | dlin _ _ => exact execDlin_memNext (h := h) ..
  | dflg _ => exact execDflg_memNext (h := h) ..
  | dflgRd _ => exact execDflgRd_memNext (h := h) ..
  | stall _ => exact execStall_memNext (h := h) ..
  | mvh _ _ => exact execMvh_memNext (h := h) ..
  | addih _ _ => exact execAddih_memNext (h := h) ..
  | brh _ _ => exact execBrh_memNext (h := h) ..
  | rte => exact execRte_memNext (h := h) ..
  | rteSkip => exact execRteSkip_memNext (h := h) ..
  | retire => exact execRetire_canonical (h := h) ..
  | blockFetch => exact execBlockFetch_memNext (h := h) ..
  | stallEnd => exact execStallEnd_memNext (h := h) ..
  | resultLand => exact execResultLand_memNext (h := h) ..
  | interlockedResultArrival => exact execInterlockedResultArrival_memNext (h := h) ..
  | granuleDataArrival => exact execGranuleDataArrival_memNext (h := h) ..
  | twaitExpiry => exact execTwaitExpiry_memNext (h := h) ..
  | waitmWake => exact execWaitmWake_memNext (h := h) ..
  | qwaitComplete => exact execQwaitComplete_memNext (h := h) ..
  | barrierRelease => exact execBarrierRelease_memNext (h := h) ..
  | combiningEntrySend => exact execCombiningEntrySend_memNext (h := h) ..
  | combiningEntryInject => exact execCombiningEntryInject_memNext (h := h) ..
  | slotInject => exact execSlotInject_memNext (h := h) ..
  | slotHopArrival => exact execSlotHopArrival_memNext (h := h) ..
  | hopAcknowledge => exact execHopAcknowledge_memNext (h := h) ..
  | hopRetransmit => exact execHopRetransmit_memNext (h := h) ..
  | retryExhausted => exact execRetryExhausted_memNext (h := h) ..
  | hopRetrained => exact execHopRetrained_memNext (h := h) ..
  | returnedSlotReinject => exact execReturnedSlotReinject_memNext (h := h) ..
  | timetabledSlotArrival => exact execTimetabledSlotArrival_memNext (h := h) ..
  | landingBufferDrain => exact execLandingBufferDrain_canonical (h := h) ..
  | trunkGroupArrival => exact execTrunkGroupArrival_memNext (h := h) ..
  | linkOutOfLock => exact execLinkOutOfLock_memNext (h := h) ..
  | laneFailure => exact execLaneFailure_memNext (h := h) ..
  | linkBringUp => exact execLinkBringUp_memNext (h := h) ..
  | mirrorAcceptance => exact execMirrorAcceptance_memNext (h := h) ..
  | resetNoticeArrival => exact execResetNoticeArrival_memNext (h := h) ..
  | activeMessageArrival => exact execActiveMessageArrival_memNext (h := h) ..
  | postedWriteArrival => exact execPostedWriteArrival_canonical (h := h) ..
  | remoteReadRequest => exact execRemoteReadRequest_canonical (h := h) ..
  | remoteReadReply => exact execRemoteReadReply_memNext (h := h) ..
  | remoteAtomicRequest => exact execRemoteAtomicRequest_canonical (h := h) ..
  | remoteAtomicReply => exact execRemoteAtomicReply_memNext (h := h) ..
  | migrationDataArrival => exact execMigrationDataArrival_canonical (h := h) ..
  | lossNoticeArrival => exact execLossNoticeArrival_memNext (h := h) ..
  | creditReturn => exact execCreditReturn_memNext (h := h) ..
  | moduleWaveBegin => exact execModuleWaveBegin_memNext (h := h) ..
  | podWaveBegin => exact execPodWaveBegin_memNext (h := h) ..
  | podWavePart => exact execPodWavePart_memNext (h := h) ..
  | musterSlotMerge => exact execMusterSlotMerge_memNext (h := h) ..
  | musterRollReturn => exact execMusterRollReturn_memNext (h := h) ..
  | jobOpenNotice => exact execJobOpenNotice_memNext (h := h) ..
  | jobCloseNotice => exact execJobCloseNotice_memNext (h := h) ..
  | jobFreeNotice => exact execJobFreeNotice_memNext (h := h) ..
  | stationReset => exact execStationReset_memNext (h := h) ..
  | mrepairArrival => exact execMrepairArrival_memNext (h := h) ..
  | signalArrival => exact execSignalArrival_memNext (h := h) ..
  | invalidationMarkerArrival => exact execInvalidationMarkerArrival_memNext (h := h) ..
  | tlbWalkComplete => exact execTlbWalkComplete_memNext (h := h) ..
  | pageFault => exact execPageFault_canonical (h := h) ..
  | fnfresRetry => exact execFnfresRetry_canonical (h := h) ..
  | fnfresRaisePerm => exact execFnfresRaisePerm_canonical (h := h) ..
  | fnfresEndPlat => exact execFnfresEndPlat_canonical (h := h) ..
  | fnfresAnswerNothing => exact execFnfresAnswerNothing_canonical (h := h) ..
  | bankSwitchComplete => exact execBankSwitchComplete_memNext (h := h) ..
  | trapDelivery => exact execTrapDelivery_memNext (h := h) ..
  | trapCapture => exact execTrapCapture_canonical (h := h) ..
  | handlerStart => exact execHandlerStart_canonical (h := h) ..
  | rteResume => exact execRteResume_memNext (h := h) ..
  | latchReinject => exact execLatchReinject_memNext (h := h) ..
  | timerMatch => exact execTimerMatch_memNext (h := h) ..
  | promiseMiss => exact execPromiseMiss_memNext (h := h) ..
  | engineCommandBegin => exact execEngineCommandBegin_memNext (h := h) ..
  | engineMicroStep => exact execEngineMicroStep_canonical (h := h) ..
  | engineCommandComplete => exact execEngineCommandComplete_memNext (h := h) ..
  | eccFreezeBegin => exact execEccFreezeBegin_memNext (h := h) ..
  | eccFreezeEnd => exact execEccFreezeEnd_memNext (h := h) ..
  | selfTestEnd => exact execSelfTestEnd_memNext (h := h) ..
  | uncorrectableErrorConsumed => exact execUncorrectableErrorConsumed_canonical (h := h) ..
  | memoryUncorrectableError => exact execMemoryUncorrectableError_memNext (h := h) ..
  | pairSlotCompare => exact execPairSlotCompare_memNext (h := h) ..
  | pairCompareTimeout => exact execPairCompareTimeout_memNext (h := h) ..
  | periodicResurvey => exact execPeriodicResurvey_memNext (h := h) ..
  | resurveyEnd => exact execResurveyEnd_memNext (h := h) ..
  | surveyChangePost => exact execSurveyChangePost_memNext (h := h) ..
  | thermalStop => exact execThermalStop_memNext (h := h) ..
  | thermalPowerOff => exact execThermalPowerOff_memNext (h := h) ..
  | readinessDeadline => exact execReadinessDeadline_canonical (h := h) ..
  | readinessVerdict => exact execReadinessVerdict_canonical (h := h) ..
  | verdictTimeout => exact execVerdictTimeout_canonical (h := h) ..
  | platRelease => exact execPlatRelease_canonical (h := h) ..
  | priorityAging => exact execPriorityAging_memNext (h := h) ..
  | runQuantumExpiry => exact execRunQuantumExpiry_memNext (h := h) ..
  | forcedStop => exact execForcedStop_canonical (h := h) ..
  | platResume => exact execPlatResume_canonical (h := h) ..
  | loaderRequest => exact execLoaderRequest_canonical (h := h) ..
  | templatePass => exact execTemplatePass_canonical (h := h) ..
  | profilePass => exact execProfilePass_canonical (h := h) ..
  | manselWrite => exact execManselWrite_memNext (h := h) ..
  | jopenWrite => exact execJopenWrite_memNext (h := h) ..
  | jcloseWrite => exact execJcloseWrite_memNext (h := h) ..
  | losscntClear => exact execLosscntClear_memNext (h := h) ..
  | mirentWrite => exact execMirentWrite_memNext (h := h) ..
  | plostClear => exact execPlostClear_memNext (h := h) ..
  | hsemAcquire => exact execHsemAcquire_memNext (h := h) ..
  | hsemRelease => exact execHsemRelease_memNext (h := h) ..
  | fnctlRst => exact execFnctlRst_canonical (h := h) ..
  | functionResetComplete => exact execFunctionResetComplete_memNext (h := h) ..
  | fnctlGo => exact execFnctlGo_memNext (h := h) ..
  | fnctlEn => exact execFnctlEn_memNext (h := h) ..
  | fnjobsWrite => exact execFnjobsWrite_memNext (h := h) ..
  | feataccWrite => exact execFeataccWrite_memNext (h := h) ..
  | featmaskWrite => exact execFeatmaskWrite_memNext (h := h) ..
  | fnnotifyWrite => exact execFnnotifyWrite_memNext (h := h) ..
  | fnerrclrWrite => exact execFnerrclrWrite_memNext (h := h) ..
  | attctlRequest => exact execAttctlRequest_memNext (h := h) ..
  | attestReportReady => exact execAttestReportReady_memNext (h := h) ..
  | dbgreqRequest => exact execDbgreqRequest_memNext (h := h) ..
  | dbgreqWithdraw => exact execDbgreqWithdraw_memNext (h := h) ..
  | registerWrite => exact execRegisterWrite_memNext (h := h) ..
  | hostBar2Write => exact execHostBar2Write_canonical (h := h) ..
  | hostBar2Read => exact execHostBar2Read_memNext (h := h) ..
  | hostConfigRequest => exact execHostConfigRequest_memNext (h := h) ..
  | portReset => exact execPortReset_memNext (h := h) ..
  | powerOn => exact execPowerOn_memNext (h := h) ..
  | dhcpv6Timeout => exact execDhcpv6Timeout_memNext (h := h) ..
  | imageFetchComplete => exact execImageFetchComplete_memNext (h := h) ..
  | firmwareUpdate => exact execFirmwareUpdate_memNext (h := h) ..
  | moduleReset => exact execModuleReset_memNext (h := h) ..
  | ptimeSync => exact execPtimeSync_memNext (h := h) ..
  | mrepairNoAnswer => exact execMrepairNoAnswer_memNext (h := h) ..
  | hostPortTrained => exact execHostPortTrained_memNext (h := h) ..

/-! ### Memory through the functions of Machine/Turn -/

theorem runFetched_canonical (s : State) (h : Canonical s.mem) : MemNext Canonical (runFetched s) := by
  unfold runFetched
  split
  · exact h
  · next i _ _ =>
    have he := exec_canonical i s h
    revert he
    cases exec i s with
    | next t => exact fun ht => of_mem_eq Canonical (t.afterWord_mem i) ht
    | fault r => exact id
    | refused r => exact id

theorem State.tried_canonical (s : State) (i : StreamId) (h : Canonical s.mem) : ∀ t ∈ s.tried i, Canonical t.mem := by
  unfold State.tried
  extract_lets t word
  have hw (u : State) (hu : Canonical u.mem) : ∀ v ∈ word u, Canonical v.mem := by
    have hr := runFetched_canonical u hu
    unfold word
    revert hr
    cases runFetched u with
    | next v => exact fun hv _ e => Option.some.inj e ▸ hv
    | fault r => exact fun _ v e => absurd e (Option.not_mem_none v)
    | refused r => exact fun _ v e => absurd e (Option.not_mem_none v)
  split
  · have he := exec_canonical .blockFetch t h
    revert he
    cases exec .blockFetch t with
    | next u =>
      intro hu
      dsimp only
      split
      · exact fun _ e => Option.some.inj e ▸ hu
      · exact hw u hu
    | fault r => exact fun _ v e => absurd e (Option.not_mem_none v)
    | refused r => exact fun _ v e => absurd e (Option.not_mem_none v)
  · exact hw t h
  · exact fun v e => absurd e (Option.not_mem_none v)

theorem State.check_canonical (s : State) (c : CtxId) (h : Canonical s.mem) : Canonical (s.check c).mem := by
  unfold State.check
  split
  · exact h
  · extract_lets c' a' fault trap
    have hf (o : Option State) (p : State → Bool) (ho : ∀ u ∈ o, Canonical u.mem) : ∀ u ∈ o.filter p, Canonical u.mem :=
      fun u hu => ho u (Option.mem_filter_iff.mp hu).1
    have ho (o q : Option State) (h1 : ∀ u ∈ o, Canonical u.mem) (h2 : ∀ u ∈ q, Canonical u.mem) : ∀ u ∈ o.or q, Canonical u.mem := by
      cases o with
      | none => exact h2
      | some v => exact h1
    have hc := s.tried_canonical ⟨c, .c⟩ h
    have ha := s.tried_canonical ⟨c, .a⟩ h
    have hv := s.tried_canonical ⟨c, .v⟩ h
    split
    · next u hu =>
      refine ho _ _ ?_ (hf _ _ ha) u hu
      split
      · exact fun v e => absurd e (Option.not_mem_none v)
      · exact hf _ _ hc
    · split
      · exact h
      · split
        · next u hu =>
          have hcu : Canonical u.mem := ho _ _ (ho _ _ (hf _ _ hc) (hf _ _ ha)) (hf _ _ hv) u hu
          split
          · split <;> exact hcu
          · exact hcu
        · split <;> exact h

theorem State.pastHeader_canonical (s : State) (i j : StreamId) (h : Canonical s.mem) :
    Canonical (s.pastHeader i j).mem := by
  unfold State.pastHeader
  split
  · have he := exec_canonical .blockFetch { s with foc := j } h
    revert he
    cases exec .blockFetch { s with foc := j } with
    | next t => exact id
    | fault r => exact fun _ => h
    | refused r => exact fun _ => h
  · exact h

theorem turnStep_canonical (s : State) (h : Canonical s.mem) : MemNext Canonical (turnStep s) := by
  unfold turnStep
  split
  · exact s.tick_canonical h
  · exact State.check_canonical (h := of_mem_eq Canonical (State.arrivalsDone_mem _ _ _) h) ..
  · next i rest _ =>
    extract_lets t t1
    split
    · exact h
    · split
      · exact h
      · refine (?_ : Canonical (State.mem _))
        split <;> exact h
      · exact h
      · split
        · exact h
        · exact exec_canonical .blockFetch _ h
      · split
        · exact h
        · exact runFetched_canonical t h

theorem stepOnce_canonical (s : State) (h : Canonical s.mem) : MemNext Canonical (stepOnce s) := by
  unfold stepOnce
  split
  · split
    · exact exec_canonical _ _ h
    · exact turnStep_canonical s h
  · exact turnStep_canonical s h

/-- Settles O58: every word and every event keeps the canonical form (`exec_canonical`), and a step runs one of them or begins the
next clk. -/
theorem memoryStaysCanonical : Obligations.MemoryStaysCanonical := by
  unfold Obligations.MemoryStaysCanonical
  intro s t h ht
  have hs := stepOnce_canonical s h
  rw [← step, ht] at hs
  exact hs

end Sys2Proof.Machine

namespace Sys2Proof.Machine

/-! ## Scalar arithmetic: what the model's operations are on integers (14 R318, R321) -/

theorem opMin_eq (x y : Word) : opMin x y = if y.toInt < x.toInt then y else x := by simp [opMin, BitVec.slt]

theorem opMax_eq (x y : Word) : opMax x y = if x.toInt < y.toInt then y else x := by simp [opMax, BitVec.slt]

theorem opMinu_eq (x y : Word) : opMinu x y = if y.toNat < x.toNat then y else x := by simp [opMinu, BitVec.ult]

theorem opMaxu_eq (x y : Word) : opMaxu x y = if x.toNat < y.toNat then y else x := by simp [opMaxu, BitVec.ult]

theorem rbOffset_eq (y : Word) : rbOffset y = y.toNat / 256 % 64 := by
  simp only [rbOffset, wfield, fieldOf, Nat.shiftRight_eq_div_pow, Nat.reducePow]

theorem rbWidth_eq (y : Word) : rbWidth y = Nat.min (y.toNat % 128) 64 := by
  simp only [rbWidth, wfield, fieldOf, Nat.shiftRight_eq_div_pow, Nat.reducePow, Nat.div_one]

theorem opBext_eq (x : Word) (o wd : Nat) : opBext x o wd = BitVec.ofNat 64 (x.toNat / 2 ^ o % 2 ^ Nat.min wd (64 - o)) := by
  rw [opBext, wfield, fieldOf, Nat.shiftRight_eq_div_pow, fieldWidth]

theorem opBexts_eq (x : Word) (o wd : Nat) :
    opBexts x o wd = BitVec.ofInt 64 (sextInt (Nat.min wd (64 - o)) (x.toNat / 2 ^ o % 2 ^ Nat.min wd (64 - o))) := by
  rw [opBexts, sextW, wfield, fieldOf, Nat.shiftRight_eq_div_pow, fieldWidth]

/-! The register forms take the offset and the width from rb (14 R321). -/

theorem opBext_rb (x y : Word) : opBext x (rbOffset y) (rbWidth y) =
    BitVec.ofNat 64 (x.toNat / 2 ^ (y.toNat / 256 % 64) % 2 ^ Nat.min (Nat.min (y.toNat % 128) 64) (64 - y.toNat / 256 % 64)) := by
  rw [opBext_eq, rbOffset_eq, rbWidth_eq]

theorem opBexts_rb (x y : Word) : opBexts x (rbOffset y) (rbWidth y) =
    BitVec.ofInt 64 (sextInt (Nat.min (Nat.min (y.toNat % 128) 64) (64 - y.toNat / 256 % 64))
      (x.toNat / 2 ^ (y.toNat / 256 % 64) % 2 ^ Nat.min (Nat.min (y.toNat % 128) 64) (64 - y.toNat / 256 % 64))) := by
  rw [opBexts_eq, rbOffset_eq, rbWidth_eq]

theorem opBins_rb (d x y : Word) : opBins d x (rbOffset y) (rbWidth y) =
    withField d (y.toNat / 256 % 64) (Nat.min (Nat.min (y.toNat % 128) 64) (64 - y.toNat / 256 % 64)) x.toNat := by
  rw [opBins, fieldWidth, rbOffset_eq, rbWidth_eq]

/-- The leading zeros are the run of zeros from the top bit down. -/
theorem leadZeros_eq (x : Word) (n : Nat) :
    leadZeros x n = ((List.range n).takeWhile (fun i => !x.getLsbD (n - 1 - i))).length := by
  induction n with
  | zero => rfl
  | succ n ih =>
    rw [leadZeros, List.range_succ_eq_map, List.takeWhile_cons, List.takeWhile_map]
    have hshift : ((fun i => !x.getLsbD (n + 1 - 1 - i)) ∘ Nat.succ) = fun i => !x.getLsbD (n - 1 - i) := by
      funext i
      simp only [Function.comp_apply]
      congr 2
      omega
    rw [hshift, ih]
    cases hb : x.getLsbD n <;> simp [hb]

/-- The trailing zeros are the run of zeros from a bit up. -/
theorem trailZeros_eq (x : Word) (n k : Nat) :
    trailZeros x n k = ((List.range n).takeWhile (fun i => !x.getLsbD (k + i))).length := by
  induction n generalizing k with
  | zero => rfl
  | succ n ih =>
    rw [trailZeros, List.range_succ_eq_map, List.takeWhile_cons, List.takeWhile_map]
    have hshift : ((fun i => !x.getLsbD (k + i)) ∘ Nat.succ) = fun i => !x.getLsbD (k + 1 + i) := by
      funext i
      simp only [Function.comp_apply]
      congr 2
      omega
    rw [hshift, ih]
    cases x.getLsbD k <;> simp

theorem oneBits_eq (x : Word) (n : Nat) : oneBits x n = ((List.range n).filter (fun i => x.getLsbD i)).length := by
  induction n with
  | zero => rfl
  | succ n ih =>
    rw [oneBits, ih, List.range_succ, List.filter_append, List.length_append]
    cases hb : x.getLsbD n <;> simp [hb, bit, Nat.add_comm]

/-! ## Scalar words that are ready -/

theorem State.Ready.alu3 {s : State} {g : Guard} {a b d : BitVec 5} {lat : Nat}
    (h : s.Ready { guard := g, srcs := [a.toNat, b.toNat], dsts := [(d.toNat, lat)] }) {op : Word → Word → Word} {v : Word}
    (hv : op (s.rd a) (s.rd b) = v) : alu3 lat op g b a d s = .next ((s.resWord d.toNat lat v).issued 2) := by
  subst hv
  exact h.word32 rfl

theorem State.Ready.alu1 {s : State} {g : Guard} {a d : BitVec 5} (h : s.Ready { guard := g, srcs := [a.toNat], dsts := [(d.toNat, 1)] })
    {op : Word → Word} {v : Word} (hv : op (s.rd a) = v) : alu1 op g a d s = .next ((s.resWord d.toNat 1 v).issued 2) := by
  subst hv
  exact h.word32 rfl

theorem State.Ready.aluI {s : State} {a d : BitVec 5} {lat : Nat} (h : s.Ready { srcs := [a.toNat], dsts := [(d.toNat, lat)] })
    {op : Word → Word → Word} {imm v : Word} (hv : op (s.rd a) imm = v) :
    aluI lat op imm a d s = .next ((s.resWord d.toNat lat v).issued 2) := by
  subst hv
  exact h.word32 rfl

theorem State.Ready.execBins {s : State} {g : Guard} {a b d : BitVec 5}
    (h : s.Ready { guard := g, srcs := [a.toNat, b.toNat, d.toNat], dsts := [(d.toNat, 1)] }) :
    execBins g b a d s = .next ((s.resWord d.toNat 1 (withField (s.rd d) ((s.rd b).toNat / 256 % 64)
      (Nat.min (Nat.min ((s.rd b).toNat % 128) 64) (64 - (s.rd b).toNat / 256 % 64)) (s.rd a).toNat)).issued 2) := by
  rw [← opBins_rb]
  exact h.word32 rfl

theorem State.Ready.execBinsi {s : State} {w o : BitVec 6} {a d : BitVec 5}
    (h : s.Ready { srcs := [a.toNat, d.toNat], dsts := [(d.toNat, 1)] }) :
    execBinsi w o a d s = .next ((s.resWord d.toNat 1 (withField (s.rd d) o.toNat
      (Nat.min (if w = 0 then 64 else w.toNat) (64 - o.toNat)) (s.rd a).toNat)).issued 2) :=
  h.word32 (by rw [opBins, fieldWidth, immWidth])

/-- Settles O1: the words of one shape have one result lemma, and each operation is what 14 R318 and R321 write. -/
theorem scalarRegisterResults : Obligations.ScalarRegisterResults := by
  unfold Obligations.ScalarRegisterResults
  intro s g b a d
  refine ⟨fun h => ?_, fun h => ⟨h.alu3 rfl, h.alu3 rfl⟩,
    fun h => h.execBins, fun h => ?_⟩
  · simp only [exec_add, exec_sub, exec_and, exec_or, exec_xor, exec_andn, exec_shl, exec_shr, exec_sar, exec_rol, exec_min, exec_max,
      exec_minu, exec_maxu, exec_bext, exec_bexts]
    exact ⟨h.alu3 rfl, h.alu3 rfl, h.alu3 rfl, h.alu3 rfl, h.alu3 rfl, h.alu3 rfl, h.alu3 rfl, h.alu3 rfl, h.alu3 rfl, h.alu3 rfl,
      h.alu3 (opMin_eq _ _), h.alu3 (opMax_eq _ _), h.alu3 (opMinu_eq _ _), h.alu3 (opMaxu_eq _ _),
      h.alu3 (opBext_rb _ _), h.alu3 (opBexts_rb _ _)⟩
  · simp only [exec_clz, exec_ctz, exec_popc]
    exact ⟨h.alu1 (by rw [leadZeros_eq]), h.alu1 (by simp only [trailZeros_eq, Nat.zero_add]), h.alu1 (by rw [oneBits_eq])⟩

/-! ## Immediate forms (14 R319 to R321; 13 R307) -/

/-- A shift amount of 6 bits is below 64. -/
theorem setWidth_shamt (k : BitVec 6) : (k.setWidth 64 : Word).toNat % 64 = k.toNat := by
  have := k.isLt
  simp
  omega

theorem shl12_eq_mul (u : Word) : u <<< 12 = u * 4096 := by
  rw [BitVec.shiftLeft_eq_mul_twoPow]
  rfl

theorem State.Ready.execLui {s : State} {d : BitVec 5} (h : s.Ready { dsts := [(d.toNat, 1)] }) (u : BitVec 20) :
    execLui u d s = .next ((s.resWord d.toNat 1 (u.signExtend 64 * 4096)).issued 2) := by
  rw [← shl12_eq_mul]
  exact h.word32 rfl

theorem State.Ready.execAuib {s : State} {d : BitVec 5} (h : s.Ready { dsts := [(d.toNat, 1)] }) (u : BitVec 20) :
    execAuib u d s = .next ((s.resWord d.toNat 1 (BitVec.ofNat 64 s.fstrm.blk + u.signExtend 64 * 4096)).issued 2) := by
  rw [← shl12_eq_mul]
  exact h.word32 rfl

theorem State.Ready.execMvh {s : State} {a d : BitVec 5} (hst : s.foc.st ≠ .v) (h : s.Ready { srcs := [a.toNat], dsts := [(d.toNat, 1)] }) :
    execMvh a d s = .next ((s.resWord d.toNat 1 (s.rd a)).issued 1) := by
  rw [Machine.execMvh, if_neg hst]
  exact h.word16 rfl

/-- Settles O2: the forms with an immediate have one result lemma; LUI and AUIB shift by 12. -/
theorem scalarImmediateResults : Obligations.ScalarImmediateResults := by
  unfold Obligations.ScalarImmediateResults
  intro s m k w o u a d
  refine ⟨fun h => ?_, fun h => h.aluI rfl, fun h => h.execBinsi, fun h => ⟨h.execLui u, h.execAuib u⟩, fun h => h.word16 rfl,
    fun hst h => h.execMvh hst⟩
  simp only [exec_addi, exec_andi, exec_ori, exec_xori, exec_shli, exec_shri, exec_sari, exec_bexti]
  exact ⟨h.aluI rfl, h.aluI rfl, h.aluI rfl, h.aluI rfl, h.aluI (by rw [opShl, setWidth_shamt]), h.aluI (by rw [opShr, setWidth_shamt]),
    h.aluI (by rw [opSar, setWidth_shamt]), h.aluI (opBext_eq _ _ _)⟩

end Sys2Proof.Machine

namespace Sys2Proof.Machine

/-! ## A BRL that is not the last word of its block (14 R332) -/

/-- The phase of the context in focus after a word. -/
def nextPhase : Host.Outcome State Fault Refusal → Option Phase
  | .next t => some t.fctx.phase
  | _ => none

/-- In the reset state the word at halfword 0 is not the last of its block: a BRL there raises ILLEGAL, whatever its guard says. -/
theorem nextPhase_brl_reset : nextPhase (exec (.brl ⟨true, 0⟩ 0) State.reset) = some (.stopping 0) := rfl

theorem nextPhase_issued_reset : nextPhase (.next (State.reset.issued 2)) = some .running := rfl

/-- Refutes O5: a BRL whose guard is false raises ILLEGAL all the same where it is not the last word of its block, as C's BRL with the
guard !p0 at the position of the reset state. -/
theorem not_falseGuardIssues : ¬ Obligations.FalseGuardIssues := by
  unfold Obligations.FalseGuardIssues
  intro h
  obtain ⟨hwords, -⟩ := h State.reset ⟨true, 0⟩ 0 0 0 0 0 rfl rfl rfl
  have hbrl : exec (.brl ⟨true, 0⟩ 0) State.reset = .next (State.reset.issued 2) := hwords _ (by simp)
  have hphase := nextPhase_brl_reset
  rw [hbrl, nextPhase_issued_reset] at hphase
  cases hphase

end Sys2Proof.Machine

namespace Sys2Proof.Machine

/-! ## How a ready word ends -/

section
variable {s s' : State} {n : Need} {body : State → Res} {code cause : Nat} {tval : Word}

theorem State.Ready.word32_waits (h : s.Ready n) (hb : body s = .wait code s') : Machine.word32 n body s = .next (s'.waits code) := by
  rw [Machine.word32, h.runWord, hb]

theorem State.Ready.word32_jumped (h : s.Ready n) (hb : body s = .jumped s') :
    Machine.word32 n body s = .next (s'.charge s'.foc 0) := by
  rw [Machine.word32, h.runWord, hb]

theorem State.Ready.word32_traps (h : s.Ready n) (hb : body s = .trap cause tval) :
    Machine.word32 n body s = .next (s.raise cause tval) := by
  rw [Machine.word32, h.runWord, hb]

theorem State.Ready.word16_jumped (h : s.Ready n) (hb : body s = .jumped s') :
    Machine.word16 n body s = .next (s'.charge s'.foc 0) := by
  rw [Machine.word16, h.runWord, hb]

theorem State.Ready.word16_traps (h : s.Ready n) (hb : body s = .trap cause tval) :
    Machine.word16 n body s = .next (s.raise cause tval) := by
  rw [Machine.word16, h.runWord, hb]

end

/-! ## What a flush leaves (08 R213) -/

/-- A fold of operations that keep a part of the state keeps it. -/
theorem State.foldl_keeps {α β : Type} {f : State → α → State} {l : List α} {s : State} (part : State → β)
    (h : ∀ t a, part (f t a) = part t) : part (l.foldl f s) = part s := by
  induction l generalizing s with
  | nil => rfl
  | cons a l ih => rw [List.foldl_cons, ih, h]

@[simp] theorem State.flush_foc (s : State) (c : CtxId) : (s.flush c).foc = s.foc := State.foldl_keeps State.foc fun _ _ => rfl

@[simp] theorem State.flush_clk (s : State) (c : CtxId) : (s.flush c).clk = s.clk := State.foldl_keeps State.clk fun _ _ => rfl

@[simp] theorem State.flush_ctxs (s : State) (c : CtxId) : (s.flush c).ctxs = s.ctxs := State.foldl_keeps State.ctxs fun _ _ => rfl

/-! ## Scalar queues (14 R324; 07 R169; 09 R244) -/

section
variable {s : State} {g : Guard} {p q a d : BitVec 5} {e : Word}

/-- A descriptor of q15 is taken only while no handler is open (14 R324). -/
theorem handlerOpen_eq_false {s : State} (hq : q = 15 → s.fctx.handler = none) : (q = 15 && s.fctx.handler.isSome) = false := by
  by_cases h : q = 15
  · simp [hq h]
  · rw [decide_eq_false h]
    rfl

/-- The state after a scalar queue gave its oldest element. -/
def State.popped (s : State) (q : BitVec 5) (e : Word) : State :=
  s.modF (fun x => (x.putSq q.toNat ((x.sq q.toNat).take s.clk)).openHandler q.toNat e)

theorem State.Ready.execMovqPop (h : s.Ready { guard := g, dsts := [(d.toNat, 1)] }) (hn : s.fctx.normal = true)
    (he : (s.fctx.sq q.toNat).head s.clk = some e) (hq : q = 15 → s.fctx.handler = none) :
    Machine.execMovqPop g q d s = .next (((s.popped q e).resWord d.toNat 1 e).issued 2) := by
  rw [Machine.execMovqPop, hn]
  refine h.word32 ?_
  simp only [he, handlerOpen_eq_false hq]
  rfl

theorem State.Ready.execTrypopQueue_empty (h : s.Ready { guard := g, dsts := [(d.toNat, 1), (codeP p.toNat, 1)] })
    (hn : s.fctx.normal = true) (he : (s.fctx.sq q.toNat).head s.clk = none) :
    Machine.execTrypopQueue g p q d s = .next ((s.resPred p.toNat false).issued 2) := by
  rw [Machine.execTrypopQueue, hn]
  refine h.word32 ?_
  simp only [he]

theorem State.Ready.execTrypopQueue_some (h : s.Ready { guard := g, dsts := [(d.toNat, 1), (codeP p.toNat, 1)] })
    (hn : s.fctx.normal = true) (he : (s.fctx.sq q.toNat).head s.clk = some e) (hq : q = 15 → s.fctx.handler = none) :
    Machine.execTrypopQueue g p q d s = .next ((((s.popped q e).resWord d.toNat 1 e).resPred p.toNat true).issued 2) := by
  rw [Machine.execTrypopQueue, hn]
  refine h.word32 ?_
  simp only [he, handlerOpen_eq_false hq]
  rfl

theorem State.Ready.execMovqPush (h : s.Ready { guard := g, srcs := [a.toNat] }) (hn : s.fctx.normal = true)
    (hroom : (s.fctx.sq q.toNat).full (sqDepth q.toNat) s.clk = false) (hrel : (s.flush s.foc.ctx).unreleased s.foc = false) :
    Machine.execMovqPush g a q s = .next (((s.flush s.foc.ctx).modF (fun x => x.putSq q.toNat
      ((x.sq q.toNat).add ((s.flush s.foc.ctx).rd a) ((s.flush s.foc.ctx).clk + 2)))).issued 2) := by
  rw [Machine.execMovqPush, hn]
  refine h.word32 ?_
  simp [hroom, hrel]

theorem State.Ready.execMovqPush_waits (h : s.Ready { guard := g, srcs := [a.toNat] }) (hn : s.fctx.normal = true)
    (hroom : (s.fctx.sq q.toNat).full (sqDepth q.toNat) s.clk = false) (hrel : (s.flush s.foc.ctx).unreleased s.foc = true) :
    Machine.execMovqPush g a q s = .next ((s.flush s.foc.ctx).waits 0x03) := by
  rw [Machine.execMovqPush, hn]
  refine h.word32_waits ?_
  simp [hroom, hrel]

end

/-- Settles O6: each queue word takes the branch that the queue's head, or the release, says. -/
theorem scalarQueueWords : Obligations.ScalarQueueWords := by
  unfold Obligations.ScalarQueueWords
  intro s g p b a d e hn
  simp only [exec_movqPop, exec_movqPush, exec_trypopQueue]
  exact ⟨fun h he hq => h.execMovqPop hn he hq, fun h hroom => ⟨h.execMovqPush hn hroom, h.execMovqPush_waits hn hroom⟩,
    fun h => ⟨h.execTrypopQueue_empty hn, h.execTrypopQueue_some hn⟩⟩

/-! ## Branches (14 R331, R332; 07 R165) -/

/-- The bubble clk of a branch through a register: 6 less the clk since its prepare (14 R332). -/
def State.bubbles (s : State) (t : Nat) : Nat := 6 - (s.clk - s.fstrm.prepClk t)

theorem branchTo_not_header {s : State} {t : Nat} (h : s.isHeader (s.fstrm.branch t).toNat = false) (link : Option Half) :
    branchTo t link s = .trap cILLEGAL (s.firstHalf.setWidth 64) := by
  rw [branchTo, h]
  rfl

theorem branchTo_header {s : State} {t : Nat} (h : s.isHeader (s.fstrm.branch t).toNat = true) :
    branchTo t none s = .jumped (s.modFs (fun y => y.jump (s.fstrm.branch t).toNat (s.bubbles t))) := by
  rw [branchTo, h]
  rfl

theorem branchTo_header_link {s : State} {t : Nat} (h : s.isHeader (s.fstrm.branch t).toNat = true) (l : Half) :
    branchTo t (some l) s =
      .jumped (s.modFs (fun y => (y.setBranch 7 l s.clk).jump (s.fstrm.branch t).toNat (s.bubbles t))) := by
  rw [branchTo, h]
  rfl

theorem State.Ready.execBrl {s : State} {g : Guard} {t : BitVec 3}
    (h : s.Ready { guard := g, srcs := [codeB t.toNat], dsts := [(codeB 7, 1)] })
    (hh : s.isHeader (s.fstrm.branch t.toNat).toNat = true) (hlast : s.fstrm.pc + 2 = s.fstrm.blk + 4 + s.fstrm.len) :
    execBrl g t s = .next ((s.modFs (fun y => (y.setBranch 7 (BitVec.ofNat 16 (y.blk + 4 + y.len)) s.clk).jump
      (s.fstrm.branch t.toNat).toNat (s.bubbles t.toNat))).charge s.foc 0) := by
  have hl : s.fstrm.lastWord 2 = true := by
    rw [StreamSt.lastWord, hlast]
    exact beq_self_eq_true _
  rw [Machine.execBrl, hl]
  exact h.word32_jumped (branchTo_header_link hh _)

/-- Settles O7: a branch either jumps to the header or raises ILLEGAL (`branchTo_header`, `branchTo_not_header`). -/
theorem branchWords : Obligations.BranchWords := by
  unfold Obligations.BranchWords
  refine ⟨fun s g o a t => ⟨fun h => h.word32 rfl, fun h => h.word32 rfl, fun hh => ?_⟩, fun s g t h hh => ?_⟩
  · simp only [exec_br, exec_brh, exec_brl]
    exact ⟨fun h => ⟨h.word32_jumped (branchTo_header hh), h.word16_jumped (branchTo_header hh)⟩, fun h hlast => h.execBrl hh hlast⟩
  · simp only [exec_br, exec_brh]
    exact ⟨h.word32_traps (branchTo_not_header hh none), h.word16_traps (branchTo_not_header hh none)⟩

end Sys2Proof.Machine

namespace Sys2Proof.Machine

/-! ## Stage loops (15 R371 to R374; 18 R400) -/

@[simp] theorem StreamSt.br_setPhysPred (y : StreamSt) (n : Nat) (b : Bool) : (y.setPhysPred n b).br = y.br := by
  unfold StreamSt.setPhysPred
  split <;> rfl

@[simp] theorem StreamSt.prep_setPhysPred (y : StreamSt) (n : Nat) (b : Bool) : (y.setPhysPred n b).prep = y.prep := by
  unfold StreamSt.setPhysPred
  split <;> rfl

@[simp] theorem Ctx.strm_setPhysMask (x : Ctx) (n : Nat) (m : Mask) (st : Stream) : (x.setPhysMask n m).strm st = x.strm st := by
  unfold Ctx.setPhysMask
  split <;> cases st <;> rfl

@[simp] theorem State.rotate_foc (s : State) (b : Bool) : (s.rotate b).foc = s.foc := by
  unfold State.rotate
  dsimp only
  split <;> rfl

@[simp] theorem State.rotate_clk (s : State) (b : Bool) : (s.rotate b).clk = s.clk := by
  unfold State.rotate
  dsimp only
  split <;> rfl

@[simp] theorem State.rotate_cores (s : State) (b : Bool) : (s.rotate b).cores = s.cores := by
  unfold State.rotate
  dsimp only
  split <;> rfl

/-- A change of a context that leaves the stream in focus leaves what that stream reads. -/
theorem State.fstrm_modF_of_strm (s : State) (f : Ctx → Ctx) (h : ∀ x, (f x).strm s.foc.st = x.strm s.foc.st) :
    (s.modF f).fstrm = s.fstrm := by
  rw [State.fstrm, State.strm, State.modF_foc, State.modF, State.ctx_modCtx_self, h]
  rfl

/-- A move of the window leaves the branch registers. -/
theorem State.rotate_br (s : State) (b : Bool) : (s.rotate b).fstrm.br = s.fstrm.br := by
  unfold State.rotate
  dsimp only
  split
  · rw [State.fstrm_modF_of_strm _ _ fun x => x.strm_setPhysMask _ _ _, State.fstrm_modFs]
  · rw [State.fstrm_modFs, StreamSt.br_setPhysPred, State.fstrm_modFs]

theorem State.rotate_prep (s : State) (b : Bool) : (s.rotate b).fstrm.prep = s.fstrm.prep := by
  unfold State.rotate
  dsimp only
  split
  · rw [State.fstrm_modF_of_strm _ _ fun x => x.strm_setPhysMask _ _ _, State.fstrm_modFs]
  · rw [State.fstrm_modFs, StreamSt.prep_setPhysPred, State.fstrm_modFs]

/-- What a branch asks of a header is the code at its target, which is that of the core in focus. -/
theorem State.isHeader_congr {s t : State} (hc : t.cores = s.cores) (hf : t.foc = s.foc) (n : Nat) : t.isHeader n = s.isHeader n := by
  simp only [State.isHeader, State.fcore, State.core, hc, hf]

/-- A branch from a state with the same code, clk and branch registers. -/
theorem branchTo_moved {s t : State} {b : Nat} (hc : t.cores = s.cores) (hf : t.foc = s.foc) (hk : t.clk = s.clk)
    (hb : t.fstrm.br = s.fstrm.br) (hp : t.fstrm.prep = s.fstrm.prep) (h : s.isHeader (s.fstrm.branch b).toNat = true) :
    branchTo b none t = .jumped (t.modFs (fun y => y.jump (s.fstrm.branch b).toNat (s.bubbles b))) := by
  have hbr : t.fstrm.branch b = s.fstrm.branch b := by rw [StreamSt.branch, StreamSt.branch, hb]
  have hbub : t.bubbles b = s.bubbles b := by rw [State.bubbles, State.bubbles, StreamSt.prepClk, StreamSt.prepClk, hp, hk]
  rw [branchTo_header (by rw [State.isHeader_congr hc hf, hbr, h]), hbr, hbub]

/-- The word of SNEXT reads its branch register and the loop registers, and while passes remain it writes p47's successor (15 R373). -/
theorem State.Ready.execSnext_last {s : State} {t : BitVec 3} (h : s.Ready { srcs := [codeB t.toNat, 200] }) (h0 : s.fstrm.tripc = 0)
    (h1 : s.fstrm.tailc = 0) : execSnext t s = .next (s.issued 2) := by
  rw [Machine.execSnext, if_pos ⟨h0, h1⟩]
  refine h.word32 ?_
  simp [h0, h1]

theorem State.Ready.execSnext_pass {s : State} {t : BitVec 3} (h : s.Ready { srcs := [codeB t.toNat, 200], dsts := [(codeP 47, 1)] })
    (hh : s.isHeader (s.fstrm.branch t.toNat).toNat = true) (h0 : s.fstrm.tripc ≠ 0) :
    execSnext t s = .next ((((s.modFs (fun y => { y with tripc := y.tripc - 1 })).rotate true).modFs
      (fun y => y.jump (s.fstrm.branch t.toNat).toNat (s.bubbles t.toNat))).charge s.foc 0) := by
  rw [Machine.execSnext, if_neg fun hz => h0 hz.1]
  refine (h.word32_jumped (s' := ((s.modFs (fun y => { y with tripc := y.tripc - 1 })).rotate true).modFs
    (fun y => y.jump (s.fstrm.branch t.toNat).toNat (s.bubbles t.toNat))) ?_).trans ?_
  · rw [if_pos h0]
    refine branchTo_moved ?_ ?_ ?_ ?_ ?_ hh
    · exact State.rotate_cores _ _
    · exact State.rotate_foc _ _
    · exact State.rotate_clk _ _
    · rw [State.rotate_br, State.fstrm_modFs]
    · rw [State.rotate_prep, State.fstrm_modFs]
  · rw [State.modFs_foc, State.rotate_foc, State.modFs_foc]

theorem State.Ready.execSnext_tail {s : State} {t : BitVec 3} (h : s.Ready { srcs := [codeB t.toNat, 200], dsts := [(codeP 47, 1)] })
    (hh : s.isHeader (s.fstrm.branch t.toNat).toNat = true) (h0 : s.fstrm.tripc = 0) (h1 : s.fstrm.tailc ≠ 0) :
    execSnext t s = .next ((((s.modFs (fun y => { y with tailc := y.tailc - 1 })).rotate false).modFs
      (fun y => y.jump (s.fstrm.branch t.toNat).toNat (s.bubbles t.toNat))).charge s.foc 0) := by
  rw [Machine.execSnext, if_neg fun hz => h1 hz.2]
  refine (h.word32_jumped (s' := ((s.modFs (fun y => { y with tailc := y.tailc - 1 })).rotate false).modFs
    (fun y => y.jump (s.fstrm.branch t.toNat).toNat (s.bubbles t.toNat))) ?_).trans ?_
  · rw [if_neg fun hz => hz h0, if_pos h1]
    refine branchTo_moved ?_ ?_ ?_ ?_ ?_ hh
    · exact State.rotate_cores _ _
    · exact State.rotate_foc _ _
    · exact State.rotate_clk _ _
    · rw [State.rotate_br, State.fstrm_modFs]
    · rw [State.rotate_prep, State.fstrm_modFs]
  · rw [State.modFs_foc, State.rotate_foc, State.modFs_foc]

theorem State.Ready.execVSloop {s : State} {e : BitVec 4} {n : Word}
    (h : s.Ready { dsts := (List.range 16).map (fun i => (codeP (32 + i), 2)), outs := [200] }) (hq : s.fctx.q1.head s.clk = some n) :
    execVSloop e s = .next ((((s.modF (fun x => { x with q1 := x.q1.take s.clk })).nextId.2).fly s.foc
      ⟨s.fresh, 200, .loop n e, s.clk + 1, true, maskAll, 0, false⟩).issued 2) := by
  refine h.word32 ?_
  simp only [hq]
  rfl

/-- The state of a stream that a STALL of `k` clk holds for `held` (07 R180, R186). -/
def State.stalled (s : State) (k held : Nat) : State :=
  s.modFs (fun y => { y with stall := held - 1, waiting := false, slip := y.slip - (k - held) })

/-- The slip that a STALL takes up shortens it; one that is done in its first clk has issued. -/
theorem State.Ready.execStall {s : State} (h : s.Ready {}) (n : BitVec 11) :
    execStall n s = .next (if stallClk (n.toNat + 1) s.fstrm.slip = 1 then
      (s.stalled (n.toNat + 1) (stallClk (n.toNat + 1) s.fstrm.slip)).issued 1
      else (s.stalled (n.toNat + 1) (stallClk (n.toNat + 1) s.fstrm.slip)).charge s.foc 0) := by
  by_cases hk : stallClk (n.toNat + 1) s.fstrm.slip = 1
  · rw [if_pos hk]
    exact h.word16 (if_pos hk)
  · rw [if_neg hk]
    exact h.word16_jumped (if_neg hk)

/-- Settles O8: the loop words by the three cases of SNEXT; STALL by its one clk or more. -/
theorem loopAndStallWords : Obligations.LoopAndStallWords := by
  unfold Obligations.LoopAndStallWords
  refine ⟨fun s e a t n => ⟨fun h => h.word32 rfl, fun h hq => h.execVSloop hq, fun h h0 h1 => h.execSnext_last h0 h1, fun h hh => ?_⟩,
    fun s n h => h.execStall n⟩
  simp only [exec_snext]
  exact ⟨fun h0 => h.execSnext_pass hh h0, fun h0 h1 => h.execSnext_tail hh h0 h1⟩

end Sys2Proof.Machine

namespace Sys2Proof.Machine

/-! ## Results in flight (07 R162, R180, R183) -/

theorem mem_insertDue {e x : Nat × Event} {l : List (Nat × Event)} : x ∈ insertDue e l ↔ x = e ∨ x ∈ l := by
  induction l with
  | nil => simp [insertDue]
  | cons y ys ih =>
    unfold insertDue
    split
    · simp [ih, or_left_comm]
    · simp

/-- An event that was posted stands in the agenda. -/
theorem State.mem_agenda_post (s : State) (due : Nat) (e : Event) : (due, e) ∈ (s.post due e).agenda := mem_insertDue.2 (.inl rfl)

/-- Register codes below 32 are physical numbers on C and A (07 R163). -/
theorem physCode_reg {st : Stream} (hst : st ≠ .v) (swin : Nat) (d : BitVec 5) : physCode st swin d.toNat = d.toNat := by
  rw [physCode, if_pos d.isLt, if_neg hst]

@[simp] theorem StreamSt.reg_setReg (y : StreamSt) (d n : Nat) (v : Word) :
    (y.setReg d v).reg n = if n = d ∧ n ≠ 0 then v else y.reg n := by
  unfold StreamSt.setReg StreamSt.reg
  by_cases hn : n = 0
  · simp [hn]
  · by_cases hd : d = 0
    · simp [hn, hd]
    · by_cases hnd : n = d
      · subst hnd
        simp [hn, Sp.get_set]
      · simp [hn, hd, hnd, Sp.get_set]

/-- A result for register 0 is discarded (07 R162). -/
theorem State.resWord_zero (s : State) (hst : s.foc.st ≠ .v) (lat : Nat) (v : Word) : s.resWord 0 lat v = s := by
  have hreg : physCode s.foc.st s.fstrm.swin.toNat 0 = 0 := physCode_reg hst _ 0
  simp [State.resWord, State.result, hreg, discarded]

/-- A result of latency 1 is written in its clk (07 R180). -/
theorem State.fstrm_resWord_one (s : State) (hst : s.foc.st ≠ .v) (d : BitVec 5) (v : Word) :
    (s.resWord d.toNat 1 v).fstrm = s.fstrm.setReg d.toNat v := by
  rw [State.resWord, State.result, physCode_reg hst]
  by_cases hd : d.toNat = 0
  · simp [discarded, hd, StreamSt.setReg]
  · rw [if_neg (by simp [discarded, hd]), if_pos (Nat.le_refl 1), State.fstrm, State.strm, State.modF_foc, State.modF,
      State.ctx_modCtx_self]
    simp only [Ctx.land, if_true, Ctx.strm_putStrm_self]
    rfl

/-- A later one is in flight (07 R180). -/
theorem State.resWord_flies (s : State) (hst : s.foc.st ≠ .v) {d : BitVec 5} {lat : Nat} (v : Word) (hl : 2 ≤ lat) (hd : d ≠ 0) :
    s.resWord d.toNat lat v = s.nextId.2.fly s.foc ⟨s.fresh, d.toNat, .word v, s.clk + lat - 1, false, maskAll, 0, false⟩ := by
  have hd0 : d.toNat ≠ 0 := fun h => hd (BitVec.eq_of_toNat_eq h)
  rw [State.resWord, State.result, physCode_reg hst, if_neg (by simp [discarded, hd0]), if_neg (by omega)]
  rfl

theorem State.strm_fly_self (s : State) (i : StreamId) (p : Pend) :
    (s.fly i p).strm i = { s.strm i with pend := (s.strm i).pend ++ [p] } :=
  State.strm_modStrm_self s i (fun y => { y with pend := y.pend ++ [p] })

/-- A result whose landing clk is over is written, and is in flight no more (07 R180). -/
theorem State.landPend_of_due {s : State} {i : StreamId} {p : Pend} (hp : (s.strm i).pend.find? (fun q => q.id == p.id) = some p)
    (hl : p.land < s.clk) : s.landPend i p.id = (s.modCtx i.ctx (fun x =>
      (x.putStrm i.st { x.strm i.st with pend := (x.strm i.st).pend.filter (fun q => q.id != p.id) }).land i.st p)).depLanded i.ctx p := by
  rw [State.landPend, hp]
  exact if_neg (Nat.not_le.2 hl)

/-- Settles O9: latency 1 is written at once, longer ones fly (`resWord_flies`), and the three events of a landing write one. -/
theorem resultsInFlight : Obligations.ResultsInFlight := by
  unfold Obligations.ResultsInFlight
  refine ⟨fun s d lat v hst => ⟨fun n => ?_, s.resWord_zero hst lat v, fun hl hd => ?_⟩, fun s i p hp hl => ⟨fun hc => ?_, fun hc => ?_, fun hc => ?_⟩⟩
  · rw [s.fstrm_resWord_one hst, StreamSt.reg_setReg]
  · rw [s.resWord_flies hst v hl hd]
    refine ⟨?_, ?_⟩
    · exact s.nextId.2.strm_fly_self s.foc _
    · have hclk : s.clk + lat - 1 + 1 = s.clk + lat := by omega
      rw [← hclk]
      exact State.mem_agenda_post _ _ _
  · rw [exec_resultLand, execResultLand, hc]
    exact congrArg Host.Outcome.next (State.landPend_of_due hp hl)
  · rw [exec_interlockedResultArrival, execInterlockedResultArrival, hc]
    exact congrArg Host.Outcome.next (State.landPend_of_due hp hl)
  · rw [exec_latchReinject, execLatchReinject, hc]
    exact congrArg Host.Outcome.next (State.landPend_of_due hp hl)

end Sys2Proof.Machine

namespace Sys2Proof.Machine

/-! ## Where an access leads (08 R195; 14 R326) -/

/-- A translation changes no more than the core's TLB and walker. -/
theorem State.translate_leaf_foc {s s' : State} {c : CtxId} {src va : Nat} {acc : Access} {l : Leaf}
    (h : s.translate c src acc va = .leaf l s') : s'.foc = s.foc := by
  unfold State.translate at h
  extract_lets x k r page same at h
  split at h
  · split at h
    · cases h
    · cases h
      rfl
  · split at h
    · cases h
    · split at h
      · split at h
        · cases h
          rfl
        · cases h
      · split at h
        · cases h
        · split at h
          · cases h
            rfl
          · cases h

theorem State.resolve_foc {s s' : State} {acc : Access} {n : Nat} {ea : Word} {p : Place} (h : s.resolve acc n ea = .at p s') :
    s'.foc = s.foc := by
  unfold State.resolve at h
  dsimp only at h
  split at h
  · cases h
  · split at h
    · cases h
    · cases h
      rfl
  · split at h
    · cases h
    · split at h
      · cases h
      · cases h
        rfl
  · split at h
    · cases h
    · split at h
      · split_ifs at h
      · cases h
    · next ht =>
      split at h
      · cases h
      · split at h
        · cases h
        · split at h
          · cases h
          · split at h
            · cases h
              exact State.translate_leaf_foc ht
            · cases h
              exact State.translate_leaf_foc ht

/-- Whoever resolves a place keeps memory. -/
theorem State.resolve_mem {s s' : State} {acc : Access} {n : Nat} {ea : Word} {p : Place} (h : s.resolve acc n ea = .at p s') :
    s'.mem = s.mem := by
  have hm := s.resolve_memAll (Q := (· = s.mem)) acc n ea rfl
  rw [h] at hm
  exact hm

/-- A page of the own module that is not mirrored is no remote home (08 R219). -/
theorem State.byRing_here (s : State) (core pa : Nat) : s.byRing core false (modOf core) pa = false := by
  simp [State.byRing]

theorem State.byRing_away (s : State) {core mod : Nat} (pa : Nat) (mir : Bool) (h : mod ≠ modOf core) : s.byRing core mir mod pa = true := by
  simp [State.byRing, h]

/-! ## Loads (14 R325, R326) -/

section
variable {s s' : State} {n : Nat} {signed acq : Bool} {ea : Word} {rd : Nat} {p : Place}

/-- A load whose address is aligned runs at its place, unless an earlier access holds it. -/
theorem loadBody_at (ha : ea.toNat % n = 0) (hq : s.acquiring s.foc = false) (hr : s.resolve .read n ea = .at p s') :
    loadBody n signed acq ea rd s = if s'.placeHeld s'.foc false p n then .wait 0x03 s' else loadAt n signed acq rd p s' := by
  rw [loadBody, if_neg (not_not_intro ha), hq, hr]
  rfl

theorem loadBody_misaligned (ha : ea.toNat % n ≠ 0) : loadBody n signed acq ea rd s = .trap cALIGN ea := if_pos ha

/-- A load waits behind the accesses that an acquire or a FENCE before it orders (14 R327, R330). -/
theorem loadBody_acquiring (ha : ea.toNat % n = 0) (hq : s.acquiring s.foc = true) : loadBody n signed acq ea rd s = .wait 0x03 s := by
  rw [loadBody, if_neg (not_not_intro ha), if_pos hq]

theorem loadAt_mem_here {l : Leaf} {pa : Nat} (hm : l.mir = false)
    (hf : s.forwardCase s.foc.ctx.core (.global (modOf s.foc.ctx.core) (homeStation pa)) pa n = .go) :
    loadAt n signed acq rd (.mem l (modOf s.foc.ctx.core) pa) s = .done (s.freeTime.2.interlocked rd (s.clk + s.freeTime.1)
      (extendTo n signed (Memory.readLE s.mem (memKey (modOf s.foc.ctx.core) pa) n))) := by
  simp only [loadAt, hm, Bool.false_eq_true, if_false, hf, State.byRing_here]
  rfl

theorem loadAt_mem_away {l : Leaf} {home pa : Nat} (hm : l.mir = false) (hh : home ≠ modOf s.foc.ctx.core)
    (hf : s.forwardCase s.foc.ctx.core (.global home (homeStation pa)) pa n = .go) :
    loadAt n signed acq rd (.mem l home pa) s = s.loadRemote rd n signed acq (.global home (homeStation pa)) pa false (l.ord == 0) := by
  simp only [loadAt, hm, Bool.false_eq_true, if_false, hf, State.byRing_away s pa false hh, if_true]

end

section
variable {s s' : State} {n : Nat} {signed acq : Bool} {m : BitVec 12} {b r : BitVec 5}

theorem State.Ready.loadWord_held (h : s.Ready { srcs := [b.toNat], outs := [r.toNat] }) (hq : s.acquiring s.foc = false)
    (ha : (s.ea b m).toNat % n = 0) {p : Place} (hr : s.resolve .read n (s.ea b m) = .at p s')
    (hp : s'.placeHeld s'.foc false p n = true) : loadWord n signed acq m b r s = .next (s'.waits 0x03) :=
  h.word32_waits (by rw [loadBody_at ha hq hr, if_pos hp])

theorem State.Ready.loadWord_at (h : s.Ready { srcs := [b.toNat], outs := [r.toNat] }) (hq : s.acquiring s.foc = false)
    (ha : (s.ea b m).toNat % n = 0) {p : Place} {t : State} (hr : s.resolve .read n (s.ea b m) = .at p s')
    (hp : s'.placeHeld s'.foc false p n = false) (hl : loadAt n signed acq r.toNat p s' = .done t) :
    loadWord n signed acq m b r s = .next (t.issued 2) :=
  h.word32 (by rw [loadBody_at ha hq hr, hp]; exact hl)

/-- What a load of one size does at a buffer, at the module's memory, and behind an earlier access (14 R326; 09 R241). -/
theorem State.Ready.loadWord_results (h : s.Ready { srcs := [b.toNat], outs := [r.toNat] }) (hq : s.acquiring s.foc = false)
    (n : Nat) (signed acq : Bool) (ha : (s.ea b m).toNat % n = 0) :
    (∀ k off, s.resolve .read n (s.ea b m) = .at (.buf k off) s' → s'.placeHeld s'.foc false (.buf k off) n = false →
      loadWord n signed acq m b r s = .next ((s'.loadNear r.toNat n signed (.buf k off)).issued 2)) ∧
    (∀ l pa, s.resolve .read n (s.ea b m) = .at (.mem l (modOf s'.foc.ctx.core) pa) s' → l.mir = false →
      s'.placeHeld s'.foc false (.mem l (modOf s'.foc.ctx.core) pa) n = false →
      s'.forwardCase s'.foc.ctx.core (.global (modOf s'.foc.ctx.core) (homeStation pa)) pa n = .go →
      loadWord n signed acq m b r s = .next ((s'.freeTime.2.interlocked r.toNat (s'.clk + s'.freeTime.1)
        (extendTo n signed (Memory.readLE s'.mem (memKey (modOf s'.foc.ctx.core) pa) n))).issued 2)) ∧
    (∀ p, s.resolve .read n (s.ea b m) = .at p s' → s'.placeHeld s'.foc false p n = true →
      loadWord n signed acq m b r s = .next (s'.waits 0x03)) :=
  ⟨fun _ _ hr hp => h.loadWord_at hq ha hr hp rfl, fun _ _ hr hm hp hf => h.loadWord_at hq ha hr hp (loadAt_mem_here hm hf),
    fun _ hr hp => h.loadWord_held hq ha hr hp⟩

end

/-! ## Loads that read a buffer (16 R375) -/

theorem State.nearRead_buf {s : State} {core k off : Nat} {l : NearLoad} (hl : l.src = .buf k off)
    (hp : (s.core core).poisoned k off l.n = false) :
    s.nearRead core l = s.modStrm l.strm (fun y => { y with pend := y.pend.map (fun p =>
      if p.id = l.id then { p with val := .word (extendTo l.n l.signed (ofBytesLE (Memory.readN ((s.core core).buf k) off l.n))) } else p) }) := by
  simp only [State.nearRead, CoreSt.nearBytes, CoreSt.nearPoison, hl, hp]
  rfl

theorem State.nearDone_single {s : State} {core : Nat} {l : NearLoad} (h : (s.core core).near = [l]) :
    s.nearDone core = (s.modCore core (fun c => { c with near := [] })).nearRead core l := by
  rw [State.nearDone, h]
  rfl

/-- Settles O10: one lemma for the loads of every size (`loadWord_results`); the remote case is `loadAt_mem_away`. -/
theorem loadResults : Obligations.LoadResults := by
  unfold Obligations.LoadResults
  refine ⟨fun s s' sc m b r h hq => ?_, fun s s' m b r l home pa h hq ha hr hm hh hp hf => ?_, fun s core k off l hl hp => ⟨?_, State.nearDone_single⟩⟩
  · intro ea forms i n signed hi ha
    have hw (acq : Bool) := h.loadWord_results (s' := s') hq n signed acq ha
    simp only [forms, List.mem_cons, List.not_mem_nil, or_false, Prod.mk.injEq] at hi
    obtain ⟨rfl, rfl, rfl⟩ | ⟨rfl, rfl, rfl⟩ | ⟨rfl, rfl, rfl⟩ | ⟨rfl, rfl, rfl⟩ | ⟨rfl, rfl, rfl⟩ | ⟨rfl, rfl, rfl⟩ | ⟨rfl, rfl, rfl⟩ |
      ⟨rfl, rfl, rfl⟩ := hi
    · exact hw false
    · exact hw false
    · exact hw false
    · exact hw false
    · exact hw false
    · exact hw false
    · exact hw false
    · exact hw true
  · exact h.loadWord_at hq ha hr hp (loadAt_mem_away hm hh hf)
  · exact State.nearRead_buf hl hp

end Sys2Proof.Machine

namespace Sys2Proof.Machine

/-! ## Stores (14 R326, R327) -/

section
variable {s s' : State} {n : Nat} {ea v : Word} {bs : List Byte} {p : Place}

theorem storeBody_at (ha : ea.toNat % n = 0) (hq : s.acquiring s.foc = false) (hr : s.resolve .write n ea = .at p s') :
    storeBody n none ea v s =
      if s'.placeHeld s'.foc true p n then .wait 0x03 s' else storeAt ea v (bytesLE n v.toNat) p s' := by
  rw [storeBody, if_neg (not_not_intro ha), hq, hr]
  rfl

/-- A store-release sends the open entries and waits for what it releases (14 R327; 08 R213). -/
theorem storeBody_release {sc : Nat} (ha : ea.toNat % n = 0) (hq : s.acquiring s.foc = false) (hr : s.resolve .write n ea = .at p s') :
    storeBody n (some sc) ea v s =
      if !(s'.flush s'.foc.ctx).performed s'.foc sc false || (s'.flush s'.foc.ctx).placeHeld s'.foc true p n
      then .wait 0x03 (s'.flush s'.foc.ctx) else storeAt ea v (bytesLE n v.toNat) p (s'.flush s'.foc.ctx) := by
  rw [storeBody, if_neg (not_not_intro ha), hq, hr]
  simp

theorem storeBody_misaligned {rel : Option Nat} (ha : ea.toNat % n ≠ 0) : storeBody n rel ea v s = .trap cALIGN ea := if_pos ha

theorem storeBody_acquiring {rel : Option Nat} (ha : ea.toNat % n = 0) (hq : s.acquiring s.foc = true) :
    storeBody n rel ea v s = .wait 0x03 s := by
  rw [storeBody, if_neg (not_not_intro ha), if_pos hq]

/-- A store at a home of the own module that is not mirrored writes at once (log 8). -/
theorem State.storeHome_here (s : State) (i : StreamId) {l : Leaf} (pa : Nat) (hm : l.mir = false) :
    s.storeHome i l (modOf i.ctx.core) pa bs = some (s.writeMem (s.ctx i.ctx).plat (modOf i.ctx.core) pa bs) := by
  simp [State.storeHome, hm]

theorem storeAt_mem_here {l : Leaf} {pa : Nat} (hm : l.mir = false) :
    storeAt ea v bs (.mem l (modOf s.foc.ctx.core) pa) s =
      .done (s.writeMem (s.ctx s.foc.ctx).plat (modOf s.foc.ctx.core) pa bs) := by
  simp [storeAt, hm, State.storeHome_here]

end

section
variable {s s' : State} {m : BitVec 12} {b r : BitVec 5}

/-- What a store of one size does at a buffer, at the module's memory, and behind an earlier access (14 R326; 09 R241). -/
theorem State.Ready.storeWord_results (h : s.Ready { srcs := [b.toNat, r.toNat] }) (hq : s.acquiring s.foc = false) (n : Nat)
    (ha : (s.ea b m).toNat % n = 0) :
    (∀ k off, s.resolve .write n (s.ea b m) = .at (.buf k off) s' → s'.placeHeld s'.foc true (.buf k off) n = false →
      storeWord n none m b r s = .next ((s'.modCore s'.foc.ctx.core (fun c => c.writeBuf k off (bytesLE n (s.rd r).toNat))).issued 2)) ∧
    (∀ l pa, s.resolve .write n (s.ea b m) = .at (.mem l (modOf s'.foc.ctx.core) pa) s' → l.mir = false →
      s'.placeHeld s'.foc true (.mem l (modOf s'.foc.ctx.core) pa) n = false →
      storeWord n none m b r s = .next ((s'.writeMem (s'.ctx s'.foc.ctx).plat (modOf s'.foc.ctx.core) pa
        (bytesLE n (s.rd r).toNat)).issued 2)) ∧
    (∀ p, s.resolve .write n (s.ea b m) = .at p s' → s'.placeHeld s'.foc true p n = true →
      storeWord n none m b r s = .next (s'.waits 0x03)) :=
  ⟨fun _ _ hr hp => h.word32 (by rw [storeBody_at ha hq hr, hp]; rfl),
    fun _ _ hr hm hp => h.word32 (by rw [storeBody_at ha hq hr, hp]; exact storeAt_mem_here (v := s.rd r) hm),
    fun _ hr hp => h.word32_waits (by rw [storeBody_at ha hq hr, if_pos hp])⟩

theorem State.Ready.storeRelease (h : s.Ready { srcs := [b.toNat, r.toNat] }) (hq : s.acquiring s.foc = false) (sc : Nat)
    (ha : (s.ea b m).toNat % 8 = 0) {l : Leaf} {pa : Nat}
    (hr : s.resolve .write 8 (s.ea b m) = .at (.mem l (modOf s'.foc.ctx.core) pa) s') (hm : l.mir = false) :
    ((s'.flush s'.foc.ctx).performed s'.foc sc false = true →
      (s'.flush s'.foc.ctx).placeHeld s'.foc true (.mem l (modOf s'.foc.ctx.core) pa) 8 = false →
      storeWord 8 (some sc) m b r s = .next (((s'.flush s'.foc.ctx).writeMem ((s'.flush s'.foc.ctx).ctx s'.foc.ctx).plat
        (modOf s'.foc.ctx.core) pa (bytesLE 8 (s.rd r).toNat)).issued 2)) ∧
    ((s'.flush s'.foc.ctx).performed s'.foc sc false = false → storeWord 8 (some sc) m b r s = .next ((s'.flush s'.foc.ctx).waits 0x03)) := by
  refine ⟨fun hd hp => h.word32 ?_, fun hd => h.word32_waits ?_⟩
  · have hs := storeAt_mem_here (s := s'.flush s'.foc.ctx) (ea := s.ea b m) (v := s.rd r) (bs := bytesLE 8 (s.rd r).toNat) (pa := pa) hm
    rw [State.flush_foc] at hs
    rw [storeBody_release ha hq hr, hd, hp]
    exact hs
  · rw [storeBody_release ha hq hr, hd]
    rfl

end

/-- Settles O11: one lemma for the stores of every size (`storeWord_results`), one for the store-release (`storeRelease`). -/
theorem storeResults : Obligations.StoreResults := by
  unfold Obligations.StoreResults
  refine ⟨fun s s' m b r h hq => ?_, fun s s' sc m b r l pa h hq => ?_⟩
  · intro ea i n hi ha
    have hw := h.storeWord_results (s' := s') hq n ha
    simp only [List.mem_cons, List.not_mem_nil, or_false, Prod.mk.injEq] at hi
    obtain ⟨rfl, rfl⟩ | ⟨rfl, rfl⟩ | ⟨rfl, rfl⟩ | ⟨rfl, rfl⟩ := hi
    · exact hw
    · exact hw
    · exact hw
    · exact hw
  · intro ea u here ha hr hm
    have hu : u.foc = s'.foc := State.flush_foc _ _
    simp only [here, hu] at hr ⊢
    exact h.storeRelease hq sc.toNat ha hr hm

/-! ## Misaligned accesses (12 R281) -/

theorem amoBody_misaligned {s : State} {o : Amo} {ea y expected : Word} {rd : Nat} (ha : ea.toNat % 8 ≠ 0) :
    amoBody o ea y expected rd s = .trap cALIGN ea := if_pos ha

/-- Settles O12: an address that its size does not divide raises ALIGN first in each of the three kinds of access. -/
theorem misalignedAccessTraps : Obligations.MisalignedAccessTraps := by
  unfold Obligations.MisalignedAccessTraps
  intro s sc m g b r d ea
  refine ⟨fun h i n hi ha => ?_, fun h i n hi ha => ?_, fun h ha => ?_⟩
  · have hw (signed acq : Bool) : loadWord n signed acq m b r s = .next (s.raise 0x07 ea) := h.word32_traps (loadBody_misaligned ha)
    simp only [List.mem_cons, List.not_mem_nil, or_false, Prod.mk.injEq] at hi
    obtain ⟨rfl, rfl⟩ | ⟨rfl, rfl⟩ | ⟨rfl, rfl⟩ | ⟨rfl, rfl⟩ | ⟨rfl, rfl⟩ | ⟨rfl, rfl⟩ := hi
    · exact hw false false
    · exact hw false false
    · exact hw false false
    · exact hw true false
    · exact hw true false
    · exact hw false true
  · have hw (rel : Option Nat) : storeWord n rel m b r s = .next (s.raise 0x07 ea) := h.word32_traps (storeBody_misaligned ha)
    simp only [List.mem_cons, List.not_mem_nil, or_false, Prod.mk.injEq] at hi
    obtain ⟨rfl, rfl⟩ | ⟨rfl, rfl⟩ | ⟨rfl, rfl⟩ | ⟨rfl, rfl⟩ := hi
    · exact hw none
    · exact hw none
    · exact hw none
    · exact hw (some sc.toNat)
  · have hw (o : Amo) (ho : o ≠ .cas) : amoWord o g r b d s = .next (s.raise 0x07 (s.rd b)) := by
      rw [amoWord, if_neg ho]
      exact h.word32_traps (amoBody_misaligned ha)
    simp only [List.forall_mem_cons]
    exact ⟨hw .add nofun, hw .and nofun, hw .or nofun, hw .xor nofun, hw .min nofun, hw .max nofun, hw .minu nofun, hw .maxu nofun,
      hw .swap nofun, List.forall_mem_nil _⟩

/-! ## Atomics (14 R328) -/

section
variable {s s' : State} {g : Guard} {a b d : BitVec 5} {l : Leaf} {pa : Nat}

/-- An atomic at a home of its own module (14 R328; log 8). -/
theorem amoBody_here (o : Amo) {ea y expected : Word} {rd : Nat} (ha : ea.toNat % 8 = 0) (hq : s.acquiring s.foc = false)
    (hr : s.resolve .atomic 8 ea = .at (.mem l (modOf s'.foc.ctx.core) pa) s')
    (hf : s'.forwardCase s'.foc.ctx.core (.global (modOf s'.foc.ctx.core) (homeStation pa)) pa 8 = .go)
    (hp : s'.placeHeld s'.foc true (.mem l (modOf s'.foc.ctx.core) pa) 8 = false) :
    amoBody o ea y expected rd s = .done ((s'.freeTime.2.writeMem (s'.ctx s'.foc.ctx).plat (modOf s'.foc.ctx.core) pa
        (bytesLE 8 (o.apply (BitVec.ofNat 64 (Memory.readLE s'.mem (memKey (modOf s'.foc.ctx.core) pa) 8)) y expected).toNat)).interlocked rd
      (s'.clk + s'.freeTime.1) (BitVec.ofNat 64 (Memory.readLE s'.mem (memKey (modOf s'.foc.ctx.core) pa) 8))) := by
  have hfoc := State.resolve_foc hr
  rw [amoBody, if_neg (not_not_intro ha), hq, hr]
  simp only [← hfoc, hf, hp, Bool.false_or, Bool.false_eq_true, if_false, if_true]
  rfl

/-- The new value of each operation (14 R328). -/
theorem Amo.apply_min (old y e : Word) : Amo.min.apply old y e = if y.toInt < old.toInt then y else old := by
  simp [Amo.apply, BitVec.slt]

theorem Amo.apply_max (old y e : Word) : Amo.max.apply old y e = if old.toInt < y.toInt then y else old := by
  simp [Amo.apply, BitVec.slt]

theorem Amo.apply_minu (old y e : Word) : Amo.minu.apply old y e = if y.toNat < old.toNat then y else old := by
  simp [Amo.apply, BitVec.ult]

theorem Amo.apply_maxu (old y e : Word) : Amo.maxu.apply old y e = if old.toNat < y.toNat then y else old := by
  simp [Amo.apply, BitVec.ult]

end

/-- Settles O13: every atomic runs one body (`amoBody_here`) with its own operation. -/
theorem atomicResults : Obligations.AtomicResults := by
  unfold Obligations.AtomicResults
  intro s s' g b a d l pa here y done old ha hq hr hf hp
  refine ⟨fun h => ?_, fun h => ?_⟩
  · have hw (o : Amo) (ho : o ≠ .cas) (new : Word) (hn : o.apply old y (s.rd d) = new) :
        amoWord o g b a d s = .next (done old new) := by
      subst hn
      rw [amoWord, if_neg ho]
      exact h.word32 (amoBody_here o ha hq hr hf hp)
    exact ⟨hw .add nofun _ rfl, hw .and nofun _ rfl, hw .or nofun _ rfl, hw .xor nofun _ rfl, hw .min nofun _ (Amo.apply_min _ _ _),
      hw .max nofun _ (Amo.apply_max _ _ _), hw .minu nofun _ (Amo.apply_minu _ _ _), hw .maxu nofun _ (Amo.apply_maxu _ _ _),
      hw .swap nofun _ rfl⟩
  · exact h.word32 (amoBody_here .cas ha hq hr hf hp)

/-! ## Spill memory and FENCE (14 R329, R330) -/

section
variable {s : State} {m : BitVec 12} {r : BitVec 5}

theorem State.Ready.ldlWord (h : s.Ready { outs := [r.toNat] }) (n : Nat) (signed : Bool) :
    (m.toNat * n + n ≤ 8192 → ldlWord n signed m r s = .next ((s.interlocked r.toNat (s.clk + 2)
      (extendTo n signed (Memory.readLE (s.fctx.spill s.foc.st) (m.toNat * n) n))).issued 2)) ∧
    (8192 < m.toNat * n + n → Machine.ldlWord n signed m r s = .next (s.raise 0x08 (BitVec.ofNat 64 (m.toNat * n)))) :=
  ⟨fun hn => h.word32 (if_neg (Nat.not_lt.2 hn)), fun hn => h.word32_traps (if_pos hn)⟩

theorem State.Ready.stlWord (h : s.Ready { srcs := [r.toNat] }) (n : Nat) :
    (m.toNat * n + n ≤ 8192 → stlWord n m r s = .next ((s.modF (fun x => x.putSpill s.foc.st
      (Memory.writeN (x.spill s.foc.st) (m.toNat * n) (bytesLE n (s.rd r).toNat)))).issued 2)) ∧
    (8192 < m.toNat * n + n → Machine.stlWord n m r s = .next (s.raise 0x08 (BitVec.ofNat 64 (m.toNat * n)))) :=
  ⟨fun hn => h.word32 (if_neg (Nat.not_lt.2 hn)), fun hn => h.word32_traps (if_pos hn)⟩

end

/-- A posted write of the stream that a FENCE orders is marked, and holds the stream (14 R330). -/
theorem State.acquiring_fenceOf {s : State} {i : StreamId} {u : Bool} {sc : Nat} {o : Owed} (ho : o ∈ (s.core i.ctx.core).owed)
    (hb : o.bank = i.ctx.bank) (he : o.eng = none) (hst : i.st ∈ o.by_) (hd : destInScope i.ctx.core sc o.dest = true)
    (hu : u = true ∨ o.ord ≠ 2) : (s.fenceOf i sc u).acquiring i = true := by
  have hmark : (o.bank == i.ctx.bank && o.by_.contains i.st && (destInScope i.ctx.core sc o.dest && (u || o.ord != 2))) = true := by
    simpa [hb, hd, hst] using hu
  have howed : ((s.fenceOf i sc u).core i.ctx.core).owed.any (fun o => o.bank == i.ctx.bank && o.eng.isNone && o.fenced.contains i.st) = true := by
    rw [State.fenceOf, State.core_modCore_self, List.any_map, List.any_eq_true]
    refine ⟨o, ho, ?_⟩
    simp only [Function.comp_apply, hmark, if_true]
    simp [hb, he]
  simp only [State.acquiring, State.acquirePending, howed, Bool.or_true, Bool.true_or]

/-- Settles O14: the sizes of a spill access share one lemma each; a marked posted write holds the stream (`acquiring_fenceOf`). -/
theorem spillAndFenceWords : Obligations.SpillAndFenceWords := by
  unfold Obligations.SpillAndFenceWords
  refine ⟨fun s m r => ⟨fun h i n signed hi => ?_, fun h i n hi => ?_⟩, fun s u sc h => h.word32 rfl,
    fun s i u sc o ho hb he hst hd hu => State.acquiring_fenceOf ho hb he hst hd hu,
    fun s m b r ha hq => ⟨fun h => h.word32_waits (loadBody_acquiring ha hq), fun h => h.word32_waits (storeBody_acquiring ha hq)⟩⟩
  · have hw := h.ldlWord (m := m) n signed
    simp only [List.mem_cons, List.not_mem_nil, or_false, Prod.mk.injEq] at hi
    obtain ⟨rfl, rfl, rfl⟩ | ⟨rfl, rfl, rfl⟩ | ⟨rfl, rfl, rfl⟩ | ⟨rfl, rfl, rfl⟩ | ⟨rfl, rfl, rfl⟩ | ⟨rfl, rfl, rfl⟩ | ⟨rfl, rfl, rfl⟩ := hi
    · exact hw
    · exact hw
    · exact hw
    · exact hw
    · exact hw
    · exact hw
    · exact hw
  · have hw := h.stlWord (m := m) n
    simp only [List.mem_cons, List.not_mem_nil, or_false, Prod.mk.injEq] at hi
    obtain ⟨rfl, rfl⟩ | ⟨rfl, rfl⟩ | ⟨rfl, rfl⟩ | ⟨rfl, rfl⟩ := hi
    · exact hw
    · exact hw
    · exact hw
    · exact hw

@[simp] theorem length_bytesLE (n v : Nat) : (bytesLE n v).length = n := by
  induction n generalizing v with
  | zero => rfl
  | succ n ih => rw [bytesLE, List.length_cons, ih]

/-! ## What a store leaves of memory (14 R326) -/

/-- A memory that reads at one byte as another does. -/
def ReadsAs (m : Memory) (a : Nat) (m' : Memory) : Prop := Memory.read m' a = Memory.read m a

theorem State.read_writeMem_outside (s : State) (plat : Word) {mod pa a : Nat} {bs : List Byte}
    (h : a < memKey mod pa ∨ memKey mod pa + bs.length ≤ a) : ReadsAs s.mem a (s.writeMem plat mod pa bs).mem := by
  have hlog (t : State) : ((linesOf pa bs.length).foldl (fun t l => t.logLine plat mod l) t).mem = t.mem :=
    State.foldl_mem fun t l => t.logLine_mem plat mod l
  have hmem : (s.writeMem plat mod pa bs).mem = Memory.writeN s.mem (memKey mod pa) bs := by
    unfold State.writeMem
    extract_lets u w
    have hu : u.mem = s.mem := by
      unfold u
      split
      · exact hlog s
      · rfl
    rw [← hu]
    exact State.foldl_mem fun t i => rfl
  rw [hmem]
  exact Memory.read_writeN_outside bs s.mem (memKey mod pa) a h

section
variable {s : State} {a : Nat}

/-- Bytes that a store sends away, or to a mirrored page, leave the module's memory (14 R326; 01 R36). -/
theorem State.storeLine_mem_away {i : StreamId} {names : List Nat} {l : Leaf} {mod : Nat} {line : CombLine}
    (h : l.mir = true ∨ mod ≠ modOf i.ctx.core) : ∀ t ∈ s.storeLine i names l mod line, t.mem = s.mem := by
  unfold State.storeLine
  extract_lets c here dest
  split
  · split
    split
    · exact fun t ht => absurd ht (Option.not_mem_none t)
    · split
      · exact fun t ht => absurd ht (Option.not_mem_none t)
      · next u hu =>
        intro t ht
        rw [u.placeLine_mem _ _ _ _ _ _ t ht]
        split at hu
        · cases hu
          rfl
        · exact s.placeLine_mem _ _ _ _ _ _ u hu
  · next hm =>
    split
    · next hh => exact absurd hh (h.resolve_left hm)
    · exact s.placeLine_mem _ _ _ _ _ _

/-- A store writes no byte of the module's memory but its own at a home there. -/
theorem storeAt_readsAs {ea v : Word} {bs : List Byte} {p : Place}
    (h : ∀ l pa, p = .mem l (modOf s.foc.ctx.core) pa → l.mir = false →
      a < memKey (modOf s.foc.ctx.core) pa ∨ memKey (modOf s.foc.ctx.core) pa + bs.length ≤ a) :
    (storeAt ea v bs p s).MemAll (ReadsAs s.mem a) := by
  have hq {t : State} (ht : t.mem = s.mem) : ReadsAs s.mem a t.mem := by
    rw [ht]
    rfl
  cases p with
  | buf b off => exact hq rfl
  | win d peer ord =>
    unfold storeAt
    dsimp only
    split
    · exact hq rfl
    · next t ht => exact hq (s.placeLine_mem _ _ _ _ _ _ t ht)
  | regs off => exact hq (s.regWrite_mem _ _ _)
  | mem l mod pa =>
    unfold storeAt
    refine Res.memAll_ite trivial ?_
    split
    · exact hq rfl
    · next t ht =>
      unfold State.storeHome at ht
      split at ht
      · next hl =>
        obtain ⟨hm, hh⟩ : l.mir = false ∧ mod = modOf s.foc.ctx.core := by simpa using hl
        cases ht
        subst hh
        exact s.read_writeMem_outside _ (h l pa rfl hm)
      · next hl =>
        refine hq (State.storeLine_mem_away ?_ t ht)
        by_cases hm : l.mir = true
        · exact .inl hm
        · exact .inr fun hh => hl (by simp [hm, hh])

theorem storeBody_readsAs {n : Nat} {rel : Option Nat} {ea v : Word}
    (h : ∀ l pa s', s.resolve .write n ea = .at (.mem l (modOf s.foc.ctx.core) pa) s' → l.mir = false →
      a < memKey (modOf s.foc.ctx.core) pa ∨ memKey (modOf s.foc.ctx.core) pa + n ≤ a) :
    (storeBody n rel ea v s).MemAll (ReadsAs s.mem a) := by
  have hself : ReadsAs s.mem a s.mem := rfl
  unfold storeBody
  refine Res.memAll_ite trivial (Res.memAll_ite hself ?_)
  cases hr : s.resolve .write n ea with
  | stop r =>
    have hm := s.resolve_memAll (Q := ReadsAs s.mem a) .write n ea hself
    rw [hr] at hm
    exact hm
  | _ p t =>
    dsimp only
    generalize hu : (if rel.isSome then t.flush t.foc.ctx else t) = u
    have hfoc : u.foc = s.foc := by
      rw [← hu]
      split
      · exact (State.flush_foc _ _).trans (State.resolve_foc hr)
      · exact State.resolve_foc hr
    have hmem : u.mem = s.mem := by
      rw [← hu]
      split
      · exact (State.flush_mem _ _).trans (State.resolve_mem hr)
      · exact State.resolve_mem hr
    refine Res.memAll_ite (of_mem_eq _ hmem hself) ?_
    rw [← hmem]
    refine storeAt_readsAs fun l pa hp hm => ?_
    rw [hfoc] at hp ⊢
    rw [length_bytesLE]
    exact h l pa t (hp ▸ hr) hm

end

theorem storeWord_readsAs {s : State} {a n : Nat} (rel : Option Nat) (m : BitVec 12) (b r : BitVec 5)
    (h : ∀ l pa s', s.resolve .write n (s.ea b m) = .at (.mem l (modOf s.foc.ctx.core) pa) s' → l.mir = false →
      a < memKey (modOf s.foc.ctx.core) pa ∨ memKey (modOf s.foc.ctx.core) pa + n ≤ a) :
    MemNext (ReadsAs s.mem a) (storeWord n rel m b r s) :=
  word32_memNext rfl (storeBody_readsAs h)

/-- Settles O15: a store's bytes outside its own by `storeBody_readsAs`; loads and spill words by their memory lemmas. -/
theorem memoryFrame : Obligations.MemoryFrame := by
  unfold Obligations.MemoryFrame
  refine ⟨fun s t sc m b r => ?_, fun s t sc m b r => ?_⟩
  · intro ea i n hi he a ha
    have hw (rel : Option Nat) : MemNext (ReadsAs s.mem a) (storeWord n rel m b r s) := storeWord_readsAs rel m b r ha
    suffices hn : MemNext (ReadsAs s.mem a) (exec i s) by
      rw [he] at hn
      exact hn
    simp only [List.mem_cons, List.not_mem_nil, or_false, Prod.mk.injEq] at hi
    obtain ⟨rfl, rfl⟩ | ⟨rfl, rfl⟩ | ⟨rfl, rfl⟩ | ⟨rfl, rfl⟩ | ⟨rfl, rfl⟩ := hi
    · exact hw none
    · exact hw none
    · exact hw none
    · exact hw none
    · exact hw (some sc.toNat)
  · suffices hn : ∀ i ∈ _, MemNext (· = s.mem) (exec i s) by
      intro i hi he
      have := hn i hi
      rw [he] at this
      exact this
    simp only [List.forall_mem_cons]
    exact ⟨execLdB_memNext m b r s rfl, execLdH_memNext m b r s rfl, execLdW_memNext m b r s rfl, execLd_memNext m b r s rfl,
      execLdSb_memNext m b r s rfl, execLdSh_memNext m b r s rfl, execLdSw_memNext m b r s rfl, execLdAcq_memNext sc m b r s rfl,
      execLdlB_memNext m r s rfl, execLdlH_memNext m r s rfl, execLdlW_memNext m r s rfl, execLdl_memNext m r s rfl,
      execLdlSb_memNext m r s rfl, execLdlSh_memNext m r s rfl, execLdlSw_memNext m r s rfl,
      execStlB_memNext m r s rfl, execStlH_memNext m r s rfl, execStlW_memNext m r s rfl, execStl_memNext m r s rfl,
      List.forall_mem_nil _⟩

end Sys2Proof.Machine

namespace Sys2Proof.Machine

/-! ## Fields of a register (00 R4) -/

/-- A number in three parts: the bits above a field, the field, and those below it. -/
theorem split_field (w lo len : Nat) : w = 2 ^ lo * (2 ^ len * (w / 2 ^ (lo + len)) + w / 2 ^ lo % 2 ^ len) + w % 2 ^ lo := by
  have h1 := Nat.div_add_mod w (2 ^ lo)
  have h2 := Nat.div_add_mod (w / 2 ^ lo) (2 ^ len)
  rw [Nat.div_div_eq_div_mul, ← Nat.pow_add] at h2
  rw [h2, h1]

/-- A field replaced, in those parts. -/
theorem replace_field (w lo len v : Nat) :
    w - fieldOf w lo len * 2 ^ lo + v % 2 ^ len * 2 ^ lo = 2 ^ lo * (2 ^ len * (w / 2 ^ (lo + len)) + v % 2 ^ len) + w % 2 ^ lo := by
  have h := split_field w lo len
  rw [fieldOf, Nat.shiftRight_eq_div_pow]
  generalize w / 2 ^ lo % 2 ^ len = f at h ⊢
  generalize w / 2 ^ (lo + len) = hi at h ⊢
  generalize w % 2 ^ lo = low at h ⊢
  generalize v % 2 ^ len = g
  rw [Nat.mul_add] at h ⊢
  rw [Nat.mul_comm f, Nat.mul_comm g]
  omega

theorem getLsbD_withField (w : Word) {lo len i : Nat} (v : Nat) (hi : i < 64) :
    (withField w lo len v).getLsbD i = if i < lo then w.getLsbD i else if i < lo + len then v.testBit (i - lo) else w.getLsbD i := by
  rw [withField, BitVec.getLsbD_ofNat, replace_field]
  simp only [hi, decide_true, Bool.true_and, BitVec.getLsbD]
  rw [Nat.testBit_two_pow_mul_add _ (Nat.mod_lt _ (Nat.two_pow_pos lo))]
  by_cases h1 : i < lo
  · simp [h1, Nat.testBit_mod_two_pow]
  · rw [if_neg h1, if_neg h1, Nat.testBit_two_pow_mul_add _ (Nat.mod_lt _ (Nat.two_pow_pos len))]
    by_cases h2 : i < lo + len
    · have h3 : i - lo < len := by omega
      simp [h2, h3, Nat.testBit_mod_two_pow]
    · have h3 : ¬ i - lo < len := by omega
      rw [if_neg h3, if_neg h2, Nat.testBit_div_two_pow]
      congr 1
      omega

theorem testBit_wfield (w : Word) (lo len i : Nat) : (wfield w lo len).testBit i = (decide (i < len) && w.getLsbD (lo + i)) := by
  rw [wfield, fieldOf, Nat.testBit_mod_two_pow, Nat.testBit_shiftRight]
  rfl

/-- Flags of a register that are cleared by writing 1 (10 R250). -/
theorem getLsbD_cleared (old v mask : Word) {i : Nat} (hi : i < 64) :
    (old &&& ~~~(v &&& mask)).getLsbD i = (old.getLsbD i && !(v.getLsbD i && mask.getLsbD i)) := by
  simp [hi]

theorem getLsbD_writeVstat (old v : Word) {i : Nat} (hi : i < 64) :
    (writeVstat old v).getLsbD i =
      if i < 2 then v.getLsbD i else (old.getLsbD i && !(v.getLsbD i && (0x3F00 : Word).getLsbD i)) := by
  rw [writeVstat, getLsbD_withField _ _ hi, getLsbD_cleared _ _ _ hi]
  by_cases h : i < 2
  · simp [h, testBit_wfield]
  · simp [h]

theorem getLsbD_writeDstat (old v : Word) {i : Nat} (hi : i < 64) :
    (writeDstat old v).getLsbD i = if i < 2 ∨ i = 16 ∨ (32 ≤ i ∧ i < 48) then v.getLsbD i
      else (old.getLsbD i && !(v.getLsbD i && (0x3D00 : Word).getLsbD i)) := by
  rw [writeDstat, getLsbD_withField _ _ hi, getLsbD_withField _ _ hi, getLsbD_withField _ _ hi, getLsbD_cleared _ _ _ hi]
  simp only [testBit_wfield]
  by_cases h1 : i < 2
  · simp [h1, show i < 32 by omega, show i < 16 by omega]
  · by_cases h2 : i = 16
    · simp [h2]
    · by_cases h3 : 32 ≤ i ∧ i < 48
      · simp [h1, h3, show ¬ i < 32 by omega, show i - 32 < 16 by omega]
      · rw [if_neg (show ¬(i < 2 ∨ i = 16 ∨ 32 ≤ i ∧ i < 48) by omega)]
        have h16 : (i < 16 + 1) = (i < 16) := propext (by omega)
        have h48 : (i < 32 + 16) = (i < 32) := propext (by omega)
        simp only [Nat.not_lt_zero, Nat.zero_add, if_false, h1, h16, h48]
        split_ifs <;> rfl

/-! ## MFS and MTS (14 R334; 12 R283) -/

/-- A word that its mode does not allow raises PRIV with its first halfword (12 R283). -/
theorem word32_priv {n : Need} {body : State → Res} {s : State} (hf : n.feature = none) (hp : n.priv = true) :
    word32 n body s = .next (s.raise cPRIV (s.firstHalf.setWidth 64)) := by
  have hg : gate n s = .trap cPRIV (s.firstHalf.setWidth 64) := by
    simp [gate, hf, hp]
  rw [word32, runWord, hg]

theorem srHandler_lt {n : Nat} (h : srHandler n = true) : n < 0x100 := by
  simp [srHandler] at h
  omega

section
variable {s : State} {sr : BitVec 12} {a d : BitVec 5}

/-- The need of an MFS whose mode is allowed, of a register that settles at the end of the next clk. -/
theorem State.Ready.execMfs_inter (h : s.Ready { outs := [d.toNat] }) (hp : (srHandler sr.toNat && s.fctx.normal) = false)
    (hsr : sr.toNat ∈ [0x000, 0x001, 0x030]) :
    execMfs sr d s = .next ((({ s with fresh := s.fresh + 1 } : State).interlocked d.toNat (s.clk + 1)
      (s.srRead s.foc.ctx sr.toNat)).issued 2) := by
  have hi : (sr.toNat == 0 || sr.toNat == 1 || sr.toNat == 0x30) = true := by simpa [or_assoc] using hsr
  have hn : sr.toNat ≠ 0x1C := by
    intro he
    simp [he] at hsr
  simp only [execMfs, hp, hi, if_true, if_neg hn]
  exact h.word32 rfl

theorem State.Ready.execMfs_fixed (h : s.Ready { dsts := [(d.toNat, 2)] }) (hp : (srHandler sr.toNat && s.fctx.normal) = false)
    (hsr : sr.toNat ∉ [0x000, 0x001, 0x030, 0x01C]) :
    execMfs sr d s = .next ((({ s with fresh := s.fresh + 1 } : State).resWord d.toNat 2 (s.srRead s.foc.ctx sr.toNat)).issued 2) := by
  obtain ⟨h0, h1, h30, h1c⟩ : sr.toNat ≠ 0 ∧ sr.toNat ≠ 1 ∧ sr.toNat ≠ 0x30 ∧ sr.toNat ≠ 0x1C := by simpa using hsr
  have hi : (sr.toNat == 0 || sr.toNat == 1 || sr.toNat == 0x30) = false := by simp [h0, h1, h30]
  simp only [execMfs, hp, hi, if_neg h1c, Bool.false_eq_true, if_false]
  exact h.word32 rfl

/-- A read of FSDAT moves FSSEL on (12 R292). -/
theorem State.Ready.execMfs_frame (h : s.Ready { dsts := [(d.toNat, 2)] }) (hp : (srHandler sr.toNat && s.fctx.normal) = false)
    (hsr : sr.toNat = 0x01C) :
    execMfs sr d s = .next (((({ s with fresh := s.fresh + 1 } : State).modF (fun x =>
      { x with fssel := BitVec.ofNat 64 ((wfield x.fssel 0 13 + 1) % 8192) })).resWord d.toNat 2 (s.srRead s.foc.ctx sr.toNat)).issued 2) := by
  have hi : (sr.toNat == 0 || sr.toNat == 1 || sr.toNat == 0x30) = false := by simp [hsr]
  simp only [execMfs, hp, hi, if_pos hsr, Bool.false_eq_true, if_false]
  exact h.word32 rfl

/-- The need of an MTS that its mode allows, of a register that no feature guards. -/
theorem execMts_allowed (hf : sr.toNat < 0x100) (hp : (srHandler sr.toNat && s.fctx.normal) = false)
    (ht : (sr.toNat == 0x30 && !s.fctx.normal) = false) :
    execMts sr a s = word32 { srcs := [a.toNat] } (fun s => mtsBody sr.toNat (s.rd a) s) s := by
  simp only [execMts, hp, ht, if_neg (show ¬(0x100 ≤ sr.toNat ∧ sr.toNat ≤ 0x11F) by omega), Bool.or_false]

theorem execMts_priv (hh : srHandler sr.toNat = true) (hn : s.fctx.normal = true) :
    execMts sr a s = .next (s.raise cPRIV (s.firstHalf.setWidth 64)) := by
  have hlt := srHandler_lt hh
  refine word32_priv ?_ ?_
  · exact if_neg (by omega)
  · simp [hh, hn]

theorem execMfs_priv (hh : srHandler sr.toNat = true) (hn : s.fctx.normal = true) :
    execMfs sr d s = .next (s.raise cPRIV (s.firstHalf.setWidth 64)) :=
  word32_priv rfl (by simp [hh, hn])

theorem mtsBody_stsel {n : Nat} (v : Word) (s : State) (h1 : 0x40 ≤ n) (h2 : n ≤ 0x47) :
    mtsBody n v s = .whole ((s.issued 2).modF (fun x => { x with stsel := Sp.set 0 x.stsel (n - 0x40) (v &&& 0x7FF) })) := by
  unfold mtsBody
  split
  case h_16 => exact if_pos ⟨h1, h2⟩
  all_goals omega

theorem mtsBody_stcnt {n : Nat} (v : Word) (s : State) (h1 : 0x48 ≤ n) (h2 : n ≤ 0x4F) :
    mtsBody n v s = .whole ((s.issued 2).modF (fun x => { x with stcnt := Sp.set 0 x.stcnt (n - 0x48) (v &&& 0xFFFFFFFFFFFF) })) := by
  unfold mtsBody
  split
  case h_16 => exact (if_neg (by omega)).trans (if_pos ⟨h1, h2⟩)
  all_goals omega

/-- The need and the effect of an MTS below 0x100 that is ready, in whatever way it issues. -/
theorem State.Ready.execMts {s' : State} (h : s.Ready { srcs := [a.toNat] }) (hf : sr.toNat < 0x100)
    (hp : (srHandler sr.toNat && s.fctx.normal) = false) (ht : sr.toNat ≠ 0x30) (hb : mtsBody sr.toNat (s.rd a) s = .done s') :
    Machine.execMts sr a s = .next (s'.issued 2) := by
  rw [execMts_allowed hf hp (by simp [ht])]
  exact h.word32 hb

theorem State.Ready.execMts_whole {s' : State} (h : s.Ready { srcs := [a.toNat] }) (hf : sr.toNat < 0x100)
    (hp : (srHandler sr.toNat && s.fctx.normal) = false) (ht : sr.toNat ≠ 0x30) (hb : mtsBody sr.toNat (s.rd a) s = .whole s') :
    Machine.execMts sr a s = .next s' := by
  rw [execMts_allowed hf hp (by simp [ht]), Machine.word32, h.runWord, hb]

end

theorem srHandler_eq_false_of_counter {n : Nat} (h : 0x40 ≤ n) : srHandler n = false := by
  simp [srHandler]
  omega

/-- Settles O16: MFS by its three kinds of register, PRIV by `word32_priv`, MTS by its body, the flag registers bit by bit. -/
theorem specialRegisterWords : Obligations.SpecialRegisterWords := by
  unfold Obligations.SpecialRegisterWords
  refine ⟨fun s sr d hn => ?_, fun s sr d hh hn => ⟨execMfs_priv hh hn, execMts_priv hh hn⟩, fun s a h => ?_, fun old v i => ?_⟩
  · have hp : (srHandler sr.toNat && s.fctx.normal) = false := by
      cases hh : srHandler sr.toNat with
      | false => rfl
      | true => rw [hn hh]; rfl
    exact ⟨fun hsr h => h.execMfs_inter hp hsr, fun hsr h => h.execMfs_fixed hp hsr, fun hsr h => h.execMfs_frame hp hsr⟩
  · have hw (n : BitVec 12) (hf : n.toNat < 0x100) (hs : srHandler n.toNat = false) (ht : n.toNat ≠ 0x30) {s' : State}
        (hb : mtsBody n.toNat (s.rd a) s = .done s') : execMts n a s = .next (s'.issued 2) :=
      h.execMts hf (by rw [hs]; rfl) ht hb
    refine ⟨hw 0x010 (by decide) rfl (by decide) rfl, hw 0x011 (by decide) rfl (by decide) rfl, hw 0x018 (by decide) rfl (by decide) rfl,
      hw 0x01A (by decide) rfl (by decide) rfl, fun n h1 h2 => ?_, fun n h1 h2 => ?_, ?_, fun hn => ?_⟩
    · exact h.execMts_whole (by omega) (by rw [srHandler_eq_false_of_counter h1]; rfl) (by omega) (mtsBody_stsel _ _ h1 h2)
    · exact h.execMts_whole (by omega) (by rw [srHandler_eq_false_of_counter (by omega)]; rfl) (by omega) (mtsBody_stcnt _ _ h1 h2)
    · simp only [List.forall_mem_cons]
      exact ⟨hw 0x000 (by decide) rfl (by decide) rfl, hw 0x001 (by decide) rfl (by decide) rfl, hw 0x002 (by decide) rfl (by decide) rfl,
        hw 0x003 (by decide) rfl (by decide) rfl, hw 0x004 (by decide) rfl (by decide) rfl, hw 0x005 (by decide) rfl (by decide) rfl,
        hw 0x019 (by decide) rfl (by decide) rfl, hw 0x031 (by decide) rfl (by decide) rfl, List.forall_mem_nil _⟩
    · have hp (b : Bool) : (b && s.fctx.normal) = false := by rw [hn, Bool.and_false]
      exact ⟨h.execMts (by decide) (hp _) (by decide) rfl, h.execMts (by decide) (hp _) (by decide) rfl,
        h.execMts (by decide) (hp _) (by decide) rfl⟩
  · refine ⟨fun h1 h2 => ?_, fun h1 => ?_, fun h1 => ?_, fun h1 => ?_⟩
    · have hm : (0x3F00 : Word).getLsbD i = true := by interval_cases i <;> rfl
      rw [getLsbD_writeVstat _ _ (by omega), if_neg (by omega), hm, Bool.and_true]
    · rw [getLsbD_writeVstat _ _ (by omega), if_pos h1]
    · have hm : (0x3D00 : Word).getLsbD i = true := by
        simp only [List.mem_cons, List.not_mem_nil, or_false] at h1
        obtain rfl | rfl | rfl | rfl | rfl := h1 <;> rfl
      have hi : 2 ≤ i ∧ i < 16 := by
        simp only [List.mem_cons, List.not_mem_nil, or_false] at h1
        omega
      rw [getLsbD_writeDstat _ _ (by omega), if_neg (by omega), hm, Bool.and_true]
    · rw [getLsbD_writeDstat _ _ (by omega), if_pos h1]

end Sys2Proof.Machine

namespace Sys2Proof.Machine

/-! ## Barriers (14 R336, R337; 05 R117, R118) -/

@[simp] theorem State.flush_bars (s : State) (c : CtxId) : (s.flush c).bars = s.bars := State.foldl_keeps State.bars fun _ _ => rfl

@[simp] theorem State.performed_modF (s : State) (f : Ctx → Ctx) (i : StreamId) (scope : Nat) (uo : Bool) :
    (s.modF f).performed i scope uo = s.performed i scope uo := rfl

/-- A party's release, before its arrival: its phase noted, and the context's open combining entries sent. -/
def State.released (s : State) (u : BarUnit) (phase : Nat) : State :=
  (s.flush s.foc.ctx).modF (fun x => x.setParty u (phase, true))

theorem State.released_performed (s : State) (u : BarUnit) (phase scope : Nat) :
    (s.released u phase).performed s.foc scope false = (s.flush s.foc.ctx).performed s.foc scope false :=
  State.performed_modF _ _ _ _ _

theorem State.barUnit_scope (s : State) (scope bid : Nat) : (s.barUnit scope bid).scope = scope := rfl

theorem State.released_bars (s : State) (u : BarUnit) (phase : Nat) : (s.released u phase).bars = s.bars :=
  s.flush_bars s.foc.ctx

/-- A party that has not arrived in the phase arrives. -/
theorem barArrive_arrives {s : State} {scope bid : Nat} {b : BarState} (after : State → Res) (hb : s.bar (s.barUnit scope bid) = some b)
    (hp : ∀ p w, s.fctx.party (s.barUnit scope bid) = some (p, w) → p ≠ b.phase) :
    barArrive scope bid after s = after ((s.released (s.barUnit scope bid) b.phase).arriveAt s.foc (s.barUnit scope bid)) := by
  rw [barArrive, hb]
  refine if_neg ?_
  match hq : s.fctx.party (s.barUnit scope bid) with
  | none => exact Bool.false_ne_true
  | some (p, w) => simpa using hp p w hq

/-- One that has arrived in it does not. -/
theorem barArrive_again {s : State} {scope bid : Nat} {b : BarState} {w : Bool} (after : State → Res)
    (hb : s.bar (s.barUnit scope bid) = some b) (hp : s.fctx.party (s.barUnit scope bid) = some (b.phase, w)) :
    barArrive scope bid after s = misuse scope bid := by
  rw [barArrive, hb]
  refine if_pos ?_
  rw [hp]
  exact beq_self_eq_true b.phase

theorem barArrive_none {s : State} {scope bid : Nat} (after : State → Res) (hb : s.bar (s.barUnit scope bid) = none) :
    barArrive scope bid after s = misuse scope bid := by
  rw [barArrive, hb]

theorem State.arriveAt_performed {s : State} {i : StreamId} {u : BarUnit} (h : s.performed i u.scope false = true) :
    s.arriveAt i u = s.countArrival i.ctx.core u (s.pairName i.ctx) :=
  if_pos h

/-- An arrival whose release is still to be performed. -/
def State.heldArrival (s : State) (i : StreamId) (u : BarUnit) : HeldArrival :=
  ⟨s.fresh, i.ctx, u, s.pairName i.ctx, (s.core i.ctx.core).groupsOf i⟩

theorem State.arriveAt_held {s : State} {i : StreamId} {u : BarUnit} (h : s.performed i u.scope false = false) :
    s.arriveAt i u = s.nextId.2.modCore i.ctx.core (fun k =>
      { k.nameBefore i u.scope s.fresh with arrivals := k.arrivals ++ [⟨s.fresh, i.ctx, u, s.pairName i.ctx, k.groupsOf i⟩] }) :=
  if_neg (by simp [h])

theorem State.arriveAt_held_arrivals {s : State} {i : StreamId} {u : BarUnit} (h : s.performed i u.scope false = false) :
    ((s.arriveAt i u).core i.ctx.core).arrivals = (s.core i.ctx.core).arrivals ++ [s.heldArrival i u] := by
  rw [State.arriveAt_held h, State.core_modCore_self]
  rfl

theorem State.arriveAt_held_bars {s : State} {i : StreamId} {u : BarUnit} (h : s.performed i u.scope false = false) :
    (s.arriveAt i u).bars = s.bars := by
  rw [State.arriveAt_held h]
  rfl

theorem State.countArrival_short {s : State} {core : Nat} {u : BarUnit} {pair : Option CtxId} {b : BarState} (hb : s.bar u = some b)
    (hn : (b.arrived pair).count < b.nparty) : s.countArrival core u pair = s.putBar u (b.arrived pair) := by
  have hparty : (b.arrived pair).nparty = b.nparty := by
    unfold BarState.arrived
    split
    · rfl
    · split <;> rfl
  rw [State.countArrival, hb]
  exact if_neg (by rw [hparty]; exact Nat.not_le.2 hn)

theorem State.countArrival_last {s : State} {core : Nat} {u : BarUnit} {pair : Option CtxId} {b : BarState} (hb : s.bar u = some b)
    (hn : b.nparty ≤ (b.arrived pair).count) : s.countArrival core u pair =
      (s.putBar u { b.arrived pair with count := 0, phase := b.phase + 1, leave := s.clk + barLatency (modOf core) u.scope }).post
        (s.clk + barLatency (modOf core) u.scope) (.barrierRelease u b.phase) := by
  have harr : (b.arrived pair).nparty = b.nparty ∧ (b.arrived pair).phase = b.phase := by
    unfold BarState.arrived
    split
    · exact ⟨rfl, rfl⟩
    · split <;> exact ⟨rfl, rfl⟩
  obtain ⟨hparty, hphase⟩ := harr
  rw [State.countArrival, hb]
  refine (if_pos (by rw [hparty]; exact hn)).trans ?_
  rw [hphase]

section
variable {s : State} {scope bid p : Nat} {b : BarState}

theorem barWait_over (hb : s.bar (s.barUnit scope bid) = some b) (hp : s.fctx.party (s.barUnit scope bid) = some (p, true))
    (hph : p < b.phase) (hl : b.leave ≤ s.clk) :
    barWait scope bid s = .done (s.modF (fun x => x.setParty (s.barUnit scope bid) (p, false))) := by
  rw [barWait, hb, hp]
  exact if_pos (by simp [hph, hl])

theorem barWait_holds (hb : s.bar (s.barUnit scope bid) = some b) (hp : s.fctx.party (s.barUnit scope bid) = some (p, true))
    (hw : b.phase ≤ p ∨ s.clk < b.leave) :
    barWait scope bid s = .wait 0 (s.modFs (fun y => { y with hold := .barrier scope bid })) := by
  rw [barWait, hb, hp]
  refine if_neg ?_
  simp only [Bool.and_eq_true, decide_eq_true_eq]
  omega

theorem barWait_unit (hb : s.bar (s.barUnit scope bid) = none) : barWait scope bid s = misuse scope bid := by
  rw [barWait, hb]

theorem barWait_party (hp : s.fctx.party (s.barUnit scope bid) = none) : barWait scope bid s = misuse scope bid := by
  rw [barWait, hp]
  cases s.bar (s.barUnit scope bid) <;> rfl

end

section
variable {s : State} {sc : BitVec 3} {i : BitVec 5}

theorem State.Ready.execBarArrive (h : s.Ready {}) (hn : s.fctx.normal = true) {t : State}
    (hb : barArrive sc.toNat i.toNat .done s = .done t) : Machine.execBarArrive sc i s = .next (t.issued 2) := by
  rw [Machine.execBarArrive, hn]
  exact h.word32 hb

theorem State.Ready.execBarArrive_misuse (h : s.Ready {}) (hn : s.fctx.normal = true)
    (hb : barArrive sc.toNat i.toNat .done s = misuse sc.toNat i.toNat) :
    Machine.execBarArrive sc i s = .next (s.raise 0x0A (BitVec.ofNat 64 (256 * sc.toNat + i.toNat))) := by
  rw [Machine.execBarArrive, hn]
  exact h.word32_traps hb

theorem State.Ready.execBarWait_misuse (h : s.Ready {}) (hn : s.fctx.normal = true)
    (hb : barWait sc.toNat i.toNat s = misuse sc.toNat i.toNat) :
    Machine.execBarWait sc i s = .next (s.raise 0x0A (BitVec.ofNat 64 (256 * sc.toNat + i.toNat))) := by
  rw [Machine.execBarWait, hn]
  exact h.word32_traps hb

/-- A party that may leave goes on, with BAR.wait or with the waiting phase of BAR.aw. -/
theorem State.Ready.barWait_done (h : s.Ready {}) (hn : s.fctx.normal = true) {t : State} (hb : barWait sc.toNat i.toNat s = .done t) :
    Machine.execBarWait sc i s = .next (t.issued 2) ∧ (s.fstrm.begun = true → Machine.execBarAw sc i s = .next (t.issued 2)) := by
  rw [Machine.execBarWait, Machine.execBarAw, hn]
  exact ⟨h.word32 hb, fun hbegun => h.word32 ((if_pos hbegun).trans hb)⟩

theorem State.Ready.barWait_waits (h : s.Ready {}) (hn : s.fctx.normal = true) {t : State}
    (hb : barWait sc.toNat i.toNat s = .wait 0 t) :
    Machine.execBarWait sc i s = .next (t.waits 0) ∧ (s.fstrm.begun = true → Machine.execBarAw sc i s = .next (t.waits 0)) := by
  rw [Machine.execBarWait, Machine.execBarAw, hn]
  exact ⟨h.word32_waits hb, fun hbegun => h.word32_waits ((if_pos hbegun).trans hb)⟩

end

/-- Settles O17: an arrival counts at once or is held (`arriveAt_performed`, `arriveAt_held`); a wait is over or is not. -/
theorem barrierWords : Obligations.BarrierWords := by
  unfold Obligations.BarrierWords
  simp -zeta only [exec_barArrive, exec_barWait, exec_barAw]
  refine ⟨fun s sc i b => ?_, fun s sc i => ?_⟩
  · intro u hn h hb t
    have hbar : (s.released u b.phase).bar u = some b := by rw [State.bar, State.released_bars]; exact hb
    have hperf_iff : (s.released u b.phase).performed s.foc u.scope false = t.performed s.foc sc.toNat false := by
      rw [s.barUnit_scope, s.released_performed]
    refine ⟨⟨fun hp hperf => ?_, fun hp hperf => ?_⟩, fun p hp hph hl => ?_, fun p hp hw => ?_⟩
    · have hdone := barArrive_arrives Res.done hb hp
      rw [State.arriveAt_performed (hperf_iff.trans hperf)] at hdone
      intro m
      have hpair : (s.released u b.phase).pairName s.foc.ctx = m.pairName s.foc.ctx := rfl
      rw [hpair] at hdone
      generalize m.pairName s.foc.ctx = pair at hdone ⊢
      refine ⟨fun hlt => ?_, fun hle => ?_⟩
      · exact h.execBarArrive hn (hdone.trans (congrArg Res.done (State.countArrival_short hbar hlt)))
      · exact h.execBarArrive hn (hdone.trans (congrArg Res.done (State.countArrival_last hbar hle)))
    · have hperf' := hperf_iff.trans hperf
      exact ⟨h.execBarArrive hn (barArrive_arrives Res.done hb hp), (State.arriveAt_held_bars hperf').trans (s.released_bars u b.phase),
        _, State.arriveAt_held_arrivals hperf', rfl⟩
    · exact h.barWait_done hn (barWait_over hb hp hph hl)
    · exact h.barWait_waits hn (barWait_holds hb hp hw)
  · intro u t hn h
    refine ⟨fun hb => ⟨?_, ?_⟩, fun b p w hb hp hph => ?_, fun hp => ?_⟩
    · exact h.execBarArrive_misuse hn (barArrive_none _ hb)
    · exact h.execBarWait_misuse hn (barWait_unit hb)
    · exact h.execBarArrive_misuse hn (barArrive_again _ hb (hph ▸ hp))
    · exact h.execBarWait_misuse hn (barWait_party hp)

end Sys2Proof.Machine

namespace Sys2Proof.Machine

/-! ## TWAIT (14 R338) -/

/-- The clk from now to a cycle count of 48 bits. -/
def State.clkUntil (s : State) (v : Word) : Nat :=
  (v.toNat % 2 ^ 48 + 2 ^ 48 - (s.cyc s.foc.ctx.core).toNat % 2 ^ 48) % 2 ^ 48

theorem State.clkUntil_eq (s : State) (v : Word) :
    (wfield v 0 48 + 2 ^ 48 - wfield (s.cyc s.foc.ctx.core) 0 48) % 2 ^ 48 = s.clkUntil v := rfl

section
variable {s : State} {p : Bool} {a : BitVec 5}

/-- A target that has come is not waited for. -/
theorem State.Ready.execTwait_come (h : s.Ready { srcs := [a.toNat] }) (hd : s.clkUntil (s.rd a) = 0 ∨ 2 ^ 47 ≤ s.clkUntil (s.rd a))
    (hc : p = true → s.fctx.copyPending (wfield (s.rd a) 48 16) = false) : Machine.execTwait p a s = .next (s.issued 2) := by
  have hcopy : (p && s.fctx.copyPending (wfield (s.rd a) 48 16)) = false := by
    simpa using hc
  have htimed : ¬ 1 ≤ s.clkUntil (s.rd a) ∨ ¬ s.clkUntil (s.rd a) < 2 ^ 47 := by omega
  refine h.word32 ?_
  simp only [State.clkUntil_eq]
  rcases htimed with ht | ht
  · simp only [ht, hcopy, decide_false, Bool.and_false, Bool.false_and, Bool.false_eq_true, if_false, ite_self]
  · simp only [ht, hcopy, decide_false, Bool.and_false, Bool.false_and, Bool.false_eq_true, if_false, ite_self]

/-- Without a tag the next clk is not waited for either. -/
theorem State.Ready.execTwait_next (h : s.Ready { srcs := [a.toNat] }) (hd : s.clkUntil (s.rd a) = 1) :
    Machine.execTwait false a s = .next (s.issued 2) := by
  refine h.word32 ?_
  simp only [State.clkUntil_eq, hd, Bool.false_and, Bool.false_or, Bool.and_false, Bool.false_eq_true, if_false, Nat.reduceLeDiff,
    decide_false]

theorem State.Ready.execTwait_waits (h : s.Ready { srcs := [a.toNat] }) (hd : 2 ≤ s.clkUntil (s.rd a))
    (hd' : s.clkUntil (s.rd a) < 2 ^ 47) : Machine.execTwait false a s =
      .next (((s.modFs (fun y => { y with slip := 0, hold := .cycle (s.clk + s.clkUntil (s.rd a)) none s.clk })).post
        (s.clk + s.clkUntil (s.rd a)) (.twaitExpiry s.foc)).waits 0) := by
  refine h.word32_waits ?_
  have h1 : s.clkUntil (s.rd a) ≠ 1 := by omega
  have h2 : 1 ≤ s.clkUntil (s.rd a) := by omega
  simp only [State.clkUntil_eq, hd, hd', h1, h2, Bool.false_and, Bool.not_false, Bool.true_and, Bool.false_or, decide_true,
    if_true, if_false, Bool.false_eq_true]
  rfl

end

/-! ## WAITM and QWAIT (14 R339, R340) -/

section
variable {s s' : State} {a d : BitVec 5} {l : Leaf} {m pa : Nat}

/-- The word at a home of the own module, which no earlier store of the core gives. -/
theorem State.peek_here (hm : l.mir = false) (hh : m = modOf s.foc.ctx.core) (hp : s.placeHeld s.foc false (.mem l m pa) 8 = false)
    (hf : s.forwardCase s.foc.ctx.core (.global m (homeStation pa)) pa 8 = .go) :
    s.peek l m pa = .value (memKey m pa) (BitVec.ofNat 64 (Memory.readLE s.mem (memKey m pa) 8)) := by
  subst hh
  simp only [State.peek, hp, hm, hf, State.byRing_here, Bool.false_eq_true, if_false, Bool.not_false, if_true]

variable (h : s.Ready { srcs := [a.toNat, d.toNat], outs := [d.toNat] }) (ha : (s.rd a).toNat % 8 = 0) (hs : wfield (s.rd a) 56 8 = 0)
  (hq : s.acquiring s.foc = false)
include h ha hs hq

theorem State.Ready.execWaitm_regs {off : Nat} (hr : s.resolve .read 8 (s.rd a) = .at (.regs off) s') :
    Machine.execWaitm a d s = .next (s.raise 0x08 (s.rd a)) := by
  refine h.word32_traps ?_
  simp only [ha, hs, hq, hr, ne_eq, not_true_eq_false, if_false, Bool.false_eq_true]
  rfl

theorem State.Ready.execWaitm_changed {key : Nat} {v : Word} (hr : s.resolve .read 8 (s.rd a) = .at (.mem l m pa) s')
    (hv : s'.peek l m pa = .value key v) (hne : v ≠ s'.rd d) : Machine.execWaitm a d s =
      .next ((s'.freeTime.2.interlocked d.toNat (s'.clk + s'.freeTime.1) v).issued 2) := by
  refine h.word32 ?_
  simp only [ha, hs, hq, hr, hv, ne_eq, not_true_eq_false, if_false, Bool.false_eq_true, bne_iff_ne, hne, not_false_eq_true, if_true]
  rfl

theorem State.Ready.execWaitm_same {key : Nat} {v : Word} (hr : s.resolve .read 8 (s.rd a) = .at (.mem l m pa) s')
    (hv : s'.peek l m pa = .value key v) (heq : v = s'.rd d) (hf : s'.fstrm.fetch = none) : Machine.execWaitm a d s =
      .next ((s'.modFs (fun y => { y with hold := .memory key, fetch := none })).waits 0x3B) := by
  refine h.word32_waits ?_
  simp only [ha, hs, hq, hr, hv, heq, hf, ne_eq, not_true_eq_false, if_false, Bool.false_eq_true, bne_self_eq_false, Option.isSome_none,
    Bool.false_and]

end

section
variable {s : State} {sc : BitVec 3} (h : s.Ready { feature := some 3 }) (hn : s.fctx.normal = true) (hh : s.fctx.handler = none)
include h hn hh

theorem State.Ready.execQwait_passed (hp : s.fstrm.hold = .passed) : Machine.execQwait sc s = .next (s.issued 2) := by
  rw [Machine.execQwait, hn]
  refine h.word32 ?_
  simp only [hh, hp, Option.isSome_none, Bool.false_eq_true, if_false, if_true]

theorem State.Ready.execQwait_registers (hp : s.fstrm.hold ≠ .passed) : Machine.execQwait sc s =
    .next ((((s.flush s.foc.ctx).modSta (stationOf s.foc.ctx.core) (fun r => { r with
      qregs := r.qregs.filter (fun q => q.ctx != s.foc.ctx) ++
        [⟨s.foc.ctx, sc == 4, (s.flush s.foc.ctx).clk, (s.flush s.foc.ctx).fctx.job⟩] })).modFs
          (fun y => { y with hold := .quiet })).waits 0x3A) := by
  rw [Machine.execQwait, hn]
  refine h.word32_waits ?_
  simp only [hh, hp, Option.isSome_none, Bool.false_eq_true, if_false]

end

/-- Settles O18: TWAIT by the clk up to its target, WAITM by the word that it peeks at, QWAIT by what it was held for. -/
theorem waitWords : Obligations.WaitWords := by
  unfold Obligations.WaitWords
  simp -zeta only [exec_twait, exec_waitm, exec_qwait]
  refine ⟨fun s p a h => ⟨fun hd hc => h.execTwait_come hd hc, fun hp hd => ?_, fun hp hd hd' => ?_⟩, ?_, ?_, ?_⟩
  · subst hp
    exact h.execTwait_next hd
  · subst hp
    exact h.execTwait_waits hd hd'
  · intro s s' a d l m pa h ha hs hq hr hm hh hp hf hfetch
    have hv := State.peek_here hm hh hp hf
    exact ⟨fun hne => h.execWaitm_changed ha hs hq hr hv hne, fun heq => h.execWaitm_same ha hs hq hr hv heq hfetch⟩
  · exact fun s s' a d off h ha hs hq hr => h.execWaitm_regs ha hs hq hr
  · exact fun s sc hn h hh => ⟨fun hp => h.execQwait_passed hn hh hp, fun hp => h.execQwait_registers hn hh hp⟩

end Sys2Proof.Machine

namespace Sys2Proof.Machine

/-! ## SIGNAL, SEND and HRET (14 R341, R346, R347) -/

section
variable {s : State} {a : BitVec 5} (h : s.Ready { srcs := [a.toNat] })
include h

theorem State.Ready.execSignal_nowhere (hw : 11 ≤ wfield (s.rd a) 0 4 ∨ s.pod.mods.contains (wfield (s.rd a) 8 6) = false) :
    Machine.execSignal a s = .next (s.issued 2) := by
  refine h.word32 (if_pos ?_)
  simpa using hw

theorem State.Ready.execSignal_sends (hc : wfield (s.rd a) 0 4 ≤ 10) (hm : s.pod.mods.contains (wfield (s.rd a) 8 6) = true) :
    Machine.execSignal a s = .next ((s.egress s.foc.ctx.core (mgmtSlot s.foc.ctx.core s.fctx.job (wfield (s.rd a) 8 6)
      (wfield (s.rd a) 5 3) (wfield (s.rd a) 0 4) 7 [wfield (s.rd a) 4 1]) (s.clk + 1)).issued 2) := by
  refine h.word32 (if_neg ?_)
  simp only [hm, Bool.not_true, Bool.or_false, decide_eq_true_eq]
  omega

end

@[simp] theorem State.countSent_cores (s : State) (core : Nat) (job : BitVec 12) : (s.countSent core job).cores = s.cores := by
  unfold State.countSent
  split <;> rfl

/-- With everything before it performed, a message is sent at once. -/
theorem State.sendMessage_at_once {s : State} {i : StreamId} {slot : Slot} (hp : s.performed i 4 false = true)
    (hs : (s.core i.ctx.core).sends = []) : s.sendMessage i slot = s.sendCounted i.ctx.core slot (s.clk + 1) :=
  if_pos (by simp [hp, hs])

theorem State.core_congr {s t : State} (h : t.cores = s.cores) (k : Nat) : t.core k = s.core k := by
  rw [State.core, State.core, h]

/-- The name of a message that waits at the egress. -/
def State.sendId (s : State) (i : StreamId) (slot : Slot) : Nat := (s.countSent i.ctx.core slot.job).fresh

/-- A core with one more message that waits there, behind what its context owes. -/
def CoreSt.holdSend (k : CoreSt) (i : StreamId) (slot : Slot) (id : Nat) : CoreSt :=
  { k.nameBefore i 4 id with sends := k.sends ++ [⟨id, slot, k.groupsOf i⟩] }

theorem State.core_sendMessage_held {s : State} {i : StreamId} {slot : Slot} (hp : s.performed i 4 false = false)
    (hj : s.jobState (stationOf i.ctx.core) slot.job ≠ .closing) :
    (s.sendMessage i slot).core i.ctx.core = (s.core i.ctx.core).holdSend i slot (s.sendId i slot) := by
  have hcore : (s.countSent i.ctx.core slot.job).nextId.2.core i.ctx.core = s.core i.ctx.core :=
    State.core_congr (s.countSent_cores i.ctx.core slot.job) i.ctx.core
  rw [State.sendMessage, if_neg (by simp [hp]), if_neg hj]
  refine (State.core_modCore_self _ _ _).trans ?_
  exact congrArg (fun k => CoreSt.holdSend k i slot (s.sendId i slot)) hcore

/-- A message waits for every line that is owed to its context and is not unordered, whatever its destination. -/
theorem CoreSt.sendFree_holdSend {k : CoreSt} {i : StreamId} {slot : Slot} {id : Nat} {o : Owed} (ho : o ∈ k.owed)
    (hb : o.bank = i.ctx.bank) (he : o.eng = none) (hord : o.ord ≠ 2) :
    (k.holdSend i slot id).sendFree ⟨id, slot, k.groupsOf i⟩ = false := by
  have hscope : destInScope i.ctx.core 4 o.dest = true := by cases o.dest <;> rfl
  have hnamed : (k.holdSend i slot id).owed.any (fun o => o.before.contains id) = true := by
    refine List.any_eq_true.2 ⟨{ o with before := id :: o.before }, List.mem_map.2 ⟨o, ho, ?_⟩, ?_⟩
    · exact if_pos (by simp [hb, he, hord, hscope])
    · simp
  rw [CoreSt.sendFree, CoreSt.cleared, hnamed, Bool.not_true, Bool.and_false, Bool.false_and]

section
variable {s : State} {g : Guard}

/-- A message whose lines may be read and whose station has room is handed to the egress. -/
theorem State.Ready.execSend {b a : BitVec 5} (h : s.Ready { feature := some 3, guard := g, srcs := [a.toNat, b.toNat] })
    (hn : s.fctx.normal = true) (ho : (s.rd b).toNat % 64 = 0)
    (hend : (s.rd b).toNat + 64 * (wfield (s.rd a) 46 2 + 1) ≤ 0x300000) (hk : (kindOf s.foc.ctx.core).ctl = false)
    (hl : (linesOf (s.rd b).toNat (64 * (wfield (s.rd a) 46 2 + 1))).all
      (fun l => entV (s.entryAt s.foc.ctx 1 (64 * l)) && entAv (s.entryAt s.foc.ctx 1 (64 * l))) = true)
    (hc : wfield (s.rd a) 0 4 ≤ 10) (hm : s.pod.mods.contains (wfield (s.rd a) 8 6) = true) (hq : s.acquiring s.foc = false)
    (hu : (s.flush s.foc.ctx).unsent s.foc.ctx.core < 16)
    (hp : ((s.flush s.foc.ctx).core s.foc.ctx.core).poisoned 1 (s.rd b).toNat (64 * (wfield (s.rd a) 46 2 + 1)) = false) :
    Machine.execSend g b a s = .next (((s.flush s.foc.ctx).sendMessage (s.flush s.foc.ctx).foc
      (slotFrom s.foc.ctx.core 2 (s.flush s.foc.ctx).fctx.job (wfield (s.rd a) 8 6) (wfield (s.rd a) 5 3) (wfield (s.rd a) 0 4)
        (wfield (s.rd a) 46 2) 0 (wfield (s.rd a) 48 16)
        (Memory.readN ((s.flush s.foc.ctx).core s.foc.ctx.core).memX (s.rd b).toNat (64 * (wfield (s.rd a) 46 2 + 1))))).issued 2) := by
  have hend' : ¬ 0x300000 < (s.rd b).toNat + 64 * (wfield (s.rd a) 46 2 + 1) := by omega
  have hc' : ¬ 11 ≤ wfield (s.rd a) 0 4 := by omega
  have hu' : ¬ 16 ≤ (s.flush s.foc.ctx).unsent s.foc.ctx.core := by omega
  rw [Machine.execSend, hn]
  refine h.word32 ?_
  simp only [ho, hend', hk, hl, hc', hm, hq, hu', hp, ne_eq, not_true_eq_false, if_false, Bool.false_and, Bool.or_false, decide_false,
    Bool.not_true, Bool.false_eq_true]

theorem State.Ready.execHret_none (h : s.Ready { feature := some 3, guard := g }) (hn : s.fctx.normal = true)
    (hh : s.fctx.handler = none) : Machine.execHret g s = .next (s.raise 0x0B 0) := by
  rw [Machine.execHret, hn]
  refine h.word32_traps ?_
  simp only [hh]
  rfl

theorem State.Ready.execHret {e : Nat} (h : s.Ready { feature := some 3, guard := g }) (hn : s.fctx.normal = true)
    (hh : s.fctx.handler = some e) (hp : (s.flush s.foc.ctx).performed s.foc 4 false = true) : Machine.execHret g s =
      .next ((((s.flush s.foc.ctx).modF (fun x => { x with handler := none, inbox := x.inbox.filter (fun i => i != e) })).countTaken
        s.foc.ctx.core ((s.flush s.foc.ctx).modF (fun x => { x with handler := none, inbox := x.inbox.filter (fun i => i != e) })).fctx.job).issued
          2) := by
  rw [Machine.execHret, hn]
  refine h.word32 ?_
  simp only [hh, hp, State.flush_foc, State.modF_foc, Bool.not_true, Bool.false_eq_true, if_false]

end

/-- Settles O19: a message goes at once or is held behind what its context owes (`sendMessage_at_once`, `sendFree_holdSend`). -/
theorem messageWords : Obligations.MessageWords := by
  unfold Obligations.MessageWords
  simp -zeta only [exec_signal, exec_send, exec_hret]
  refine ⟨fun s a h => ⟨fun hw => h.execSignal_nowhere hw, fun hc hm => h.execSignal_sends hc hm⟩, ?_, fun s i slot => ⟨?_, fun hp hj => ?_⟩, ?_⟩
  · intro s g b a
    exact fun hn h ho hend hk hl hc hm hq hu hp => h.execSend hn ho hend hk hl hc hm hq hu hp
  · exact State.sendMessage_at_once
  · rw [State.core_sendMessage_held hp hj]
    exact ⟨_, rfl, rfl, fun o ho hb he hord => CoreSt.sendFree_holdSend ho hb he hord⟩
  · exact fun s g hn h => ⟨fun hh => h.execHret_none hn hh, fun e hh hp => h.execHret hn hh hp⟩

end Sys2Proof.Machine

namespace Sys2Proof.Machine

/-! ## TRAP, RTE and RTE.skip (14 R349) -/

/-- Two changes of the context in focus that agree on it. -/
theorem State.modF_congr {s : State} {f g : Ctx → Ctx} (h : f s.fctx = g s.fctx) : s.modF f = s.modF g :=
  congrArg (s.putCtx s.foc.ctx) h

/-- Passing over a trapping word of A (12 R293). -/
theorem rteBody_skip_a {s : State} (hs : skippable s.fctx.trapc = true) (ha : wfield s.fctx.trapc 46 2 = 1) :
    rteBody true s = .done ((s.modF (fun x => ({ x with
      phase := .returning (s.clk + 24), evacuated := none, a := skipWord s.fcore .a { x.a with stall := 0 } } : Ctx))).post (s.clk + 24)
        (.rteResume s.foc.ctx)) := by
  refine congrArg (fun t : State => Res.done (t.post (s.clk + 24) (.rteResume s.foc.ctx))) (State.modF_congr ?_)
  simp only [hs, ha, Bool.and_self, if_true]

/-- Settles O20: PRIV by `word32_priv`; in a handler mode the bodies of TRAP and RTE as they stand, and `rteBody_skip_a`. -/
theorem trapAndReturnWords : Obligations.TrapAndReturnWords := by
  unfold Obligations.TrapAndReturnWords
  refine ⟨fun s code h => h.word32 rfl, fun s => ⟨fun hn => ⟨word32_priv rfl hn, word32_priv rfl hn⟩, fun hn h => ?_⟩⟩
  rw [exec_rte, exec_rteSkip, execRte, execRteSkip, hn]
  exact ⟨h.word32 rfl, fun hs ha => h.word32 (rteBody_skip_a hs ha)⟩

end Sys2Proof.Machine

namespace Sys2Proof.Machine

/-! ## Parts of a context that issuing leaves -/

/-- Two names of one place (07 R161) read the same context. -/
theorem State.ctx_of_key (s : State) {c d : CtxId} (h : 2 * d.core + d.bank = 2 * c.core + c.bank) : s.ctx d = s.ctx c := by
  rw [State.ctx, State.ctx, h]

/-- Banks 0 and 1 of a core are two places. -/
theorem CtxId.eq_of_key {c d : CtxId} (hc : c.bank < 2) (hd : d.bank < 2) (h : 2 * d.core + d.bank = 2 * c.core + c.bank) : d = c := by
  obtain ⟨ck, cb⟩ := c
  obtain ⟨dk, db⟩ := d
  dsimp only at hc hd h
  congr 1 <;> omega

/-- A change of one context that keeps a part of it keeps that part of every context. -/
theorem State.ctx_modCtx_keeps {β : Type} (part : Ctx → β) (s : State) (c d : CtxId) {f : Ctx → Ctx} (h : ∀ x, part (f x) = part x) :
    part ((s.modCtx c f).ctx d) = part (s.ctx d) := by
  by_cases hk : 2 * d.core + d.bank = 2 * c.core + c.bank
  · rw [State.ctx_of_key _ hk, State.ctx_modCtx_self, h, State.ctx_of_key _ hk]
  · rw [State.ctx_modCtx_ne s c d f hk]

/-- A charge counts in STCNT alone. -/
theorem Ctx.charge_keeps {β : Type} (part : Ctx → β) (h : ∀ x t, part { x with stcnt := t } = part x) (x : Ctx) (st : Stream) (code : Nat) :
    part (x.charge st code) = part x := by
  unfold Ctx.charge
  dsimp only
  split
  · rfl
  · exact h x _

/-- Issuing a word charges it and moves its stream. -/
theorem State.ctx_issued_keeps {β : Type} (part : Ctx → β) (hc : ∀ x t, part { x with stcnt := t } = part x)
    (hs : ∀ x st y, part (Ctx.putStrm x st y) = part x) (s : State) (n : Nat) (d : CtxId) :
    part ((s.issued n).ctx d) = part (s.ctx d) := by
  have hmove : part ((s.issued n).ctx d) = part ((s.charge s.foc 0).ctx d) := State.ctx_modCtx_keeps part _ _ _ fun x => hs x _ _
  rw [hmove]
  exact State.ctx_modCtx_keeps part s _ _ fun x => Ctx.charge_keeps part hc x _ _

theorem State.fctx_charge (s : State) (code : Nat) : (s.charge s.foc code).fctx = s.fctx.charge s.foc.st code := State.ctx_modCtx_self _ _ _

theorem State.fstrm_charge (s : State) (code : Nat) : (s.charge s.foc code).fstrm = s.fstrm := by
  rw [State.fstrm, State.strm, State.charge_foc, State.charge, State.ctx_modCtx_self]
  exact Ctx.charge_keeps (fun x => x.strm s.foc.st) (fun x t => by cases s.foc.st <;> rfl) _ _ _

@[simp] theorem State.fstrm_issued (s : State) (n : Nat) : (s.issued n).fstrm = s.fstrm.advance n := by
  rw [State.issued, State.fstrm_modFs, State.fstrm_charge]

theorem StreamSt.regs_advance (y : StreamSt) (n : Nat) : (y.advance n).regs = y.regs := by
  unfold StreamSt.advance
  dsimp only
  split
  · rfl
  · split <;> rfl

theorem StreamSt.waiting_advance (y : StreamSt) (n : Nat) : (y.advance n).waiting = false := by
  unfold StreamSt.advance
  dsimp only
  split
  · rfl
  · split <;> rfl

/-! ## WAYPT (14 R350; 04 R114) -/

@[simp] theorem State.flush_dies (s : State) (c : CtxId) : (s.flush c).dies = s.dies := State.foldl_keeps State.dies fun _ _ => rfl

theorem State.flush_fctx (s : State) (c : CtxId) : (s.flush c).fctx = s.fctx := by
  rw [State.fctx, State.ctx, State.flush_ctxs, State.flush_foc]
  rfl

theorem State.flush_fstrm (s : State) (c : CtxId) : (s.flush c).fstrm = s.fstrm := by
  rw [State.fstrm, State.strm, State.ctx, State.flush_ctxs, State.flush_foc]
  rfl

/-- The waypoint reached (14 R350): its id and cycle recorded, the word begun. -/
def State.atWaypt (s : State) (id : BitVec 12) : State :=
  (s.modF (fun x => { x with
    waypoint := some id, freezes := 0, evacuated := none, staleAt := false, atWay := some id
    wayCyc := s.clk - s.fctx.origin - s.fstrm.slip, ways := x.ways + 1 })).modFs (fun y => { y with begun := true })

/-- The word that reaches its waypoint and goes on at once. -/
def State.passWaypt (s : State) (id : BitVec 12) : State := (s.atWaypt id).modF (fun x => { x with atWay := none })

theorem State.atWaypt_fctx_keeps {β : Type} (part : Ctx → β) (hs : ∀ x st y, part (Ctx.putStrm x st y) = part x) (s : State)
    (id : BitVec 12) : part (s.atWaypt id).fctx = part { s.fctx with
      waypoint := some id, freezes := 0, evacuated := none, staleAt := false, atWay := some id
      wayCyc := s.clk - s.fctx.origin - s.fstrm.slip, ways := s.fctx.ways + 1 } := by
  refine (State.ctx_modCtx_keeps part _ _ _ fun x => hs x _ _).trans ?_
  exact congrArg part (State.fctx_modF s _)

theorem State.isLate_atWaypt (s : State) (id : BitVec 12) : (s.atWaypt id).isLate s.foc.ctx = s.isLate s.foc.ctx :=
  congrArg s.platLate (State.atWaypt_fctx_keeps Ctx.plat (fun _ st _ => by cases st <;> rfl) s id)

theorem State.passWaypt_regs (s : State) (id : BitVec 12) : (s.passWaypt id).fstrm.regs = s.fstrm.regs := by
  rw [State.passWaypt, State.fstrm_modF_of_strm _ _ fun x => by cases s.foc.st <;> rfl, State.atWaypt, State.fstrm_modFs,
    State.fstrm_modF_of_strm _ _ fun x => by cases s.foc.st <;> rfl]

/-- What the record of a passed waypoint holds once the word has issued. -/
theorem State.passWaypt_issued {β : Type} (part : Ctx → β) (hc : ∀ x t, part { x with stcnt := t } = part x)
    (hs : ∀ x st y, part (Ctx.putStrm x st y) = part x) (hw : ∀ x : Ctx, part { x with atWay := none } = part x) (s : State)
    (id : BitVec 12) : part ((s.passWaypt id).issued 2).fctx = part { s.fctx with
      waypoint := some id, freezes := 0, evacuated := none, staleAt := false, atWay := some id
      wayCyc := s.clk - s.fctx.origin - s.fstrm.slip, ways := s.fctx.ways + 1 } := by
  refine (State.ctx_issued_keeps part hc hs _ _ _).trans ?_
  refine (State.ctx_modCtx_keeps part _ _ _ fun x => hw x).trans ?_
  exact s.atWaypt_fctx_keeps part hs id

@[simp] theorem State.passWaypt_mem (s : State) (id : BitVec 12) : (s.passWaypt id).mem = s.mem := rfl

theorem State.passWaypt_waypoint (s : State) (id : BitVec 12) : ((s.passWaypt id).issued 2).fctx.waypoint = some id := by
  rw [s.passWaypt_issued Ctx.waypoint (fun _ _ => rfl) (fun _ st _ => by cases st <;> rfl) (fun _ => rfl) id]

theorem State.passWaypt_freezes (s : State) (id : BitVec 12) : ((s.passWaypt id).issued 2).fctx.freezes = 0 := by
  rw [s.passWaypt_issued Ctx.freezes (fun _ _ => rfl) (fun _ st _ => by cases st <;> rfl) (fun _ => rfl) id]

theorem State.passWaypt_evacuated (s : State) (id : BitVec 12) : ((s.passWaypt id).issued 2).fctx.evacuated = none := by
  rw [s.passWaypt_issued Ctx.evacuated (fun _ _ => rfl) (fun _ st _ => by cases st <;> rfl) (fun _ => rfl) id]

/-- Outside guarded timing and with no stop asked for, a waypoint is passed. -/
theorem wayptBody_passes {s : State} {id : BitVec 12} (hh : s.fctx.handler = none) (hb : s.fstrm.begun = false)
    (hg : s.fctx.guarded = false) (hq : s.fctx.stopReq = false) (hl : (s.flush s.foc.ctx).isLate s.foc.ctx = false) :
    wayptBody id s = .done ((s.flush s.foc.ctx).passWaypt id) := by
  have hguard : ((s.flush s.foc.ctx).atWaypt id).fctx.guarded = false :=
    (State.atWaypt_fctx_keeps Ctx.guarded (fun _ st _ => by cases st <;> rfl) _ id).trans (by rw [State.flush_fctx]; exact hg)
  have hstop : ((s.flush s.foc.ctx).atWaypt id).fctx.stopReq = false :=
    (State.atWaypt_fctx_keeps Ctx.stopReq (fun _ st _ => by cases st <;> rfl) _ id).trans (by rw [State.flush_fctx]; exact hq)
  have hlate : ((s.flush s.foc.ctx).atWaypt id).isLate s.foc.ctx = false := by
    have := (s.flush s.foc.ctx).isLate_atWaypt id
    rw [State.flush_foc] at this
    rw [this, hl]
  have hfoc : s.fctx.handler.isSome = false := by rw [hh]; rfl
  unfold wayptBody
  simp only [hfoc, hb, Bool.false_eq_true, if_false]
  refine if_pos ?_
  rw [Bool.and_eq_true, Bool.and_eq_true]
  exact ⟨⟨congrArg not hguard, congrArg (fun r => !(r && _)) hstop⟩, congrArg (fun r => !(r && _)) hlate⟩

/-- A fellow leaves a common waypoint, seen from the stream in focus: the own context leaves guarded timing, another that stands there goes on
with its next word too, and one that does not is left alone. -/
def State.leaveStep (id : BitVec 12) (c : CtxId) (t : State) (d : CtxId) : State :=
  if d = c then t.leaveGuarded d else if (t.ctx d).atWay == some id then t.leaveWay d else t

/-- A context is out of guarded timing, and took `cur` where it was in it. -/
def Ctx.hasLeft (was : Ctx) (cur : BitVec 32) (x : Ctx) : Prop :=
  x.guarded = false ∧ (was.guarded = true → x.edCode = cur)

section
variable {id : BitVec 12} {c d : CtxId} {was : Ctx} {cur : BitVec 32} {s t : State}

/-- Changes that keep the timing and the edition of a context keep its having left. -/
theorem Ctx.hasLeft_congr {x y : Ctx} (hg : y.guarded = x.guarded) (he : y.edCode = x.edCode) (h : Ctx.hasLeft was cur x) :
    Ctx.hasLeft was cur y := by
  obtain ⟨h1, h2⟩ := h
  exact ⟨hg.trans h1, fun hw => he.trans (h2 hw)⟩

theorem State.ctx_leaveGuarded_self (t : State) (d : CtxId) : (t.leaveGuarded d).ctx d =
    if (t.ctx d).guarded then { t.ctx d with guarded := false, edCode := t.curEdition d.core, staleAt := true } else t.ctx d :=
  State.ctx_modCtx_self _ _ _

/-- Leaving guarded timing does what the waypoint asks, the first time and any later one. -/
theorem State.leaveGuarded_hasLeft (hc : t.curEdition d.core = cur)
    (h : (t.ctx d).guarded = was.guarded ∨ Ctx.hasLeft was cur (t.ctx d)) : Ctx.hasLeft was cur ((t.leaveGuarded d).ctx d) := by
  rw [State.ctx_leaveGuarded_self]
  by_cases hg : (t.ctx d).guarded = true
  · rw [if_pos hg]
    exact ⟨rfl, fun _ => hc⟩
  · rw [if_neg hg]
    rcases h with h | h
    · exact ⟨by simpa using hg, fun hw => absurd (h.trans hw) hg⟩
    · exact h

/-- What else leaving a waypoint does to a context is no matter of its timing. -/
theorem State.ctx_leaveWay_keeps {β : Type} (part : Ctx → β) (hc : ∀ x k, part { x with stcnt := k } = part x)
    (hw : ∀ x y, part { x with atWay := none, c := y } = part x) (t : State) (d e : CtxId) :
    part ((t.leaveWay d).ctx e) = part ((t.leaveGuarded d).ctx e) := by
  unfold State.leaveWay
  dsimp only
  split
  · rfl
  · rw [State.ctx_modCtx_keeps part _ _ _ fun x => hw x _]
    split
    · exact State.ctx_modCtx_keeps part _ _ _ fun x => Ctx.charge_keeps part hc x _ _
    · rfl

theorem State.leaveStep_hasLeft (hc : t.curEdition d.core = cur) (ha : d = c ∨ (t.ctx d).atWay = some id)
    (h : (t.ctx d).guarded = was.guarded ∨ Ctx.hasLeft was cur (t.ctx d)) : Ctx.hasLeft was cur ((t.leaveStep id c d).ctx d) := by
  have hleft := State.leaveGuarded_hasLeft hc h
  unfold State.leaveStep
  by_cases hd : d = c
  · rw [if_pos hd]
    exact hleft
  · rw [if_neg hd, if_pos (by simpa using ha.resolve_left hd)]
    exact Ctx.hasLeft_congr (State.ctx_leaveWay_keeps Ctx.guarded (fun _ _ => rfl) (fun _ _ => rfl) t d d)
      (State.ctx_leaveWay_keeps Ctx.edCode (fun _ _ => rfl) (fun _ _ => rfl) t d d) hleft

/-- A fellow's leaving is its own alone. -/
theorem State.ctx_leaveStep_ne {e : CtxId} (hk : 2 * e.core + e.bank ≠ 2 * d.core + d.bank) : (t.leaveStep id c d).ctx e = t.ctx e := by
  have hg : (t.leaveGuarded d).ctx e = t.ctx e := State.ctx_modCtx_ne _ _ _ _ hk
  unfold State.leaveStep
  split
  · exact hg
  · split
    · unfold State.leaveWay
      dsimp only
      split
      · exact hg
      · rw [State.ctx_modCtx_ne _ _ _ _ hk]
        split
        · have hcharge : ((t.leaveGuarded d).charge ⟨d, .c⟩ 0x44).ctx e = (t.leaveGuarded d).ctx e := State.ctx_modCtx_ne _ _ _ _ hk
          exact hcharge.trans hg
        · exact hg
    · rfl

theorem State.leaveWay_keeps {β : Type} (part : State → β) (hm : ∀ s c f, part (State.modCtx s c f) = part s)
    (ht : ∀ s l, part { s with turn := l } = part s) (t : State) (d : CtxId) : part (t.leaveWay d) = part t := by
  have hg : part (t.leaveGuarded d) = part t := hm _ _ _
  unfold State.leaveWay
  dsimp only
  split
  · exact hg
  · rw [hm]
    split
    · exact ((ht _ _).trans (hm _ _ _)).trans hg
    · exact hg

theorem State.leaveStep_keeps {β : Type} (part : State → β) (hm : ∀ s c f, part (State.modCtx s c f) = part s)
    (ht : ∀ s l, part { s with turn := l } = part s) (id : BitVec 12) (c : CtxId) (t : State) (d : CtxId) :
    part (t.leaveStep id c d) = part t := by
  unfold State.leaveStep
  split
  · exact hm _ _ _
  · split
    · exact t.leaveWay_keeps part hm ht d
    · rfl

theorem State.leaveStep_dies (id : BitVec 12) (c : CtxId) (t : State) (d : CtxId) : (t.leaveStep id c d).dies = t.dies :=
  t.leaveStep_keeps State.dies (fun _ _ _ => rfl) (fun _ _ => rfl) id c d

theorem State.curEdition_congr (h : t.dies = s.dies) (k : Nat) : t.curEdition k = s.curEdition k := by
  rw [State.curEdition, State.curEdition, State.die, State.die, h]

/-- One that has left stays so, whoever leaves next. -/
theorem State.leaveStep_hasLeft_of (e : CtxId) (hb : d.bank < 2) (he : e.bank < 2) (hc : t.curEdition d.core = cur)
    (h : Ctx.hasLeft was cur (t.ctx d)) : Ctx.hasLeft was cur ((t.leaveStep id c e).ctx d) := by
  by_cases hk : 2 * d.core + d.bank = 2 * e.core + e.bank
  · obtain rfl := CtxId.eq_of_key he hb hk
    by_cases ha : d = c ∨ (t.ctx d).atWay = some id
    · exact State.leaveStep_hasLeft hc ha (.inr h)
    · obtain ⟨hne, hway⟩ := not_or.1 ha
      rw [State.leaveStep, if_neg hne, if_neg (by simpa using hway)]
      exact h
  · rw [State.ctx_leaveStep_ne hk]
    exact h

/-- After all fellows in a list, each of them that stands at the waypoint has left. -/
theorem State.foldl_leaveStep_hasLeft {l : List CtxId} (hb : ∀ e ∈ l, e.bank < 2) (hd : d.bank < 2) (hc : t.curEdition d.core = cur)
    (h : Ctx.hasLeft was cur (t.ctx d) ∨
      d ∈ l ∧ (d = c ∨ (t.ctx d).atWay = some id) ∧ (t.ctx d).guarded = was.guarded) :
    Ctx.hasLeft was cur ((l.foldl (State.leaveStep id c) t).ctx d) := by
  induction l generalizing t with
  | nil =>
    rcases h with h | ⟨hmem, -⟩
    · exact h
    · exact absurd hmem List.not_mem_nil
  | cons e l ih =>
    obtain ⟨he, hl⟩ := List.forall_mem_cons.1 hb
    have hc' : (t.leaveStep id c e).curEdition d.core = cur := (State.curEdition_congr (t.leaveStep_dies id c e) _).trans hc
    refine ih hl hc' ?_
    rcases h with h | ⟨hmem, ha, hg⟩
    · exact .inl (State.leaveStep_hasLeft_of e hd he hc h)
    · by_cases hde : d = e
      · subst hde
        exact .inl (State.leaveStep_hasLeft hc ha (.inl hg))
      · rw [State.ctx_leaveStep_ne fun hk => hde (CtxId.eq_of_key he hd hk)]
        exact .inr ⟨(List.mem_cons.1 hmem).resolve_left hde, ha, hg⟩

end

/-- The fellows of a context stand in banks 0 and 1. -/
theorem State.bank_of_mem_fellows {s : State} {c d : CtxId} (hc : c.bank < 2) (h : d ∈ s.fellows c) : d.bank < 2 := by
  have hres : ∀ e ∈ s.ctxsOf (s.ctx c).plat, e.bank < 2 := by
    intro e he
    obtain ⟨x, -, rfl⟩ := List.mem_map.1 (List.mem_filter.1 he).1
    exact Nat.mod_lt _ (by decide)
  unfold State.fellows at h
  split at h
  · rw [List.mem_singleton.1 h]
    exact hc
  · exact hres d h

/-- The state in which all parcels of a plat have left their waypoint. -/
def State.leaveAll (s : State) (id : BitVec 12) : State :=
  (s.fellows s.foc.ctx).foldl (State.leaveStep id s.foc.ctx) (s.modF (fun x => { x with atWay := none }))

section
variable {s : State} {id : BitVec 12} (hh : s.fctx.handler = none) (hb : s.fstrm.begun = true) (hg : s.fctx.guarded = true)
  (hq : s.fctx.stopReq = false) (hl : s.isLate s.foc.ctx = false)

include hh hb hg in
theorem wayptBody_waits (hr : (s.fellows s.foc.ctx).all (s.reached s.fctx id) = false) : wayptBody id s = .wait 0x44 s := by
  unfold wayptBody
  simp only [hh, hb, hg, hr, Option.isSome_none, Bool.false_eq_true, if_false, if_true, Bool.not_true, Bool.false_and, Bool.not_false]

include hh hb hg hq hl in
theorem wayptBody_leaves (hr : (s.fellows s.foc.ctx).all (s.reached s.fctx id) = true) : wayptBody id s = .done (s.leaveAll id) := by
  unfold wayptBody
  simp only [hh, hb, hg, hr, hq, hl, Option.isSome_none, Bool.false_eq_true, if_false, if_true, Bool.not_true, Bool.false_and]
  rfl

end

theorem State.leaveAll_keeps {β : Type} (part : State → β) (hm : ∀ s c f, part (State.modCtx s c f) = part s)
    (ht : ∀ s l, part { s with turn := l } = part s) (s : State) (id : BitVec 12) : part (s.leaveAll id) = part s :=
  (State.foldl_keeps part fun t d => t.leaveStep_keeps part hm ht id s.foc.ctx d).trans (hm _ _ _)

theorem State.leaveAll_hasLeft {s : State} {id : BitVec 12} {d : CtxId} (hb : s.foc.ctx.bank < 2) (hd : d ∈ s.fellows s.foc.ctx)
    (ha : d = s.foc.ctx ∨ (s.ctx d).atWay = some id) :
    Ctx.hasLeft (s.ctx d) (s.curEdition d.core) ((s.leaveAll id).ctx d) := by
  have hguard : ((s.modF (fun x => { x with atWay := none })).ctx d).guarded = (s.ctx d).guarded :=
    State.ctx_modCtx_keeps Ctx.guarded s _ _ fun _ => rfl
  refine State.foldl_leaveStep_hasLeft (fun e he => State.bank_of_mem_fellows hb he) (State.bank_of_mem_fellows hb hd)
    (State.curEdition_congr rfl _) (.inr ⟨hd, ?_, hguard⟩)
  by_cases hc : d = s.foc.ctx
  · exact .inl hc
  · rw [State.modF, State.ctx_modCtx_ne _ _ _ _ fun hk => hc (CtxId.eq_of_key hb (State.bank_of_mem_fellows hb hd) hk)]
    exact .inr (ha.resolve_left hc)

/-! ## RETIRE (14 R353) -/

@[simp] theorem State.reconsider_ctxs (s : State) (core start : Nat) : (s.reconsider core start).ctxs = s.ctxs := by
  unfold State.reconsider
  dsimp only
  split
  · rfl
  · split <;> rfl

@[simp] theorem State.core_post (s : State) (due : Nat) (e : Event) (k : Nat) : (s.post due e).core k = s.core k := rfl

@[simp] theorem State.core_modSta (s : State) (n : Nat) (f : Station → Station) (k : Nat) : (s.modSta n f).core k = s.core k := rfl

/-- A change of a core that keeps a part of it. -/
theorem State.core_modCore_keeps {β : Type} (part : CoreSt → β) (s : State) (j k : Nat) {f : CoreSt → CoreSt}
    (h : ∀ x, part (f x) = part x) : part ((s.modCore j f).core k) = part (s.core k) := by
  by_cases hk : k = j
  · subst hk
    rw [State.core_modCore_self, h]
  · rw [State.core_modCore_ne s f hk]

theorem State.reconsider_regions (s : State) (core start k : Nat) : ((s.reconsider core start).core k).regions = (s.core k).regions := by
  have hswitch : ∀ bank, ((s.beginSwitch core bank start).core k).regions = (s.core k).regions := by
    intro bank
    unfold State.beginSwitch
    rw [State.core_post]
    exact State.core_modCore_keeps CoreSt.regions s core k fun _ => rfl
  unfold State.reconsider
  dsimp only
  split
  · rfl
  · split
    · exact hswitch _
    · rfl

/-- What freeing a plat's die leaves: every context, and of the loaded regions some. -/
def State.Shrinks (s t : State) : Prop :=
  t.ctxs = s.ctxs ∧ ∀ k, (t.core k).regions ⊆ (s.core k).regions

namespace State.Shrinks

variable {s t u : State}

theorem refl (s : State) : s.Shrinks s := ⟨rfl, fun _ => List.Subset.refl _⟩

theorem trans (h : s.Shrinks t) (h' : t.Shrinks u) : s.Shrinks u := by
  obtain ⟨hc, hr⟩ := h
  obtain ⟨hc', hr'⟩ := h'
  exact ⟨hc'.trans hc, fun k => List.Subset.trans (hr' k) (hr k)⟩

theorem of_eq (hc : t.ctxs = s.ctxs) (hk : t.cores = s.cores) : s.Shrinks t := by
  refine ⟨hc, fun k => ?_⟩
  rw [State.core, State.core, hk]
  exact List.Subset.refl _

theorem foldl {α : Type} {f : State → α → State} (h : ∀ (t : State) (a : α), t.Shrinks (f t a)) (l : List α) (s : State) : s.Shrinks (l.foldl f s) := by
  induction l generalizing s with
  | nil => exact refl s
  | cons a l ih => exact (h s a).trans (ih (f s a))

end State.Shrinks

theorem State.modDie_shrinks (s : State) (d : Nat) (f : DieSt → DieSt) : s.Shrinks (s.modDie d f) := .of_eq rfl rfl

theorem State.modCore_shrinks (s : State) (k : Nat) {f : CoreSt → CoreSt} (h : ∀ x, (f x).regions ⊆ x.regions) : s.Shrinks (s.modCore k f) := by
  refine ⟨rfl, fun j => ?_⟩
  by_cases hj : j = k
  · subst hj
    rw [State.core_modCore_self]
    exact h _
  · rw [State.core_modCore_ne s f hj]
    exact List.Subset.refl _

theorem State.logLine_shrinks (s : State) (plat : Word) (mod line : Nat) : s.Shrinks (s.logLine plat mod line) := by
  unfold State.logLine
  dsimp only
  split
  · exact .refl s
  · split
    · exact .of_eq rfl rfl
    · exact s.modDie_shrinks _ _

theorem State.writeMem_shrinks (s : State) (plat : Word) (mod pa : Nat) (bs : List Byte) : s.Shrinks (s.writeMem plat mod pa bs) := by
  have hlog : s.Shrinks (if s.inInterval plat then (linesOf pa bs.length).foldl (fun t l => t.logLine plat mod l) s else s) := by
    split
    · exact .foldl (fun t l => t.logLine_shrinks plat mod l) _ _
    · exact .refl s
  unfold State.writeMem
  dsimp only
  refine (hlog.trans (.of_eq rfl rfl)).trans (.foldl ?_ _ _)
  exact fun t i => .of_eq rfl rfl

theorem State.writeVirt_shrinks (s : State) (core job va : Nat) (bs : List Byte) : s.Shrinks (s.writeVirt core job va bs) := by
  have hpage : ∀ (t : State) (a : Nat) (cs : List Byte), t.Shrinks (if cs = [] then t else
      match t.walk core job .write a with
      | .ok l => t.writeMem 0 (l.homeMod (modOf core)) (l.pa a) cs
      | .fault .. => t) := by
    intro t a cs
    split
    · exact .refl t
    · split
      · exact t.writeMem_shrinks _ _ _ _
      · exact .refl t
  exact (hpage s _ _).trans (hpage _ _ _)

theorem State.writeStatus_shrinks (s : State) (die : Nat) (p : PlatRec) (code detail cyc : Nat) :
    s.Shrinks (s.writeStatus die p code detail cyc) :=
  (s.writeVirt_shrinks _ _ _ _).trans (State.writeVirt_shrinks _ _ _ _ _)

theorem State.setStatus_shrinks (s : State) (die : Nat) (plat : Word) (code detail : Nat) : s.Shrinks (s.setStatus die plat code detail) := by
  unfold State.setStatus
  split
  · exact .refl s
  · next p hp =>
    have hw := s.writeStatus_shrinks die p code detail s.clk
    dsimp only
    split
    · refine (hw.trans (State.modDie_shrinks _ _ _)).trans (.foldl ?_ _ _)
      exact fun t k => t.modCore_shrinks _ fun _ => List.filter_sublist.subset
    · exact hw.trans (State.modDie_shrinks _ _ _)

/-- A part of what is got from a map by keys, when each entry keeps it. -/
theorem Sp.get_map_keeps {α β : Type} (part : α → β) (dflt : α) {f : Nat × α → Nat × α} (hk : ∀ e, (f e).1 = e.1)
    (hp : ∀ e, part (f e).2 = part e.2) (m : Sp α) (j : Nat) : part (Sp.get dflt (m.map f) j) = part (Sp.get dflt m j) := by
  induction m with
  | nil => rfl
  | cons e m ih =>
    obtain ⟨k, v⟩ := e
    have hkey := hk (k, v)
    have hval := hp (k, v)
    rw [List.map_cons, Sp.get, Sp.get, hkey]
    split
    · exact hval
    · exact ih

theorem State.freeUnits_shrinks (s : State) (die : Nat) (plat : Word) : s.Shrinks (s.freeUnits die plat) := by
  refine ⟨rfl, fun k => ?_⟩
  have hregions : ((s.freeUnits die plat).core k).regions = (s.core k).regions := by
    unfold State.freeUnits State.core
    dsimp only
    refine Sp.get_map_keeps CoreSt.regions CoreSt.reset ?_ ?_ s.cores k
    · exact fun _ => rfl
    · exact fun _ => rfl
  rw [hregions]
  exact List.Subset.refl _

theorem State.finishDie_shrinks (s : State) (die : Nat) (plat : Word) : s.Shrinks (s.finishDie die plat) := by
  have hguests : ∀ t : State, t.Shrinks (t.finishGuests plat 0x04 0) := by
    intro t
    unfold State.finishGuests
    split
    · exact .refl t
    · exact .foldl (fun u d => (u.setStatus_shrinks d plat _ _).trans (State.freeUnits_shrinks _ _ _)) _ _
  unfold State.finishDie
  split
  · exact .refl s
  · split
    · exact .refl s
    · refine State.Shrinks.trans ?_ ((State.freeUnits_shrinks _ _ _).trans (hguests _))
      refine State.Shrinks.trans (s.modDie_shrinks die (fun d => { d with gone := (plat :: d.gone).take 256 })) ?_
      split
      · split
        · exact State.setStatus_shrinks _ _ _ _ _
        · exact State.setStatus_shrinks _ _ _ _ _
      · exact State.setStatus_shrinks _ _ _ _ _

/-- A freed bank is empty but for its frame store, and no loaded region is left in it. -/
theorem State.freeCtx_empty (s : State) (c : CtxId) : (s.freeCtx c).ctx c = { Ctx.reset with frame := (s.ctx c).frame } ∧
    ∀ r ∈ ((s.freeCtx c).core c.core).regions, r.bank ≠ c.bank := by
  unfold State.freeCtx
  dsimp only
  refine ⟨?_, fun r hr => ?_⟩
  · rw [State.ctx, State.reconsider_ctxs]
    exact State.ctx_putCtx_self _ _ _
  · rw [State.reconsider_regions, State.core_modSta, State.core_modCore_self] at hr
    simpa using (List.mem_filter.1 hr).2

theorem State.freeCtx_foc (s : State) (c : CtxId) : (s.freeCtx c).foc = s.foc := by
  unfold State.freeCtx State.reconsider
  dsimp only
  split
  · rfl
  · split <;> rfl

/-- The state in which a context has retired. -/
def State.retired (s : State) : State :=
  (((s.flush s.foc.ctx).charge s.foc 0).modPlat (dieOf s.foc.ctx.core) s.fctx.plat
    (fun p => { p with ended := p.ended ++ [(s.fctx.parcel, s.fctx.evacuated)] })).freeCtx s.foc.ctx

/-- A context whose engines and writes are done retires. -/
theorem State.Ready.execRetire {s : State} (h : s.Ready {}) (hh : s.fctx.handler = none) (he : s.fctx.eng.idle = true)
    (hc : ((s.flush s.foc.ctx).core s.foc.ctx.core).comb.any (fun q => q.bank == s.foc.ctx.bank) = false)
    (hm : ((s.flush s.foc.ctx).core s.foc.ctx.core).mirrors.any (fun q => q.2.job == s.fctx.job) = false) :
    Machine.execRetire s = .next ((s.retired.finishDie (dieOf s.foc.ctx.core) s.fctx.plat).charge
      (s.retired.finishDie (dieOf s.foc.ctx.core) s.fctx.plat).foc 0) := by
  refine h.word32_jumped ?_
  simp only [hh, he, hc, hm, Option.isSome_none, Bool.false_eq_true, if_false, Bool.not_true, Bool.or_false, State.flush_foc]
  rfl

theorem State.retired_empty (s : State) : s.retired.ctx s.foc.ctx = { Ctx.reset with frame := s.fctx.frame } := by
  have hframe : ((((s.flush s.foc.ctx).charge s.foc 0).modPlat (dieOf s.foc.ctx.core) s.fctx.plat
      (fun p => { p with ended := p.ended ++ [(s.fctx.parcel, s.fctx.evacuated)] })).ctx s.foc.ctx).frame = s.fctx.frame := by
    have hc := State.ctx_modCtx_keeps Ctx.frame (s.flush s.foc.ctx) s.foc.ctx s.foc.ctx
      (f := fun x => x.charge s.foc.st 0) fun x => Ctx.charge_keeps Ctx.frame (fun _ _ => rfl) x _ _
    refine hc.trans ?_
    rw [State.ctx, State.flush_ctxs]
    rfl
  obtain ⟨hempty, -⟩ := State.freeCtx_empty (((s.flush s.foc.ctx).charge s.foc 0).modPlat (dieOf s.foc.ctx.core) s.fctx.plat
    (fun p => { p with ended := p.ended ++ [(s.fctx.parcel, s.fctx.evacuated)] })) s.foc.ctx
  rw [State.retired, hempty, hframe]

theorem State.retired_regions (s : State) : ∀ r ∈ (s.retired.core s.foc.ctx.core).regions, r.bank ≠ s.foc.ctx.bank := by
  obtain ⟨-, hregions⟩ := State.freeCtx_empty (((s.flush s.foc.ctx).charge s.foc 0).modPlat (dieOf s.foc.ctx.core) s.fctx.plat
    (fun p => { p with ended := p.ended ++ [(s.fctx.parcel, s.fctx.evacuated)] })) s.foc.ctx
  exact hregions

@[simp] theorem State.core_charge (s : State) (i : StreamId) (code k : Nat) : (s.charge i code).core k = s.core k := rfl

/-- A context that selects no counter is charged nothing. -/
theorem State.ctx_charge_unselected {t : State} {c : CtxId} (i : StreamId) (code : Nat) (h : (t.ctx c).stsel = []) :
    (t.charge i code).ctx c = t.ctx c := by
  by_cases hk : 2 * c.core + c.bank = 2 * i.ctx.core + i.ctx.bank
  · rw [State.ctx_of_key t hk] at h ⊢
    rw [State.charge, State.ctx_of_key _ hk, State.ctx_modCtx_self]
    exact if_pos (by rw [h]; rfl)
  · exact State.ctx_modCtx_ne _ _ _ _ hk

theorem State.mem_leaveAll (s : State) (id : BitVec 12) : (s.leaveAll id).mem = s.mem :=
  s.leaveAll_keeps State.mem (fun _ _ _ => rfl) (fun _ _ => rfl) id

/-- Settles O21: a waypoint is passed, waited for (`wayptBody_waits`) or left by all (`leaveAll_hasLeft`); a retired context's bank stays
empty when its die is done with the plat (`finishDie_shrinks`). -/
theorem waypointAndRetireWords : Obligations.WaypointAndRetireWords := by
  unfold Obligations.WaypointAndRetireWords
  refine ⟨fun s id hn h hh hb => ?_, fun s id hn h hh hb hbank hg hq hl => ⟨fun hr => ?_, fun hr => ?_⟩, fun s h hh => ?_⟩
  · intro t hg hq hl
    rw [exec_waypt, execWaypt, hn]
    refine ⟨_, h.word32 (wayptBody_passes hh hb (s.flush_fctx s.foc.ctx ▸ hg) (s.flush_fctx s.foc.ctx ▸ hq) hl), ?_, ?_, ?_, ?_, ?_⟩
    · exact State.passWaypt_waypoint _ id
    · exact State.passWaypt_freezes _ id
    · exact State.passWaypt_evacuated _ id
    · rw [State.issued_mem, State.passWaypt_mem]
    · rw [State.fstrm_issued, StreamSt.regs_advance, State.passWaypt_regs, State.flush_fstrm]
  · rw [exec_waypt, execWaypt, hn]
    exact h.word32_waits (wayptBody_waits hh hb hg hr)
  · rw [exec_waypt, execWaypt, hn]
    refine ⟨_, h.word32 (wayptBody_leaves hh hb hg hq hl hr), (State.issued_mem _ _).trans (s.mem_leaveAll id), ?_, fun d hd ha => ?_⟩
    · rw [State.fstrm_issued, StreamSt.waiting_advance]
    · exact Ctx.hasLeft_congr (State.ctx_issued_keeps Ctx.guarded (fun _ _ => rfl) (fun _ st _ => by cases st <;> rfl) _ _ _)
        (State.ctx_issued_keeps Ctx.edCode (fun _ _ => rfl) (fun _ st _ => by cases st <;> rfl) _ _ _)
        (State.leaveAll_hasLeft hbank hd ha)
  · intro c t he hc hm
    obtain ⟨hctxs, hregions⟩ := s.retired.finishDie_shrinks (dieOf c.core) s.fctx.plat
    have hctx : (s.retired.finishDie (dieOf c.core) s.fctx.plat).ctx c = { Ctx.reset with frame := s.fctx.frame } := by
      rw [State.ctx, hctxs]
      exact s.retired_empty
    refine ⟨_, h.execRetire hh he hc hm, ?_, fun r hr => ?_⟩
    · have hsel : ((s.retired.finishDie (dieOf c.core) s.fctx.plat).ctx c).stsel = [] := by
        rw [hctx]
        rfl
      rw [State.ctx_charge_unselected _ _ hsel, hctx]
    · rw [State.core_charge] at hr
      exact s.retired_regions r (hregions c.core hr)

end Sys2Proof.Machine

namespace Sys2Proof.Machine

/-! ## LAUNCH and MREPAIR (14 R354, R355; 05 R125) -/

section
variable {s : State} {g : Guard} {b a d : BitVec 5} {im : Image} (hj : s.fctx.job = 0)
include hj

/-- The state in which a LAUNCH whose image could be read has accepted its plat, or written its status. -/
def State.launched (s : State) (die : Nat) (im : Image) : State :=
  if (s.launchCode die im).1 = 1 then s.acceptPlat die im
  else s.writeStatus die im.rec_ (s.launchCode die im).1 (s.launchCode die im).2 s.clk

section
variable (hk : kindOf s.foc.ctx.core = .dispatch) (h : s.Ready { guard := g, srcs := [a.toNat, b.toNat], outs := [d.toNat] })
include hk h

theorem State.Ready.execLaunch_waits (hp : (s.flush s.foc.ctx).performed s.foc 4 false = false) :
    Machine.execLaunch g b a d s = .next ((s.flush s.foc.ctx).waits 0x03) := by
  rw [Machine.execLaunch, hj, hk]
  refine h.word32_waits ?_
  simp only [State.flush_foc, hp, Bool.not_false, if_true]

theorem State.Ready.execLaunch (hp : (s.flush s.foc.ctx).performed s.foc 4 false = true)
    (hi : (s.flush s.foc.ctx).readImage s.foc.ctx (wfield ((s.flush s.foc.ctx).rd a) 0 56) ((s.flush s.foc.ctx).rd b).toNat = .ok im) :
    Machine.execLaunch g b a d s = .next ((((s.flush s.foc.ctx).launched (dieOf s.foc.ctx.core) im).freeTime.2.interlocked d.toNat
      (((s.flush s.foc.ctx).launched (dieOf s.foc.ctx.core) im).clk +
        ((s.flush s.foc.ctx).launched (dieOf s.foc.ctx.core) im).freeTime.1)
      (BitVec.ofNat 64 ((s.flush s.foc.ctx).launchCode (dieOf s.foc.ctx.core) im).1)).issued 2) := by
  rw [Machine.execLaunch, hj, hk]
  refine h.word32 ?_
  simp only [State.flush_foc, hp, hi, Bool.not_true, Bool.false_eq_true, if_false]
  rfl

end

section
variable (h : s.Ready { srcs := [a.toNat], outs := [d.toNat] })
include h

/-- A station that is not there has no answer to give. -/
theorem State.Ready.execMrepair_absent (ha : wfield (s.rd a) 28 2 = 3 ∨ 12 ≤ wfield (s.rd a) 18 4 ∨
    s.pod.mods.contains (wfield (s.rd a) 22 6) = false) :
    Machine.execMrepair a d s = .next ((s.interlocked d.toNat s.clk 1).issued 2) := by
  rw [Machine.execMrepair, hj]
  refine h.word32 (if_pos ?_)
  simpa [or_assoc] using ha

/-- A MREPAIR on its way: the slot that asks its station, and the end of the wait for an answer. -/
def State.repairAsked (s : State) (a d : BitVec 5) : State :=
  (s.awaited d.toNat).2.egress s.foc.ctx.core (mgmtSlot s.foc.ctx.core 0 (wfield (s.rd a) 22 6) (wfield (s.rd a) 18 4) 0 6
    [(s.rd a).toNat, s.foc.ctx.core, s.foc.ctx.bank, (s.awaited d.toNat).1]) ((s.awaited d.toNat).2.clk + 1)

theorem State.Ready.execMrepair (ha : ¬ (wfield (s.rd a) 28 2 = 3 ∨ 12 ≤ wfield (s.rd a) 18 4 ∨
    s.pod.mods.contains (wfield (s.rd a) 22 6) = false)) : Machine.execMrepair a d s =
      .next (((s.repairAsked a d).post ((s.repairAsked a d).clk + 65536) (.mrepairNoAnswer s.foc (s.awaited d.toNat).1)).issued 2) := by
  rw [Machine.execMrepair, hj]
  refine h.word32 (if_neg ?_)
  simpa [or_assoc] using ha

end

end

/-- Settles O22: LAUNCH waits or answers with its code; MREPAIR by whether its station is there. -/
theorem launchAndRepairWords : Obligations.LaunchAndRepairWords := by
  unfold Obligations.LaunchAndRepairWords
  refine ⟨fun s g b a d im => ?_, fun s a d hj h => ?_⟩
  · intro c t die hj hk h
    rw [exec_launch]
    exact ⟨fun hp hi => h.execLaunch hj hk hp hi, fun hp => h.execLaunch_waits hj hk hp⟩
  · rw [exec_mrepair]
    exact ⟨fun ha => h.execMrepair_absent hj ha, fun ha => h.execMrepair hj ha⟩

end Sys2Proof.Machine

namespace Sys2Proof.Machine

/-! ## Element-wise results (18 R381, R382) -/

/-- A bit of the start stays in a fold of `|||`. -/
theorem or_foldl_or_start {α : Type} {w : Nat} (g : α → BitVec w) (b : BitVec w) (l : List α) (a : BitVec w) (h : b ||| a = a) :
    b ||| l.foldl (fun x r => x ||| g r) a = l.foldl (fun x r => x ||| g r) a := by
  induction l generalizing a with
  | nil => exact h
  | cons r l ih => exact ih (a ||| g r) (by rw [← BitVec.or_assoc, h])

/-- What an element gives is in a fold of `|||`. -/
theorem or_foldl_or_mem {α : Type} {w : Nat} (g : α → BitVec w) {r : α} {l : List α} (h : r ∈ l) (a : BitVec w) :
    g r ||| l.foldl (fun x r => x ||| g r) a = l.foldl (fun x r => x ||| g r) a := by
  induction l generalizing a with
  | nil => exact absurd h List.not_mem_nil
  | cons s l ih =>
    rcases List.mem_cons.1 h with rfl | h
    · refine or_foldl_or_start g (g r) l (a ||| g r) ?_
      rw [BitVec.or_comm a, ← BitVec.or_assoc, BitVec.or_self]
    · exact ih h _

/-- The result and flags of each place of two vectors. -/
def vmap2Parts (m : Mask) (f : Elem → Elem → Elem × Flags) (a b : List Elem) : List (Elem × Flags) :=
  (a.zip b).zipIdx.map (fun p => if m.getLsbD p.2 then f p.1.1 p.1.2 else (0, 0))

theorem vmap2_eq (m : Mask) (f : Elem → Elem → Elem × Flags) (a b : List Elem) :
    vmap2 m f a b = ((vmap2Parts m f a b).map Prod.fst, (vmap2Parts m f a b).foldl (fun x r => x ||| r.2) 0) := rfl

section
variable {m : Mask} {f : Elem → Elem → Elem × Flags} {a b : List Elem} {i : Nat} {x y : Elem}

/-- The place of two vectors, numbered. -/
theorem zipIdx_zip_getElem? (ha : a[i]? = some x) (hb : b[i]? = some y) : (a.zip b).zipIdx[i]? = some ((x, y), i) := by
  rw [List.getElem?_zipIdx, (List.getElem?_zip_eq_some (z := (x, y))).2 ⟨ha, hb⟩, Option.map_some, Nat.zero_add]

theorem vmap2Parts_getElem? (ha : a[i]? = some x) (hb : b[i]? = some y) (hm : m.getLsbD i = true) :
    (vmap2Parts m f a b)[i]? = some (f x y) := by
  rw [vmap2Parts, List.getElem?_map, zipIdx_zip_getElem? ha hb, Option.map_some, if_pos hm]

theorem blend_getElem? {old new : List Elem} (ho : old[i]? = some x) (hn : new[i]? = some y) :
    (blend m old new)[i]? = some (if m.getLsbD i then y else x) := by
  rw [blend, List.getElem?_map, zipIdx_zip_getElem? ho hn, Option.map_some]

end

/-- Settles O23: an active place is a part of the result (`vmap2Parts_getElem?`), and a landing blends. -/
theorem activeElements : Obligations.ActiveElements := by
  unfold Obligations.ActiveElements
  refine ⟨fun m f a b i x y ha hb hm => ?_, fun m old new i x y ho hn => blend_getElem? ho hn, fun x p v hv he hf => ?_⟩
  · have hpart := vmap2Parts_getElem? (f := f) ha hb hm
    rw [vmap2_eq, List.getElem?_map, hpart]
    exact ⟨rfl, or_foldl_or_mem Prod.snd (List.mem_of_getElem? hpart) 0⟩
  · simp only [Ctx.land, hv, he, hf, if_true, if_false]
    rfl

/-! ## Float and integer element words (18 R383 to R390) -/

section
variable {s : State} {g : Guard} {a b d : BitVec 5} {lat : State → Nat}

theorem State.Ready.vword1 {f : RM → Elem → Elem × Flags}
    (h : s.Ready { guard := g, srcs := [a.toNat], dsts := [(d.toNat, lat s)] }) : Machine.vword1 none lat f g a d s =
      .next ((s.vresult d.toNat (lat s) (vmap1 (s.fctx.guardMask g) (f s.fctx.rm) (s.fctx.vreg a.toNat)).1 (s.fctx.guardMask g)
        (vmap1 (s.fctx.guardMask g) (f s.fctx.rm) (s.fctx.vreg a.toNat)).2).issued 2) :=
  h.word32 rfl

/-- A word of a feature that its context has is as ready as one without. -/
theorem State.Ready.withFeature {n : Need} {k : Nat} (h : s.Ready n) (hf : s.fctx.hasFeature k = true) :
    s.Ready { n with feature := some k } := by
  refine ⟨fun f hk => ?_, h.allowed, h.guardFree, h.guardCome, h.holds, h.free, h.clear, h.answered⟩
  cases hk
  exact hf

theorem State.Ready.vword1_feature {f : RM → Elem → Elem × Flags} {k : Nat}
    (h : s.Ready { guard := g, srcs := [a.toNat], dsts := [(d.toNat, lat s)] }) (hf : s.fctx.hasFeature k = true) :
    Machine.vword1 (some k) lat f g a d s =
      .next ((s.vresult d.toNat (lat s) (vmap1 (s.fctx.guardMask g) (f s.fctx.rm) (s.fctx.vreg a.toNat)).1 (s.fctx.guardMask g)
        (vmap1 (s.fctx.guardMask g) (f s.fctx.rm) (s.fctx.vreg a.toNat)).2).issued 2) :=
  (h.withFeature hf).word32 rfl

theorem State.Ready.vword2 {f : RM → Elem → Elem → Elem × Flags}
    (h : s.Ready { guard := g, srcs := [a.toNat, b.toNat], dsts := [(d.toNat, lat s)] }) : Machine.vword2 lat f g b a d s =
      .next ((s.vresult d.toNat (lat s)
        (vmap2 (s.fctx.guardMask g) (f s.fctx.rm) (s.fctx.vreg a.toNat) (s.fctx.vreg b.toNat)).1 (s.fctx.guardMask g)
        (vmap2 (s.fctx.guardMask g) (f s.fctx.rm) (s.fctx.vreg a.toNat) (s.fctx.vreg b.toNat)).2).issued 2) :=
  h.word32 rfl

end

/-- Settles O24: each word is a vector word of its operation. -/
theorem floatElementWords : Obligations.FloatElementWords := by
  unfold Obligations.FloatElementWords
  intro s g q c b a d x va vb vc m
  refine ⟨fun h => ?_, fun h => ?_, fun h => ?_, fun h => ⟨h.word32 rfl, h.word32 rfl, h.word32 rfl, h.word32 rfl⟩⟩
  · have h2 := fun f => State.Ready.vword2 (lat := lat4) (f := f) h
    exact ⟨h2 fAdd, h2 fSub, h2 fMul, h2 fun _ => fMin, h2 fun _ => fMax⟩
  · have h1 := fun f => State.Ready.vword1 (lat := lat4) (f := f) h
    exact ⟨h1 fun _ e => (fAbs e, 0), h1 fun _ e => (fNeg e, 0), h1 fun _ e => (e, 0), h1 fToI32, h1 i32ToF,
      h1 fun rm e => (widenBf16 (roundBf16 rm e).1, (roundBf16 rm e).2), h1 fun _ => roundTapered t8,
      fun hf => State.Ready.vword1_feature (lat := lat4) (f := fun _ => roundTapered t6) h hf⟩
  · have h1 := fun f => State.Ready.vword1 (lat := lat10) (f := f) h
    exact ⟨h1 fRcp, h1 fRsq, h1 fSqrt, h1 fExp2, h1 fLog2, h1 (fTrig false), h1 (fTrig true), h1 fTanh⟩

/-! The signed minimum and maximum compare as integers. -/

theorem execVimin_eq (g : Guard) (b a d : BitVec 5) (s : State) :
    execVimin g b a d s = vword2 lat2 (quiet2 fun e k => if k.toInt < e.toInt then k else e) g b a d s := by
  have hf : (fun e k : Elem => if k.slt e then k else e) = fun e k => if k.toInt < e.toInt then k else e := by
    funext e k
    simp [BitVec.slt]
  rw [execVimin, hf]

theorem execVimax_eq (g : Guard) (b a d : BitVec 5) (s : State) :
    execVimax g b a d s = vword2 lat2 (quiet2 fun e k => if e.toInt < k.toInt then k else e) g b a d s := by
  have hf : (fun e k : Elem => if e.slt k then k else e) = fun e k => if e.toInt < k.toInt then k else e := by
    funext e k
    simp [BitVec.slt]
  rw [execVimax, hf]

/-- The places of a list that satisfy a test, as a mask: those tested one by one, or those that the tested list keeps. -/
theorem foldl_mask_filter {α : Type} (t : α → Bool) (l : List α) :
    l.zipIdx.foldl (fun m r => if t r.1 then m ||| BitVec.twoPow 1024 r.2 else m) (0 : Mask) =
      ((l.map t).zipIdx.filter (fun r => r.1)).foldl (fun w r => w ||| BitVec.twoPow 1024 r.2) 0 := by
  rw [List.foldl_filter, List.zipIdx_map, List.foldl_map]
  rfl

section
variable {s : State} {n : Bool} {a b : BitVec 5} {p : BitVec 6} {c : VCond} {lat : Nat}

/-- A compare writes the places where its condition, negated where it says so, holds; with the flags of all. -/
theorem State.Ready.vcmpWord (h : s.Ready { srcs := [a.toNat, b.toNat], dsts := [(codeP p.toNat, lat)] })
    (hl : (if c.float then s.lat 4 else 2) = lat) : Machine.vcmpWord c n b a p s =
      .next ((s.result (codeP p.toNat) lat
        (.mask (((((s.fctx.vreg a.toNat).zip (s.fctx.vreg b.toNat)).map (fun q => (c.holds q.1 q.2).1 != n)).zipIdx.filter (fun r => r.1)).foldl
          (fun w r => w ||| BitVec.twoPow 1024 r.2) 0))
        maskAll ((((s.fctx.vreg a.toNat).zip (s.fctx.vreg b.toNat)).map (fun q => (c.holds q.1 q.2).2)).foldl (fun f e => f ||| e) 0) false).issued 2) := by
  subst hl
  refine h.word32 ?_
  have hmask := foldl_mask_filter (fun r : Bool × Flags => r.1 != n)
    (((s.fctx.vreg a.toNat).zip (s.fctx.vreg b.toNat)).map (fun q => c.holds q.1 q.2))
  rw [List.map_map] at hmask
  dsimp only
  rw [hmask, List.foldl_map, List.foldl_map]
  rfl

end

/-- Settles O25: the integer words are vector words; a compare's mask is the filtered one (`foldl_mask_filter`). -/
theorem integerElementWords : Obligations.IntegerElementWords := by
  unfold Obligations.IntegerElementWords
  intro s g n b a d p x va vb m
  refine ⟨fun h => ?_, ?_, fun h => h.word32 rfl⟩
  · have h2 := fun f => State.Ready.vword2 (lat := lat2) (f := quiet2 f) h
    exact ⟨h2 fun e k => e + k, h2 fun e k => e - k, h2 fun e k => e * k, h2 fun e k => e &&& k, h2 fun e k => e ||| k,
      h2 fun e k => e ^^^ k, h2 fun e k => e <<< (k.toNat % 32), h2 fun e k => e >>> (k.toNat % 32),
      h2 fun e k => e.sshiftRight (k.toNat % 32), (execVimin_eq g b a d s).trans (h2 _),
      (execVimax_eq g b a d s).trans (h2 _)⟩
  · intro out flags one
    have hc := fun c => State.Ready.vcmpWord (s := s) (n := n) (a := a) (b := b) (p := p) (c := c) (hl := rfl)
    exact ⟨hc .eq, hc .ne, hc .lt, hc .le, hc .gt, hc .ge, hc .ord, hc .uno, hc .ieq, hc .ilt, hc .iltu⟩

/-! ## Moves and reductions (18 R391, R392) -/

/-- Settles O26: the words build their elements by row and column. -/
theorem moveAndReduceWords : Obligations.MoveAndReduceWords := by
  unfold Obligations.MoveAndReduceWords
  intro s r c a d x v one cols rows red
  refine ⟨fun h => h.word32 rfl, fun h => h.word32 rfl, fun h => h.word32 rfl, fun h => h.word32 rfl, fun h => h.word32 rfl,
    fun h => h.word32 rfl, fun h => h.word32 rfl, fun h => h.word32 rfl, fun h => h.word32 rfl, fun h => h.word32 rfl, fun h => h.word32 rfl,
    fun hst h => ?_⟩
  rw [exec_mvh, execMvh, if_pos hst]
  exact h.word16 rfl

/-! ## Queue and spill words of V (18 R395, R396, R398) -/

section
variable {s : State} {n r q : BitVec 4} {j : BitVec 5} {half : Bool} {o : BitVec 12} {a d : BitVec 5}

theorem State.Ready.execVpop {gs : List (List Elem)} (h : s.Ready { outs := [d.toNat] })
    (hg : (s.fctx.dq q.toNat).heads (n.toNat + 1) s.clk = some gs) : Machine.execVpop n r q d s =
      .next (((s.modF (fun x => x.putDq q.toNat ((x.dq q.toNat).take (n.toNat + 1) s.clk))).taken d.toNat
        (.vec (rowsVec r.toNat gs)) (rowsMask r.toNat (n.toNat + 1)) 0 false).issued 2) := by
  refine h.word32 ?_
  simp only [hg]

theorem State.Ready.execVpush (h : s.Ready { srcs := [a.toNat] }) (hq : (s.fctx.dq q.toNat).room (n.toNat + 1) s.clk = true) :
    Machine.execVpush n r q a s = .next ((s.modF (fun x => x.putDq q.toNat ((x.dq q.toNat).push
      ((List.range (n.toNat + 1)).map (fun i => rowOf (s.fctx.vreg a.toNat) (r.toNat + i))) (s.clk + 1)))).issued 2) :=
  h.word32 (if_neg (by simp [hq]))

theorem State.Ready.execVtos (h : s.Ready { srcs := [a.toNat] }) (hq : s.fctx.q3.full 8 s.clk = false) :
    Machine.execVtos j r a s = .next ((s.modF (fun x => { x with
      q3 := x.q3.add (vat (s.fctx.vreg a.toNat) r.toNat (2 * j.toNat + 1) ++ vat (s.fctx.vreg a.toNat) r.toNat (2 * j.toNat))
        (s.clk + 2) })).issued 2) :=
  h.word32 (if_neg (by simp [hq]))

theorem State.Ready.execVfrs {e : Word} (h : s.Ready { outs := [d.toNat] }) (he : s.fctx.q1.head s.clk = some e) :
    Machine.execVfrs half d s = .next (((s.modF (fun x => { x with q1 := x.q1.take s.clk })).taken d.toNat
      (.vec (List.replicate 1024 (if half then e.extractLsb' 32 32 else e.extractLsb' 0 32))) maskAll 0 false).issued 2) := by
  refine h.word32 ?_
  simp only [he]

end

/-- Settles O28: pops and pushes with their queue ready, and spill offsets up to 304 or beyond. -/
theorem vectorQueueAndSpillWords : Obligations.VectorQueueAndSpillWords := by
  unfold Obligations.VectorQueueAndSpillWords
  intro s n r q j half o a d x v
  refine ⟨fun h gs hg => h.execVpop hg, fun h hq => h.execVpush hq, fun h hq => h.execVtos hq, fun h e he => h.execVfrs he,
    fun h => ⟨fun ho => ?_, fun ho => ?_⟩, fun h => ⟨fun ho => ?_, fun ho => ?_⟩⟩
  · exact h.word32 (if_neg (Nat.not_lt.2 ho))
  · exact h.word32_traps (if_pos ho)
  · exact h.word32 (if_neg (Nat.not_lt.2 ho))
  · exact h.word32_traps (if_pos ho)

end Sys2Proof.Machine

namespace Sys2Proof.Machine

/-! ## Distribution words that make a register (18 R402 to R404) -/

section
variable {s : State} {r : BitVec 4} {a b d : BitVec 5}

theorem State.Ready.pairWord_lockstep {o : DOp} (hc : dCase (s.fctx.dreg a.toNat) (s.fctx.dreg b.toNat) = .lockstep)
    (h : s.Ready { feature := some 2, srcs := [codeD a.toNat, codeD b.toNat], dsts := [(codeD d.toNat, s.lat 8)] }) :
    Machine.pairWord o b a d s =
      .next ((s.dresult d.toNat (s.lat 8) (pairRegs o s.fctx.drm 0 (s.fctx.dreg a.toNat) (s.fctx.dreg b.toNat)).1
        (pairRegs o s.fctx.drm 0 (s.fctx.dreg a.toNat) (s.fctx.dreg b.toNat)).2).issued 2) := by
  rw [Machine.pairWord, hc]
  exact h.word32 rfl

/-- A context with its next stamp taken (11 R274). -/
def State.stamped (s : State) : State := s.modF (fun _ => s.fctx.takeStamp.2)

theorem State.Ready.pairWord_independent {o : DOp} (hc : dCase (s.fctx.dreg a.toNat) (s.fctx.dreg b.toNat) = .independent)
    (h : s.Ready { feature := some 2, srcs := [codeD a.toNat, codeD b.toNat], dsts := [(codeD d.toNat, s.lat 24)], pairing := true }) :
    Machine.pairWord o b a d s =
      .next (((s.stamped.modFs (fun y => { y with lastPair := some s.clk })).dresult d.toNat (s.lat 24)
        (pairRegs o s.fctx.drm s.fctx.takeStamp.1 (s.fctx.dreg a.toNat) (s.fctx.dreg b.toNat)).1
        (pairRegs o s.fctx.drm s.fctx.takeStamp.1 (s.fctx.dreg a.toNat) (s.fctx.dreg b.toNat)).2).issued 2) := by
  rw [Machine.pairWord, hc]
  exact h.word32 rfl

theorem State.Ready.dscalarWord {f : RM → Elem → Elem → Elem × Flags}
    (h : s.Ready { feature := some 2, srcs := [codeD a.toNat, b.toNat], dsts := [(codeD d.toNat, s.lat 6)] }) :
    Machine.dscalarWord f b a d s =
      .next ((s.dresult d.toNat (s.lat 6) (mapReg (f s.fctx.drm) (s.fctx.dreg a.toNat) (rowOf (s.fctx.vreg b.toNat) 0)).1
        (mapReg (f s.fctx.drm) (s.fctx.dreg a.toNat) (rowOf (s.fctx.vreg b.toNat) 0)).2).issued 2) :=
  h.word32 rfl

theorem State.Ready.dmapWord {f : RM → Elem → Elem × Flags}
    (h : s.Ready { feature := some 2, srcs := [codeD a.toNat], dsts := [(codeD d.toNat, s.lat 6)] }) : Machine.dmapWord f a d s =
      .next ((s.dresult d.toNat (s.lat 6) (mapReg1 (f s.fctx.drm) (s.fctx.dreg a.toNat)).1
        (mapReg1 (f s.fctx.drm) (s.fctx.dreg a.toNat)).2).issued 2) :=
  h.word32 rfl

end

@[simp] theorem Ctx.dq_putDq_self (x : Ctx) (n : Nat) (q : DataQ) : (x.putDq n q).dq n = q :=
  match n with
  | 0 | 1 | 2 | 3 | 4 | 5 | 6 | 7 | 8 => rfl
  | _ + 9 => rfl

@[simp] theorem Ctx.vf_putDq (x : Ctx) (n : Nat) (q : DataQ) : (x.putDq n q).vf = x.vf := by
  unfold Ctx.putDq
  split <;> rfl

/-- Distribution registers have no window (07 R163). -/
theorem physCode_codeD (st : Stream) (swin d : Nat) : physCode st swin (codeD d) = codeD d := by
  rw [physCode, if_neg (by rw [codeD]; omega), if_neg (by rw [codeD]; omega)]

theorem StreamSt.pend_advance (y : StreamSt) (n : Nat) : (y.advance n).pend = y.pend := by
  unfold StreamSt.advance
  dsimp only
  split
  · rfl
  · split <;> rfl

/-- A result taken from a queue, in flight until the end of the next clk (07 R183). -/
def State.takenPend (s : State) (code : Nat) (v : RVal) (m : Mask) (fl : Flags) (dst : Bool) : Pend :=
  ⟨s.fresh, physCode s.foc.st s.fstrm.swin.toNat code, v, s.clk + 1, true, m, fl, dst⟩

theorem State.taken_eq (s : State) (code : Nat) (v : RVal) (m : Mask) (fl : Flags) (dst : Bool) :
    s.taken code v m fl dst = s.nextId.2.fly s.foc (s.takenPend code v m fl dst) := rfl

theorem State.takenPend_mem (s : State) (code : Nat) (v : RVal) (m : Mask) (fl : Flags) (dst : Bool) :
    s.takenPend code v m fl dst ∈ (s.taken code v m fl dst).fstrm.pend := by
  have hfly : (s.taken code v m fl dst).fstrm = _ := State.strm_fly_self s.nextId.2 s.foc (s.takenPend code v m fl dst)
  rw [hfly]
  exact List.mem_append_right _ (List.mem_singleton.2 rfl)

/-- A result in flight is no part of what its context holds otherwise. -/
theorem State.fctx_taken_keeps {β : Type} (part : Ctx → β) (hs : ∀ x st y, part (Ctx.putStrm x st y) = part x) (s : State)
    (code : Nat) (v : RVal) (m : Mask) (fl : Flags) (dst : Bool) : part (s.taken code v m fl dst).fctx = part s.fctx :=
  State.ctx_modCtx_keeps part s.nextId.2 s.foc.ctx s.foc.ctx fun x => hs x _ _

section
variable {s : State} {q : BitVec 4} {a d : BitVec 5} {gs : List (List Elem)}

/-- The state in which a DPOP has taken its granules and its stamp. -/
def State.dpopped (s : State) (q : BitVec 4) : State :=
  (s.modF (fun x => x.putDq q.toNat ((x.dq q.toNat).take 12 s.clk))).stamped

theorem State.dpopped_clk (s : State) (q : BitVec 4) : (s.dpopped q).clk = s.clk := rfl

theorem State.dpopped_fctx (s : State) (q : BitVec 4) :
    (s.dpopped q).fctx = (s.fctx.putDq q.toNat ((s.fctx.dq q.toNat).take 12 s.clk)).takeStamp.2 := by
  rw [State.dpopped, State.stamped, State.fctx_modF, State.fctx_modF]

/-- What a DPOP leaves in its context once it has issued. -/
theorem State.fctx_dpop_keeps {β : Type} (part : Ctx → β) (hc : ∀ x t, part { x with stcnt := t } = part x)
    (hs : ∀ x st y, part (Ctx.putStrm x st y) = part x) (s : State) (code : Nat) (v : RVal) :
    part (((s.dpopped q).taken code v maskAll 0 true).issued 2).fctx =
      part (s.fctx.putDq q.toNat ((s.fctx.dq q.toNat).take 12 s.clk)).takeStamp.2 := by
  refine (State.ctx_issued_keeps part hc hs _ _ _).trans ?_
  refine (State.fctx_taken_keeps part hs _ _ _ _ _ _).trans ?_
  rw [State.dpopped_fctx]

theorem Ctx.takeStamp_eq (x : Ctx) : x.takeStamp = (freshStamp x.vf.dstat,
    { x with vf := { x.vf with dstat := withField x.vf.dstat 32 16 (freshStamp x.vf.dstat).toNat } }) := rfl

@[simp] theorem Ctx.dstat_takeStamp (x : Ctx) :
    x.takeStamp.2.vf.dstat = withField x.vf.dstat 32 16 (freshStamp x.vf.dstat).toNat := by
  rw [Ctx.takeStamp_eq]

/-- A status register is no queue. -/
theorem Ctx.dq_withVf (x : Ctx) (f : VFile) (n : Nat) : ({ x with vf := f } : Ctx).dq n = x.dq n := rfl

@[simp] theorem Ctx.dq_takeStamp (x : Ctx) (n : Nat) : x.takeStamp.2.dq n = x.dq n := by
  rw [Ctx.takeStamp_eq, Ctx.dq_withVf]

theorem State.dpop_dq (s : State) (code : Nat) (v : RVal) :
    (((s.dpopped q).taken code v maskAll 0 true).issued 2).fctx.dq q.toNat = (s.fctx.dq q.toNat).take 12 s.clk := by
  refine (State.fctx_dpop_keeps (fun x => x.dq q.toNat) (fun _ _ => rfl) (fun _ st _ => by cases st <;> rfl) s code v).trans ?_
  rw [Ctx.dq_takeStamp, Ctx.dq_putDq_self]

theorem State.dpop_dstat (s : State) (code : Nat) (v : RVal) :
    (((s.dpopped q).taken code v maskAll 0 true).issued 2).fctx.vf.dstat =
      withField s.fctx.vf.dstat 32 16 (freshStamp s.fctx.vf.dstat).toNat := by
  have hvf : (((s.dpopped q).taken code v maskAll 0 true).issued 2).fctx.vf =
      (s.fctx.putDq q.toNat ((s.fctx.dq q.toNat).take 12 s.clk)).takeStamp.2.vf :=
    State.fctx_dpop_keeps Ctx.vf (fun _ _ => rfl) (fun _ st _ => by cases st <;> rfl) s code v
  rw [hvf, Ctx.dstat_takeStamp, Ctx.vf_putDq]

theorem State.Ready.execDpop (h : s.Ready { feature := some 2, outs := [codeD d.toNat] })
    (hg : (s.fctx.dq q.toNat).heads 12 s.clk = some gs) : Machine.execDpop q d s =
      .next (((s.dpopped q).taken (codeD d.toNat)
        (.dist ⟨(dregOfRow gs).map normalise, 0, freshStamp s.fctx.vf.dstat⟩) maskAll 0 true).issued 2) := by
  refine h.word32 ?_
  have hstamp : (s.modF (fun x => x.putDq q.toNat ((x.dq q.toNat).take 12 s.clk))).fctx.takeStamp.1 = freshStamp s.fctx.vf.dstat := by
    rw [State.fctx_modF, Ctx.takeStamp, Ctx.vf_putDq]
  simp only [hg]
  rw [← hstamp]
  rfl

theorem State.Ready.execDpush (h : s.Ready { feature := some 2, srcs := [codeD a.toNat] })
    (hq : (s.fctx.dq q.toNat).room 12 s.clk = true) : Machine.execDpush q a s =
      .next ((s.modF (fun x => x.putDq q.toNat ((x.dq q.toNat).push
        (rowOfLanes ((s.fctx.dreg a.toNat).lanes.map Lane.read)) (s.clk + 1)))).issued 2) :=
  h.word32 (if_neg (by simp [hq]))

end

/-- Settles O29: pairings by their case, the other words by their kind, and DPOP by its result in flight. -/
theorem distributionResults : Obligations.DistributionResults := by
  unfold Obligations.DistributionResults
  intro s r q b a d x da db stamped
  refine ⟨fun hc h => ?_, fun hc h => ?_, fun h => ?_, fun h => ?_, fun h => h.word32 ?_, fun h => h.word32 rfl, fun h gs hg => ?_,
    fun h hq => h.execDpush hq⟩
  · exact ⟨h.pairWord_lockstep hc, h.pairWord_lockstep hc, h.pairWord_lockstep hc, h.pairWord_lockstep hc⟩
  · exact ⟨h.pairWord_independent hc, h.pairWord_independent hc, h.pairWord_independent hc, h.pairWord_independent hc⟩
  · have hf := fun f => State.Ready.dscalarWord (f := f) h
    exact ⟨hf fMul, hf fAdd, hf fun _ => fMax⟩
  · have hf := fun f => State.Ready.dmapWord (f := f) h
    exact ⟨hf fExp2, hf fLog2, hf fTanh, hf fSigmoid⟩
  · simp only [List.map_map, List.foldl_map]
    rfl
  · refine ⟨_, h.execDpop hg, ?_, ?_, ?_⟩
    · exact State.dpop_dq s _ _
    · exact State.dpop_dstat s _ _
    · refine ⟨(s.dpopped q).takenPend (codeD d.toNat) (.dist ⟨(dregOfRow gs).map normalise, 0, freshStamp s.fctx.vf.dstat⟩) maskAll 0 true,
        ?_, ?_, ?_, ?_⟩
      · rw [State.fstrm_issued, StreamSt.pend_advance]
        exact State.takenPend_mem _ _ _ _ _ _
      · rw [State.takenPend, physCode_codeD]
      · rw [State.takenPend, State.dpopped_clk]
      · rw [State.takenPend]

end Sys2Proof.Machine

namespace Sys2Proof.Machine

/-! ## Distribution words that read, and DFLG (18 R406 to R408; 11 R274) -/

section
variable {s : State} {i : BitVec 16} {d : BitVec 5} (h : s.Ready { feature := some 2, srcs := [codeD d.toNat], dsts := [(codeD d.toNat, 2)] })
include h

theorem State.Ready.execDlin (hi : i ≠ 0) : Machine.execDlin i d s =
    .next (((s.modF (fun _ => s.fctx)).result (codeD d.toNat) 2
      (.dist { (s.fctx.dreg d.toNat).read with lin := i }) maskAll 0 true).issued 2) := by
  refine h.word32 ?_
  dsimp only
  rw [if_neg hi]

theorem State.Ready.execDlin_zero : Machine.execDlin 0 d s =
    .next ((s.stamped.result (codeD d.toNat) 2
      (.dist { (s.fctx.dreg d.toNat).read with lin := s.fctx.takeStamp.1 }) maskAll 0 true).issued 2) := by
  refine h.word32 ?_
  dsimp only
  rw [if_pos rfl, State.stamped]

end

theorem State.Ready.execDflgRd {s : State} {i : BitVec 16} (h : s.Ready { feature := some 2 }) (hq : s.fctx.q3.full 8 s.clk = false) :
    Machine.execDflgRd i s = .next ((s.modF (fun x =>
      ({ x with q3 := x.q3.add (x.vf.dstat &&& 0xFFFFFFFFFFFF) (s.clk + 2) }).dflgLater s.clk i)).issued 2) :=
  h.word32 (if_neg (by simp [hq]))

/-- A named flag is cleared, another stays. -/
theorem getLsbD_dflgApply_none (w : Word) (clear : Flags) {i : Nat} (hi : i < 16) :
    (dflgApply w clear none).getLsbD i = (w.getLsbD i && !clear.getLsbD i) := by
  have h64 : i < 64 := by omega
  rw [dflgApply, BitVec.getLsbD_and, BitVec.getLsbD_not, BitVec.getLsbD_setWidth]
  simp [h64]

theorem dflgApply_some (w : Word) (clear : Flags) (v : BitVec 3) :
    dflgApply w clear (some v) = withField (withField (w &&& ~~~(clear.setWidth 64)) 0 2 v.toNat) 16 1 (bit (v.getLsbD 2)) := rfl

theorem testBit_bit_zero (b : Bool) : (bit b).testBit 0 = b := by cases b <;> rfl

theorem getLsbD_dflgApply_dde (w : Word) (clear : Flags) (v : BitVec 3) : (dflgApply w clear (some v)).getLsbD 16 = v.getLsbD 2 := by
  rw [dflgApply_some, getLsbD_withField _ _ (by decide), if_neg (by decide), if_pos (by decide), Nat.sub_self, testBit_bit_zero]

theorem getLsbD_dflgApply_rm (w : Word) (clear : Flags) (v : BitVec 3) {i : Nat} (hi : i < 2) :
    (dflgApply w clear (some v)).getLsbD i = v.getLsbD i := by
  have h16 : i < 16 := by omega
  rw [dflgApply_some, getLsbD_withField _ _ (by omega), if_pos h16, getLsbD_withField _ _ (by omega), if_neg (Nat.not_lt_zero i),
    if_pos (by omega), Nat.sub_zero]
  rfl

theorem toNat_freshStamp (w : Word) : (freshStamp w).toNat = wfield w 32 16 % 65535 + 1 := by
  have hlt : wfield w 32 16 % 65535 < 65535 := Nat.mod_lt _ (by decide)
  rw [freshStamp, BitVec.toNat_ofNat]
  omega

theorem freshStamp_ne_zero (w : Word) : freshStamp w ≠ 0 := by
  intro h
  have hz := congrArg BitVec.toNat h
  rw [toNat_freshStamp] at hz
  simp at hz

/-- Settles O30: the reads as they stand, DLIN by its stamp, and DFLG bit by bit. -/
theorem distributionReadsAndStatus : Obligations.DistributionReadsAndStatus := by
  unfold Obligations.DistributionReadsAndStatus
  refine ⟨fun s k r i a d => ?_, fun w clear i hi => getLsbD_dflgApply_none w clear hi, fun w clear v => ?_, fun w => ?_⟩
  · intro x da
    refine ⟨fun h => h.word32 rfl, fun h => h.word32 rfl, fun h => ⟨h.word32 rfl, fun hi => h.execDlin hi, fun hi => ?_⟩,
      fun h => ⟨h.word32 rfl, fun hq => h.execDflgRd hq⟩⟩
    subst hi
    exact h.execDlin_zero
  · exact ⟨getLsbD_dflgApply_dde w clear v, fun i hi => getLsbD_dflgApply_rm w clear v hi⟩
  · exact ⟨toNat_freshStamp w, freshStamp_ne_zero w⟩

end Sys2Proof.Machine

namespace Sys2Proof.Machine

/-! ## LDV, LDG and STV before they enter the request order (15 R360 to R364) -/

section
variable {s s' : State} {n : BitVec 6} {r b q : BitVec 5} {fmt : Nat} {xs : List Spot} {a : Word}

section
variable (h : s.Ready { srcs := [b.toNat, r.toNat] })
include h

theorem State.Ready.execLdv_full (hf : s.orderFull = true) : Machine.execLdv n r b q s = .next (s.waits 0x03) :=
  h.word32_waits (if_pos hf)

section
variable (hf : s.orderFull = false)
include hf

theorem State.Ready.execLdv_noRoom (hr : (s.fctx.dq q.toNat).room (n.toNat + 1) s.clk = false) :
    Machine.execLdv n r b q s = .next (s.waits (0x20 + q.toNat)) := by
  refine h.word32_waits ?_
  simp only [hf, hr, Bool.false_eq_true, if_false, Bool.not_false, if_true]

theorem State.Ready.execLdv (hr : (s.fctx.dq q.toNat).room (n.toNat + 1) s.clk = true)
    (hl : s.locateRows .read b r (n.toNat + 1) = (fmt, .at xs s')) : Machine.execLdv n r b q s =
      .next ((s'.vectorLoad q.toNat fmt (n.toNat + 1) xs (rowUnits (n.toNat + 1) xs)).issued 2) := by
  refine h.word32 ?_
  simp only [hf, hr, hl, Bool.false_eq_true, if_false, Bool.not_true]

theorem State.Ready.execLdv_align (hr : (s.fctx.dq q.toNat).room (n.toNat + 1) s.clk = true)
    (hl : s.locateRows .read b r (n.toNat + 1) = (fmt, .stop (.trap 0x07 a))) :
    Machine.execLdv n r b q s = .next (s.raise 0x07 a) := by
  refine h.word32_traps ?_
  simp only [hf, hr, hl, Bool.false_eq_true, if_false, Bool.not_true]

theorem State.Ready.execStv_align {gs : List (List Elem)} (hg : (s.fctx.dq q.toNat).heads (n.toNat + 1) s.clk = some gs)
    (hl : s.locateRows .write b r (n.toNat + 1) = (fmt, .stop (.trap 0x07 a))) :
    Machine.execStv n r b q s = .next (s.raise 0x07 a) := by
  refine h.word32_traps ?_
  simp only [hf, hg, hl, Bool.false_eq_true, if_false]

theorem State.Ready.execStv {gs : List (List Elem)} (hg : (s.fctx.dq q.toNat).heads (n.toNat + 1) s.clk = some gs)
    (hl : s.locateRows .write b r (n.toNat + 1) = (fmt, .at xs s')) : Machine.execStv n r b q s =
      .next (((s'.modF (fun x => x.putDq q.toNat ((x.dq q.toNat).take (n.toNat + 1) s.clk))).apEnter .store fmt 0 xs
        (rowUnits (n.toNat + 1) xs) gs).issued 2) := by
  refine h.word32 ?_
  simp only [hf, hg, hl, Bool.false_eq_true, if_false]

end

end

section
variable (h : s.Ready { srcs := [b.toNat] }) (hf : s.orderFull = false)
include h hf

theorem State.Ready.execLdg_noIndex (hg : (s.fctx.dq r.toNat).heads (n.toNat + 1) s.clk = none) :
    Machine.execLdg n r b q s = .next (s.waits (0x10 + r.toNat)) := by
  refine h.word32_waits ?_
  simp only [hf, hg, Bool.false_eq_true, if_false]

theorem State.Ready.execLdg {idx : List (List Elem)} (hg : (s.fctx.dq r.toNat).heads (n.toNat + 1) s.clk = some idx)
    (hr : (s.fctx.dq q.toNat).room (n.toNat + 1) s.clk = true) (hl : s.locateLanes .read b idx = (fmt, .at xs s')) :
    Machine.execLdg n r b q s =
      .next (((s'.modF (fun x => x.putDq r.toNat ((x.dq r.toNat).take (n.toNat + 1) s.clk))).vectorLoad q.toNat fmt (n.toNat + 1) xs
        (laneUnits (n.toNat + 1) xs)).issued 2) := by
  refine h.word32 ?_
  simp only [hf, hg, hr, hl, Bool.false_eq_true, if_false, Bool.not_true]

end

end

/-! ## A row of a buffer, started at once (15 R361, R362) -/

/-- Two states in which the buffers of the context in focus and their page tables are the same. -/
structure State.SameBufs (s t : State) : Prop where
  foc : t.foc.ctx = s.foc.ctx
  bpt : (t.ctx s.foc.ctx).bpt = (s.ctx s.foc.ctx).bpt
  dies : t.dies = s.dies
  buf : ∀ b, t.bufIn s.foc.ctx b = s.bufIn s.foc.ctx b

namespace State.SameBufs

variable {s t : State} (h : s.SameBufs t)
include h

theorem bptEntry (b n : Nat) : t.bptEntry s.foc.ctx b n = s.bptEntry s.foc.ctx b n := by
  simp only [State.bptEntry, State.pageAvail, State.die, h.bpt, h.dies]

theorem entryAt (b n : Nat) : t.entryAt s.foc.ctx b n = s.entryAt s.foc.ctx b n := by
  simp only [State.entryAt, h.bptEntry]

theorem scaleAt {x : Spot} {b off : Nat} (hx : x.place = .buf b off) (i : Nat) : t.scaleAt x i = s.scaleAt x i := by
  simp only [State.scaleAt, hx, h.foc, h.entryAt, h.bptEntry]

theorem expsOf {x : Spot} {b off : Nat} (hx : x.place = .buf b off) (e : Nat) : t.expsOf e [] [] [x] = s.expsOf e [] [] [x] := by
  simp only [State.expsOf, List.flatMap_cons, List.flatMap_nil, h.scaleAt hx, hx, h.foc, h.buf]
  congr 3
  funext i
  cases s.scaleAt x (i * e) <;> rfl

end State.SameBufs

theorem State.expsOf_of_no_scale (s : State) {x : Spot} (h : x.geom = 0) (e : Nat) : s.expsOf e [] [] [x] = [] := by
  simp only [State.expsOf, List.flatMap_cons, List.flatMap_nil, h, if_true, List.append_nil]

theorem State.homeScales_buf (s : State) {x : Spot} {b off : Nat} (hx : x.place = .buf b off) : s.homeScales [x] = [] := by
  simp only [State.homeScales, List.flatMap_cons, List.flatMap_nil, List.append_nil, hx]
  rw [List.filterMap_eq_nil_iff.2]
  · rfl
  · intro i _
    cases s.scaleAt x i <;> rfl

/-- The word of a row in the request order as it enters, and its one part. -/
def rowUnit (x : Spot) : ApUnit := ⟨0, none, [x], none⟩

theorem rowUnits_one {x : Spot} (hg : x.p.g = 0) : rowUnits 1 [x] = [rowUnit x] := by
  simp [rowUnits, rowUnit, hg, List.range_succ]

/-- A state changed in the request order of one core alone. -/
def State.withAp (s : State) (core : Nat) (ap : List ApWord) : State := s.modCore core (fun k => { k with ap := ap })

theorem State.sameBufs_withAp (s : State) (core : Nat) (ap : List ApWord) : s.SameBufs (s.withAp core ap) := by
  refine ⟨rfl, rfl, rfl, fun b => ?_⟩
  have hbuf : ((s.withAp core ap).core s.foc.ctx.core).buf b = (s.core s.foc.ctx.core).buf b :=
    State.core_modCore_keeps (fun k => k.buf b) s core _ fun _ => rfl
  simp only [State.bufIn, hbuf]
  rfl

/-- The scales of a row in a buffer are known at once; those of a block format are kept with its word. -/
theorem State.scalesOf_row (s : State) {w : ApWord} {x : Spot} {b off : Nat} (hx : x.place = .buf b off) (hu : w.units = [rowUnit x])
    (he : w.exps = none) (hf : w.fetch = none) : ∃ t, s.scalesOf w (rowUnit x) = .known (s.expsOf (elemSize w.fmt) [] [] [x]) t ∧
      (t = s ∨ ∃ ap, t = s.withAp w.ctx.core ap) := by
  have hspots : (w.units.filter (fun v => v.g == (rowUnit x).g)).flatMap ApUnit.spots = [x] := by
    rw [hu]
    rfl
  by_cases hg : x.geom = 0
  · refine ⟨s, ?_, .inl rfl⟩
    rw [s.expsOf_of_no_scale hg]
    simp only [State.scalesOf, hspots, he, List.all_cons, List.all_nil, hg, beq_self_eq_true, Bool.and_self, if_true]
  · refine ⟨s.withAp w.ctx.core ((s.core w.ctx.core).modAp w.id
      (fun v => { v with exps := some (0, s.expsOf (elemSize w.fmt) [] [] [x]), fetch := none })).ap, ?_, .inr ⟨_, rfl⟩⟩
    simp only [State.scalesOf, hspots, he, hf, List.all_cons, List.all_nil, hg, beq_iff_eq, Bool.and_true, if_false, s.homeScales_buf hx,
      List.any_nil, Bool.false_eq_true, List.filter_nil, List.isEmpty_nil, if_true]
    rfl

/-- The granule of a row, filled. -/
theorem DataQ.fill_add_items {q : DataQ} {ticket : Nat} (d : List Elem) (ready : Nat)
    (h : ∀ g ∈ q.items, g.data = none → g.ticket ≠ ticket) :
    ((q.add ⟨ticket, none, 0⟩).fill ticket d ready).items = q.items ++ [⟨ticket, some d, ready⟩] := by
  have hold : q.items.map (fun g => if g.ticket = ticket && g.data.isNone then { g with data := some d, ready := ready } else g) = q.items := by
    refine (List.map_congr_left fun g hg => ?_).trans (List.map_id _)
    refine if_neg ?_
    rw [Bool.and_eq_true, decide_eq_true_eq, Option.isNone_iff_eq_none]
    exact fun ⟨ht, hd⟩ => h g hg hd ht
  rw [DataQ.fill, DataQ.add, List.map_append, hold]
  simp

section
variable {s : State} {x : Spot} {b off : Nat}

/-- A read of a buffer that no own access meets gives its bytes. -/
theorem State.source_buf (hx : x.place = .buf b off) (hm : (s.core s.foc.ctx.core).ownMeets s.foc false (.buf b off) x.p.len = false) :
    s.source x = .known (Memory.readN (s.bufIn s.foc.ctx b) off x.p.len) := by
  simp only [State.source, hx, hm, Bool.false_eq_true, if_false]

theorem State.poisonCheck_buf (hx : x.place = .buf b off) (hp : s.fcore.poisoned b off x.p.len = false) : s.poisonCheck [x] = s := by
  simp only [State.poisonCheck, List.foldl_cons, List.foldl_nil, hx, hp, Bool.and_false, Bool.false_eq_true, if_false]

/-- The granule of a row that lies in a buffer. -/
def State.rowGranule (s : State) (fmt : Nat) (x : Spot) (b off : Nat) (es : List (Nat × Option Int)) : List Elem :=
  granuleOf fmt (lanesOf (elemSize fmt) es [rowUnit x]) (Memory.writeN [] x.p.off (Memory.readN (s.bufIn s.foc.ctx b) off x.p.len))

/-- A row in a buffer, started, fills its granule; it is readable 6 clk later, with the conflict clk of the banks (15 R362). -/
theorem State.apLoad_row {w : ApWord} {q : Nat} {es : List (Nat × Option Int)} (hx : x.place = .buf b off)
    (hpart : w.part = none) (hm : (s.core s.foc.ctx.core).ownMeets s.foc false (.buf b off) x.p.len = false)
    (hp : s.fcore.poisoned b off x.p.len = false) : s.apLoad w (rowUnit x) [] q es =
      (s.modCtx w.ctx (fun y => y.putDq q ((y.dq q).fill w.ticket (s.rowGranule w.fmt x b off es) (s.clk + 6 + (bankClk [x] - 1))))).apNext
        w (rowUnit x) [] (bankClk [x]) id := by
  have hknown : knownBytes (elemSize w.fmt) none [(x, Source.known (Memory.readN (s.bufIn s.foc.ctx b) off x.p.len))] =
      Memory.writeN [] x.p.off (Memory.readN (s.bufIn s.foc.ctx b) off x.p.len) := by
    simp only [knownBytes, List.foldl_cons, List.foldl_nil, elemAt, Nat.zero_mul, Nat.add_zero]
  have hwaits : rowWaits [(x, Source.known (Memory.readN (s.bufIn s.foc.ctx b) off x.p.len))] = false := by
    simp only [rowWaits, List.filter_cons, List.filter_nil, hx, Bool.false_eq_true, if_false, List.any_nil, Bool.false_and]
  unfold State.apLoad
  simp only [rowUnit, List.map_cons, List.map_nil, State.source_buf hx hm, hwaits, s.poisonCheck_buf hx hp, hpart, hknown]
  exact (if_neg (by simp)).trans (if_pos (by simp [lastOf]))

end

/-! What the request order itself does not tell: accesses in flight, own ones met, and poison. -/

theorem State.core_withAp (s : State) (k : Nat) (ap : List ApWord) : (s.withAp k ap).core k = { s.core k with ap := ap } :=
  State.core_modCore_self _ _ _

theorem State.soFlight_withAp (s : State) (i : StreamId) (tgt : Option (Nat × Nat)) (ap : List ApWord) :
    (s.withAp i.ctx.core ap).soFlight i tgt = s.soFlight i tgt := by
  simp only [State.soFlight, State.core_withAp]

section
variable {s : State} {x : Spot} {b off : Nat}

/-- What the start of a row of a buffer asks of its core: no earlier own access meets it, and its lines are not poisoned. -/
structure State.RowFree (s : State) (b off n : Nat) : Prop where
  meets : (s.core s.foc.ctx.core).ownMeets s.foc false (.buf b off) n = false
  clean : (s.core s.foc.ctx.core).poisoned b off n = false
  noFlight : s.soFlight s.foc none = false

theorem State.RowFree.withAp {n : Nat} (h : s.RowFree b off n) (ap : List ApWord) : (s.withAp s.foc.ctx.core ap).RowFree b off n := by
  obtain ⟨hm, hp, hs⟩ := h
  refine ⟨?_, ?_, ?_⟩
  · exact Eq.trans (congrArg (fun k => CoreSt.ownMeets k s.foc false (.buf b off) n) (s.core_withAp s.foc.ctx.core ap)) hm
  · exact Eq.trans (congrArg (fun k => CoreSt.poisoned k b off n) (s.core_withAp s.foc.ctx.core ap)) hp
  · exact (s.soFlight_withAp s.foc none ap).trans hs

/-- The first row of a word in the request order, started (15 R361). -/
theorem State.apStart_row {w : ApWord} {q : Nat} (hx : x.place = .buf b off) (hc : w.ctx = s.foc.ctx) (hk : w.kind = .load q)
    (hu : w.units = [rowUnit x]) (hpart : w.part = none) (he : w.exps = none) (hf : w.fetch = none) (h : s.RowFree b off x.p.len) :
    ∃ t, (t = s ∨ ∃ ap, t = s.withAp s.foc.ctx.core ap) ∧ s.apStart w (rowUnit x) [] =
      (t.modCtx w.ctx (fun y => y.putDq q ((y.dq q).fill w.ticket
        (t.rowGranule w.fmt x b off (s.expsOf (elemSize w.fmt) [] [] [x])) (t.clk + 6 + (bankClk [x] - 1))))).apNext
        w (rowUnit x) [] (bankClk [x]) id := by
  obtain ⟨t, hscales, ht⟩ := s.scalesOf_row hx hu he hf
  rw [hc] at ht
  have hfree : t.RowFree b off x.p.len ∧ t.foc = s.foc := by
    rcases ht with rfl | ⟨ap, rfl⟩
    · exact ⟨h, rfl⟩
    · exact ⟨h.withAp ap, rfl⟩
  obtain ⟨⟨hm, hp, hs⟩, hfoc⟩ := hfree
  refine ⟨t, ht, ?_⟩
  have hflight : (rowUnit x).spots.any (fun y => t.soFlight t.foc (y.place.station (modOf w.ctx.core))) = false := by
    have hone : t.soFlight t.foc (x.place.station (modOf w.ctx.core)) = false := by
      rw [hx]
      exact hs
    simp only [rowUnit, List.any_cons, List.any_nil, hone, Bool.or_false]
  rw [State.apStart, hscales]
  simp only [hk, hflight, Bool.and_false, Bool.false_eq_true, if_false]
  exact State.apLoad_row hx hpart hm hp

end

theorem State.SameBufs.trans {s t u : State} (h : s.SameBufs t) (h' : t.SameBufs u) : s.SameBufs u := by
  obtain ⟨hf, hb, hd, hm⟩ := h
  obtain ⟨hf', hb', hd', hm'⟩ := h'
  rw [hf] at hb' hm'
  exact ⟨hf'.trans hf, hb'.trans hb, hd'.trans hd, fun b => (hm' b).trans (hm b)⟩

theorem State.SameBufs.rowGranule {s t : State} (h : s.SameBufs t) (fmt : Nat) (x : Spot) (b off : Nat) (es : List (Nat × Option Int)) :
    t.rowGranule fmt x b off es = s.rowGranule fmt x b off es := by
  rw [State.rowGranule, State.rowGranule, h.foc, h.buf]

/-- The word of a row as it enters the request order. -/
def State.rowWord (s : State) (q fmt : Nat) (x : Spot) : ApWord :=
  { id := s.fresh, ctx := s.foc.ctx, kind := .load q, fmt := fmt, ord := strongest [x], units := [rowUnit x], data := []
    ticket := s.fctx.tickets, fetch := none, exps := none, part := none, groups := [], fin := s.clk, fenced := false }

/-- The state in which a row's granule is reserved and its word has entered the request order, seen by the access processor. -/
def State.rowEntered (s : State) (q fmt : Nat) (x : Spot) : State :=
  { (s.reserve q 1).nextId.2.withAp s.foc.ctx.core [s.rowWord q fmt x] with foc := ⟨s.foc.ctx, .a⟩ }

section
variable {s : State} {q fmt : Nat} {x : Spot} {b off : Nat}

theorem State.core_rowEntered : (s.rowEntered q fmt x).core s.foc.ctx.core = { s.fcore with ap := [s.rowWord q fmt x] } :=
  State.core_withAp (s.reserve q 1).nextId.2 s.foc.ctx.core [s.rowWord q fmt x]

/-- What reserving one granule does to its context. -/
def Ctx.reserved (q : Nat) (y : Ctx) : Ctx := { (y.putDq q ((y.dq q).add ⟨y.tickets, none, 0⟩)) with tickets := y.tickets + 1 }

theorem State.reserve_one : s.reserve q 1 = s.modF (Ctx.reserved q) := rfl

theorem State.ctx_rowEntered : (s.rowEntered q fmt x).ctx s.foc.ctx = Ctx.reserved q s.fctx := by
  have hreserve : (s.rowEntered q fmt x).ctx s.foc.ctx = (s.reserve q 1).ctx s.foc.ctx := rfl
  rw [hreserve, State.reserve_one]
  exact State.ctx_modCtx_self s s.foc.ctx (Ctx.reserved q)

theorem State.sameBufs_rowEntered (hd : s.fctx.displaced = false) : s.SameBufs (s.rowEntered q fmt x) := by
  have hputs : (Ctx.reserved q s.fctx).bpt = s.fctx.bpt ∧ (Ctx.reserved q s.fctx).displaced = s.fctx.displaced := by
    unfold Ctx.reserved Ctx.putDq
    split <;> exact ⟨rfl, rfl⟩
  obtain ⟨hbpt, hdisp⟩ := hputs
  refine ⟨rfl, (congrArg Ctx.bpt State.ctx_rowEntered).trans hbpt, rfl, fun b => ?_⟩
  have hbuf : ((s.rowEntered q fmt x).core s.foc.ctx.core).buf b = (s.core s.foc.ctx.core).buf b :=
    (congrArg (fun k => CoreSt.buf k b) (State.core_rowEntered (s := s) (q := q) (fmt := fmt) (x := x))).trans rfl
  have hdisp' : ((s.rowEntered q fmt x).ctx s.foc.ctx).displaced = false :=
    (congrArg Ctx.displaced State.ctx_rowEntered).trans (hdisp.trans hd)
  simp only [State.bufIn, hbuf, hdisp', show (s.ctx s.foc.ctx).displaced = false from hd, Bool.false_eq_true, if_false]

/-- A word that enters an empty request order while the access processor is free has its first part started at once (15 R361). -/
theorem State.vectorLoad_enters (hg : x.p.g = 0) (hap : s.fcore.ap = []) (hfree : s.fcore.apFree ≤ s.clk) :
    s.vectorLoad q fmt 1 [x] (rowUnits 1 [x]) =
      { (s.rowEntered q fmt x).apStart (s.rowWord q fmt x) (rowUnit x) [] with foc := s.foc } := by
  have henter : ((s.reserve q 1).nextId.2.modCore s.foc.ctx.core (fun k => { k with
      ap := k.ap.filter (fun v => !k.apDone s.clk v) ++ [s.rowWord q fmt x] })) =
        (s.reserve q 1).nextId.2.withAp s.foc.ctx.core [s.rowWord q fmt x] := by
    refine congrArg ((s.reserve q 1).nextId.2.putCore s.foc.ctx.core) ?_
    have hap' : ((s.reserve q 1).nextId.2.core s.foc.ctx.core).ap = [] := hap
    simp only [hap', List.filter_nil, List.nil_append]
  rw [rowUnits_one hg, State.vectorLoad, State.apEnter]
  refine (congrArg (fun t => State.apStep t s.foc.ctx.core) henter).trans ?_
  have hcore := State.core_withAp (s.reserve q 1).nextId.2 s.foc.ctx.core [s.rowWord q fmt x]
  have hbusy : ¬ ((s.reserve q 1).nextId.2.withAp s.foc.ctx.core [s.rowWord q fmt x]).clk <
      (((s.reserve q 1).nextId.2.withAp s.foc.ctx.core [s.rowWord q fmt x]).core s.foc.ctx.core).apFree := by
    rw [hcore]
    exact Nat.not_lt.2 hfree
  rw [State.apStep, if_neg hbusy, hcore]
  rfl

end

theorem State.ctx_apNext (s : State) (w : ApWord) (u : ApUnit) (rest : List ApUnit) (n : Nat) (f : ApWord → ApWord) (c : CtxId) :
    (s.apNext w u rest n f).ctx c = s.ctx c := rfl

theorem State.fctx_with_foc (s : State) (i : StreamId) : State.fctx { s with foc := i } = s.ctx i.ctx := rfl

theorem Ctx.dq_reserved (q : Nat) (y : Ctx) : (Ctx.reserved q y).dq q = (y.dq q).add ⟨y.tickets, none, 0⟩ :=
  Ctx.dq_putDq_self y q ((y.dq q).add ⟨y.tickets, none, 0⟩)

/-- A row of a buffer whose word starts at once: its granule comes after the buffer's latency and conflict clk (15 R362). -/
theorem State.vectorLoad_row {s : State} {q fmt : Nat} {x : Spot} {b off : Nat} (hx : x.place = .buf b off) (hg : x.p.g = 0)
    (hd : s.fctx.displaced = false) (hp : s.fcore.poisoned b off x.p.len = false) (hap : s.fcore.ap = []) (hfree : s.fcore.apFree ≤ s.clk)
    (hs : s.soFlight ⟨s.foc.ctx, .a⟩ none = false) (hm : s.fcore.ownMeets ⟨s.foc.ctx, .a⟩ false (.buf b off) x.p.len = false) :
    (s.vectorLoad q fmt 1 [x] (rowUnits 1 [x])).fctx.dq q =
        ((s.fctx.dq q).add ⟨s.fctx.tickets, none, 0⟩).fill s.fctx.tickets
          (s.rowGranule fmt x b off (s.expsOf (elemSize fmt) [] [] [x])) (s.clk + 6 + (bankClk [x] - 1)) ∧
      (s.vectorLoad q fmt 1 [x] (rowUnits 1 [x])).mem = s.mem := by
  have hsame := State.sameBufs_rowEntered (q := q) (fmt := fmt) (x := x) hd
  have hrow : (s.rowEntered q fmt x).RowFree b off x.p.len := by
    have hcore : (s.rowEntered q fmt x).core (s.rowEntered q fmt x).foc.ctx.core = { s.fcore with ap := [s.rowWord q fmt x] } :=
      State.core_rowEntered
    refine ⟨?_, ?_, ?_⟩
    · rw [hcore]
      exact hm
    · rw [hcore]
      exact hp
    · rw [State.soFlight, hcore]
      exact hs
  obtain ⟨t, ht, hstart⟩ := State.apStart_row (s := s.rowEntered q fmt x) (w := s.rowWord q fmt x) hx rfl rfl rfl rfl rfl rfl hrow
  have hexps := hsame.expsOf hx (elemSize fmt)
  have hgran : t.rowGranule fmt x b off (s.expsOf (elemSize fmt) [] [] [x]) = s.rowGranule fmt x b off (s.expsOf (elemSize fmt) [] [] [x]) := by
    rcases ht with rfl | ⟨ap, rfl⟩
    · exact hsame.rowGranule _ _ _ _ _
    · exact (hsame.trans (State.sameBufs_withAp _ _ ap)).rowGranule _ _ _ _ _
  have hparts : t.ctx s.foc.ctx = (s.rowEntered q fmt x).ctx s.foc.ctx ∧ t.clk = s.clk ∧ t.mem = s.mem := by
    rcases ht with rfl | ⟨ap, rfl⟩ <;> exact ⟨rfl, rfl, rfl⟩
  obtain ⟨hctx, hclk, hmem⟩ := hparts
  rw [State.vectorLoad_enters hg hap hfree, hstart]
  refine ⟨?_, hmem⟩
  have hword : (s.rowWord q fmt x).ctx = s.foc.ctx ∧ (s.rowWord q fmt x).fmt = fmt ∧ (s.rowWord q fmt x).ticket = s.fctx.tickets :=
    ⟨rfl, rfl, rfl⟩
  obtain ⟨hc, hfmt, hticket⟩ := hword
  rw [State.fctx_with_foc, State.ctx_apNext, hc, hfmt, hticket, State.ctx_modCtx_self, hctx, hclk, hexps, hgran, State.ctx_rowEntered,
    Ctx.dq_putDq_self, Ctx.dq_reserved]

/-- The granule of a row, its lanes written out. -/
theorem State.rowGranule_eq (s : State) (fmt : Nat) (x : Spot) (b off : Nat) (es : List (Nat × Option Int)) :
    s.rowGranule fmt x b off es = granuleOf fmt ((List.range (x.p.len / elemSize fmt)).map (fun i =>
      (x.p.off / elemSize fmt + i, x.p.off + i * elemSize fmt, expAt es (x.p.off + i * elemSize fmt))))
        (Memory.writeN [] x.p.off (Memory.readN (s.bufIn s.foc.ctx b) off x.p.len)) := by
  simp only [State.rowGranule, lanesOf, rowUnit, List.flatMap_cons, List.flatMap_nil, List.append_nil, elemAt]

/-- Settles O31: the words by the state that their checks leave, and a row of a buffer by the one part that it puts into the request order. -/
theorem vectorLoadWords : Obligations.VectorLoadWords := by
  unfold Obligations.VectorLoadWords
  refine ⟨?_, ?_, ?_⟩
  · intro s s' n r b q fmt xs idx
    exact ⟨fun h => ⟨h.execLdv_full, h.execLdv_noRoom, h.execLdv⟩, fun h hf => ⟨h.execLdg_noIndex hf, h.execLdg hf⟩⟩
  · intro s q fmt x k off _ _ _ hx hg hd hp hap hfree hticket hs hm
    rw [hx] at hm
    obtain ⟨hdq, hmem⟩ := State.vectorLoad_row (q := q) (fmt := fmt) hx hg hd hp hap hfree hs hm
    have hbuf : s.bufIn s.foc.ctx k = s.fcore.buf k := by
      simp only [State.bufIn, show (s.ctx s.foc.ctx).displaced = false from hd, Bool.false_eq_true, if_false]
      rfl
    refine ⟨_, (congrArg DataQ.items hdq).trans (DataQ.fill_add_items _ _ hticket), rfl, ?_, hmem⟩
    exact congrArg some ((s.rowGranule_eq fmt x k off _).trans (by rw [hbuf]))
  · exact fun s n r b q fmt gs a h hf => ⟨h.execLdv_align hf, h.execStv_align hf⟩

end Sys2Proof.Machine

namespace Sys2Proof.Machine

/-! ## STV, STSC and AMOV (15 R360, R363, R365, R366) -/

section
variable {s s' : State} {n : BitVec 6} {r b q : BitVec 5} {fmt : Nat} {xs : List Spot} {idx gs : List (List Elem)}

theorem State.Ready.execStv_noData (h : s.Ready { srcs := [b.toNat, r.toNat] }) (hf : s.orderFull = false)
    (hg : (s.fctx.dq q.toNat).heads (n.toNat + 1) s.clk = none) : Machine.execStv n r b q s = .next (s.waits (0x10 + q.toNat)) := by
  refine h.word32_waits ?_
  simp only [hf, hg, Bool.false_eq_true, if_false]

/-- STSC and AMOV once their granules are there and their lanes are located. -/
theorem State.Ready.scatterWord {acc : Access} {kind : ApKind} (h : s.Ready { srcs := [b.toNat] }) (hf : s.orderFull = false)
    (hi : (s.fctx.dq r.toNat).heads (n.toNat + 1) s.clk = some idx) (hg : (s.fctx.dq q.toNat).heads (n.toNat + 1) s.clk = some gs)
    (hl : s.locateLanes acc b idx = (fmt, .at xs s')) : Machine.scatterWord acc kind n r b q s =
      .next (((s'.modF (fun x => x.takeBoth r.toNat q.toNat (n.toNat + 1) s.clk)).apEnter kind fmt 0 xs
        (laneUnits (n.toNat + 1) xs) gs).issued 2) := by
  refine h.word32 ?_
  simp only [hf, State.scatterHeads, hi, hg, hl, Bool.false_eq_true, if_false]

end

/-! ## The start of a part of one piece (15 R361, R363, R366) -/

section
variable {s : State} {w : ApWord} {u : ApUnit} {rest : List ApUnit} {x : Spot} {gran : List Elem} {k off : Nat}

/-- The scales of a part whose one piece has none are known. -/
theorem State.scalesOf_plain (hu : w.units = u :: rest) (hx : u.spots = [x]) (he : w.exps = none) (hgeom : x.geom = 0)
    (hrest : ∀ v ∈ rest, v.g ≠ u.g) : s.scalesOf w u = .known [] s := by
  have hspots : (w.units.filter (fun v => v.g == u.g)).flatMap ApUnit.spots = [x] := by
    have hnone : rest.filter (fun v => v.g == u.g) = [] := List.filter_eq_nil_iff.2 fun v hv hg => hrest v hv (beq_iff_eq.1 hg)
    simp [hu, hnone, hx]
  simp [State.scalesOf, hspots, he, hgeom]

/-- What a part does once it starts, its scales none. -/
def State.apRun (s : State) (w : ApWord) (u : ApUnit) (rest : List ApUnit) : State :=
  match w.kind with
  | .load q => s.apLoad w u rest q []
  | .store => s.apStore w u rest []
  | .atomic mx => s.apAtomic w u rest mx

/-- A part of one piece without scales starts when no access before it in its home is in flight. -/
theorem State.apStart_plain (hu : w.units = u :: rest) (hx : u.spots = [x]) (he : w.exps = none) (hgeom : x.geom = 0)
    (hrest : ∀ v ∈ rest, v.g ≠ u.g) (hs : s.soFlight s.foc (x.place.station (modOf w.ctx.core)) = false) :
    s.apStart w u rest = s.apRun w u rest := by
  have hflight : u.spots.any (fun y => s.soFlight s.foc (y.place.station (modOf w.ctx.core))) = false := by
    simp only [hx, List.any_cons, List.any_nil, hs, Bool.or_false]
  rw [State.apStart, State.scalesOf_plain hu hx he hgeom hrest]
  simp only [hflight, Bool.and_false, Bool.false_eq_true, if_false]
  rfl

theorem storeLines_buf (fmt : Nat) (es : List (Nat × Option Int)) (hx : u.spots = [x]) (hp : x.place = .buf k off) :
    storeLines fmt es gran u = [] := by
  simp only [storeLines, hx, List.filter_cons, List.filter_nil, hp, Bool.false_eq_true, if_false, List.flatMap_nil]
  cases u.line <;> rfl

/-- A row stored into a buffer of the core (15 R363). -/
theorem State.apStore_buf (hx : u.spots = [x]) (ht : u.todo = none) (hgran : w.data[u.g]? = some gran) (hp : x.place = .buf k off)
    (hm : (s.core w.ctx.core).ownMeets s.foc true x.place x.p.len = false) : s.apStore w u rest [] =
      (s.writeBufIn w.ctx k off (pieceBytes w.fmt [] gran x)).apNext w u rest (bankClk [x]) id := by
  have hlines := storeLines_buf (gran := gran) w.fmt [] hx hp
  have hmeets : u.spots.any (fun y => (s.core w.ctx.core).ownMeets s.foc true y.place y.p.len) = false := by
    simp only [hx, List.any_cons, List.any_nil, hm, Bool.or_false]
  unfold State.apStore
  simp only [ht, hgran, Option.getD_some, hlines, hmeets, Option.isNone_none, Bool.true_and, Bool.false_eq_true, if_false]
  simp only [hx, List.foldl_cons, List.foldl_nil, hp, State.storeAll]

/-- A lane of an atomic at a home of the core's own module: the word read, combined and written in its clk (15 R366). -/
theorem State.apAtomic_here {mx : Bool} {l : Leaf} {pa : Nat} (hx : u.spots = [x]) (hgran : w.data[u.g]? = some gran)
    (hp : x.place = .mem l (modOf w.ctx.core) pa)
    (hfwd : s.forwardCase w.ctx.core (.global (modOf w.ctx.core) (homeStation pa)) (pa / 64 * 64) 64 = .go) : s.apAtomic w u rest mx =
      (s.writeMem (s.ctx w.ctx).plat (modOf w.ctx.core) pa (bytesLE 4 (amovApply mx
        (BitVec.ofNat 32 (Memory.readLE s.mem (memKey (modOf w.ctx.core) pa) 4)) ((gran[x.p.off / 4]?).getD 0)).toNat)).apNext w u rest 1 id := by
  simp only [State.apAtomic, hgran, Option.getD_some, hx, List.filterMap_cons, List.filterMap_nil, hp, hfwd, if_true, List.foldl_cons,
    List.foldl_nil]

end

/-- Settles O32: the words by the state that their checks leave, and a part of one piece by what its start writes. -/
theorem vectorStoreWords : Obligations.VectorStoreWords := by
  unfold Obligations.VectorStoreWords
  refine ⟨?_, ?_⟩
  · intro s s' n r b q fmt xs idx gs count hf
    refine ⟨fun h => ⟨h.execStv_noData hf, h.execStv hf⟩, fun h hi hg => ⟨h.scatterWord hf hi hg, fun hl => ?_⟩⟩
    exact ⟨h.scatterWord hf hi hg hl, h.scatterWord hf hi hg hl⟩
  · intro s w u rest x gran k off hu hx ht hgran _ he hgeom hrest hs
    have hstart := State.apStart_plain hu hx he hgeom hrest hs
    refine ⟨fun hk hp hm => ?_, fun mx l pa hk hp hfwd => ?_⟩
    · rw [hstart, State.apRun, hk]
      exact State.apStore_buf hx ht hgran hp hm
    · rw [hstart, State.apRun, hk]
      exact State.apAtomic_here hx hgran hp hfwd

/-! ## PREF and TLBP (15 R369, R370) -/

section
variable {s t : State} {i : BitVec 12} {a d : BitVec 5} {va : Nat} {l : Leaf}

section
variable (h : s.Ready { srcs := [a.toNat] })
include h

theorem State.Ready.execPref_elsewhere (hva : ∀ va, decodeEa (kindOf s.foc.ctx.core) (s.rd a + i.signExtend 64) 1 ≠ .glob va) :
    Machine.execPref i a s = .next (s.issued 2) := by
  refine h.word32 ?_
  have hea : s.ea a i = s.rd a + i.signExtend 64 := rfl
  rw [hea]
  cases hdec : decodeEa (kindOf s.foc.ctx.core) (s.rd a + i.signExtend 64) 1 with
  | glob va => exact absurd hdec (hva va)
  | _ => rfl

section
variable (hva : decodeEa (kindOf s.foc.ctx.core) (s.rd a + i.signExtend 64) 1 = .glob va)
include hva

theorem State.Ready.execPref_fault {kind level g : Nat}
    (hw : s.walk s.foc.ctx.core s.fctx.job.toNat .prefetch va = .fault kind level g) : Machine.execPref i a s = .next (s.issued 2) := by
  refine h.word32 ?_
  have hea : s.ea a i = s.rd a + i.signExtend 64 := rfl
  simp only [hea, hva, hw]

theorem State.Ready.execPref_leaf {l' : Leaf} (hw : s.walk s.foc.ctx.core s.fctx.job.toNat .prefetch va = .ok l')
    (ht : s.translate s.foc.ctx 1 .prefetch va = .leaf l t) : Machine.execPref i a s = .next (t.issued 2) := by
  refine h.word32 ?_
  have hea : s.ea a i = s.rd a + i.signExtend 64 := rfl
  simp only [hea, hva, hw, ht]

end

end

section
variable (h : s.Ready { srcs := [a.toNat], outs := [d.toNat] })
include h

theorem State.Ready.execTlbp_elsewhere (hva : ∀ va, decodeEa (kindOf s.foc.ctx.core) (s.rd a) 1 ≠ .glob va) :
    Machine.execTlbp a d s = .next ((s.interlocked d.toNat (s.clk + 3) (BitVec.ofNat 64 (6 * 2 ^ 60))).issued 2) := by
  refine h.word32 ?_
  cases hdec : decodeEa (kindOf s.foc.ctx.core) (s.rd a) 1 with
  | glob va => exact absurd hdec (hva va)
  | _ => rfl

theorem State.Ready.execTlbp_hit (hva : decodeEa (kindOf s.foc.ctx.core) (s.rd a) 1 = .glob va) (hacq : s.acquiring s.foc = false)
    (hit : s.fcore.tlbHit s.fctx.job va = some l) : Machine.execTlbp a d s = .next ((s.interlocked d.toNat (s.clk + 3)
      (if s.outOfMemory s.foc.ctx.core s.fctx.job l va then BitVec.ofNat 64 (5 * 2 ^ 60) else tlbpWord l va true)).issued 2) := by
  refine h.word32 ?_
  simp only [hva, hacq, hit, Bool.false_eq_true, if_false]

end

end

/-- Settles O33: PREF by what its walk finds, and TLBP by what the TLB holds. -/
theorem translationProbes : Obligations.TranslationProbes := by
  unfold Obligations.TranslationProbes
  intro s i a d
  exact ⟨fun h => ⟨h.execPref_elsewhere, fun va kind level g hva => h.execPref_fault hva, fun va l t hva => h.execPref_leaf hva⟩,
    fun h => ⟨h.execTlbp_elsewhere, fun va l hva => h.execTlbp_hit hva⟩⟩

end Sys2Proof.Machine

namespace Sys2Proof.Machine

/-! ## The checks of a command word, in their order (12 R284; 14 R342; 21 R415) -/

/-- A word whose feature its context does not have raises MASKED (12 R284). -/
theorem word32_masked {n : Need} {body : State → Res} {s : State} {f : Nat} (hf : n.feature = some f) (hx : s.fctx.hasFeature f = false) :
    word32 n body s = .next (s.raise cMASKED (BitVec.ofNat 64 f)) := by
  have hg : gate n s = .trap cMASKED (BitVec.ofNat 64 f) := by
    have hfilter : n.feature.filter (fun f => !s.fctx.hasFeature f) = some f := by
      rw [hf, Option.filter_some, hx]
      rfl
    simp only [gate, hfilter]
  rw [word32, runWord, hg]

/-- A feature that a command lacks is one that its context does not have. -/
theorem Cmd.hasFeature_of_lacks {w : Cmd} {own : Sp Word} {x : Ctx} {f : Nat} (h : w.lacks own x = some f) : x.hasFeature f = false := by
  unfold Cmd.lacks at h
  have hf := List.find?_some h
  simpa using hf

section
variable {s : State} {w : Cmd}

/-- Whether a command names a mirrored page without the feature for it. -/
def State.mirrorLess (s : State) (w : Cmd) : Bool :=
  !s.fctx.hasFeature 5 && s.namesMirror s.foc.ctx (s.setFor w) w (s.rd w.e.sa) (s.rd w.e.sb)

theorem State.pushCheck_illegal (hi : s.cmdIllegal w (s.rd w.e.sa) (s.rd w.e.sb) = true) :
    s.pushCheck w (s.rd w.e.sa) (s.rd w.e.sb) = some (cILLEGAL, s.firstHalf.setWidth 64) := if_pos hi

section
variable (hi : s.cmdIllegal w (s.rd w.e.sa) (s.rd w.e.sb) = false)
include hi

theorem State.pushCheck_lacks {f : Nat} (hl : w.lacks (s.setFor w) s.fctx = some f) :
    s.pushCheck w (s.rd w.e.sa) (s.rd w.e.sb) = some (cMASKED, BitVec.ofNat 64 f) := by
  simp [State.pushCheck, hi, hl]

section
variable (hl : w.lacks (s.setFor w) s.fctx = none)
include hl

theorem State.pushCheck_mirror (hm : s.mirrorLess w = true) :
    s.pushCheck w (s.rd w.e.sa) (s.rd w.e.sb) = some (cMASKED, 5) := by
  simp only [State.mirrorLess] at hm
  simp only [State.pushCheck, hi, hl, hm, if_true, Bool.false_eq_true, if_false]

theorem State.pushCheck_system (hm : s.mirrorLess w = false) (hp : (s.fctx.job != 0 && w.system) = true) :
    s.pushCheck w (s.rd w.e.sa) (s.rd w.e.sb) = some (cPRIV, s.firstHalf.setWidth 64) := by
  obtain ⟨hj, hw⟩ := Bool.and_eq_true_iff.1 hp
  simp only [State.mirrorLess] at hm
  simp only [State.pushCheck, hi, hl, hm, hj, hw, Bool.true_or, Bool.and_self, if_true, Bool.false_eq_true, if_false]

end

end

/-! ## The need of a command word -/

/-- The need of a command word of which the checks before its operands find nothing. -/
def Cmd.plainNeed (w : Cmd) : Need := { srcs := [w.e.sa.toNat, w.e.sb.toNat] }

section
variable (h : s.Ready w.plainNeed)
include h

/-- The operands of a ready word have come. -/
theorem State.Ready.come : (!interlockWait s.foc.st s.fstrm w.plainNeed && (hazard s.foc.st s.fstrm s.clk w.plainNeed).isNone) = true := by
  rw [h.free, h.clear]
  rfl

theorem State.Ready.cmdNeed_illegal (hi : s.cmdIllegal w (s.rd w.e.sa) (s.rd w.e.sb) = true) : s.cmdNeed w = w.plainNeed := by
  have hcome := h.come
  simp only [Cmd.plainNeed] at hcome
  simp only [State.cmdNeed, hcome, hi, Bool.and_self, if_true, Cmd.plainNeed]

/-- The need of a ready command word that is not ILLEGAL. -/
theorem State.Ready.cmdNeed_legal (hi : s.cmdIllegal w (s.rd w.e.sa) (s.rd w.e.sb) = false) : s.cmdNeed w =
    { w.plainNeed with
      feature := (w.lacks (s.setFor w) s.fctx).or (if s.mirrorLess w then some 5 else none),
      priv := !s.fctx.normal || (s.fctx.job != 0 && w.system) } := by
  have hcome := h.come
  simp only [Cmd.plainNeed] at hcome
  simp only [State.cmdNeed, hcome, hi, Bool.and_false, Bool.true_and, Bool.false_eq_true, if_false, Cmd.plainNeed, State.mirrorLess]
  rfl

/-- In a handler mode a word that its other checks let pass raises PRIV (12 R283). -/
theorem State.cmdWord_handler (hn : s.fctx.normal = false) (hi : s.cmdIllegal w (s.rd w.e.sa) (s.rd w.e.sb) = false)
    (hf : (s.cmdNeed w).feature = none) : cmdWord w s = .next (s.raise cPRIV (s.firstHalf.setWidth 64)) := by
  refine word32_priv hf ?_
  rw [h.cmdNeed_legal hi, hn]
  rfl

end

section
variable (h : s.Ready w.plainNeed) (hn : s.fctx.normal = true)
include h hn

/-- A command word needs its operands alone where no check before them stops it. -/
theorem State.Ready.cmdNeed_plain (hi : s.cmdIllegal w (s.rd w.e.sa) (s.rd w.e.sb) = false) (hl : w.lacks (s.setFor w) s.fctx = none)
    (hm : s.mirrorLess w = false) (hp : (s.fctx.job != 0 && w.system) = false) : s.cmdNeed w = w.plainNeed := by
  rw [h.cmdNeed_legal hi, hl, hm, hp, hn]
  rfl

/-- A command word that passes its checks runs its own effect. -/
theorem State.Ready.cmdWord_passes (hc : s.pushCheck w (s.rd w.e.sa) (s.rd w.e.sb) = none) : cmdWord w s = Machine.word32 w.plainNeed (pushBody w) s := by
  have hi : s.cmdIllegal w (s.rd w.e.sa) (s.rd w.e.sb) = false := by
    refine Bool.eq_false_iff.2 fun hi => ?_
    rw [State.pushCheck_illegal hi] at hc
    cases hc
  have hl : w.lacks (s.setFor w) s.fctx = none := by
    refine Option.eq_none_iff_forall_ne_some.2 fun f hf => ?_
    rw [State.pushCheck_lacks hi hf] at hc
    cases hc
  have hm : s.mirrorLess w = false := by
    refine Bool.eq_false_iff.2 fun hm => ?_
    rw [State.pushCheck_mirror hi hl hm] at hc
    cases hc
  have hp : (s.fctx.job != 0 && w.system) = false := by
    refine Bool.eq_false_iff.2 fun hp => ?_
    rw [State.pushCheck_system hi hl hm hp] at hc
    cases hc
  rw [cmdWord, h.cmdNeed_plain hn hi hl hm hp]

/-- A failed check of a command word raises its cause. -/
theorem State.Ready.cmdWord_fails {cause : Nat} {tval : Word} (hc : s.pushCheck w (s.rd w.e.sa) (s.rd w.e.sb) = some (cause, tval)) :
    cmdWord w s = .next (s.raise cause tval) := by
  have hbody : pushBody w s = .trap cause tval := by
    simp only [pushBody, hc]
  cases hi : s.cmdIllegal w (s.rd w.e.sa) (s.rd w.e.sb) with
  | true =>
    rw [cmdWord, h.cmdNeed_illegal hi]
    exact h.word32_traps hbody
  | false =>
    cases hl : w.lacks (s.setFor w) s.fctx with
    | some f =>
      obtain ⟨rfl, rfl⟩ := Prod.mk.inj (Option.some.inj ((State.pushCheck_lacks hi hl).symm.trans hc))
      refine word32_masked ?_ (Cmd.hasFeature_of_lacks hl)
      rw [h.cmdNeed_legal hi, hl]
      rfl
    | none =>
      cases hm : s.mirrorLess w with
      | true =>
        obtain ⟨rfl, rfl⟩ := Prod.mk.inj (Option.some.inj ((State.pushCheck_mirror hi hl hm).symm.trans hc))
        have hfive : s.fctx.hasFeature 5 = false := by
          simp only [State.mirrorLess, Bool.and_eq_true, Bool.not_eq_true'] at hm
          exact hm.1
        refine word32_masked ?_ hfive
        rw [h.cmdNeed_legal hi, hl, hm]
        rfl
      | false =>
        cases hp : (s.fctx.job != 0 && w.system) with
        | true =>
          obtain ⟨rfl, rfl⟩ := Prod.mk.inj (Option.some.inj ((State.pushCheck_system hi hl hm hp).symm.trans hc))
          refine word32_priv ?_ ?_
          · rw [h.cmdNeed_legal hi, hl, hm]
            rfl
          · rw [h.cmdNeed_legal hi, hp, Bool.or_true]
        | false =>
          rw [cmdWord, h.cmdNeed_plain hn hi hl hm hp]
          exact h.word32_traps hbody

end

end

/-! ## A command pushed (14 R342) -/

section
variable {s : State} {w : Cmd} (hc : s.pushCheck w (s.rd w.e.sa) (s.rd w.e.sb) = none)
include hc

theorem pushBody_full (hf : s.fctx.eng.full w.eng s.clk = true) : pushBody w s = .wait (0x20 + engNum w.eng) s := by
  simp only [pushBody, hc, hf, if_true]

theorem pushBody_holds (hf : s.fctx.eng.full w.eng s.clk = false) (ho : (s.ownPending s.foc || s.acquirePending s.foc) = true) :
    pushBody w s = .wait 0x03 (s.flush s.foc.ctx) := by
  simp only [pushBody, hc, hf, ho, if_true, Bool.false_eq_true, if_false]

/-- The command of a word as its queue takes it, in a context of the state after the release. -/
def State.commandOf (s u : State) (w : Cmd) (x : Ctx) : Command :=
  { cmd := w.cmd, flags := w.fl, sw := w.e.sw, sig := w.e.sig.toNat, wait := w.e.wait.toNat, va := s.rd w.e.sa, vb := s.rd w.e.sb
    tag := if w.eng == .load || w.eng == .store then x.eng.tags % 65534 else 0, elig := u.clk + 4, seq := x.eng.order
    gen := u.fcore.gen u.fctx.job, maps := []
    chk := ⟨w.cmd, w.fl, w.e.sw, w.e.sig.toNat, w.e.wait.toNat, s.rd w.e.sa, s.rd w.e.sb⟩ }

/-- The state once a command has been appended to its queue. -/
def State.appended (s : State) (w : Cmd) : State :=
  let u := s.flush s.foc.ctx
  let own := (u.fctx.eng.setOf w.eng).after (u.fctx.eng.swaps w.eng + bit w.e.sw)
  u.modF (fun x => { x with eng := { x.eng.putQueue w.eng (x.eng.queue w.eng ++ [u.mapped u.foc.ctx own w.eng (s.commandOf u w x)]) with
    tags := if w.eng == .load || w.eng == .store then x.eng.tags + 1 else x.eng.tags, order := x.eng.order + 1 } })

theorem pushBody_done (hf : s.fctx.eng.full w.eng s.clk = false) (ho : s.ownPending s.foc = false) (ha : s.acquirePending s.foc = false) :
    pushBody w s = .done (s.appended w) := by
  simp only [pushBody, hc, hf, ho, ha, Bool.or_self, Bool.false_eq_true, if_false]
  rfl

end

/-! ## The command words and PUSH -/

section
variable {s : State} {g : Guard} {a : BitVec 5} {i : Instr} {w : Cmd}

/-- PUSH runs the command word that its register holds (14 R342). -/
theorem execPush_eq (hn : s.fctx.normal = true) (hd : decode32 (kindOf s.foc.ctx.core) .c ((s.rd a).setWidth 32) = .ok i)
    (hw : cmdOf i = some w) : execPush g a s =
      word32 { guard := g, srcs := [a.toNat, w.e.sa.toNat, w.e.sb.toNat] } (pushBody w) s := by
  simp only [execPush, hd, hw, hn]
  rfl

end

/-- A command word's instruction runs that word. -/
structure PushesCmd (i : Instr) (w : Cmd) : Prop where
  cmd : cmdOf i = some w
  runs : ∀ s, exec i s = cmdWord w s

/-- Settles O34: the checks in their order, then the command's place in its queue. -/
theorem engineCommandWords : Obligations.EngineCommandWords := by
  unfold Obligations.EngineCommandWords
  intro s e t f h l hs
  refine ⟨fun g a hn => word32_priv rfl (by rw [hn]; rfl), fun i w hi => ?_⟩
  have hpush : PushesCmd i w ∧ w.e = e := by
    simp only [List.mem_cons, Prod.mk.injEq, List.not_mem_nil, or_false] at hi
    obtain ⟨rfl, rfl⟩ | ⟨rfl, rfl⟩ | ⟨rfl, rfl⟩ | ⟨rfl, rfl⟩ | ⟨rfl, rfl⟩ | ⟨rfl, rfl⟩ | ⟨rfl, rfl⟩ | ⟨rfl, rfl⟩ | ⟨rfl, rfl⟩ |
      ⟨rfl, rfl⟩ | ⟨rfl, rfl⟩ | ⟨rfl, rfl⟩ | ⟨rfl, rfl⟩ | ⟨rfl, rfl⟩ | ⟨rfl, rfl⟩ | ⟨rfl, rfl⟩ | ⟨rfl, rfl⟩ | ⟨rfl, rfl⟩ | ⟨rfl, rfl⟩ :=
      hi <;> exact ⟨⟨rfl, fun _ => rfl⟩, rfl⟩
  obtain ⟨⟨hcmd, hruns⟩, rfl⟩ := hpush
  rw [hruns]
  have hs' : s.Ready w.plainNeed := hs
  refine ⟨fun hn hill hfeat => State.cmdWord_handler hs' hn hill hfeat, fun hn hfull ho ha hc => ?_, fun hn hc => ⟨fun hfull => ?_, fun hfull ho => ?_⟩,
    fun cause tval hn hc => ⟨hs'.cmdWord_fails hn hc, fun g a hd hr => ?_⟩⟩
  · have hdone := pushBody_done hc hfull ho ha
    refine ⟨?_, fun g a hd hr => ?_⟩
    · rw [hs'.cmdWord_passes hn hc]
      exact hs'.word32 hdone
    · exact (execPush_eq hn hd hcmd).trans (hr.word32 hdone)
  · rw [hs'.cmdWord_passes hn hc]
    exact hs'.word32_waits (pushBody_full hc hfull)
  · rw [hs'.cmdWord_passes hn hc]
    exact hs'.word32_waits (pushBody_holds hc hfull ho)
  · refine (execPush_eq hn hd hcmd).trans (hr.word32_traps ?_)
    simp only [pushBody, hc]

end Sys2Proof.Machine

namespace Sys2Proof.Machine

/-! ## POP and TRYPOP of tokens (14 R343) -/

/-! ## What a claim zeroes (14 R345) -/

/-- A claim that finds its slot held, or last held by nobody, zeroes nothing. -/
theorem claimZeroes_of_held {x : SlotInfo} (bank : Nat) (job : BitVec 12) (h : x.holder ≠ none ∨ x.last = none) :
    claimZeroes x bank job = false := by
  cases hx : x.holder with
  | some o => simp [claimZeroes, hx]
  | none =>
    rw [hx] at h
    have hl : x.last = none := h.resolve_left fun hne => hne rfl
    simp [claimZeroes, hl]

theorem claimZeroes_of_same {x : SlotInfo} (bank : Nat) (job : BitVec 12) (h : x.last = none ∨ x.last = some job) :
    claimZeroes x bank job = false := by
  obtain h | h := h <;> simp [claimZeroes, h]

theorem claimZeroes_of_other {x : SlotInfo} (bank : Nat) {job j : BitVec 12} (hh : x.holder = none) (hl : x.last = some j) (hj : j ≠ job) :
    claimZeroes x bank job = true := by
  simp [claimZeroes, hh, hl, hj]

section
variable {s : State} {g : Guard} {p t b a i d : BitVec 5}

/-- A token that a POP may take. -/
def Ctx.tokenFree (x : Ctx) (n : Nat) : Prop := x.token n ≠ 0 ∧ x.eng.claims n = false

theorem Ctx.tokenFree_iff (x : Ctx) (n : Nat) : x.tokenFree n ↔ (x.token n = 0 || x.eng.claims n) = false := by
  simp [Ctx.tokenFree]

/-- The state once a token has been taken. -/
def State.tookToken (s : State) (n : Nat) : State := s.modF (fun x => x.setToken n (s.fctx.token n - 1))

theorem State.modF_took (s : State) (n : Nat) : s.modF (fun x => x.setToken n (x.token n - 1)) = s.tookToken n := rfl

section
variable (hn : s.fctx.normal = true)
include hn

theorem State.Ready.execPop (h : s.Ready { guard := g }) (ht : s.fctx.tokenFree t.toNat) :
    Machine.execPop g t s = .next ((s.tookToken t.toNat).issued 2) := by
  rw [Machine.execPop, hn]
  refine h.word32 ?_
  simp only [(s.fctx.tokenFree_iff t.toNat).1 ht, Bool.false_eq_true, if_false]
  rfl

theorem State.Ready.execTrypopToken (h : s.Ready { guard := g, dsts := [(codeP p.toNat, 1)] }) (ht : s.fctx.tokenFree t.toNat) :
    Machine.execTrypopToken g p t s = .next (((s.tookToken t.toNat).resPred p.toNat true).issued 2) := by
  rw [Machine.execTrypopToken, hn]
  refine h.word32 ?_
  simp only [(s.fctx.tokenFree_iff t.toNat).1 ht, Bool.false_eq_true, if_false]
  rfl

theorem State.Ready.execTrypopToken_none (h : s.Ready { guard := g, dsts := [(codeP p.toNat, 1)] }) (ht : ¬ s.fctx.tokenFree t.toNat) :
    Machine.execTrypopToken g p t s = .next ((s.resPred p.toNat false).issued 2) := by
  rw [Machine.execTrypopToken, hn]
  refine h.word32 ?_
  have hnone : (s.fctx.token t.toNat = 0 || s.fctx.eng.claims t.toNat) = true := by
    rwa [s.fctx.tokenFree_iff, Bool.not_eq_false] at ht
  simp only [hnone, if_true]

/-! ## SETUP (14 R344) -/

theorem State.Ready.execSetup {e : EngQ} {k : Nat} (h : s.Ready { guard := g, srcs := [a.toNat, b.toNat] })
    (he : setupWords (kindOf s.foc.ctx.core) (wfield (s.rd a) 8 4) = some (e, k)) (hk : wfield (s.rd a) 0 8 < k)
    (hw : s.fctx.eng.swaps e = 0) : Machine.execSetup g b a s =
      .next ((s.modF (fun x => { x with eng := x.eng.setShadow e (wfield (s.rd a) 0 8) (s.rd b) })).issued 2) := by
  rw [Machine.execSetup, hn]
  refine h.word32 ?_
  simp only [he, hw, if_neg (Nat.not_le.2 hk), bne_self_eq_false, Bool.false_eq_true, if_false]

/-! ## OCLAIM and ORELEASE (14 R345) -/

/-- What the core has of an operand slot. -/
def State.slotInfo (s : State) (n : Nat) : SlotInfo := Sp.get SlotInfo.reset s.fcore.slots n

section
variable (h : s.Ready { dsts := [(d.toNat, 2)] })
include h

theorem State.Ready.execOclaim_absent (hi : 23 < i.toNat) (hz : (s.slotInfo i.toNat).holder ≠ none ∨ (s.slotInfo i.toNat).last = none) :
    Machine.execOclaim i d s = .next (s.raise 0x09 (BitVec.ofNat 64 i.toNat)) := by
  have hzero := claimZeroes_of_held s.foc.ctx.bank s.fctx.job hz
  simp only [State.slotInfo] at hzero
  simp only [Machine.execOclaim, hzero, hn]
  exact h.word32_traps (if_pos hi)

theorem State.Ready.execOclaim_held {o : Nat} (hi : i.toNat ≤ 23) (ho : (s.slotInfo i.toNat).holder = some o) :
    Machine.execOclaim i d s = .next ((s.resWord d.toNat 2 (if o = s.foc.ctx.bank then 1 else 0)).issued 2) := by
  have hzero := claimZeroes_of_held s.foc.ctx.bank s.fctx.job (x := s.slotInfo i.toNat) (.inl (by simp [ho]))
  simp only [State.slotInfo] at hzero ho
  simp only [Machine.execOclaim, hzero, hn]
  refine h.word32 ((if_neg (Nat.not_lt.2 hi)).trans ?_)
  simp only [ho, Bool.false_eq_true, if_false]

theorem State.Ready.execOclaim_free (hi : i.toNat ≤ 23) (ho : (s.slotInfo i.toNat).holder = none)
    (hl : (s.slotInfo i.toNat).last = none ∨ (s.slotInfo i.toNat).last = some s.fctx.job) :
    Machine.execOclaim i d s = .next (((s.modFcore (fun k => { k with
      slots := Sp.put k.slots i.toNat { s.slotInfo i.toNat with holder := some s.foc.ctx.bank, last := some s.fctx.job } })).resWord
        d.toNat 2 1).issued 2) := by
  have hzero := claimZeroes_of_same s.foc.ctx.bank s.fctx.job hl
  simp only [State.slotInfo] at hzero ho ⊢
  simp only [Machine.execOclaim, hzero, hn]
  refine h.word32 ((if_neg (Nat.not_lt.2 hi)).trans ?_)
  simp only [ho, hzero, Bool.false_eq_true, if_false]

end

theorem State.Ready.execOclaim_zeroes {j : BitVec 12} (h : s.Ready { dsts := [(d.toNat, 66)] }) (hi : i.toNat ≤ 23)
    (ho : (s.slotInfo i.toNat).holder = none) (hl : (s.slotInfo i.toNat).last = some j) (hj : j ≠ s.fctx.job) :
    Machine.execOclaim i d s = .next (((s.modFcore (fun k => { k with
      slots := Sp.put k.slots i.toNat ⟨0, 0, some s.foc.ctx.bank, some s.fctx.job⟩
      slotMem := Memory.clear k.slotMem (0x11000 * i.toNat) (0x11000 * (i.toNat + 1)) })).resWord d.toNat 66 1).issued 2) := by
  have hzero := claimZeroes_of_other s.foc.ctx.bank ho hl hj
  simp only [State.slotInfo] at hzero ho ⊢
  simp only [Machine.execOclaim, hzero, hn]
  refine h.word32 ((if_neg (Nat.not_lt.2 hi)).trans ?_)
  simp only [ho, hzero, if_true, slotAt]

theorem State.Ready.execOrelease_notHeld (h : s.Ready {}) (hh : s.fcore.holds s.foc.ctx.bank i.toNat = false) :
    Machine.execOrelease i s = .next (s.raise 0x09 (BitVec.ofNat 64 i.toNat)) := by
  rw [Machine.execOrelease, hn]
  refine h.word32_traps ?_
  simp only [hh, Bool.not_false, if_true]
  rfl

theorem State.Ready.execOrelease (h : s.Ready {}) (hh : s.fcore.holds s.foc.ctx.bank i.toNat = true) (hm : s.fctx.eng.names i.toNat = false) :
    Machine.execOrelease i s = .next ((s.modFcore (fun k => { k with
      slots := Sp.put k.slots i.toNat { Sp.get SlotInfo.reset k.slots i.toNat with holder := none } })).issued 2) := by
  rw [Machine.execOrelease, hn]
  refine h.word32 ?_
  simp only [hh, hm, Bool.not_true, Bool.false_eq_true, if_false]

end

end

/-- Settles O35: each word by what it finds of its token, its set or its slot. -/
theorem tokenSetupAndSlotWords : Obligations.TokenSetupAndSlotWords := by
  unfold Obligations.TokenSetupAndSlotWords
  refine ⟨?_, ?_, ?_⟩
  · intro s g p t b a i d hn w hw
    have hpriv : (!s.fctx.normal) = true := by rw [hn]; rfl
    simp only [List.mem_cons, List.not_mem_nil, or_false] at hw
    obtain rfl | rfl | rfl | rfl | rfl := hw <;> exact word32_priv rfl hpriv
  · intro s g p t hn
    exact ⟨fun h ht => h.execPop hn ht, fun h => ⟨fun ht => h.execTrypopToken hn ht, fun ht => h.execTrypopToken_none hn ht⟩⟩
  · intro s g b a i d hn
    refine ⟨fun h e k he hk hw => h.execSetup hn he hk hw, fun h => ⟨fun hi hz => h.execOclaim_absent hn hi hz,
      fun hi o ho => h.execOclaim_held hn hi ho, fun hi ho hl => h.execOclaim_free hn hi ho hl⟩,
      fun h hi ho j hl hj => h.execOclaim_zeroes hn hi ho hl hj,
      fun h => ⟨fun hh => h.execOrelease_notHeld hn hh, fun hh hm => h.execOrelease hn hh hm⟩⟩

end Sys2Proof.Machine

namespace Sys2Proof.Machine

/-! ## The focus through the stores of a record -/

section
variable {s t : State}

theorem State.sendEntries_foc (s : State) (core : Nat) (p : CombEntry → Bool) : (s.sendEntries core p).foc = s.foc :=
  State.foldl_keeps State.foc fun _ _ => rfl

theorem State.logLine_foc (s : State) (plat : Word) (mod l : Nat) : (s.logLine plat mod l).foc = s.foc := by
  unfold State.logLine
  dsimp only
  split
  · rfl
  · split <;> rfl

theorem State.writeMem_foc (s : State) (plat : Word) (mod pa : Nat) (bs : List Byte) : (s.writeMem plat mod pa bs).foc = s.foc := by
  have hlog : (if s.inInterval plat then (linesOf pa bs.length).foldl (fun t l => t.logLine plat mod l) s else s).foc = s.foc := by
    split
    · exact State.foldl_keeps State.foc fun t l => t.logLine_foc plat mod l
    · rfl
  refine Eq.trans ?_ hlog
  unfold State.writeMem
  dsimp only
  exact State.foldl_keeps State.foc fun _ _ => rfl

theorem State.countSent_foc (s : State) (core : Nat) (job : BitVec 12) : (s.countSent core job).foc = s.foc := by
  unfold State.countSent
  split <;> rfl

theorem State.placeLine_foc {i : StreamId} {names : List Nat} {dest : Dest} {ord mir : Nat} {line : CombLine}
    (h : s.placeLine i names dest ord mir line = some t) : t.foc = s.foc := by
  unfold State.placeLine at h
  extract_lets c core job mine es join paid at h
  have hpaid : ∀ u, paid = some u → u.foc = s.foc := by
    intro u hu
    simp only [paid] at hu
    split at hu
    · split at hu <;> cases hu
      rfl
    · cases hu
      rfl
  clear_value paid
  split at h
  · cases h
    rfl
  · split at h
    · cases h
      rfl
    · split at h
      · cases h
      next _ u =>
        refine Eq.trans ?_ (hpaid u rfl)
        split at h
        · cases h
          rfl
        · dsimp only at h
          have hsend : ∀ v : State, (if 8 ≤ (es.filter CombEntry.isOpen).length then
              match es.find? CombEntry.isOpen with
              | some o => v.sendEntries core (fun e => e.id == o.id)
              | none => v
            else v).foc = v.foc := by
            intro v
            split
            · split
              · exact State.sendEntries_foc _ _ _
              · rfl
            · rfl
          split at h
          · cases h
            refine (State.sendEntries_foc _ _ _).trans ?_
            exact (State.countSent_foc _ _ _).trans (hsend u)
          · cases h
            exact (State.countSent_foc _ _ _).trans (hsend u)

theorem State.storeLine_foc {i : StreamId} {names : List Nat} {l : Leaf} {mod : Nat} {line : CombLine}
    (h : s.storeLine i names l mod line = some t) : t.foc = s.foc := by
  unfold State.storeLine at h
  dsimp only at h
  split at h
  · split at h
    · cases h
    · split at h
      · cases h
      next u hu =>
        refine (State.placeLine_foc h).trans ?_
        split at hu
        · cases hu
          rfl
        · exact State.placeLine_foc hu
  · split at h
    · cases h
      exact State.foldl_keeps State.foc fun _ _ => State.writeMem_foc _ _ _ _ _
    · exact State.placeLine_foc h

theorem State.storeHome_foc {i : StreamId} {l : Leaf} {mod pa : Nat} {bs : List Byte} (h : s.storeHome i l mod pa bs = some t) :
    t.foc = s.foc := by
  unfold State.storeHome at h
  split at h
  · cases h
    exact State.writeMem_foc _ _ _ _ _
  · exact State.storeLine_foc h

theorem State.recordStore_foc {c : CtxId} {w : Nat × List Byte} (h : s.recordStore c w = .ok (some t)) : t.foc = s.foc := by
  unfold State.recordStore at h
  split at h
  · cases h
  · exact State.storeHome_foc (Except.ok.inj h)

theorem State.recordLines_foc {c : CtxId} {ws left : List (Nat × List Byte)} (h : State.recordLines c s ws = .ok (t, left)) : t.foc = s.foc := by
  induction ws generalizing s with
  | nil =>
    cases h
    rfl
  | cons w ws ih =>
    unfold State.recordLines at h
    dsimp only at h
    have hfoc : (if ws.isEmpty then s.flush c else s).foc = s.foc := by
      split
      · exact State.flush_foc _ _
      · rfl
    generalize (if ws.isEmpty then s.flush c else s) = u at h hfoc
    split at h
    · cases h
      exact hfoc
    · split at h
      · cases h
      · cases h
        exact hfoc
      next v hv => exact (ih h).trans ((State.recordStore_foc hv).trans hfoc)

theorem State.recordStep_foc {c : CtxId} {r : RecWrite} {b : Bool} (h : s.recordStep c r = .ok (b, t)) : t.foc = s.foc := by
  unfold State.recordStep at h
  split at h
  · cases h
  next u left hu =>
    cases h
    exact (State.flush_foc u c).trans (State.recordLines_foc hu)

theorem State.recordBegin_foc {c : CtxId} {va : Nat} {bs : List Byte} {b : Bool} (h : s.recordBegin c va bs = .ok (b, t)) : t.foc = s.foc := by
  unfold State.recordBegin at h
  dsimp only at h
  split at h
  · cases h
  · exact State.recordStep_foc h

end

/-! ## EVAC (14 R351) -/

section
variable {s t : State} {a d : BitVec 5} {va : Nat} {bs : List Byte}

/-- The mode in which EVAC is allowed. -/
def State.evacAllowed (s : State) : Prop :=
  s.fctx.normal = false ∧ wfield s.fctx.trapc 56 8 = 0x05 ∧ s.fctx.staleAt = true ∨ s.fctx.normal = true

theorem State.evacAllowed.priv (h : s.evacAllowed) :
    (!s.fctx.normal && !(wfield s.fctx.trapc 56 8 == cSTALE && s.fctx.staleAt)) = false := by
  obtain ⟨hn, htrap, hstale⟩ | hn := h
  · rw [hn, htrap, hstale]
    rfl
  · rw [hn]
    rfl

/-- The end of an EVAC that has written its record. -/
def State.evacDone (d : BitVec 5) (t : State) (n : Nat) : State :=
  ((t.freeTime.2.modF (fun x => { x with evacuated := x.waypoint })).interlocked d.toNat (t.freeTime.2.clk + t.freeTime.1)
    (BitVec.ofNat 64 n)).issued 2

/-- The state of a context that holds A and V for its record. -/
def State.evacHeld (s : State) (a : BitVec 5) : State :=
  s.modF (fun x => { x with avHold := true, avAt := s.resumeAt s.foc.ctx (s.rd a) })

/-- What an EVAC finds that may write its record. -/
structure State.EvacMay (s : State) (a : BitVec 5) : Prop where
  fresh : s.fstrm.writing = none
  asks : s.requestStop s.foc.ctx (s.rd a) none = none
  closed : s.fctx.handler = none
  stopped : s.fctx.normal = true → (s.evacHeld a).fctx.avStopped = true
  granules : s.fctx.granulesReady = true
  released : ((s.evacHeld a).flush s.foc.ctx).performed s.foc 4 true = true

theorem State.EvacMay.held {s : State} {a : BitVec 5} (hm : s.EvacMay a) :
    (!(!(s.evacHeld a).fctx.normal || (s.evacHeld a).fctx.avStopped) || !(s.evacHeld a).fctx.granulesReady) = false := by
  have hctx : (s.evacHeld a).fctx = { s.fctx with avHold := true, avAt := s.resumeAt s.foc.ctx (s.rd a) } := State.fctx_modF _ _
  have hnormal : (s.evacHeld a).fctx.normal = s.fctx.normal := (congrArg Ctx.normal hctx).trans rfl
  have hgran : (s.evacHeld a).fctx.granulesReady = true := (congrArg Ctx.granulesReady hctx).trans hm.granules
  rw [hgran, hnormal]
  cases hn : s.fctx.normal with
  | false => rfl
  | true =>
    rw [hm.stopped hn]
    rfl

section
variable (h : s.evacAllowed) (hs : s.Ready { srcs := [a.toNat], outs := [d.toNat] })
include h hs

section
variable {r : RecWrite} (hw : s.fstrm.writing = some r)
include hw

theorem State.Ready.execEvac_goes (hr : s.recordStep s.foc.ctx r = .ok (true, t)) :
    Machine.execEvac a d s = .next (State.evacDone d t r.len) := by
  rw [Machine.execEvac, h.priv]
  refine hs.word32 ?_
  simp only [hw, hr]

theorem State.Ready.execEvac_waits (hr : s.recordStep s.foc.ctx r = .ok (false, t)) :
    Machine.execEvac a d s = .next (t.waits 0x03) := by
  rw [Machine.execEvac, h.priv]
  refine hs.word32_waits ?_
  simp only [hw, hr]

end

section
variable (hm : s.EvacMay a)
include hm

/-- Where the map names nothing, EVAC gives 0. -/
theorem State.Ready.execEvac_none {v : Nat} (hq : ((s.evacHeld a).flush s.foc.ctx).evacRequest s.foc.ctx (s.rd a) = .ok (v, none)) :
    Machine.execEvac a d s = .next (((((s.evacHeld a).flush s.foc.ctx).modF (fun x => { x with evacuated := none })).interlocked d.toNat
      ((s.evacHeld a).flush s.foc.ctx).clk 0).issued 2) := by
  have hheld := hm.held
  obtain ⟨hw, hask, hh, -, -, hp⟩ := hm
  rw [Machine.execEvac, h.priv]
  refine hs.word32 ?_
  simp only [State.evacHeld] at hheld hq hp ⊢
  simp only [hw, hask, hh, hheld, hq, hp, State.flush_foc, State.modF_foc, Option.isSome_none, Bool.not_true, Bool.false_eq_true, if_false]

section
variable (hq : ((s.evacHeld a).flush s.foc.ctx).evacRequest s.foc.ctx (s.rd a) = .ok (va, some bs))
include hq

theorem State.Ready.execEvac_begins (hb : ((s.evacHeld a).flush s.foc.ctx).recordBegin s.foc.ctx va bs = .ok (true, t)) :
    Machine.execEvac a d s = .next (State.evacDone d t bs.length) := by
  have hheld := hm.held
  obtain ⟨hw, hask, hh, -, -, hp⟩ := hm
  rw [Machine.execEvac, h.priv]
  refine hs.word32 ?_
  simp only [State.evacHeld] at hheld hq hp hb ⊢
  simp only [hw, hask, hh, hheld, hq, hp, hb, State.flush_foc, State.modF_foc, Option.isSome_none, Bool.not_true, Bool.false_eq_true, if_false]

theorem State.Ready.execEvac_holds (hb : ((s.evacHeld a).flush s.foc.ctx).recordBegin s.foc.ctx va bs = .ok (false, t)) :
    Machine.execEvac a d s = .next (t.waits 0x03) := by
  have hheld := hm.held
  obtain ⟨hw, hask, hh, -, -, hp⟩ := hm
  rw [Machine.execEvac, h.priv]
  refine hs.word32_waits ?_
  simp only [State.evacHeld] at hheld hq hp hb ⊢
  simp only [hw, hask, hh, hheld, hq, hp, hb, State.flush_foc, State.modF_foc, Option.isSome_none, Bool.not_true, Bool.false_eq_true, if_false]

end

end

end

end

/-! ## CKPT of a plat of one parcel (14 R352; 04 R107) -/

section
variable {s t : State} {a : BitVec 5} {p : PlatRec} {va : Nat} {bs : List Byte}

/-- The end of the CKPT of a plat's one parcel. -/
def State.ckptEnded (s t : State) : State :=
  ((t.modF (fun x => { x with avHold := false, ckptDone := true })).openInterval s.fctx.plat s.fctx.waypoint).modCtx s.foc.ctx
    (fun x => { x with atCkpt := none, ckptDone := false })

/-- The state of a context that holds A and V at its CKPT. -/
def State.ckptHeld (s : State) (a : BitVec 5) : State :=
  s.modF (fun x => { x with atCkpt := x.waypoint, avHold := true, avAt := s.resumeAt s.foc.ctx (s.rd a) })

/-- A context at its CKPT. -/
def Ctx.atCheckpoint (x : Ctx) (at_ : List (Nat × Nat)) : Ctx := { x with atCkpt := x.waypoint, avHold := true, avAt := at_ }

theorem State.ckptHeld_eq (s : State) (a : BitVec 5) :
    s.ckptHeld a = s.modCtx s.foc.ctx (fun x => x.atCheckpoint (s.resumeAt s.foc.ctx (s.rd a))) := rfl

theorem State.ctx_ckptHeld (s : State) (a : BitVec 5) :
    (s.ckptHeld a).ctx s.foc.ctx = s.fctx.atCheckpoint (s.resumeAt s.foc.ctx (s.rd a)) := by
  rw [State.ckptHeld_eq, State.ctx_modCtx_self]
  rfl

/-- Where CKPT writes the record of its parcel. -/
def State.ckptAddr (s : State) (p : PlatRec) : Nat := p.ckptVa.toNat + 0x1000000 * s.fctx.parcel

theorem State.Ready.execCkpt_ends (hn : s.fctx.normal = true) (hs : s.Ready { feature := some 9, srcs := [a.toNat] })
    (hplat : s.platRec s.foc.ctx = some p) (hon : p.ckpt = true) (hw : s.fstrm.writing = none)
    (hask : s.requestStop s.foc.ctx (s.rd a) (some (s.ckptAddr p)) = none) (hway : s.fctx.waypoint.isSome = true)
    (hone : s.fellows s.foc.ctx = [s.foc.ctx]) (hstop : (s.ckptHeld a).fctx.avStopped = true) (hgran : s.fctx.granulesReady = true)
    (hp : ((s.ckptHeld a).flush s.foc.ctx).performed s.foc 4 true = true)
    (hq : ((s.ckptHeld a).flush s.foc.ctx).evacRequest s.foc.ctx (s.rd a) = .ok (va, some bs)) (hlen : bs.length ≤ 2 ^ 24)
    (hb : ((s.ckptHeld a).flush s.foc.ctx).recordBegin s.foc.ctx (s.ckptAddr p) bs = .ok (true, t)) :
    Machine.execCkpt a s = .next ((s.ckptEnded t).issued 2) := by
  have hfoc : t.foc = s.foc := (State.recordBegin_foc hb).trans ((State.flush_foc _ _).trans rfl)
  have hcome : ((s.ckptHeld a).ctx s.foc.ctx).atCkpt = s.fctx.waypoint := (congrArg Ctx.atCkpt (s.ctx_ckptHeld a)).trans rfl
  have hdone : ((t.modF (fun x => { x with avHold := false, ckptDone := true })).ctx s.foc.ctx).ckptDone = true := by
    rw [← hfoc, State.modF, State.ctx_modCtx_self]
  have hall : [s.foc.ctx].all (fun d => (((s.ckptHeld a).ctx d).atCkpt == s.fctx.waypoint || ((s.ckptHeld a).ctx d).ckptDone) &&
      s.fctx.waypoint.isSome) = true := by
    simp only [List.all_cons, List.all_nil, hcome, hway, beq_self_eq_true, Bool.true_or, Bool.and_self]
  rw [Machine.execCkpt, hn]
  refine hs.word32 ?_
  simp only [State.ckptHeld, State.ckptAddr] at hcome hall hstop hp hq hb hask
  simp only [hplat, hon, hw, hask, hone, hall, hstop, hgran, hp, hq, hb, hdone, State.flush_foc, State.modF_foc, Option.any_some, Option.elim_some,
    Bool.not_true, Bool.false_eq_true, if_true, if_false, Nat.not_lt.2 hlen, Bool.or_self, List.all_cons, List.all_nil, Bool.and_self,
    List.foldl_cons, List.foldl_nil]
  rfl

theorem State.ckptEnded_mem (s t : State) : (s.ckptEnded t).mem = t.mem := rfl

theorem State.ckptEnded_foc (s t : State) : (s.ckptEnded t).foc = t.foc := rfl

/-- A and V go on after the CKPT. -/
theorem State.ckptEnded_avHold (hf : t.foc = s.foc) : (s.ckptEnded t).fctx.avHold = false := by
  have hopen : ((((t.modF (fun x => { x with avHold := false, ckptDone := true })).openInterval s.fctx.plat s.fctx.waypoint).ctx
      s.foc.ctx)).avHold = false := by
    have hctx := State.fctx_modF t (fun x => { x with avHold := false, ckptDone := true })
    rw [← hf]
    exact (congrArg Ctx.avHold hctx).trans rfl
  rw [State.fctx, State.ckptEnded_foc, hf, State.ckptEnded, State.ctx_modCtx_self]
  exact hopen

/-- The interval that a CKPT opens has an empty log. -/
theorem State.ckptEnded_log (s t : State) : ∀ e ∈ (s.ckptEnded t).dies, ∀ l ∈ e.2.log, l.plat ≠ s.fctx.plat := by
  intro e he l hl
  obtain ⟨d, -, rfl⟩ := List.mem_map.1 he
  simpa using (List.mem_filter.1 hl).2

end

/-- Settles O36: the words by what they find of their record, and CKPT by the interval that it opens. -/
theorem recordWords : Obligations.RecordWords := by
  unfold Obligations.RecordWords
  intro s a d va bs t
  refine ⟨fun hall hs => ⟨fun hw hask hh hstop hgran hp => ?_, fun r hw => ?_⟩, fun p hn hs hplat hon hw hask hway hone hstop hgran hp hq hlen hb => ?_⟩
  · rw [State.flush_foc] at hp
    have hm : s.EvacMay a := ⟨hw, hask, hh, hstop, hgran, hp⟩
    exact ⟨fun v hq => hs.execEvac_none hall hm hq, fun hq => ⟨hs.execEvac_begins hall hm hq, hs.execEvac_holds hall hm hq⟩⟩
  · exact ⟨hs.execEvac_goes hall hw, hs.execEvac_waits hall hw⟩
  · rw [State.flush_foc] at hp
    have hfoc : t.foc = s.foc := (State.recordBegin_foc hb).trans ((State.flush_foc _ _).trans rfl)
    refine ⟨_, hs.execCkpt_ends hn hplat hon hw hask hway hone hstop hgran hp hq hlen hb, ?_, ?_, ?_⟩
    · exact (State.issued_mem _ _).trans (State.ckptEnded_mem s t)
    · exact (State.ctx_issued_keeps Ctx.avHold (fun _ _ => rfl) (fun _ st _ => by cases st <;> rfl) _ _ _).trans (State.ckptEnded_avHold hfoc)
    · exact State.ckptEnded_log s t

end Sys2Proof.Machine

namespace Sys2Proof.Machine

/-! ## The fetch of a block (13 R301, R302; 07 R165; 04 R111) -/

/-- A block's header that its stream may run, whatever its edition. -/
def Header.fits (hd : Header) (w0 w1 : BitVec 32) (st : Stream) : Prop :=
  headerShape w0 w1 = true ∧ 0 < hd.len ∧ hd.strm = streamCode st ∧ hd.reserved = false

theorem Header.fits_iff (hd : Header) (w0 w1 : BitVec 32) (st : Stream) :
    hd.fits w0 w1 st ↔ (!headerShape w0 w1 || hd.len == 0 || hd.strm != streamCode st || hd.reserved) = false := by
  simp [Header.fits, Nat.pos_iff_ne_zero, and_assoc]

/-- A header of the edition of its context, or of none, or in guarded timing. -/
def Header.current (hd : Header) (x : Ctx) : Prop := hd.edition = 0 ∨ hd.edition = x.edCode.toNat % 65536 ∨ x.guarded = true

theorem Header.current_iff (hd : Header) (x : Ctx) :
    hd.current x ↔ (hd.edition != 0 && hd.edition != x.edCode.toNat % 65536 && !x.guarded) = false := by
  simp only [Header.current, Bool.and_eq_false_iff, bne_eq_false_iff_eq, Bool.not_eq_false', or_assoc]

section
variable {s : State}

/-- The header at the position of the stream in focus. -/
def State.headerHere (s : State) : Header :=
  headerOf (s.fcore.word s.foc.st s.fstrm.pc) (s.fcore.word s.foc.st (s.fstrm.pc + 2))

theorem State.blockFetch_absent (hl : s.fcore.loaded s.foc.ctx.bank s.foc.st s.fstrm.pc 4 = false) :
    exec .blockFetch s = .next (s.raise 0x06 (BitVec.ofNat 64 s.fstrm.pc)) := by
  rw [exec_blockFetch]
  simp only [execBlockFetch, hl, Bool.not_false, if_true]
  rfl

section
variable (hl : s.fcore.loaded s.foc.ctx.bank s.foc.st s.fstrm.pc 4 = true)
include hl

theorem State.blockFetch_illegal
    (hg : ¬ s.headerHere.fits (s.fcore.word s.foc.st s.fstrm.pc) (s.fcore.word s.foc.st (s.fstrm.pc + 2)) s.foc.st) :
    exec .blockFetch s = .next (s.raise 0x01 ((s.fcore.half s.foc.st s.fstrm.pc).setWidth 64)) := by
  rw [Header.fits_iff, Bool.not_eq_false] at hg
  simp only [State.headerHere] at hg
  rw [exec_blockFetch]
  simp only [execBlockFetch, hl, hg, Bool.not_true, Bool.false_eq_true, if_true, if_false]
  rfl

section
variable (hg : s.headerHere.fits (s.fcore.word s.foc.st s.fstrm.pc) (s.fcore.word s.foc.st (s.fstrm.pc + 2)) s.foc.st)
include hg

theorem State.blockFetch_stale (hc : ¬ s.headerHere.current s.fctx) :
    exec .blockFetch s = .next (s.raise 0x05 (BitVec.ofNat 64 s.headerHere.edition)) := by
  rw [Header.fits_iff] at hg
  rw [Header.current_iff, Bool.not_eq_false] at hc
  simp only [State.headerHere] at hg hc
  rw [exec_blockFetch]
  simp only [execBlockFetch, hl, hg, hc, Bool.not_true, Bool.false_eq_true, if_true, if_false]
  rfl

theorem State.blockFetch_runs (hc : s.headerHere.current s.fctx) : exec .blockFetch s = .next (s.modFs (fun y =>
    { y with pc := s.fstrm.pc + 4, blk := s.fstrm.pc, len := s.headerHere.len, reps := s.headerHere.rep, atHeader := false
             loopBuf := if s.headerHere.len ≤ 256 then some s.fstrm.pc else y.loopBuf })) := by
  rw [Header.fits_iff] at hg
  rw [Header.current_iff] at hc
  simp only [State.headerHere] at hg hc
  rw [exec_blockFetch]
  simp only [execBlockFetch, hl, hg, hc, Bool.not_true, Bool.false_eq_true, if_false]
  rfl

end

end

end

/-! ## The ends of waits -/

theorem State.modStrm_congr {s : State} {i : StreamId} {f g : StreamSt → StreamSt} (h : f (s.strm i) = g (s.strm i)) :
    s.modStrm i f = s.modStrm i g := by
  rw [State.modStrm, State.modStrm, h]

section
variable {s : State} {i : StreamId} {c : CtxId}

theorem State.stallEnd_goes (hcur : s.cur = some (.stallEnd i)) (hn : (s.strm i).stall = 0) :
    exec .stallEnd s = .next (s.modStrm i (fun y => y.advance 1)) := by
  rw [exec_stallEnd]
  simp only [execStallEnd, hcur]
  exact congrArg Host.Outcome.next (State.modStrm_congr (if_pos hn))

theorem State.waitmWake_goes {key : Nat} (hcur : s.cur = some (.waitmWake i)) (hh : (s.strm i).hold = .memory key)
    (hp : s.partner i.ctx = none) : exec .waitmWake s = .next (s.modStrm i (fun y => { y with hold := .no })) := by
  rw [exec_waitmWake]
  simp only [execWaitmWake, hcur, hp, Option.toList_none, List.foldl_cons, List.foldl_nil, State.endHold]
  refine congrArg Host.Outcome.next (State.modStrm_congr (if_pos ?_))
  rw [hh]

theorem State.twaitExpiry_goes {target since : Nat} (hcur : s.cur = some (.twaitExpiry i)) (hh : (s.strm i).hold = .cycle target none since)
    (ht : target ≤ s.clk) : exec .twaitExpiry s =
      .next (s.modStrm i (fun y => { y.advance 2 with slip := if since + 1 < s.clk then 0 else y.slip })) := by
  rw [exec_twaitExpiry]
  simp only [execTwaitExpiry, hcur, hh, if_neg (Nat.not_lt.2 ht)]
  rfl

theorem State.qwaitComplete_goes {pod : Bool} {w : Nat} {q : QReg} (hcur : s.cur = some (.qwaitComplete c pod w))
    (hq : q ∈ (s.sta (stationOf c.core)).qregs) (hc : q.ctx = c) (hp : q.pod = pod) (hw : q.since < w)
    (hh : (s.strm ⟨c, .c⟩).hold = .quiet) : exec .qwaitComplete s =
      .next ((s.modSta (stationOf c.core) (fun t => { t with qregs := t.qregs.filter (fun q => q.ctx != c) })).modStrm ⟨c, .c⟩
        (fun y => { y with hold := .passed })) := by
  have hmine : (s.sta (stationOf c.core)).qregs.any (fun q => q.ctx == c && q.pod == pod && decide (q.since < w)) = true := by
    refine List.any_eq_true.2 ⟨q, hq, ?_⟩
    simp [hc, hp, hw]
  rw [exec_qwaitComplete]
  simp only [execQwaitComplete, hcur, hmine, if_true]
  exact congrArg Host.Outcome.next (State.modStrm_congr (if_pos hh))

theorem State.granule_comes {q ticket : Nat} {d : List Elem} (hcur : s.cur = some (.granuleDataArrival c q ticket d))
    (hf : s.frozen c.core = false) :
    exec .granuleDataArrival s = .next (s.modCtx c (fun x => x.putDq q ((x.dq q).fill ticket d s.clk))) := by
  rw [exec_granuleDataArrival]
  simp only [execGranuleDataArrival, hcur, hf, Bool.false_eq_true, if_false]

theorem State.granule_waits {q ticket : Nat} {d : List Elem} (hcur : s.cur = some (.granuleDataArrival c q ticket d))
    (hf : s.frozen c.core = true) :
    exec .granuleDataArrival s = .next (s.post ((s.core c.core).freeze.getD s.clk) (.granuleDataArrival c q ticket d)) := by
  rw [exec_granuleDataArrival]
  simp only [execGranuleDataArrival, hcur, hf, if_true]

end

/-! ## A barrier's release (05 R118) -/

section
variable {s t : State} {c d : CtxId} {u : BarUnit}

/-- What a release leaves as it was: the units, the dies and the clk. -/
structure State.SameUnits (s t : State) : Prop where
  bars : t.bars = s.bars
  dies : t.dies = s.dies
  clk : t.clk = s.clk

theorem State.leaveBarrier_sameUnits (s : State) (d : CtxId) (u : BarUnit) : s.SameUnits (s.leaveBarrier d u) := by
  unfold State.leaveBarrier
  split
  · split <;> exact ⟨rfl, rfl, rfl⟩
  · exact ⟨rfl, rfl, rfl⟩

theorem State.SameUnits.trans {s t v : State} (h : s.SameUnits t) (h' : t.SameUnits v) : s.SameUnits v := by
  obtain ⟨hb, hd, hc⟩ := h
  obtain ⟨hb', hd', hc'⟩ := h'
  exact ⟨hb'.trans hb, hd'.trans hd, hc'.trans hc⟩

theorem State.foldl_leaveBarrier_sameUnits (l : List CtxId) (s : State) (u : BarUnit) :
    s.SameUnits (l.foldl (fun t c => t.leaveBarrier c u) s) := by
  induction l generalizing s with
  | nil => exact ⟨rfl, rfl, rfl⟩
  | cons d l ih => exact (s.leaveBarrier_sameUnits d u).trans (ih _)

/-- A context in the list of the residents is one of the two banks of its core. -/
theorem State.bank_lt_of_resident (h : d ∈ s.residents) : d.bank < 2 := by
  obtain ⟨e, -, rfl⟩ := List.mem_map.1 h
  exact Nat.mod_lt _ (by decide)

/-- Another context's leaving leaves this one. -/
theorem State.ctx_leaveBarrier_ne (hk : 2 * c.core + c.bank ≠ 2 * d.core + d.bank) : (s.leaveBarrier d u).ctx c = s.ctx c := by
  unfold State.leaveBarrier
  split
  · split
    · refine (State.ctx_modCtx_ne _ _ _ _ hk).trans (State.ctx_modCtx_ne _ _ _ _ hk)
    · rfl
  · rfl

/-- A context that waits for the unit's phase, which is over. -/
def State.MayLeave (s : State) (c : CtxId) (u : BarUnit) : Prop :=
  ∃ scope bid b p, (s.strm ⟨c, .c⟩).hold = .barrier scope bid ∧ u = s.barUnitOf c scope bid ∧ s.bar u = some b ∧
    (s.ctx c).party u = some (p, true) ∧ p < b.phase ∧ b.leave ≤ s.clk

theorem State.strm_leaveBarrier (h : s.MayLeave c u) : (s.leaveBarrier c u).strm ⟨c, .c⟩ = (s.strm ⟨c, .c⟩).advance 2 := by
  obtain ⟨scope, bid, b, p, hh, hu, hb, hp, hphase, hleave⟩ := h
  have hgo : (u == s.barUnitOf c scope bid && decide (p < b.phase) && decide (b.leave ≤ s.clk)) = true := by
    simp [← hu, hphase, hleave]
  have hstep : s.leaveBarrier c u = (s.modCtx c (fun x => x.setParty u (p, false))).modStrm ⟨c, .c⟩ (fun y => y.advance 2) := by
    simp only [State.leaveBarrier, hh, hb, hp, hgo, if_true]
  rw [hstep, State.strm_modStrm_self, State.strm, State.ctx_modCtx_self]
  rfl

/-- A stream that does not wait stays where it is. -/
theorem State.leaveBarrier_of_no (h : (s.strm ⟨c, .c⟩).hold = .no) : s.leaveBarrier c u = s := by
  simp only [State.leaveBarrier, h]

theorem StreamSt.hold_advance (y : StreamSt) (n : Nat) : (y.advance n).hold = .no := by
  unfold StreamSt.advance
  dsimp only
  split
  · rfl
  · split <;> rfl

theorem State.SameUnits.mayLeave (hs : s.SameUnits t) (hc : t.ctx c = s.ctx c) (h : s.MayLeave c u) : t.MayLeave c u := by
  obtain ⟨scope, bid, b, p, hh, hu, hb, hp, hphase, hleave⟩ := h
  obtain ⟨hbars, hdies, hclk⟩ := hs
  have hstrm : t.strm ⟨c, .c⟩ = s.strm ⟨c, .c⟩ := congrArg (fun x => Ctx.strm x .c) hc
  have hunit : t.barUnitOf c scope bid = s.barUnitOf c scope bid := by
    simp only [State.barUnitOf, State.partyCore, State.ownParcel, State.platRec, State.die, hc, hdies]
  refine ⟨scope, bid, b, p, ?_, hu.trans hunit.symm, ?_, ?_, hphase, ?_⟩
  · rw [hstrm, hh]
  · rw [State.bar, hbars]
    exact hb
  · rw [hc, hp]
  · rw [hclk]
    exact hleave

/-- One that has left stays as it left. -/
theorem State.strm_foldl_leaveBarrier_of_left {l : List CtxId} (hl : ∀ d ∈ l, d.bank < 2) (hc : c.bank < 2)
    (h : (s.strm ⟨c, .c⟩).hold = .no) : (l.foldl (fun t d => t.leaveBarrier d u) s).strm ⟨c, .c⟩ = s.strm ⟨c, .c⟩ := by
  induction l generalizing s with
  | nil => rfl
  | cons d l ih =>
    obtain ⟨hd, hl⟩ := List.forall_mem_cons.1 hl
    have hstep : (s.leaveBarrier d u).strm ⟨c, .c⟩ = s.strm ⟨c, .c⟩ := by
      by_cases hk : 2 * c.core + c.bank = 2 * d.core + d.bank
      · obtain rfl := CtxId.eq_of_key hd hc hk
        rw [State.leaveBarrier_of_no h]
      · exact congrArg (fun x => Ctx.strm x .c) (State.ctx_leaveBarrier_ne hk)
    rw [List.foldl_cons, ih hl (hstep ▸ h), hstep]

/-- Each of the contexts that wait for the phase leaves. -/
theorem State.strm_foldl_leaveBarrier {l : List CtxId} (hl : ∀ d ∈ l, d.bank < 2) (hc : c ∈ l) (h : s.MayLeave c u) :
    (l.foldl (fun t d => t.leaveBarrier d u) s).strm ⟨c, .c⟩ = (s.strm ⟨c, .c⟩).advance 2 := by
  induction l generalizing s with
  | nil => cases hc
  | cons d l ih =>
    have hcb := hl c hc
    obtain ⟨hd, hrest⟩ := List.forall_mem_cons.1 hl
    rw [List.foldl_cons]
    by_cases hk : 2 * c.core + c.bank = 2 * d.core + d.bank
    · obtain rfl := CtxId.eq_of_key hd hcb hk
      have hleft := State.strm_leaveBarrier h
      rw [State.strm_foldl_leaveBarrier_of_left hrest hd (hleft ▸ StreamSt.hold_advance _ _), hleft]
    · have hctx : (s.leaveBarrier d u).ctx c = s.ctx c := State.ctx_leaveBarrier_ne hk
      have hne : c ≠ d := fun hcd => hk (by rw [hcd])
      rw [ih hrest ((List.mem_cons.1 hc).resolve_left hne) ((s.leaveBarrier_sameUnits d u).mayLeave hctx h)]
      exact congrArg (fun x => (Ctx.strm x .c).advance 2) hctx

end

/-- Settles O37: the header's checks in their order, and each wait that its event ends. -/
theorem fetchAndWaitEvents : Obligations.FetchAndWaitEvents := by
  unfold Obligations.FetchAndWaitEvents
  refine ⟨?_, ?_⟩
  · intro s
    exact ⟨State.blockFetch_absent, fun hl => ⟨State.blockFetch_illegal hl, State.blockFetch_stale hl, State.blockFetch_runs hl⟩⟩
  · intro s i
    refine ⟨State.stallEnd_goes, fun key => State.waitmWake_goes, fun target since => State.twaitExpiry_goes, ?_,
      fun c pod w q => State.qwaitComplete_goes, fun c q ticket d hcur => ⟨State.granule_comes hcur, State.granule_waits hcur⟩⟩
    intro u phase hcur
    have hexec : exec .barrierRelease s = .next (s.residents.foldl (fun t c => t.leaveBarrier c u) s) := by
      rw [exec_barrierRelease]
      simp only [execBarrierRelease, hcur]
    refine ⟨_, hexec, (State.foldl_leaveBarrier_sameUnits _ s u).bars, ?_⟩
    intro c hc scope bid b p hh hu hb hp hphase hleave
    exact State.strm_foldl_leaveBarrier (fun d hd => State.bank_lt_of_resident hd) hc ⟨scope, bid, b, p, hh, hu, hb, hp, hphase, hleave⟩

end Sys2Proof.Machine

namespace Sys2Proof.Machine

/-! ## A field read after it is written -/

theorem wfield_withField_self {w : Word} {lo len : Nat} (v : Nat) (h : lo + len ≤ 64) : wfield (withField w lo len v) lo len = v % 2 ^ len := by
  refine Nat.eq_of_testBit_eq fun i => ?_
  rw [testBit_wfield, Nat.testBit_mod_two_pow]
  by_cases hi : i < len
  · rw [getLsbD_withField _ _ (by omega)]
    simp [hi]
  · simp [hi]

theorem wfield_withField_below {w : Word} {lo len lo' len' : Nat} (v : Nat) (h : lo + len ≤ lo') (h64 : lo + len ≤ 64) :
    wfield (withField w lo' len' v) lo len = wfield w lo len := by
  refine Nat.eq_of_testBit_eq fun i => ?_
  rw [testBit_wfield, testBit_wfield]
  by_cases hi : i < len
  · rw [getLsbD_withField _ _ (by omega)]
    simp [hi, show lo + i < lo' by omega]
  · simp [hi]

/-! ## Delivery (12 R285, R288) -/

section
variable {s : State} {c d : CtxId} {e : Entry} {te : Nat}

/-- A context that stops at a clk for a cause. -/
def Ctx.stoppedAt (x : Ctx) (te : Nat) (e : Entry) : Ctx :=
  let quiet (y : StreamSt) : StreamSt := { y with hold := .no, waiting := y.waiting }
  let x := if e.cause = 0x0C then x else x.retrap
  { x with phase := .stopping te, entry := some e, c := quiet x.c, a := quiet x.a, v := quiet x.v }

theorem State.stopAt_eq (s : State) (c : CtxId) (te : Nat) (e : Entry) :
    s.stopAt c te e = (s.modCtx c (fun x => x.stoppedAt te e)).post te (.trapCapture c) := rfl

theorem State.ctx_post (s : State) (due : Nat) (e : Event) (c : CtxId) : (s.post due e).ctx c = s.ctx c := rfl

theorem State.ctx_stopAt_self (s : State) (c : CtxId) (te : Nat) (e : Entry) : (s.stopAt c te e).ctx c = (s.ctx c).stoppedAt te e := by
  rw [State.stopAt_eq, State.ctx_post, State.ctx_modCtx_self]

theorem Ctx.pending_retrap (x : Ctx) : x.retrap.pending = x.pending := by
  unfold Ctx.retrap
  split <;> rfl

theorem Ctx.pending_stoppedAt (x : Ctx) (te : Nat) (e : Entry) : (x.stoppedAt te e).pending = x.pending := by
  unfold Ctx.stoppedAt
  dsimp only
  split
  · rfl
  · exact x.pending_retrap

/-- A context that has stopped does not stop again with its pair. -/
theorem State.ctx_stopPair (s : State) (c : CtxId) (e : Entry) : (s.stopPair c e).ctx c = (s.ctx c).stoppedAt s.clk e := by
  have hself := s.ctx_stopAt_self c s.clk e
  unfold State.stopPair
  dsimp only
  split
  next d _ =>
    split
    next hrun =>
      by_cases hk : 2 * c.core + c.bank = 2 * d.core + d.bank
      · rw [← State.ctx_of_key _ hk, hself] at hrun
        cases hrun
      · rw [State.stopAt_eq, State.ctx_post, State.ctx_modCtx_ne _ _ _ _ hk, hself]
    · exact hself
  · exact hself

theorem State.mem_agenda_stopPair (s : State) (c : CtxId) (e : Entry) : (s.clk, Event.trapCapture c) ∈ (s.stopPair c e).agenda := by
  have hself : (s.clk, Event.trapCapture c) ∈ (s.stopAt c s.clk e).agenda := State.mem_agenda_post _ _ _
  unfold State.stopPair
  dsimp only
  split
  · split
    · exact mem_insertDue.2 (.inr hself)
    · exact hself
  · exact hself

/-- A pending cause delivered to a context that is alone. -/
theorem State.deliver_pending {k : Nat} (hk : s.pendingCause c causesFirst = some k) (hp : s.partner c = none) :
    ((s.deliver c).ctx c).phase = .stopping s.clk ∧ ((s.deliver c).ctx c).pending = Sp.erase (s.ctx c).pending k ∧
      (((s.deliver c).ctx c).entry.map (fun e => e.cause)) = some k ∧ (s.clk, Event.trapCapture c) ∈ (s.deliver c).agenda := by
  have hdeliver : s.deliver c = s.deliverPending c k := by
    simp only [State.deliver, hk]
  rw [hdeliver]
  simp only [State.deliverPending, hp, Option.toList_none, List.foldl_cons, List.foldl_nil]
  refine ⟨?_, ?_, ?_, State.mem_agenda_stopPair _ _ _⟩
  · rw [State.ctx_stopPair]
    rfl
  · rw [State.ctx_stopPair, Ctx.pending_stoppedAt, State.ctx_modCtx_self]
  · rw [State.ctx_stopPair]
    rfl

end

/-! ## Capture and the handler's start (12 R288 to R291) -/

section
variable {s : State} {c : CtxId} {e : Entry} {te tc : Nat}

/-- A context captured for a handler. -/
theorem Ctx.capture_handler {x : Ctx} (h : e.kind = .handler) : x.capture te tc e =
    { x with
      trapc := trapcOf x.trapc e.cause x.scause e.strm 0 e.mrg e.word, tval := e.tval
      frame := ({ x with trapc := trapcOf x.trapc e.cause x.scause e.strm 0 e.mrg e.word, tval := e.tval } : Ctx).frameImage te tc
      saved := some (x.c.record te tc), savedTe := te, c := x.c.emptied, a := x.a.latched tc, v := x.v.latched tc } := by
  have hkind : (e.kind == StopKind.pageFault || e.kind == .forcedStop) = false := by
    rw [h]
    rfl
  simp only [Ctx.capture, hkind, Bool.and_false, Bool.false_eq_true, if_false]

theorem State.trapCapture_goes (hcur : s.cur = some (.trapCapture c)) (hph : (s.ctx c).phase = .stopping te) (he : (s.ctx c).entry = some e)
    (hkind : e.kind = .handler) (hcan : (s.ctx c).canCapture = true) (hf : s.frozen c.core = false) (hd : s.faultDue c = false) :
    exec .trapCapture s = .next (((s.modCtx c (fun x => { x.capture te s.clk e with sysTrap := none })).modCtx c
      (fun x => { x with phase := .entering te s.clk })).post (s.clk + 24) (.handlerStart c)) := by
  rw [exec_trapCapture]
  simp only [execTrapCapture, hcur, hph, he, hcan, hf, hd, hkind, Bool.not_true, Bool.or_self, Bool.false_eq_true, if_false]
  rfl

/-- The walk of C that is under way as a handler starts. -/
def State.walkOfC (s : State) (c : CtxId) : Option WalkReq := (s.core c.core).walks.find? (fun w => w.ctx == c && w.src == 0)

section
variable (hcur : s.cur = some (.handlerStart c)) (hph : (s.ctx c).phase = .entering te tc) (he : (s.ctx c).entry = some e)
  (hkind : e.kind = .handler)
include hcur hph he hkind

theorem State.handlerStart_goes (hv : wbit (s.ctx c).tvec 63 = true) : exec .handlerStart s =
    .next ((s.modCtx c (fun x => { x with heldWalk := s.walkOfC c })).modCtx c (fun x => x.enterHandler 1 (wfield x.tvec 0 16))) := by
  rw [exec_handlerStart]
  simp only [execHandlerStart, hcur, hph, he, hkind, hv, if_true]
  rfl

theorem State.handlerStart_ends (hv : wbit (s.ctx c).tvec 63 = false) (hc : e.cause ≠ 0x20) : exec .handlerStart s =
    .next ((s.modCtx c (fun x => { x with heldWalk := s.walkOfC c })).endPlatOf c e.cause) := by
  have hcheck : decide (e.cause = cCHECK) = false := decide_eq_false hc
  rw [exec_handlerStart]
  simp only [execHandlerStart, hcur, hph, he, hkind, hv, hcheck, Bool.false_and, Bool.false_eq_true, if_false]
  rfl

end

/-- A context in its handler is in handler mode at the handler's block. -/
theorem Ctx.mode_enterHandler (x : Ctx) {m off : Nat} (hm : m < 4) : (x.enterHandler m off).mode = m := by
  refine (wfield_withField_below _ (by decide) (by decide)).trans ((wfield_withField_self _ (by decide)).trans ?_)
  exact Nat.mod_eq_of_lt hm

end

/-! ## Return (12 R293) -/

section
variable {s : State} {c : CtxId} {r : StreamRec}

/-- Results re-injected leave of their stream everything but its results in flight. -/
theorem State.reinject_keeps {β : Type} (part : Ctx → β) (h : ∀ x st ps, part (x.putStrm st { x.strm st with pend := ps }) = part x)
    (s : State) (i : StreamId) (ls : List Pend) (tr : Nat) (c : CtxId) : part ((s.reinject i ls tr).ctx c) = part (s.ctx c) := by
  refine State.foldl_keeps (fun t => part (t.ctx c)) fun t p => ?_
  have hadd : ∀ q, part ((t.modStrm i (fun y => { y with pend := y.pend ++ [q] })).ctx c) = part (t.ctx c) := by
    intro q
    by_cases hk : 2 * c.core + c.bank = 2 * i.ctx.core + i.ctx.bank
    · rw [State.ctx_of_key _ hk, State.ctx_of_key _ hk, State.modStrm, State.putStrm, State.ctx_modCtx_self]
      exact h (t.ctx i.ctx) i.st _
    · exact congrArg part (State.ctx_modCtx_ne _ _ _ _ hk)
  dsimp only
  split
  · exact hadd p
  · exact hadd _

/-- A context that goes on from its main frame. -/
def Ctx.goneOn (x : Ctx) (r : StreamRec) (clk tr : Nat) : Ctx :=
  { x with
    saved := none, phase := .running, entry := none, trapc := withField x.trapc 44 2 0
    guarded := x.guarded || x.guardLater, guardLater := false
    c := x.c.resume r (r.slip + (clk - x.savedTe)) tr, a := x.a.goOn x.savedTe (clk - x.savedTe) tr
    v := x.v.goOn x.savedTe (clk - x.savedTe) tr }

theorem Ctx.normal_goneOn (x : Ctx) (r : StreamRec) (clk tr : Nat) : (x.goneOn r clk tr).normal = true := by
  have hmode : (x.goneOn r clk tr).mode = 0 := (wfield_withField_self 0 (by decide)).trans (Nat.zero_mod _)
  rw [Ctx.normal, hmode]
  rfl

theorem State.restore_saved (hd : (s.ctx c).displaced = false) (hh : (s.ctx c).handlerSaved = none) (hr : (s.ctx c).saved = some r) :
    s.restore c = (((s.modCtx c (fun x => x.goneOn r s.clk (s.thaw c.core))).reinject ⟨c, .c⟩ r.latch (s.thaw c.core)).reinject ⟨c, .a⟩
      (s.ctx c).a.latch (s.thaw c.core)).reinject ⟨c, .v⟩ (s.ctx c).v.latch (s.thaw c.core) := by
  have hswap : s.swapIn c = s := by
    simp only [State.swapIn, hd, Bool.not_false, if_true]
  simp only [State.restore, hswap, hh, hr]
  rfl

/-- What a return brings back, its results in flight apart. -/
theorem State.ctx_restore {β : Type} (part : Ctx → β) (h : ∀ x st ps, part (x.putStrm st { x.strm st with pend := ps }) = part x)
    (hd : (s.ctx c).displaced = false) (hh : (s.ctx c).handlerSaved = none) (hr : (s.ctx c).saved = some r) :
    part ((s.restore c).ctx c) = part ((s.ctx c).goneOn r s.clk (s.thaw c.core)) := by
  rw [State.restore_saved hd hh hr, State.reinject_keeps part h, State.reinject_keeps part h, State.reinject_keeps part h,
    State.ctx_modCtx_self]

theorem State.rteResume_goes {tr : Nat} (hcur : s.cur = some (.rteResume c)) (hph : (s.ctx c).phase = .returning tr)
    (h2 : (s.ctx c).secondary = none) : exec .rteResume s = .next (s.restore c) := by
  rw [exec_rteResume]
  simp only [execRteResume, hcur, hph, h2]

end

/-- Settles O38: delivery by what stops, capture and the handler's start by their context, and the return by what it brings back. -/
theorem trapEntry : Obligations.TrapEntry := by
  unfold Obligations.TrapEntry
  intro s c x
  refine ⟨fun k hcur hk hp => ?_, fun te e hcur hph he hkind hcan hf hd => ?_, fun te tc e hcur hph he hkind => ⟨fun hv => ?_, fun hv hc => ?_⟩,
    fun tr r hcur hph h2 hd hh hr => ?_⟩
  · refine ⟨s.deliver c, ?_, State.deliver_pending hk hp⟩
    rw [exec_trapDelivery]
    simp only [execTrapDelivery, hcur]
  · refine ⟨_, State.trapCapture_goes hcur hph he hkind hcan hf hd, ?_⟩
    rw [State.ctx_post, State.ctx_modCtx_self, State.ctx_modCtx_self, Ctx.capture_handler hkind]
    exact ⟨rfl, rfl, rfl, rfl, rfl, rfl, rfl, State.mem_agenda_post _ _ _, rfl⟩
  · refine ⟨_, State.handlerStart_goes hcur hph he hkind hv, ?_⟩
    rw [State.ctx_modCtx_self, State.ctx_modCtx_self]
    exact ⟨rfl, Ctx.mode_enterHandler _ (by decide), rfl, rfl, rfl, rfl⟩
  · exact State.handlerStart_ends hcur hph he hkind hv hc
  · refine ⟨_, State.rteResume_goes hcur hph h2, ?_⟩
    have hctx := fun {β : Type} (part : Ctx → β) h => State.ctx_restore part h hd hh hr
    refine ⟨?_, ?_, ?_, ?_, ?_, ?_, ?_, ?_, ?_, ?_, State.restore_mem _ _⟩
    · exact hctx Ctx.phase fun _ st _ => by cases st <;> rfl
    · exact (hctx Ctx.normal fun _ st _ => by cases st <;> rfl).trans (Ctx.normal_goneOn _ _ _ _)
    · exact hctx (fun x => x.c.pc) fun _ st _ => by cases st <;> rfl
    · exact hctx (fun x => x.c.blk) fun _ st _ => by cases st <;> rfl
    · exact hctx (fun x => x.c.reps) fun _ st _ => by cases st <;> rfl
    · exact hctx (fun x => x.c.stall) fun _ st _ => by cases st <;> rfl
    · exact hctx (fun x => x.c.slip) fun _ st _ => by cases st <;> rfl
    · exact hctx (fun x => x.a.slip) fun _ st _ => by cases st <;> rfl
    · exact hctx (fun x => x.v.slip) fun _ st _ => by cases st <;> rfl
    · exact hctx (fun x => x.c.regs) fun _ st _ => by cases st <;> rfl

end Sys2Proof.Machine

namespace Sys2Proof.Machine

/-! ## TIMER, SIGNAL and DEBUG (12 R286; 14 R341) -/

section
variable {s : State} {c : CtxId}

theorem State.timerMatch_goes (hcur : s.cur = some (.timerMatch c)) (h0 : (s.ctx c).timecmp ≠ 0) (hc : s.cyc c.core = (s.ctx c).timecmp)
    (he : wbit (s.ctx c).trapc 0 = true) : exec .timerMatch s = .next (s.raiseAsync c 0x31 (s.cyc c.core)) := by
  have hgo : ((s.ctx c).timecmp != 0 && s.cyc c.core == (s.ctx c).timecmp && wbit (s.ctx c).trapc 0) = true := by
    simp only [hc, he, bne_iff_ne.2 h0, beq_self_eq_true, Bool.and_self]
  rw [exec_timerMatch]
  simp only [execTimerMatch, hcur, hgo, if_true]
  rfl

theorem State.timerMatch_ignored (hcur : s.cur = some (.timerMatch c)) (he : wbit (s.ctx c).trapc 0 = false) :
    exec .timerMatch s = .next s := by
  rw [exec_timerMatch]
  simp only [execTimerMatch, hcur, he, Bool.and_false, Bool.false_eq_true, if_false]

theorem State.dbgreqRequest_raises (hcur : s.cur = some (.dbgreqRequest c)) (hr : (s.ctx c).resident = true) :
    exec .dbgreqRequest s = .next ((s.modCtx c (fun x => { x with dbgreq := true })).raiseAsync c 0x30 0) := by
  rw [exec_dbgreqRequest]
  simp only [execDbgreqRequest, hcur, hr, if_true]
  rfl

theorem State.dbgreqRequest_void (hcur : s.cur = some (.dbgreqRequest c)) (hr : (s.ctx c).resident = false) :
    exec .dbgreqRequest s = .next s := by
  rw [exec_dbgreqRequest]
  simp only [execDbgreqRequest, hcur, hr, Bool.false_eq_true, if_false]

theorem State.dbgreqWithdraw_goes (hcur : s.cur = some (.dbgreqWithdraw c)) :
    exec .dbgreqWithdraw s = .next (s.modCtx c (fun x => { x with dbgreq := false, pending := Sp.erase x.pending 0x30 })) := by
  rw [exec_dbgreqWithdraw]
  simp only [execDbgreqWithdraw, hcur]
  rfl

/-- The context that a SIGNAL names. -/
def signalCtx (slot : Slot) : CtxId :=
  ⟨128 * slot.dmod.toNat + 16 * slot.dsta.toNat + slot.dcore.toNat, ofBytesLE (slot.data.take 8) % 2⟩

/-- The TVAL of a SIGNAL: where it comes from. -/
def signalTval (slot : Slot) : Word := BitVec.ofNat 64 (slot.smod.toNat * 2 ^ 8 + slot.ssta.toNat * 2 ^ 5 + slot.score.toNat)

/-- Whether the context that a SIGNAL names takes it. -/
def Ctx.takesSignal (x : Ctx) (slot : Slot) : Bool := x.resident && (x.job == slot.job || slot.job == 0) && wbit x.trapc 1

theorem State.signalArrival_eq {slot : Slot} (hcur : s.cur = some (.signalArrival slot)) : exec .signalArrival s =
    if (s.ctx (signalCtx slot)).takesSignal slot then .next (s.raiseAsync (signalCtx slot) 0x32 (signalTval slot)) else .next s := by
  rw [exec_signalArrival]
  simp only [execSignalArrival, hcur]
  rfl

end

/-- Settles O39: each event by whether its context takes the cause. -/
theorem interruptEvents : Obligations.InterruptEvents := by
  unfold Obligations.InterruptEvents
  intro s c x
  refine ⟨State.timerMatch_goes, State.timerMatch_ignored, fun slot hcur hcore hbank => ?_,
    fun hcur => ⟨State.dbgreqRequest_raises hcur, State.dbgreqRequest_void hcur⟩, State.dbgreqWithdraw_goes⟩
  have hc : (signalCtx slot) = c := by
    obtain ⟨core, bank⟩ := c
    exact (CtxId.mk.injEq _ _ _ _).mpr ⟨hcore.symm, hbank.symm⟩
  rw [State.signalArrival_eq hcur, hc]
  refine ⟨fun hr hj he => if_pos ?_, fun _ he => if_neg ?_, fun hr => if_neg ?_⟩
  · simp only [Ctx.takesSignal, x] at hr hj he ⊢
    rw [hr, hj, he]
    simp
  · rw [Ctx.takesSignal, he, Bool.and_false]
    exact Bool.false_ne_true
  · rw [Ctx.takesSignal, hr]
    exact Bool.false_ne_true

/-! ## A word that misses (09 R228, R229) -/

section
variable {s : State} {c : CtxId} {st : Stream} {acc : Access} {va : Nat} {l : Leaf}

theorem srcCode_lt (st : Stream) : srcCode st < 2 := by
  cases st <;> decide

/-- The walk of a word that misses. -/
def State.walkReq (s : State) (c : CtxId) (st : Stream) (acc : Access) (va : Nat) : WalkReq := ⟨c, (s.ctx c).job, va, acc, srcCode st⟩

theorem State.translate_miss (hm : (s.core c.core).tlbHit (s.ctx c).job va = none) (hw : (s.core c.core).walks = [])
    (hf : s.walkerFull c.core = false) (hl : s.walk c.core (s.ctx c).job.toNat acc va = .ok l) : s.translate c (srcCode st) acc va =
      .leaf l (s.walkPages c.core [(s.walkReq c st acc va, (s.core c.core).gen (s.ctx c).job, l)]) := by
  have hsrc : ¬ 2 ≤ srcCode st := Nat.not_le.2 (srcCode_lt st)
  simp only [State.translate, hm, hw, hf, hl, hsrc, List.any_nil, decide_false, Bool.false_and, Bool.or_self, Bool.false_eq_true, if_false]
  rfl

/-- What beginning a walk leaves of its core. -/
theorem State.core_beginWalk_keeps {β : Type} (part : CoreSt → β) (h : ∀ k ws, part { k with walks := ws } = part k) (s : State) (core : Nat)
    (r : WalkReq) (j : Nat) : part ((s.beginWalk core r).core j) = part (s.core j) :=
  (State.core_modCore_keeps part s.freeTime.2 core j (f := fun k => { k with walks := k.walks ++ [r] }) fun k => h k _).trans rfl

theorem State.acquiring_eq (s : State) (c : CtxId) (st : Stream) : s.acquiring ⟨c, st⟩ =
    (s.acquirePending ⟨c, st⟩ || (s.core c.core).walking c (srcCode st) || (s.core c.core).apStuck ⟨c, st⟩) := by
  cases st <;> rfl

/-- The leaf of a word's walk holds the later accesses of its stream. -/
theorem State.acquiring_walkPages (hacc : acc ≠ .prefetch) (gen : Nat) :
    (s.walkPages c.core [(s.walkReq c st acc va, gen, l)]).acquiring ⟨c, st⟩ = true := by
  have hleaf : ((s.walkPages c.core [(s.walkReq c st acc va, gen, l)]).core c.core).walkLeaf =
      (s.core c.core).walkLeaf ++ [(s.walkReq c st acc va, gen, l)] := by
    refine (State.core_beginWalk_keeps CoreSt.walkLeaf (fun _ _ => rfl) _ _ _ _).trans ?_
    rw [State.core_modCore_self]
  have hwalk : ((s.walkPages c.core [(s.walkReq c st acc va, gen, l)]).core c.core).walking c (srcCode st) = true := by
    rw [CoreSt.walking, hleaf, List.any_append]
    simp [State.walkReq, hacc]
  rw [State.acquiring_eq, hwalk, Bool.or_true, Bool.true_or]

end

/-! ## The end of a walk (09 R229, R236) -/

section
variable {s : State} {core : Nat} {r : WalkReq} {l : Leaf}

/-- The state in which a walk has ended, and a PREF's that waited has begun. -/
def State.walkEnded (s : State) (core : Nat) (r : WalkReq) : State :=
  (s.modCore core (fun k => { k with walks := k.walks.filter (fun w => w != r) })).beginWaiting (dieOf core)

section
variable (hcur : s.cur = some (.tlbWalkComplete core r)) (hr : r ∈ (s.core core).walks)
include hcur hr

theorem State.tlbWalkComplete_fills (hn : ((s.walkEnded core r).core core).walkLeaf.find? (fun w => w.1 == r) = none)
    (hl : (s.walkEnded core r).walk core r.job.toNat r.acc r.va = .ok l) :
    exec .tlbWalkComplete s = .next ((s.walkEnded core r).modCore core (fun k => k.tlbFill r.job r.va l)) := by
  rw [exec_tlbWalkComplete]
  simp only [State.walkEnded] at hn hl ⊢
  simp only [execTlbWalkComplete, hcur, List.contains_iff_mem.2 hr, hn, hl, Bool.not_true, Bool.false_eq_true, if_false]

theorem State.tlbWalkComplete_done {gen : Nat}
    (hn : ((s.walkEnded core r).core core).walkLeaf.find? (fun w => w.1 == r) = some (r, gen, l)) :
    exec .tlbWalkComplete s = .next ((s.walkEnded core r).walkDone core r gen l) := by
  rw [exec_tlbWalkComplete]
  simp only [State.walkEnded] at hn ⊢
  simp only [execTlbWalkComplete, hcur, List.contains_iff_mem.2 hr, hn, Bool.not_true, Bool.false_eq_true, if_false]

end

/-- The end of the walk of a word that has issued, in its core. -/
def CoreSt.walkOver (k : CoreSt) (r : WalkReq) (gen : Nat) (l : Leaf) : CoreSt :=
  let k := { k with walkLeaf := k.walkLeaf.filter (fun w => w.1 != r) }
  if gen = k.gen r.job then k.tlbFill r.job r.va l else k

theorem State.core_walkDone_keeps {β : Type} (part : CoreSt → β) (h : ∀ k ws, part { k with walks := ws } = part k) (gen : Nat) :
    part ((s.walkDone core r gen l).core core) = part ((s.core core).walkOver r gen l) := by
  have hover : (s.modCore core (fun k => k.walkOver r gen l)).core core = (s.core core).walkOver r gen l := State.core_modCore_self _ _ _
  unfold State.walkDone
  dsimp only
  split
  · split
    · exact congrArg part hover
    · exact (State.core_beginWalk_keeps part h _ _ _ _).trans (congrArg part hover)
  · exact congrArg part hover

theorem CoreSt.walkLeaf_walkOver (k : CoreSt) (r : WalkReq) (gen : Nat) (l : Leaf) :
    (k.walkOver r gen l).walkLeaf = k.walkLeaf.filter (fun w => w.1 != r) := by
  unfold CoreSt.walkOver
  dsimp only
  split <;> rfl

theorem CoreSt.tlb_walkOver (k : CoreSt) (r : WalkReq) (gen : Nat) (l : Leaf) :
    (k.walkOver r gen l).tlb = (if gen = k.gen r.job then k.tlbFill r.job r.va l else k).tlb := by
  unfold CoreSt.walkOver
  dsimp only
  have hgen : CoreSt.gen { k with walkLeaf := k.walkLeaf.filter (fun w => w.1 != r) } r.job = k.gen r.job := rfl
  rw [hgen]
  split <;> rfl

end

/-! ## Page faults and their answers (09 R232 to R234; 12 R294) -/

section
variable {s : State} {r : WalkReq} {kind level m port : Nat} {slot : BitVec 6} {f : FaultRec}

section
variable (hcur : s.cur = some (.pageFault r kind level)) (hr : (s.ctx r.ctx).resident = true) (hph : (s.ctx r.ctx).phase = .running)
include hcur hr hph

/-- The entry of a context that a page fault stops. -/
def faultEntry (s : State) (c : CtxId) : Entry :=
  { cause := 0, tval := 0, strm := 3, word := (s.ctx c).c.pc, mrg := false, kind := .pageFault }

theorem State.pageFault_stops (hb : (s.ctx r.ctx).beforeHandler r = false) :
    ∃ f : FaultRec, f.req = r ∧ f.kind = kind ∧ f.level = level ∧
      exec .pageFault s = .next ((s.modCtx r.ctx (fun x => { x with fault := some f })).stopPair r.ctx (faultEntry s r.ctx)) := by
  rw [exec_pageFault]
  simp only [execPageFault, hcur, hr, hph, hb, Bool.not_true, Bool.false_eq_true, if_false]
  exact ⟨_, rfl, rfl, rfl, rfl⟩

theorem State.pageFault_noted (hb : (s.ctx r.ctx).beforeHandler r = true) :
    ∃ f, exec .pageFault s = .next (s.secondFault f) ∧ f.req = r ∧ f.kind = kind ∧ f.level = level := by
  rw [exec_pageFault]
  simp only [execPageFault, hcur, hr, hph, hb, Bool.not_true, Bool.false_eq_true, if_false, if_true]
  exact ⟨_, rfl, rfl, rfl, rfl⟩

end

theorem Ctx.fault_retrap (x : Ctx) : x.retrap.fault = x.fault := by
  unfold Ctx.retrap
  split <;> rfl

theorem Ctx.fault_stoppedAt (x : Ctx) (te : Nat) (e : Entry) : (x.stoppedAt te e).fault = x.fault := by
  unfold Ctx.stoppedAt
  dsimp only
  split
  · rfl
  · exact x.fault_retrap

theorem State.fnfresRetry_goes (hcur : s.cur = some (.fnfresRetry m port slot)) (hf : (s.takeAnswer m port slot.toNat 0).1 = some f) :
    exec .fnfresRetry s = .next ((s.takeAnswer m port slot.toNat 0).2.answered f id) := by
  rw [exec_fnfresRetry]
  simp only [execFnfresRetry, hcur]
  generalize s.takeAnswer m port slot.toNat 0 = p at hf ⊢
  obtain ⟨_, t⟩ := p
  obtain rfl := hf
  rfl

theorem State.fnfresRaisePerm_goes (hcur : s.cur = some (.fnfresRaisePerm m port slot))
    (hf : (s.takeAnswer m port slot.toNat 1).1 = some f) (hs : f.req.src < 2) : exec .fnfresRaisePerm s =
      .next ((s.takeAnswer m port slot.toNat 1).2.answered f
        (fun x => { x with permAt := some (f.req.src, BitVec.ofNat 64 f.req.va, x.handlerSaved.isSome) })) := by
  rw [exec_fnfresRaisePerm]
  simp only [execFnfresRaisePerm, hcur]
  generalize s.takeAnswer m port slot.toNat 1 = p at hf ⊢
  obtain ⟨_, t⟩ := p
  obtain rfl := hf
  simp only [hs, if_true]

theorem State.fnfresEndPlat_goes (hcur : s.cur = some (.fnfresEndPlat m port slot))
    (hf : (s.takeAnswer m port slot.toNat 2).1 = some f) :
    exec .fnfresEndPlat s = .next ((s.takeAnswer m port slot.toNat 2).2.endPlatOf f.req.ctx 0x08) := by
  rw [exec_fnfresEndPlat]
  simp only [execFnfresEndPlat, hcur]
  generalize s.takeAnswer m port slot.toNat 2 = p at hf ⊢
  obtain ⟨_, t⟩ := p
  obtain rfl := hf
  rfl

/-- VERDICT 3 leaves the registers' answer and nothing else. -/
theorem State.takeAnswer_nothing (s : State) (m port slot : Nat) :
    (s.takeAnswer m port slot 3).2 = s.modFn m (64 * port) (fun g => { g with res := BitVec.ofNat 64 (192 + slot) }) := rfl

theorem State.fnfresAnswerNothing_goes (hcur : s.cur = some (.fnfresAnswerNothing m port slot)) : exec .fnfresAnswerNothing s =
    .next (s.modFn m (64 * port) (fun g => { g with res := BitVec.ofNat 64 (192 + slot.toNat) })) := by
  rw [exec_fnfresAnswerNothing]
  simp only [execFnfresAnswerNothing, hcur, State.takeAnswer_nothing]

end

/-! ## Markers and bank switches (09 R236; 05 R138) -/

section
variable {s : State} {core b : Nat}

/-- The job that a marker names. -/
def markerJob (k : Slot) : Nat := ofBytesLE (k.data.take 8) % 4096

theorem State.invalidation_raises {k : Slot} (hcur : s.cur = some (.invalidationMarkerArrival core k)) :
    ∃ t, exec .invalidationMarkerArrival s = .next t ∧
      (t.core core).gen (BitVec.ofNat 12 (markerJob k)) = (s.core core).gen (BitVec.ofNat 12 (markerJob k)) + 1 := by
  rw [exec_invalidationMarkerArrival]
  simp only [execInvalidationMarkerArrival, hcur]
  refine ⟨_, rfl, ?_⟩
  refine (State.foldl_keeps (fun t => (t.core core).gen (BitVec.ofNat 12 (markerJob k))) fun t a => ?_).trans ?_
  · split <;> rfl
  · have hjob : (BitVec.ofNat 12 (markerJob k)).toNat = markerJob k :=
      (BitVec.toNat_ofNat _ _).trans (Nat.mod_eq_of_lt (Nat.mod_lt _ (by decide)))
    rw [State.core_modCore_self, CoreSt.gen, hjob, Sp.get_set]
    exact if_pos rfl

/-- The state once a bank is active, its context with the features of its function. -/
def State.switched (s : State) (core b : Nat) : State :=
  (s.modCore core (fun k => { k with active := b, switching := none })).modCtx ⟨core, b⟩
    (fun x => { x with feat := (s.modu (modOf core)).features x.job.toNat })

theorem State.ctx_switched (s : State) (core b : Nat) : (s.switched core b).ctx ⟨core, b⟩ =
    { s.ctx ⟨core, b⟩ with feat := (s.modu (modOf core)).features (s.ctx ⟨core, b⟩).job.toNat } := State.ctx_modCtx_self _ _ _

theorem State.core_modCtx (s : State) (c : CtxId) (f : Ctx → Ctx) (k : Nat) : (s.modCtx c f).core k = s.core k := rfl

theorem State.core_switched (s : State) (core b : Nat) :
    ((s.switched core b).core core).active = b ∧ ((s.switched core b).core core).switching = none := by
  rw [State.switched, State.core_modCtx, State.core_modCore_self]
  exact ⟨rfl, rfl⟩

section
variable (hcur : s.cur = some (.bankSwitchComplete core)) (hsw : (s.core core).switching = some b)
include hcur hsw

theorem State.bankSwitch_waits (hclk : s.clk < (s.core core).switchEnd) :
    exec .bankSwitchComplete s = .next (s.post (s.core core).switchEnd (.bankSwitchComplete core)) := by
  rw [exec_bankSwitchComplete]
  simp only [execBankSwitchComplete, hcur, hsw, hclk, if_true]

theorem State.bankSwitch_goes (hclk : (s.core core).switchEnd ≤ s.clk) (hd : (s.ctx ⟨core, b⟩).displaced = false)
    (hph : (s.ctx ⟨core, b⟩).phase = .running) : exec .bankSwitchComplete s = .next (s.switched core b) := by
  have hswap : (s.modCore core (fun k => { k with active := b, switching := none })).swapIn ⟨core, b⟩ =
      s.modCore core (fun k => { k with active := b, switching := none }) := by
    have hd' : ((s.modCore core (fun k => { k with active := b, switching := none })).ctx ⟨core, b⟩).displaced = false := hd
    simp only [State.swapIn, hd', Bool.not_false, if_true]
  have hready : ¬ ((s.switched core b).ctx ⟨core, b⟩).phase = .ready := by
    rw [State.ctx_switched]
    dsimp only
    rw [hph]
    exact Phase.noConfusion
  rw [exec_bankSwitchComplete]
  simp only [execBankSwitchComplete, hcur, hsw, hswap, if_neg (Nat.not_lt.2 hclk)]
  exact congrArg Host.Outcome.next (if_neg hready)

end

end

/-- Settles O40: the miss and the walk's end by their core, a fault by what stops, an answer by what it lets go on. -/
theorem translationAndBankEvents : Obligations.TranslationAndBankEvents := by
  unfold Obligations.TranslationAndBankEvents
  refine ⟨?_, ?_, ?_⟩
  · intro s c st acc va l hm hw hf hacc hl
    exact ⟨_, State.translate_miss hm hw hf hl, State.acquiring_walkPages hacc _, rfl, rfl⟩
  · intro s core r m port slot
    refine ⟨fun l hcur hr => ⟨State.tlbWalkComplete_fills hcur hr, fun gen hn => ?_⟩, fun kind level hcur hr hph hp hb => ?_,
      fun kind level => State.pageFault_noted, fun f => State.fnfresRetry_goes, fun f => State.fnfresRaisePerm_goes,
      fun f => State.fnfresEndPlat_goes, State.fnfresAnswerNothing_goes, fun k => State.invalidation_raises⟩
    · refine ⟨_, State.tlbWalkComplete_done hcur hr hn, ?_, ?_⟩
      · exact (State.core_walkDone_keeps CoreSt.walkLeaf (fun _ _ => rfl) gen).trans (CoreSt.walkLeaf_walkOver _ _ _ _)
      · exact (State.core_walkDone_keeps CoreSt.tlb (fun _ _ => rfl) gen).trans (CoreSt.tlb_walkOver _ _ _ _)
    · obtain ⟨f, hreq, hkind, hlevel, hexec⟩ := State.pageFault_stops hcur hr hph hb
      refine ⟨_, hexec, ?_, ?_, ?_, State.mem_agenda_stopPair _ _ _, State.stopPair_mem _ _ _⟩
      · rw [State.ctx_stopPair]
        rfl
      · rw [State.ctx_stopPair, Ctx.fault_stoppedAt, State.ctx_modCtx_self, ← hreq, ← hkind, ← hlevel]
        rfl
      · rw [State.ctx_stopPair]
        rfl
  · intro s core b hcur hsw
    have hcore := s.core_switched core b
    exact ⟨State.bankSwitch_waits hcur hsw, fun hclk hd hph =>
      ⟨_, State.bankSwitch_goes hcur hsw hclk hd hph, hcore.1, hcore.2, State.ctx_switched s core b, rfl⟩⟩

end Sys2Proof.Machine

namespace Sys2Proof.Machine

/-! ## What the scheduler's overlays and the streams' waits leave of the engines -/

/-- The engines and the tokens of a context. -/
def Ctx.work (x : Ctx) : Engines × Sp Nat := (x.eng, x.tokens)

theorem State.ctx_putCtx_keeps {β : Type} (part : Ctx → β) (s : State) (c d : CtxId) {x : Ctx} (h : part x = part (s.ctx c)) :
    part ((s.putCtx c x).ctx d) = part (s.ctx d) := by
  by_cases hk : 2 * d.core + d.bank = 2 * c.core + c.bank
  · rw [State.ctx_of_key _ hk, State.ctx_of_key _ hk, State.ctx_putCtx_self, h]
  · exact congrArg part (Sp.get_put_ne _ _ _ hk)

section
variable (s : State) (core : Nat) (c d : CtxId)

theorem State.work_displace : ((s.displace c).ctx d).work = (s.ctx d).work := by
  unfold State.displace
  dsimp only
  split
  · rfl
  · refine Eq.trans (State.ctx_putCtx_keeps Ctx.work (s.modCore c.core (fun k =>
      { k.settleAll with moves := k.moves.filter (fun m => m.1 != c.bank) })) c d ?_) rfl
    rfl

theorem State.work_swapIn : ((s.swapIn c).ctx d).work = (s.ctx d).work := by
  unfold State.swapIn
  split
  · rfl
  · dsimp only
    refine (State.ctx_modCtx_keeps Ctx.work _ c d ?_).trans (State.work_displace s ⟨c.core, 1 - c.bank⟩ d)
    exact fun _ => rfl

theorem State.work_moveBeat : ((s.moveBeat core).ctx d).work = (s.ctx d).work := by
  unfold State.moveBeat
  split
  · rfl
  · split
    · rfl
    · dsimp only
      split
      · exact State.work_swapIn _ _ _
      · exact State.work_displace _ _ _

theorem Ctx.work_putStrm (x : Ctx) (st : Stream) (y : StreamSt) : (x.putStrm st y).work = x.work := by
  cases st <;> rfl

theorem State.work_modStrm (i : StreamId) (f : StreamSt → StreamSt) : ((s.modStrm i f).ctx d).work = (s.ctx d).work :=
  State.ctx_modCtx_keeps Ctx.work s i.ctx d fun x => x.work_putStrm i.st _

theorem State.work_loadBeat (die : Nat) (plat : Word) (l : Load) : ((s.loadBeat die plat l).ctx d).work = (s.ctx d).work := by
  unfold State.loadBeat
  split
  · rfl
  · split
    · rfl
    · dsimp only
      split
      · rfl
      · have hfold : ∀ t : State, ((([0, 1].foldl (fun s b => s.modStrm ⟨⟨l.core, b⟩, l.st⟩ (fun y => { y with loopBuf := none })) t).ctx
            d).work) = (t.ctx d).work := fun t =>
          State.foldl_keeps (fun t => (t.ctx d).work) fun t b => State.work_modStrm t d ⟨⟨l.core, b⟩, l.st⟩ _
        split
        · exact hfold _
        · exact hfold _

theorem State.work_overlayBeat : ((s.overlayBeat core).ctx d).work = (s.ctx d).work := by
  unfold State.overlayBeat
  split
  · exact s.work_moveBeat core d
  · split
    · exact s.work_loadBeat d _ _ _
    · rfl

theorem State.work_grantCopy : ((s.grantCopy core).ctx d).work = (s.ctx d).work := by
  unfold State.grantCopy
  split
  · rfl
  · split
    · rfl
    · dsimp only
      split
      · rfl
      · split
        · exact State.work_overlayBeat _ _ _
        · split <;> rfl

end

/-! ## Engine queues, runs and sets -/

section
variable (g : Engines) (e : EngQ)

theorem Engines.queue_putRun (r : Option Run) : (g.putRun e r).queue e = g.queue e := by
  cases e <;> rfl

theorem Engines.run_putRun (r : Option Run) : (g.putRun e r).run e = r := by
  cases e <;> rfl

theorem Engines.setOf_putRun (r : Option Run) : (g.putRun e r).setOf e = g.setOf e := by
  cases e <;> rfl

theorem Engines.queue_putQueue (q : List Command) : (g.putQueue e q).queue e = q := by
  cases e <;> rfl

theorem Engines.setOf_putQueue (q : List Command) : (g.putQueue e q).setOf e = g.setOf e := by
  cases e <;> rfl

theorem Engines.queue_swap : (g.swap e).queue e = g.queue e := by
  cases e <;> rfl

theorem Engines.setOf_swap : (g.swap e).setOf e = ⟨(g.setOf e).shadow, (g.setOf e).live⟩ := by
  cases e <;> rfl

end

/-! ## A command begins (07 R171, R172, R176, R178) -/

section
variable {s : State} {c : CtxId} {e : EngQ} {r : Run} {cm : Command} {rest : List Command}

/-- A context from which a command has been taken: its queue, its token and its sets. -/
def Ctx.commandTaken (x : Ctx) (e : EngQ) (cm : Command) (rest : List Command) : Ctx :=
  let x := if cm.wait = 0 then x else x.setToken cm.wait (x.token cm.wait - 1)
  let g := x.eng.putQueue e rest
  { x with eng := if cm.sw then g.swap e else g }

theorem Ctx.eng_commandTaken (x : Ctx) (e : EngQ) (cm : Command) (rest : List Command) :
    (x.commandTaken e cm rest).eng = if cm.sw then (x.eng.putQueue e rest).swap e else x.eng.putQueue e rest := by
  unfold Ctx.commandTaken
  by_cases hw : cm.wait = 0
  · simp only [hw, if_true]
  · simp only [hw, if_false]
    rfl

theorem Ctx.tokens_commandTaken (x : Ctx) (e : EngQ) (rest : List Command) (hw : cm.wait ≠ 0) :
    (x.commandTaken e cm rest).tokens = Sp.set 0 x.tokens cm.wait (x.token cm.wait - 1) := by
  unfold Ctx.commandTaken
  simp only [hw, if_false]
  rfl

/-- The state in which a command has been taken by its engine. -/
def State.commandTaken (s : State) (c : CtxId) (e : EngQ) (cm : Command) (rest : List Command) : State :=
  (s.modCore c.core (fun k => { k with owner := Sp.set 0 k.owner (engIndex e) c.bank })).modCtx c (fun x => x.commandTaken e cm rest)

/-- A new command in progress, with the error that its sets give it. -/
def State.checkedRun (s : State) (c : CtxId) (e : EngQ) (cm : Command) : Run :=
  let r := s.newRun c e cm
  if e = .matrix && cm.cmd == 3 && recBad r.shape then { r with error := 4, errArg := (recBase r.shape).toNat } else r

/-- The clk that a command's promise gives it. -/
def State.promiseAt (s : State) (c : CtxId) (e : EngQ) (cm : Command) : Nat :=
  (s.cyc c.core + BitVec.ofNat 64 (s.promiseOf c e (s.checkedRun c e cm))).toNat % 2 ^ 48

/-- A command in progress at its first step, with its promise. -/
def State.firstRun (s : State) (c : CtxId) (e : EngQ) (cm : Command) : Run :=
  let r := s.checkedRun c e cm
  { r with promise := s.promiseAt c e cm, done := if r.error ≠ 0 then some (s.clk + 1) else r.done }

/-- The state of a command in progress, and its promise noted. -/
def State.runStarted (s : State) (c : CtxId) (e : EngQ) (cm : Command) : State :=
  let t := s.modCtx c (fun x => { x with eng := x.eng.putRun e (some (s.firstRun c e cm)) })
  if isCopy e then
    ((t.modCtx c (fun x => { x with q14 := x.q14.add (BitVec.ofNat 64 (cm.tag * 2 ^ 48 + s.promiseAt c e cm)) (t.clk + 2) })).post
      (t.clk + s.promiseOf c e (s.checkedRun c e cm)) (.promiseMiss c (BitVec.ofNat 16 cm.tag))).grantCopy c.core
  else t.postNow (.engineMicroStep c e)

theorem State.begin_runs (hcur : s.cur = some (.engineCommandBegin c e)) (hmay : s.mayBegin c e = true)
    (hq : (s.ctx c).eng.queue e = cm :: rest) (hchk : cm.chk = cm.own) :
    exec .engineCommandBegin s = .next ((s.commandTaken c e cm rest).runStarted c e cm) := by
  rw [exec_engineCommandBegin]
  simp only [execEngineCommandBegin, hcur, hmay, hq, hchk, Bool.not_true, Bool.false_eq_true, if_false, ne_eq, not_true_eq_false]
  simp only [State.commandTaken, State.runStarted]
  split <;> rfl

theorem State.begin_mismatch (hcur : s.cur = some (.engineCommandBegin c e)) (hmay : s.mayBegin c e = true)
    (hq : (s.ctx c).eng.queue e = cm :: rest) (hchk : cm.chk ≠ cm.own) :
    exec .engineCommandBegin s = .next (s.copyMismatch c e) := by
  rw [exec_engineCommandBegin]
  simp only [execEngineCommandBegin, hcur, hmay, hq, hchk, Bool.not_true, Bool.false_eq_true, if_false, ne_eq, not_false_eq_true, if_true]

/-- A command's size does not change its place, its step or its beginning. -/
theorem State.sized_keeps (s : State) (c : CtxId) (e : EngQ) (r : Run) :
    (s.sized c e r).c = r.c ∧ (s.sized c e r).step = r.step ∧ (s.sized c e r).begun = r.begun := by
  unfold State.sized
  dsimp only
  split <;> exact ⟨rfl, rfl, rfl⟩

theorem State.newRun_first (s : State) (c : CtxId) (e : EngQ) (cm : Command) :
    (s.newRun c e cm).c = cm ∧ (s.newRun c e cm).step = 1 ∧ (s.newRun c e cm).begun = s.clk := by
  unfold State.newRun
  extract_lets x words shape r0 r
  obtain ⟨hc, hs, hb⟩ := s.sized_keeps c e r0
  split <;> exact ⟨hc, hs, hb⟩

theorem State.firstRun_first (s : State) (c : CtxId) (e : EngQ) (cm : Command) :
    (s.firstRun c e cm).c = cm ∧ (s.firstRun c e cm).step = 1 ∧ (s.firstRun c e cm).begun = s.clk := by
  have hchecked : (s.checkedRun c e cm).c = cm ∧ (s.checkedRun c e cm).step = 1 ∧ (s.checkedRun c e cm).begun = s.clk := by
    have hnew := s.newRun_first c e cm
    unfold State.checkedRun
    dsimp only
    split <;> exact hnew
  exact hchecked

/-- The engines of a context whose command has begun. -/
theorem State.work_runStarted (s : State) (c : CtxId) (e : EngQ) (cm : Command) :
    (((s.runStarted c e cm).ctx c).work) = ((s.ctx c).eng.putRun e (some (s.firstRun c e cm)), (s.ctx c).tokens) := by
  have hrun : ((s.modCtx c (fun x => { x with eng := x.eng.putRun e (some (s.firstRun c e cm)) })).ctx c).work =
      ((s.ctx c).eng.putRun e (some (s.firstRun c e cm)), (s.ctx c).tokens) := by
    rw [State.ctx_modCtx_self]
    rfl
  unfold State.runStarted
  dsimp only
  split
  · refine (State.work_grantCopy _ _ _).trans ?_
    rw [State.ctx_post]
    exact (State.ctx_modCtx_keeps Ctx.work _ c c (f := fun x => { x with q14 := x.q14.add _ _ }) fun _ => rfl).trans hrun
  · exact hrun

end

/-! ## Micro-steps (21 R417, R423, R424, R432) -/

section
variable {s : State} {c : CtxId} {e : EngQ} {r : Run}

/-- An engine with its bank noted as the core's owner of it. -/
def State.ownedBy (s : State) (c : CtxId) (e : EngQ) : State :=
  s.modCore c.core (fun k => { k with owner := Sp.set 0 k.owner (engIndex e) c.bank })

/-- A command at its step, a copy's first step with its size. -/
def State.sizedFirst (s : State) (c : CtxId) (e : EngQ) (r : Run) : Run := if isCopy e && r.step == 1 then s.sized c e r else r

theorem State.sizedFirst_cmd (s : State) (c : CtxId) (e : EngQ) (r : Run) : (s.sizedFirst c e r).c.cmd = r.c.cmd := by
  unfold State.sizedFirst
  split
  · rw [(s.sized_keeps c e r).1]
  · rfl

/-- What an engine does in a step that is due. -/
structure State.StepDue (s : State) (c : CtxId) (e : EngQ) (r : Run) : Prop where
  cur : s.cur = some (.engineMicroStep c e)
  run : (s.ctx c).eng.run e = some r
  live : s.engineLive c = true
  fault : (s.ctx c).engineFault e = false
  going : r.done = none
  more : r.step ≤ r.steps
  due : r.due ≤ s.clk

namespace State.StepDue

variable (h : s.StepDue c e r)
include h

theorem fails (he : ((s.ownedBy c e).sizedFirst c e r).error ≠ 0) : exec .engineMicroStep s =
    .next ((s.ownedBy c e).failed c e ((s.ownedBy c e).sizedFirst c e r) ((s.ownedBy c e).sizedFirst c e r).error
      ((s.ownedBy c e).sizedFirst c e r).errArg) := by
  obtain ⟨hcur, hrun, hlive, hfault, hdone, hmore, hdue⟩ := h
  simp only [State.sizedFirst, State.ownedBy] at he ⊢
  rw [exec_engineMicroStep]
  simp only [execEngineMicroStep, hcur, hrun, hlive, hfault, hdone, Nat.not_lt.2 hmore, Nat.not_lt.2 hdue, he, Option.isSome_none, Bool.not_true,
    decide_false, Bool.or_self, Bool.false_eq_true, if_false, ne_eq, not_false_eq_true, if_true]

section
variable (he : ((s.ownedBy c e).sizedFirst c e r).error = 0)
include he

theorem load (hq : e = .load) (hc : r.c.cmd = 0) :
    exec .engineMicroStep s = .next ((s.ownedBy c e).cldBeat c ((s.ownedBy c e).sizedFirst c e r)) := by
  have hcmd := ((s.ownedBy c e).sizedFirst_cmd c e r).trans hc
  subst hq
  obtain ⟨hcur, hrun, hlive, hfault, hdone, hmore, hdue⟩ := h
  simp only [State.sizedFirst, State.ownedBy] at he hcmd ⊢
  rw [exec_engineMicroStep]
  simp only [execEngineMicroStep, hcur, hrun, hlive, hfault, hdone, Nat.not_lt.2 hmore, Nat.not_lt.2 hdue, he, hcmd, Option.isSome_none,
    Bool.not_true, decide_false, Bool.or_self, Bool.false_eq_true, if_false, ne_eq, not_true_eq_false]

theorem store (hq : e = .store) (hc : r.c.cmd = 1) :
    exec .engineMicroStep s = .next ((s.ownedBy c e).cstBeat c ((s.ownedBy c e).sizedFirst c e r)) := by
  have hcmd := ((s.ownedBy c e).sizedFirst_cmd c e r).trans hc
  subst hq
  obtain ⟨hcur, hrun, hlive, hfault, hdone, hmore, hdue⟩ := h
  simp only [State.sizedFirst, State.ownedBy] at he hcmd ⊢
  rw [exec_engineMicroStep]
  simp only [execEngineMicroStep, hcur, hrun, hlive, hfault, hdone, Nat.not_lt.2 hmore, Nat.not_lt.2 hdue, he, hcmd, Option.isSome_none,
    Bool.not_true, decide_false, Bool.or_self, Bool.false_eq_true, if_false, ne_eq, not_true_eq_false]

theorem matrix (hq : e = .matrix) (hc : r.c.cmd ≤ 1) :
    exec .engineMicroStep s = .next ((s.ownedBy c e).mmaStep c ((s.ownedBy c e).sizedFirst c e r)) := by
  have hcmd := (s.ownedBy c e).sizedFirst_cmd c e r
  subst hq
  obtain ⟨hcur, hrun, hlive, hfault, hdone, hmore, hdue⟩ := h
  simp only [State.sizedFirst, State.ownedBy] at he hcmd ⊢
  obtain hc | hc : r.c.cmd = 0 ∨ r.c.cmd = 1 := by omega
  all_goals
    rw [hc] at hcmd
    rw [exec_engineMicroStep]
    simp only [execEngineMicroStep, hcur, hrun, hlive, hfault, hdone, Nat.not_lt.2 hmore, Nat.not_lt.2 hdue, he, hcmd, Option.isSome_none,
      Bool.not_true, decide_false, Bool.or_self, Bool.false_eq_true, if_false, ne_eq, not_true_eq_false]

theorem row (hq : e = .row) : exec .engineMicroStep s = .next ((s.ownedBy c e).rowStep c ((s.ownedBy c e).sizedFirst c e r)) := by
  subst hq
  obtain ⟨hcur, hrun, hlive, hfault, hdone, hmore, hdue⟩ := h
  simp only [State.sizedFirst, State.ownedBy] at he ⊢
  rw [exec_engineMicroStep]
  simp only [execEngineMicroStep, hcur, hrun, hlive, hfault, hdone, Nat.not_lt.2 hmore, Nat.not_lt.2 hdue, he, Option.isSome_none,
    Bool.not_true, decide_false, Bool.or_self, Bool.false_eq_true, if_false, ne_eq, not_true_eq_false]

end

end State.StepDue

/-! ## The end of a command, and a promise missed (07 R171, R176, R179) -/

/-- A context whose command has ended without an error. -/
def Ctx.commandEnded (x : Ctx) (e : EngQ) (r : Run) : Ctx :=
  let x := { x with eng := x.eng.dropSeq e r.c.seq }
  if r.c.sig = 0 then x else x.setToken r.c.sig (x.token r.c.sig + 1)

theorem State.commandComplete_goes (hcur : s.cur = some (.engineCommandComplete c e)) (hend : s.ending c e = some r) (he : r.error = 0) :
    exec .engineCommandComplete s = .next (((s.modCtx c (fun x => x.commandEnded e r)).promiseDone c).kick c.core) := by
  rw [exec_engineCommandComplete]
  simp only [execEngineCommandComplete, hcur, hend, he, if_true]
  rfl

/-- The engines, the tokens and the promise queue of a context. -/
def Ctx.workAndPromises (x : Ctx) : (Engines × Sp Nat) × ScalarQ := (x.work, x.q14)

theorem State.promises_promiseDone (s : State) (c d : CtxId) :
    ((s.promiseDone c).ctx d).workAndPromises = (s.ctx d).workAndPromises := by
  unfold State.promiseDone
  dsimp only
  split
  · refine State.foldl_keeps (fun t => (t.ctx d).workAndPromises) fun t a => ?_
    rw [State.modStrm, State.putStrm]
    exact State.ctx_modCtx_keeps Ctx.workAndPromises t a d (f := fun x => x.putStrm .c _) fun _ => rfl
  · rfl

theorem State.promises_kick (s : State) (core : Nat) (d : CtxId) : ((s.kick core).ctx d).workAndPromises = (s.ctx d).workAndPromises := by
  refine State.foldl_keeps (fun t => (t.ctx d).workAndPromises) fun t b => ?_
  refine State.foldl_keeps (fun t => (t.ctx d).workAndPromises) fun u e => ?_
  split <;> rfl

theorem Ctx.eng_commandEnded (x : Ctx) (e : EngQ) (r : Run) : (x.commandEnded e r).eng = x.eng.dropSeq e r.c.seq := by
  unfold Ctx.commandEnded
  dsimp only
  split <;> rfl

theorem Ctx.q14_commandEnded (x : Ctx) (e : EngQ) (r : Run) : (x.commandEnded e r).q14 = x.q14 := by
  unfold Ctx.commandEnded
  dsimp only
  split <;> rfl

theorem Ctx.tokens_commandEnded (x : Ctx) (e : EngQ) (h : r.c.sig ≠ 0) :
    (x.commandEnded e r).tokens = Sp.set 0 x.tokens r.c.sig (x.token r.c.sig + 1) := by
  unfold Ctx.commandEnded
  simp only [h, if_false]
  rfl

theorem State.promiseMiss_eq {tag : BitVec 16} {p : Nat} (hcur : s.cur = some (.promiseMiss c tag)) (hl : s.lateOf c tag.toNat .load = some p) :
    exec .promiseMiss s =
      .next (if (s.ctx c).guarded then s else s.raiseAsync c cPROMISE (BitVec.ofNat 64 (tag.toNat * 2 ^ 48 + p))) := by
  rw [exec_promiseMiss]
  simp only [execPromiseMiss, hcur, List.filterMap_cons_some hl, List.head?_cons]

end

/-- Settles O41: a command by what it takes and leaves as it begins, by the beat of its step and by its end. -/
theorem engineEvents : Obligations.EngineEvents := by
  unfold Obligations.EngineEvents
  intro s c e r x
  refine ⟨fun cm rest hcur hmay hq hchk => State.begin_mismatch hcur hmay hq hchk, fun cm rest hcur hmay hq hchk => ?_,
    fun hcur hrun hlive hfault hdone hmore hdue => ?_, fun hcur hend he => ?_, fun hcur hfind htag he hcomp hlate => ?_⟩
  · have hwork := State.work_runStarted (s.commandTaken c e cm rest) c e cm
    rw [show (s.commandTaken c e cm rest).ctx c = x.commandTaken e cm rest from State.ctx_modCtx_self _ _ _] at hwork
    obtain ⟨heng, htok⟩ := Prod.mk.inj hwork
    obtain ⟨hc, hstep, hbegun⟩ := State.firstRun_first (s.commandTaken c e cm rest) c e cm
    refine ⟨_, State.begin_runs hcur hmay hq hchk, ?_, ?_, fun hw => ?_, fun hsw => ?_⟩
    · rw [heng, Engines.queue_putRun, Ctx.eng_commandTaken]
      split
      · rw [Engines.queue_swap, Engines.queue_putQueue]
      · rw [Engines.queue_putQueue]
    · rw [heng, Engines.run_putRun, Option.map_some, hc, hstep, hbegun]
      rfl
    · rw [Ctx.token, htok, Ctx.tokens_commandTaken x e rest hw, Sp.get_set, if_pos rfl]
    · rw [heng, Engines.setOf_putRun, Ctx.eng_commandTaken, if_pos hsw, Engines.setOf_swap, Engines.setOf_putQueue]
  · have hdue' : s.StepDue c e r := ⟨hcur, hrun, hlive, hfault, hdone, hmore, hdue⟩
    exact ⟨hdue'.fails, fun herr => ⟨hdue'.load herr, hdue'.store herr, hdue'.matrix herr, hdue'.row herr⟩⟩
  · have hwork := (State.promises_kick ((s.modCtx c (fun x => x.commandEnded e r)).promiseDone c) c.core c).trans
      ((State.promises_promiseDone _ c c).trans (congrArg Ctx.workAndPromises (State.ctx_modCtx_self s c _)))
    obtain ⟨hew, hq⟩ := Prod.mk.inj hwork
    obtain ⟨heng, htok⟩ := Prod.mk.inj hew
    refine ⟨_, State.commandComplete_goes hcur hend he, ?_, fun hsig => ?_, ?_, ?_⟩
    · rw [heng, Ctx.eng_commandEnded]
    · rw [Ctx.token, htok, Ctx.tokens_commandEnded x e hsig, Sp.get_set, if_pos rfl]
    · rw [hq, Ctx.q14_commandEnded]
    · rw [State.kick_mem, State.promiseDone_mem]
      rfl
  · have htag' : (BitVec.ofNat 16 r.c.tag).toNat = r.c.tag := (BitVec.toNat_ofNat _ _).trans (Nat.mod_eq_of_lt htag)
    have hl : s.lateOf c (BitVec.ofNat 16 r.c.tag).toNat .load = some r.promise := by
      rw [htag']
      simp only [State.lateOf, x] at hfind ⊢
      simp only [hfind, he, hcomp, hlate, beq_self_eq_true, Bool.not_false, Bool.true_and, decide_true, if_true]
    rw [State.promiseMiss_eq hcur hl, htag']
    refine ⟨fun hg => ?_, fun hg => ?_⟩
    · rw [show (s.ctx c).guarded = false from hg]
      rfl
    · rw [show (s.ctx c).guarded = true from hg]
      rfl

end Sys2Proof.Machine

namespace Sys2Proof.Machine

/-! ## An entry written twice -/

theorem Sp.erase_of_absent {α : Type} {m : Sp α} {j : Nat} (h : ∀ e ∈ m, e.1 ≠ j) : Sp.erase m j = m := by
  induction m with
  | nil => rfl
  | cons e m ih =>
    obtain ⟨he, hm⟩ := List.forall_mem_cons.1 h
    rw [Sp.erase, if_neg he, ih hm]

theorem Sp.erase_insert {α : Type} {m : Sp α} {j : Nat} (x : α) (h : ∀ e ∈ m, e.1 ≠ j) : Sp.erase (Sp.insert j x m) j = m := by
  induction m with
  | nil => simp [Sp.insert, Sp.erase]
  | cons e m ih =>
    obtain ⟨he, hm⟩ := List.forall_mem_cons.1 h
    rw [Sp.insert]
    split
    · rw [Sp.erase, if_pos rfl, Sp.erase_of_absent h]
    · rw [Sp.erase, if_neg he, ih hm]

/-- The second of two writes of one entry stands. -/
theorem Sp.put_put {α : Type} (m : Sp α) (j : Nat) (x y : α) : Sp.put (Sp.put m j x) j y = Sp.put m j y := by
  rw [Sp.put, Sp.put, Sp.put, Sp.erase_insert x (Sp.erase_keys m j)]

/-- A station's change twice is one change. -/
theorem State.modSta_modSta (s : State) (n : Nat) (f g : Station → Station) : (s.modSta n f).modSta n g = s.modSta n (fun t => g (f t)) := by
  have hread : (s.modSta n f).sta n = f (s.sta n) := State.sta_modSta_self s n f
  have hput : Sp.put (Sp.put s.stations n (f (s.sta n))) n (g (f (s.sta n))) = Sp.put s.stations n (g (f (s.sta n))) := Sp.put_put _ _ _ _
  rw [State.modSta, hread]
  exact congrArg (fun m => ({ s with stations := m } : State)) hput

theorem State.modHop_congr {s : State} {h : HopId} {f g : Hop → Hop} (e : f (s.hop h) = g (s.hop h)) : s.modHop h f = s.modHop h g := by
  have hsta : (s.sta h.sta).putHop h (f ((s.sta h.sta).hop h)) = (s.sta h.sta).putHop h (g ((s.sta h.sta).hop h)) :=
    congrArg (fun x => (s.sta h.sta).putHop h x) e
  rw [State.modHop, State.modHop, State.modSta, State.modSta, hsta]

/-! ## A slot leaves its station (01 R14, R17, R27) -/

section
variable {s : State} {h : HopId} {slot : Slot}

/-- A slot that is next to leave, and its way from the station that it has left. -/
structure State.NextOut (s : State) (sta due : Nat) (slot : Slot) (ccw : Bool) : Prop where
  cur : s.cur = some (.slotInject sta)
  next : nextOut s.clk (s.sta sta).outq [] = some (due, slot)
  fresh : slot.rfs = false
  way : (s.modSta sta (fun t => { t with outq := t.outq.erase (due, slot) })).wayOf sta none false slot = .loc ccw
  up : ((s.modSta sta (fun t => { t with outq := t.outq.erase (due, slot) })).hop ⟨sta, false, ccw⟩).down = false

theorem State.NextOut.retried {sta due : Nat} {ccw : Bool} (hn : s.NextOut sta due slot ccw)
    (hf : (s.modSta sta (fun t => { t with outq := t.outq.erase (due, slot) })).freeTrack (sta / 16) (sta % 16) ccw
      ((s.modSta sta (fun t => { t with outq := t.outq.erase (due, slot) })).hopsLeft sta ccw slot) s.clk = none) :
    exec .slotInject s = .next ((s.modSta sta (fun t => { t with outq := t.outq.erase (due, slot) })).retryInject sta slot) := by
  obtain ⟨hcur, hnext, hrfs, hway, hup⟩ := hn
  rw [exec_slotInject]
  simp only [execSlotInject, hcur, hnext, hrfs, Bool.false_and, hway, hup, Bool.false_eq_true, if_false]
  rw [State.modSta_clk, hf]

theorem State.NextOut.leaves {sta due trk : Nat} {ccw : Bool} (hn : s.NextOut sta due slot ccw)
    (hf : (s.modSta sta (fun t => { t with outq := t.outq.erase (due, slot) })).freeTrack (sta / 16) (sta % 16) ccw
      ((s.modSta sta (fun t => { t with outq := t.outq.erase (due, slot) })).hopsLeft sta ccw slot) s.clk = some trk) :
    exec .slotInject s = .next (((s.modSta sta (fun t => { t with outq := t.outq.erase (due, slot) })).modMod (sta / 16) (fun m =>
      { m with ring := (ccw, trk, cellAt ccw (sta % 16) s.clk) :: m.ring })).localSend sta ccw { slot with trk := trk }) := by
  obtain ⟨hcur, hnext, hrfs, hway, hup⟩ := hn
  rw [exec_slotInject]
  simp only [execSlotInject, hcur, hnext, hrfs, Bool.false_and, hway, hup, Bool.false_eq_true, if_false]
  rw [State.modSta_clk, hf]

/-! ## A slot arrives over a hop (01 R29, R30; 02 R48) -/

theorem State.hopArrival_passing {intact : Bool} (hcur : s.cur = some (.slotHopArrival h slot intact)) (hk : passingKind slot = true) :
    exec .slotHopArrival s = .next (if intact then s else s.poisonPassing h slot) := by
  rw [exec_slotHopArrival]
  simp only [execSlotHopArrival, hcur, hk, if_true]

/-- Whether a slot rides on a track of the local ring. -/
def rides (h : HopId) (slot : Slot) : Bool := !h.trunk && slot.trk != offTrack

theorem State.hopArrival_dead {intact : Bool} (hcur : s.cur = some (.slotHopArrival h slot intact)) (hk : passingKind slot = false)
    (hd : (s.hop h).dead.contains slot.seq = true) : exec .slotHopArrival s =
      .next (if rides h slot then (s.modHop h (fun x => { x with dead := x.dead.erase slot.seq })).leaveRing (s.hopEnd h) h.ccw slot
        else s.modHop h (fun x => { x with dead := x.dead.erase slot.seq })) := by
  rw [exec_slotHopArrival]
  simp only [execSlotHopArrival, hcur, hk, hd, Bool.false_eq_true, if_true, if_false]
  rfl

section
variable {intact : Bool} (hcur : s.cur = some (.slotHopArrival h slot intact)) (hk : passingKind slot = false)
  (hd : (s.hop h).dead.contains slot.seq = false)
include hcur hk hd

theorem State.hopArrival_damaged (hi : intact = false) : exec .slotHopArrival s =
    .next ({ (if h.trunk then s else s.leaveRing (s.hopEnd h) h.ccw slot) with
      fresh := (if h.trunk then s else s.leaveRing (s.hopEnd h) h.ccw slot).fresh + 1 }.post
        ((if h.trunk then s else s.leaveRing (s.hopEnd h) h.ccw slot).clk + 1 +
          Config.freeDelay (if h.trunk then s else s.leaveRing (s.hopEnd h) h.ccw slot).fresh) (.hopRetransmit h slot.seq)) := by
  rw [exec_slotHopArrival]
  simp only [execSlotHopArrival, hcur, hk, hd, hi, Bool.not_false, Bool.false_eq_true, if_true, if_false]
  rfl

theorem State.hopArrival_goes (hi : intact = true) (hb : s.behindFlow h slot = false) :
    exec .slotHopArrival s = .next (s.passOn h slot (rides h slot)) := by
  rw [exec_slotHopArrival]
  simp only [execSlotHopArrival, hcur, hk, hd, hi, hb, Bool.not_true, Bool.false_eq_true, if_false]
  rfl

theorem State.hopArrival_behind (hi : intact = true) (hb : s.behindFlow h slot = true) : exec .slotHopArrival s =
    .next ((if rides h slot then s.leaveRing (s.hopEnd h) h.ccw slot else s).post (s.clk + 1)
      (.slotHopArrival h { slot with trk := offTrack } true)) := by
  rw [exec_slotHopArrival]
  simp only [execSlotHopArrival, hcur, hk, hd, hi, hb, Bool.not_true, Bool.false_eq_true, if_true, if_false]
  rfl

end

/-- Leaving the ring touches neither memory nor hops nor the agenda. -/
theorem State.leaveRing_keeps (s : State) (sta : Nat) (ccw : Bool) (slot : Slot) (h : HopId) :
    (s.leaveRing sta ccw slot).mem = s.mem ∧ (s.leaveRing sta ccw slot).hop h = s.hop h ∧ (s.leaveRing sta ccw slot).agenda = s.agenda :=
  ⟨rfl, rfl, rfl⟩

/-! ## Acknowledgement, retry and exhaustion (01 R29, R37; 02 R42, R48) -/

section
variable {seq : BitVec 16}

theorem State.hopAcknowledge_eq (hcur : s.cur = some (.hopAcknowledge h seq)) (hf : (s.hop h).kept.find? (fun t => t.seq == seq) = some slot) :
    exec .hopAcknowledge s = .next (if h.trunk && countedKind slot.kind.toNat then
      (s.modHop h (fun x => { x with kept := x.kept.erase slot })).countCon h.sta slot.job
      else s.modHop h (fun x => { x with kept := x.kept.erase slot })) := by
  rw [exec_hopAcknowledge]
  simp only [execHopAcknowledge, hcur, hf]

section
variable (hcur : s.cur = some (.hopRetransmit h seq)) (hf : (s.hop h).kept.find? (fun t => t.seq == seq) = some slot)
  (hd : (s.hop h).down = false)
include hcur hf hd

theorem State.hopRetransmit_first (ht : (s.hop h).tries = 0) : exec .hopRetransmit s =
    .next ((s.modHop h (fun x => { x with tries := 1, since := s.clk })).sendAgain h slot) := by
  rw [exec_hopRetransmit]
  simp only [execHopRetransmit, hcur, hf, hd, ht, bne_self_eq_false, Bool.false_and, Bool.false_eq_true, if_false]
  rfl

theorem State.hopRetransmit_exhausts (ht : (s.hop h).tries = 8) (hc : s.clk ≤ (s.hop h).since + 2100) :
    exec .hopRetransmit s = .next (s.postNow (.retryExhausted h)) := by
  rw [exec_hopRetransmit]
  simp only [execHopRetransmit, hcur, hf, hd, ht, hc, decide_true, Bool.and_true, Bool.false_eq_true, if_false]
  rfl

end

theorem State.retryExhausted_local (hcur : s.cur = some (.retryExhausted h)) (ht : h.trunk = false) :
    exec .retryExhausted s = .next (((s.abandon h).countErr (h.sta / 16) 0 4).linkTest h) := by
  rw [exec_retryExhausted]
  simp only [execRetryExhausted, hcur, ht, Bool.false_eq_true, if_false]

/-- A local hop without mail runs again with nothing to send. -/
theorem State.hopRetrained_empty (hcur : s.cur = some (.hopRetrained h)) (ht : h.trunk = false) (hk : (s.hop h).kept = []) :
    exec .hopRetrained s = .next (s.modHop h (fun x => { x with down := false, kept := [] })) := by
  have hsame : s.modHop h (fun x => { x with down := false, kept := x.kept.filter (fun t => !([] : List Slot).contains t) }) =
      s.modHop h (fun x => { x with down := false, kept := [] }) :=
    State.modHop_congr (by simp only [hk, List.filter_nil])
  rw [exec_hopRetrained]
  simp only [execHopRetrained, hcur, ht, hk, List.filter_nil, List.map_nil, List.foldl_nil, List.nil_append, Bool.false_and, Bool.false_eq_true,
    if_false]
  rw [hsame, State.modHop, State.modSta_modSta]

end

/-! ## Returned slots (01 R28) -/

section
variable {core : Nat} (hcur : s.cur = some (.returnedSlotReinject core))
include hcur

theorem State.returned_waits (hc : s.clk < (s.core core).returnClk + 64) : exec .returnedSlotReinject s = .next s := by
  rw [exec_returnedSlotReinject]
  simp only [execReturnedSlotReinject, hcur, hc, if_true]

theorem State.returned_goes (hr : (s.core core).returned = [slot]) (hc : (s.core core).returnClk + 64 ≤ s.clk) :
    exec .returnedSlotReinject s = .next (((s.modCore core (fun k => { k with returned := [] })).modSta (stationOf core)
      (fun t => { t with outq := (s.clk + 4, slot) :: t.outq })).post (s.clk + 4) (.slotInject (stationOf core))) := by
  rw [exec_returnedSlotReinject]
  simp only [execReturnedSlotReinject, hcur, hr, Nat.not_lt.2 hc, if_false, List.foldl_cons, List.foldl_nil, List.map_cons, List.map_nil]
  rfl

end

end

/-- Settles O42: each event of a hop by its branch. -/
theorem hopEvents : Obligations.HopEvents := by
  unfold Obligations.HopEvents
  intro s h slot
  refine ⟨fun due ccw hcur hnext hrfs => ?_, fun intact => State.hopArrival_passing, fun intact hcur hk hd => ⟨State.hopArrival_goes hcur hk hd,
    fun hi hb => ?_, State.hopArrival_damaged hcur hk hd⟩, fun intact hcur hk hd => State.hopArrival_dead hcur hk hd, fun seq hcur hf => ?_,
    fun seq hcur hf hd => ⟨State.hopRetransmit_first hcur hf hd, State.hopRetransmit_exhausts hcur hf hd⟩, State.retryExhausted_local,
    State.hopRetrained_empty, fun core hcur hr => ⟨State.returned_waits hcur, State.returned_goes hcur hr⟩⟩
  · intro t hway hup
    have hn : s.NextOut h.sta due slot ccw := ⟨hcur, hnext, hrfs, hway, hup⟩
    exact ⟨hn.retried, fun trk => hn.leaves⟩
  · refine ⟨_, State.hopArrival_behind hcur hk hd hi hb, ?_⟩
    split <;> exact ⟨rfl, rfl, rfl⟩
  · have heq := State.hopAcknowledge_eq hcur hf
    refine ⟨fun ht => ?_, fun ht hc => ?_⟩
    · rw [heq, ht]
      rfl
    · rw [heq, ht, hc]
      rfl

end Sys2Proof.Machine

namespace Sys2Proof.Machine

/-! ## What leaves the trunk links as they are -/

/-- The two links of a waystation. -/
def Station.links (t : Station) : LinkSt × LinkSt := (t.linkCw, t.linkCcw)

/-- The links of every station, and the modules of the pod. -/
def State.linkView (s : State) : (Nat → LinkSt × LinkSt) × List Nat := (fun n => Station.links (s.sta n), s.pod.mods)

theorem State.sta_modSta_keeps {β : Type} (part : Station → β) (s : State) (j n : Nat) {f : Station → Station} (h : ∀ t, part (f t) = part t) :
    part ((s.modSta j f).sta n) = part (s.sta n) := by
  by_cases hk : n = j
  · subst hk
    rw [State.sta_modSta_self, h]
  · exact congrArg part (Sp.get_put_ne _ _ _ hk)

theorem State.linkView_modSta (s : State) (j : Nat) {f : Station → Station} (h : ∀ t, Station.links (f t) = Station.links t) :
    (s.modSta j f).linkView = s.linkView :=
  Prod.ext (funext fun n => State.sta_modSta_keeps Station.links s j n h) rfl

theorem Station.links_putHop (t : Station) (h : HopId) (x : Hop) : Station.links (Station.putHop t h x) = Station.links t := by
  unfold Station.putHop
  split <;> rfl

section
variable (s : State) (sta : Nat) (slot : Slot) (h : HopId)

theorem State.linkView_modHop (f : Hop → Hop) : (s.modHop h f).linkView = s.linkView :=
  s.linkView_modSta h.sta fun t => Station.links_putHop t h _

theorem State.linkView_logLoss (cause : Nat) : (s.logLoss sta slot cause).linkView = s.linkView := by
  refine s.linkView_modSta sta fun t => ?_
  dsimp only
  split <;> rfl

theorem State.linkView_enqueue (due : Nat) : (s.enqueue sta slot due).linkView = s.linkView :=
  (s.linkView_modSta sta (f := fun t => { t with outq := t.outq ++ [(due + 4, slot)] }) fun _ => rfl).trans rfl

theorem State.linkView_countLos (job : BitVec 12) : (s.countLos sta job).linkView = s.linkView := s.linkView_modSta sta fun _ => rfl

theorem State.linkView_lose (cause : Nat) : (s.lose sta slot cause).linkView = s.linkView := by
  unfold State.lose
  dsimp only
  split
  · exact (State.linkView_enqueue _ sta _ _).trans ((State.linkView_countLos _ sta _).trans (s.linkView_logLoss sta slot cause))
  · exact s.linkView_logLoss sta slot cause

theorem State.linkView_abandon : (s.abandon h).linkView = s.linkView := by
  unfold State.abandon
  dsimp only
  exact (State.foldl_keeps State.linkView fun t a => t.linkView_lose h.sta a 1).trans (s.linkView_modHop h _)

theorem State.linkView_hopLost : (s.hopLost h).linkView = s.linkView := by
  unfold State.hopLost
  dsimp only
  refine (State.foldl_keeps State.linkView fun t a => t.linkView_logLoss h.sta a 1).trans ?_
  exact (State.linkView_modHop _ h _).trans (s.linkView_abandon h)

theorem State.linkView_alignCyc : s.alignCyc.linkView = s.linkView := State.foldl_keeps State.linkView fun _ _ => rfl

theorem State.linkView_chooseRing : s.chooseRing.linkView = s.linkView := by
  unfold State.chooseRing
  split
  · rfl
  · refine (State.foldl_keeps State.linkView ?_).trans rfl
    exact fun _ _ => rfl

theorem State.linkView_startWaves : s.startWaves.linkView = s.linkView := by
  unfold State.startWaves
  refine (State.foldl_keeps State.linkView ?_).trans rfl
  exact fun _ _ => rfl

theorem State.linkView_signEdition (die : Nat) (hs : List HistEntry) : (s.signEdition die hs).linkView = s.linkView := by
  unfold State.signEdition
  split <;> rfl

theorem State.linkView_setLinkPath (ccw : Bool) : (s.setLinkPath sta ccw).1.linkView = s.linkView := by
  unfold State.setLinkPath
  dsimp only
  split
  · rfl
  · split <;> rfl

end

/-! ## Bring-up of the links (01 R31) -/

section
variable {links : List LinkReport}

/-- A waystation's links brought up, and its die's survey of them. -/
def State.trainLinks (links : List LinkReport) (t : State) (sta : Nat) : State :=
  let t := (t.modLink sta false (fun _ => linkOf links sta false)).modLink sta true (fun _ => linkOf links sta true)
  let (t, h1) := t.setLinkPath sta false
  let (t, h2) := t.setLinkPath sta true
  t.signEdition (dieAt sta) (h1 ++ h2)

/-- The links of a station as a bring-up leaves them. -/
def State.Trained (links : List LinkReport) (n : Nat) (t : State) : Prop :=
  Station.links (t.sta n) = (linkOf links n false, linkOf links n true)

theorem State.linkView_trainLinks (t : State) (sta : Nat) : (t.trainLinks links sta).linkView =
    ((t.modLink sta false (fun _ => linkOf links sta false)).modLink sta true (fun _ => linkOf links sta true)).linkView := by
  unfold State.trainLinks
  dsimp only
  refine (State.linkView_signEdition _ _ _).trans ?_
  exact (State.linkView_setLinkPath _ sta true).trans (State.linkView_setLinkPath _ sta false)

theorem State.trained_trainLinks (t : State) (sta : Nat) : State.Trained links sta (t.trainLinks links sta) := by
  have hview := congrFun (congrArg Prod.fst (t.linkView_trainLinks (links := links) sta)) sta
  refine Eq.trans hview ?_
  simp only [State.linkView, State.modLink, State.sta_modSta_self]
  rfl

theorem State.Trained.trainLinks {t : State} {n : Nat} (h : State.Trained links n t) (sta : Nat) :
    State.Trained links n (t.trainLinks links sta) := by
  by_cases hn : n = sta
  · subst hn
    exact t.trained_trainLinks n
  · refine Eq.trans (congrFun (congrArg Prod.fst (t.linkView_trainLinks (links := links) sta)) n) (Eq.trans ?_ h)
    have hone : ∀ (u : State) ccw f, (u.modLink sta ccw f).sta n = u.sta n := fun u ccw f => Sp.get_put_ne _ _ _ hn
    simp only [State.linkView, hone]

/-- A fold of which one step brings about what each step keeps. -/
theorem foldl_establishes {α β : Type} {P : β → Prop} {f : β → α → β} {l : List α} {a : α} (ha : a ∈ l) (hkeep : ∀ b x, P b → P (f b x))
    (hdo : ∀ b, P (f b a)) (b : β) : P (l.foldl f b) := by
  induction l generalizing b with
  | nil => cases ha
  | cons x l ih =>
    rw [List.foldl_cons]
    obtain rfl | ha := List.mem_cons.1 ha
    · exact List.foldlRecOn l f (hdo b) fun b hb x _ => hkeep b x hb
    · exact ih ha _

/-- The links of all modules brought up. -/
def State.trainAll (links : List LinkReport) (s : State) : State :=
  s.pod.mods.foldl (fun t m => [0, 1, 2, 3].foldl (fun t k => t.trainLinks links (16 * m + 8 + k)) t) s

theorem State.trained_trainAll {s : State} {m k : Nat} (hm : m ∈ s.pod.mods) (hk : k ∈ [0, 1, 2, 3]) :
    State.Trained links (16 * m + 8 + k) (s.trainAll links) := by
  refine foldl_establishes hm (fun t n ht => ?_) (fun t => ?_) s
  · exact List.foldlRecOn [0, 1, 2, 3] _ ht fun t ht j _ => ht.trainLinks (16 * n + 8 + j)
  · exact foldl_establishes hk (fun t j ht => ht.trainLinks (16 * m + 8 + j)) (fun t => t.trained_trainLinks (16 * m + 8 + k)) t

/-- The state with the modules of a bring-up, where it names any. -/
def State.withMods (s : State) (mods : List Nat) : State :=
  if sortMods mods = [] then s else { s with pod := { s.pod with mods := sortMods mods } }

theorem State.linkBringUp_goes {s : State} {mods : List Nat} (hcur : s.cur = some (.linkBringUp mods links)) :
    ∃ t, exec .linkBringUp s = .next t ∧ t.linkView = ((s.withMods mods).trainAll links).linkView := by
  rw [exec_linkBringUp]
  unfold execLinkBringUp
  split
  next m sent v h => cases hcur.symm.trans h
  next mods' links' h =>
    cases hcur.symm.trans h
    refine ⟨_, rfl, ?_⟩
    refine (State.foldl_keeps State.linkView fun t m => ?_).trans ?_
    · split
      · refine (State.foldl_keeps State.linkView ?_).trans rfl
        exact fun _ _ => rfl
      · rfl
    · rw [State.linkView_startWaves, State.linkView_chooseRing, State.linkView_alignCyc]
      refine (State.foldl_keeps State.linkView fun t h => t.linkView_hopLost h).trans ?_
      refine (State.foldl_keeps State.linkView ?_).trans rfl
      exact fun _ _ => rfl
  next h => exact absurd hcur (h _ _)

end

/-- A step that keeps every property of memory keeps memory. -/
theorem mem_of_memNext {o : Host.Outcome State Fault Refusal} {s t : State} (ho : o = .next t) (h : MemNext (fun m => m = s.mem) o) :
    t.mem = s.mem := by
  subst ho
  exact h

theorem State.link_of_links (s : State) (m k : Nat) (ccw : Bool) :
    s.link m k ccw = if ccw then (Station.links (s.sta (16 * m + 8 + k))).2 else (Station.links (s.sta (16 * m + 8 + k))).1 := rfl

theorem State.Trained.link {links : List LinkReport} {s : State} {m k : Nat} (h : State.Trained links (16 * m + 8 + k) s) (ccw : Bool) :
    s.link m k ccw = linkOf links (16 * m + 8 + k) ccw := by
  rw [State.link_of_links, show Station.links (s.sta (16 * m + 8 + k)) = _ from h]
  cases ccw <;> rfl

/-- The links of a bring-up, as its reports have them. -/
theorem State.linkBringUp_links {s : State} {mods : List Nat} {links : List LinkReport} (hcur : s.cur = some (.linkBringUp mods links))
    (hne : mods ≠ []) (hlt : ∀ m ∈ mods, m < 32) : ∃ t, exec .linkBringUp s = .next t ∧ t.pod.mods = sortMods mods ∧ t.mem = s.mem ∧
      ∀ m ∈ mods, ∀ k, k < 4 → ∀ ccw, t.link m k ccw = linkOf links (16 * m + 8 + k) ccw := by
  obtain ⟨t, hexec, hview⟩ := State.linkBringUp_goes hcur
  have hmem : ∀ m ∈ mods, m ∈ sortMods mods := fun m hm =>
    List.mem_filter.2 ⟨List.mem_range.2 (hlt m hm), List.contains_iff_mem.2 hm⟩
  have hsort : sortMods mods ≠ [] := by
    obtain ⟨m, hm⟩ := List.exists_mem_of_ne_nil _ hne
    exact List.ne_nil_of_mem (hmem m hm)
  have hmods : (s.withMods mods).pod.mods = sortMods mods := by
    rw [State.withMods, if_neg hsort]
  have hall : ((s.withMods mods).trainAll links).pod.mods = sortMods mods := by
    refine Eq.trans (State.foldl_keeps (fun t => t.pod.mods) fun t m => State.foldl_keeps (fun t => t.pod.mods) fun t k => ?_) hmods
    exact congrArg Prod.snd (t.linkView_trainLinks (links := links) (16 * m + 8 + k))
  refine ⟨t, hexec, (congrArg Prod.snd hview).trans hall, mem_of_memNext hexec (execLinkBringUp_memNext s rfl), fun m hm k hk ccw => ?_⟩
  have htrained : State.Trained links (16 * m + 8 + k) t := by
    have hk4 : k ∈ [0, 1, 2, 3] := by
      simp only [List.mem_cons, List.not_mem_nil, or_false]
      omega
    exact (congrFun (congrArg Prod.fst hview) _).trans (State.trained_trainAll (hmods ▸ hmem m hm) hk4)
  exact htrained.link ccw

/-! ## Groups, lanes and lock (01 R19, R32, R34) -/

section
variable {s : State} {sta : Nat} {ccw : Bool} {seq : BitVec 16} {intact : Bool}

theorem State.groupArrival_fails (hcur : s.cur = some (.trunkGroupArrival sta ccw seq intact)) (hi : intact = false) :
    exec .trunkGroupArrival s = .next (s.groupFails sta ccw) := by
  rw [exec_trunkGroupArrival]
  simp only [execTrunkGroupArrival, hcur, hi, Bool.not_false, if_true]

theorem State.groupArrival_unlocked (hcur : s.cur = some (.trunkGroupArrival sta ccw seq intact)) (hi : intact = true)
    (hu : (s.link (sta / 16) (sta % 16 - 8) ccw).unlock = true) : exec .trunkGroupArrival s = .next s := by
  rw [exec_trunkGroupArrival]
  simp only [execTrunkGroupArrival, hcur, hi, hu, Bool.not_true, Bool.false_eq_true, if_true, if_false]

/-- Whether a difference counts against its link, and the count with it. -/
def badAfter (d : Int) (bad : Nat) : Nat := if d < -2 ∨ 2 < d then bad + 1 else 0

theorem State.groupArrival_goes (hcur : s.cur = some (.trunkGroupArrival sta ccw seq intact)) (hi : intact = true)
    (hu : (s.link (sta / 16) (sta % 16 - 8) ccw).unlock = false) : exec .trunkGroupArrival s =
      .next (if badAfter (s.groupDiff sta ccw seq) (s.link (sta / 16) (sta % 16 - 8) ccw).bad = 64 then
        (s.modLink sta ccw (fun l => { l with diff := s.groupDiff sta ccw seq
                                              bad := badAfter (s.groupDiff sta ccw seq) (s.link (sta / 16) (sta % 16 - 8) ccw).bad })).postNow
          (.linkOutOfLock sta ccw)
        else s.modLink sta ccw (fun l => { l with diff := s.groupDiff sta ccw seq
                                                  bad := badAfter (s.groupDiff sta ccw seq) (s.link (sta / 16) (sta % 16 - 8) ccw).bad })) := by
  rw [exec_trunkGroupArrival]
  simp only [execTrunkGroupArrival, hcur, hi, hu, Bool.not_true, Bool.false_eq_true, if_false]
  rfl

/-- The number of a group, from its low 16 bits, is the one nearest to what the station expects. -/
theorem nearest_group {g lat now : Int} (h : 5 * g + lat - now ≤ 163830) (h' : -163840 ≤ 5 * g + lat - now) :
    5 * ((now - lat) / 5 + ((g % 65536 - (now - lat) / 5 + 32768) % 65536 - 32768)) + lat - now = 5 * g + lat - now := by
  omega

theorem State.groupDiff_eq {g : Nat} (hseq : seq = BitVec.ofNat 16 g)
    (h : 5 * (g : Int) + (s.link (sta / 16) (sta % 16 - 8) ccw).lat - (s.staCyc sta).toNat ≤ 163830)
    (h' : -163840 ≤ 5 * (g : Int) + (s.link (sta / 16) (sta % 16 - 8) ccw).lat - (s.staCyc sta).toNat) :
    s.groupDiff sta ccw seq = 5 * (g : Int) + (s.link (sta / 16) (sta % 16 - 8) ccw).lat - (s.staCyc sta).toNat := by
  have hnum : ((seq.toNat : Nat) : Int) = (g : Int) % 65536 := by
    rw [hseq, BitVec.toNat_ofNat]
    rfl
  simp only [State.groupDiff, hnum]
  exact nearest_group h h'

/-- The link of a waystation after its change. -/
theorem State.link_modLink (f : LinkSt → LinkSt) (h8 : 8 ≤ sta % 16) (h12 : sta % 16 < 12) :
    (s.modLink sta ccw f).link (sta / 16) (sta % 16 - 8) ccw = f (s.link (sta / 16) (sta % 16 - 8) ccw) := by
  have hsta : 16 * (sta / 16) + 8 + (sta % 16 - 8) = sta := by omega
  rw [State.link, State.link, hsta, State.modLink, State.sta_modSta_self]
  cases ccw <;> rfl

theorem State.link_postNow (s : State) (e : Event) (m k : Nat) (ccw : Bool) : (s.postNow e).link m k ccw = s.link m k ccw := rfl

end

/-! ## A module declared lost (01 R37; 02 R57) -/

section
variable (s : State)

theorem State.modules_sendCounted (core : Nat) (slot : Slot) (due : Nat) : (s.sendCounted core slot due).modules = s.modules := by
  have hcount : ∀ job, (s.countSent core job).modules = s.modules := by
    intro job
    unfold State.countSent
    split <;> rfl
  unfold State.sendCounted State.egress
  split
  · rfl
  · split
    · exact hcount _
    · exact hcount _

theorem State.modules_failOver (core lost mirror : Nat) : (s.failOver core lost mirror).modules = s.modules := by
  unfold State.failOver
  dsimp only
  split
  · rfl
  · exact State.foldl_keeps State.modules fun t r => State.modules_sendCounted _ _ _ _

theorem State.modules_failOverAll (mod lost : Nat) : (s.failOverAll mod lost).modules = s.modules := by
  unfold State.failOverAll
  dsimp only
  split
  · exact State.foldl_keeps State.modules fun t k => t.modules_failOver _ _ _
  · rfl

theorem State.modules_forgive (mod : Nat) (hit : Dest → Bool) : (s.forgive mod hit).modules = s.modules := by
  refine State.foldl_keeps State.modules fun t core => State.foldl_keeps State.modules fun u o => ?_
  dsimp only
  split <;> rfl

/-- A module that another declares lost reads as lost there. -/
theorem State.lost_declareLost (mod n : Nat) : (Sp.get 0 ((s.declareLost mod n).modu mod).mirent n).getLsbD 14 = true := by
  have hmods : (s.declareLost mod n).modules = (s.modMod mod (fun m =>
      { m with mirent := Sp.set 0 m.mirent n (Sp.get 0 (s.modu mod).mirent n ||| 0x4000), notes := .moduleLost n :: m.notes })).modules :=
    (State.modules_forgive _ _ _).trans (State.modules_failOverAll _ _ _)
  rw [State.modu, hmods]
  refine (congrArg (fun m : ModuleSt => (Sp.get 0 m.mirent n).getLsbD 14) (State.modu_modMod_self s mod _)).trans ?_
  dsimp only
  rw [Sp.get_set, if_pos rfl, BitVec.getLsbD_or]
  exact Bool.or_true _

end

/-- Settles O43: a group by its difference, a bring-up by what it trains, a reset notice by the module that it has declared lost. -/
theorem trunkEvents : Obligations.TrunkEvents := by
  unfold Obligations.TrunkEvents
  intro s sta ccw l
  refine ⟨fun seq intact hcur => ⟨State.groupArrival_fails hcur, State.groupArrival_unlocked hcur, fun g hi hu h8 h12 hseq => ?_⟩, fun hcur => ?_,
    fun failed hcur => ?_, fun mods links hcur hne hlt => ?_, fun slot hcur hn => ?_⟩
  · intro d hd hd'
    have hdiff := State.groupDiff_eq hseq hd hd'
    refine ⟨hdiff, _, State.groupArrival_goes hcur hi hu, ?_, fun hbad h63 => ?_⟩
    · rw [hdiff]
      split
      · exact (State.link_postNow _ _ _ _ _).trans (State.link_modLink _ h8 h12)
      · exact State.link_modLink _ h8 h12
    · have h64 : badAfter (s.groupDiff sta ccw seq) (s.link (sta / 16) (sta % 16 - 8) ccw).bad = 64 := by
        rw [hdiff, badAfter, if_pos hbad, h63]
      rw [if_pos h64]
      exact State.mem_agenda_post _ _ _
  · rw [exec_linkOutOfLock]
    simp only [execLinkOutOfLock, hcur]
  · rw [exec_laneFailure]
    simp only [execLaneFailure, hcur]
  · obtain ⟨t, hexec, hmods, hmem, hlinks⟩ := State.linkBringUp_links hcur hne hlt
    refine ⟨t, hexec, hmods, hmem, fun m hm k hk side r hr => ?_⟩
    rw [hlinks m hm k hk side]
    simp only [linkOf, hr]
    exact ⟨trivial, trivial, trivial⟩
  · rw [exec_resetNoticeArrival]
    simp only [execResetNoticeArrival, hcur, if_neg hn]
    refine ⟨_, rfl, ?_, State.lost_declareLost _ _ _⟩
    rw [State.declareLost_mem, State.forgive_mem]

end Sys2Proof.Machine

namespace Sys2Proof.Machine

/-! Combining entries leave their core, and posted writes, credits, notices, acceptances and timetabled slots arrive (08 R205, R212 to R214). -/

section
variable {s : State} {core id : Nat} {slot : Slot}

/-! ## Entries sent -/

/-- The ids of the entries that go with the first that `p` names, and with every one opened before it. -/
def State.goingIds (s : State) (core : Nat) (p : CombEntry → Bool) : List Nat :=
  let es := (s.core core).comb
  let last := (es.zipIdx.filter (fun q => q.1.isOpen && p q.1)).foldl (fun m q => Nat.max m (q.2 + 1)) 0
  (es.zipIdx.filter (fun q => q.1.isOpen && decide (q.2 < last))).map (fun q => q.1.id)

theorem State.sendEntries_eq (p : CombEntry → Bool) :
    s.sendEntries core p = (s.goingIds core p).foldl (fun t i => t.post (t.clk + 3) (.combiningEntryInject core i)) (s.modCore core (fun k =>
      { k with comb := k.comb.map (fun e => if (s.goingIds core p).contains e.id then { e with sent := some s.clk } else e) })) := rfl

theorem foldl_max_ge {α : Type} {g : α → Nat} {l : List α} {a : α} (ha : a ∈ l) (b : Nat) : g a ≤ l.foldl (fun m q => Nat.max m (g q)) b :=
  foldl_establishes (P := fun m => g a ≤ m) ha (fun m q h => Nat.le_trans h (Nat.le_max_left m (g q))) (fun m => Nat.le_max_right m (g a)) b

theorem State.mem_goingIds {p : CombEntry → Bool} {e : CombEntry} (he : e ∈ (s.core core).comb) (ho : e.sent = none) (hp : p e = true) :
    e.id ∈ s.goingIds core p := by
  obtain ⟨n, hlt, rfl⟩ := List.mem_iff_getElem.1 he
  have hn : ((s.core core).comb[n], n) ∈ (s.core core).comb.zipIdx := List.mem_zipIdx_iff_getElem?.2 (List.getElem?_eq_getElem hlt)
  have hopen : (s.core core).comb[n].isOpen = true := by rw [CombEntry.isOpen, ho]; rfl
  refine List.mem_map.2 ⟨(_, n), List.mem_filter.2 ⟨hn, ?_⟩, rfl⟩
  have hlast := foldl_max_ge (g := fun q : CombEntry × Nat => q.2 + 1)
    (List.mem_filter.2 ⟨hn, by simp [hopen, hp]⟩ : (_, n) ∈ (s.core core).comb.zipIdx.filter (fun q => q.1.isOpen && p q.1)) 0
  exact Bool.and_eq_true_iff.2 ⟨hopen, decide_eq_true hlast⟩

/-- Posts that stand 3 clk after the clk of a state leave its clk and its cores. -/
theorem State.core_postAll (ids : List Nat) (j : Nat) :
    ((ids.foldl (fun t i => t.post (t.clk + 3) (.combiningEntryInject core i)) s).core j) = s.core j :=
  State.foldl_keeps (fun t => t.core j) fun _ _ => rfl

theorem State.mem_agenda_postAll {ids : List Nat} {i : Nat} (hi : i ∈ ids) :
    (s.clk + 3, Event.combiningEntryInject core i) ∈
      (ids.foldl (fun t i => t.post (t.clk + 3) (.combiningEntryInject core i)) s).agenda := by
  induction ids generalizing s with
  | nil => cases hi
  | cons x l ih =>
    obtain rfl | hi := List.mem_cons.1 hi
    · exact List.foldlRecOn (motive := fun t : State => (s.clk + 3, Event.combiningEntryInject core i) ∈ t.agenda) l _
        (State.mem_agenda_post s (s.clk + 3) _) fun t ht x _ => mem_insertDue.2 (.inr ht)
    · exact ih (s := s.post (s.clk + 3) (.combiningEntryInject core x)) hi

/-- An entry that is sent is at its station 3 clk later, and is open no more. -/
theorem State.sendEntries_sends {e : CombEntry} (he : e ∈ (s.core core).comb) (hid : e.id = id) (ho : e.sent = none) :
    (s.clk + 3, Event.combiningEntryInject core id) ∈ (s.sendEntries core (fun e => e.id == id)).agenda ∧
    ∀ q ∈ ((s.sendEntries core (fun e => e.id == id)).core core).comb, q.id = id → q.sent = some s.clk := by
  have hgo : id ∈ s.goingIds core (fun e => e.id == id) :=
    hid ▸ State.mem_goingIds (p := fun q => q.id == e.id) he ho (beq_self_eq_true e.id)
  rw [State.sendEntries_eq]
  refine ⟨State.mem_agenda_postAll hgo, fun q hq hqid => ?_⟩
  rw [State.core_postAll, State.core_modCore_self] at hq
  obtain ⟨e', -, rfl⟩ := List.mem_map.1 hq
  by_cases hc : (s.goingIds core (fun e => e.id == id)).contains e'.id = true
  · rw [if_pos hc]
  · rw [if_neg hc] at hqid
    exact absurd (List.contains_iff_mem.2 (hqid ▸ hgo)) hc

/-! ## Entries that leave -/

theorem State.pairOf_modCore (j : Nat) (f : CoreSt → CoreSt) (k : Nat) (job : BitVec 12) : (s.modCore j f).pairOf k job = s.pairOf k job := rfl

/-- The slot of an entry waits at the station of its core 4 clk later, where the core has no partner. -/
theorem State.mem_outq_postSlot (bank : Nat) (job : BitVec 12) (dest : Dest) (ord : Nat) (eng : Option (EngQ × Nat)) (mir : Nat)
    (by_ fenced : List Stream) (before : List Nat) (lines : List CombLine) (due : Nat) (hp : s.pairOf core job = none) :
    ∃ w : Slot, w.kind = 3 ∧ w.job = job ∧
      (due + 4, w) ∈ ((s.postSlot core bank job dest ord eng mir by_ fenced before lines due).sta (stationOf core)).outq := by
  have houtq (t : State) (w : Slot) (hw : t.pairOf core w.job = none) : (due + 4, w) ∈ ((t.egress core w due).sta (stationOf core)).outq := by
    rw [State.egress, hw]
    have hsta : ((t.enqueue (stationOf core) w due).sta (stationOf core)).outq = (t.sta (stationOf core)).outq ++ [(due + 4, w)] :=
      congrArg Station.outq (State.sta_modSta_self t (stationOf core) fun y => { y with outq := y.outq ++ [(due + 4, w)] })
    refine hsta ▸ ?_
    exact List.mem_append.2 (.inr (List.mem_singleton.2 rfl))
  refine ⟨_, ?_, ?_, houtq _ _ ((State.pairOf_modCore _ _ _ _).trans hp)⟩ <;> rfl

/-! ## Acceptances of mirrors -/

/-- An acceptance at one core: its copy goes, and the requests of lost homes are sent to their mirrors again. -/
def State.acceptCopy (slot : Slot) (s : State) (core : Nat) : State :=
  (s.modCore core (fun k => { k with mirrors := k.mirrors.filter (fun p => p.1 != slot.tag.toNat) })).pod.mods.foldl (fun t n =>
    let (v, pl, m) := t.mirror (modOf core) n
    if v && pl then t.failOver core n m else t)
    (s.modCore core (fun k => { k with mirrors := k.mirrors.filter (fun p => p.1 != slot.tag.toNat) }))

theorem State.mirrors_egress (j : Nat) (slot : Slot) (due k : Nat) : ((s.egress j slot due).core k).mirrors = (s.core k).mirrors := by
  unfold State.egress
  split <;> rfl

theorem State.mirrors_sendCounted (j : Nat) (slot : Slot) (due k : Nat) : ((s.sendCounted j slot due).core k).mirrors = (s.core k).mirrors := by
  unfold State.sendCounted
  split
  · rfl
  · refine (State.mirrors_egress _ _ _ _).trans ?_
    unfold State.countSent
    split <;> rfl

theorem State.mirrors_failOver (j lost mirror k : Nat) : ((s.failOver j lost mirror).core k).mirrors = (s.core k).mirrors := by
  unfold State.failOver
  dsimp only
  split
  · rfl
  · exact State.foldl_keeps (fun t => (t.core k).mirrors) fun t r =>
      (State.mirrors_sendCounted _ _ _ _).trans (State.core_modCore_keeps CoreSt.mirrors _ _ _ fun _ => rfl)

theorem State.mirrors_acceptCopy (j k : Nat) : ((s.acceptCopy slot j).core k).mirrors =
    if k = j then (s.core k).mirrors.filter (fun p => p.1 != slot.tag.toNat) else (s.core k).mirrors := by
  refine (State.foldl_keeps (fun t => (t.core k).mirrors) fun t n => ?_).trans ?_
  · dsimp only
    split
    · exact State.mirrors_failOver _ _ _ _
    · rfl
  · split
    next h => rw [h, State.core_modCore_self]
    next h => rw [State.core_modCore_ne s _ h]

theorem State.mirrors_acceptAll (l : List Nat) (k : Nat) : ((l.foldl (State.acceptCopy slot) s).core k).mirrors =
    if k ∈ l then (s.core k).mirrors.filter (fun p => p.1 != slot.tag.toNat) else (s.core k).mirrors := by
  induction l generalizing s with
  | nil => rfl
  | cons j l ih =>
    rw [List.foldl_cons, ih, State.mirrors_acceptCopy]
    by_cases hj : k = j <;> by_cases hl : k ∈ l <;> simp [hj, hl]

theorem State.mirrorAcceptance_goes (hcur : s.cur = some (.mirrorAcceptance slot)) :
    exec .mirrorAcceptance s = .next ((s.twins (destCore slot) slot.job).foldl (State.acceptCopy slot) s) := by
  rw [exec_mirrorAcceptance]
  simp only [execMirrorAcceptance, hcur]
  rfl

/-! ## Single cores and cores that no freeze holds -/

theorem State.twins_alone {job : BitVec 12} (hp : s.pairOf core job = none) : s.twins core job = [core] := by
  rw [State.twins, hp]

theorem State.heldUntil_of_frozen (hf : s.frozen core = false) : s.heldUntil core = none := by
  unfold State.frozen at hf
  unfold State.heldUntil
  split
  next e he =>
    rw [he] at hf
    exact if_neg (of_decide_eq_false hf)
  · rfl

/-! ## Posted writes -/

theorem State.postedWrite_takes (hcur : s.cur = some (.postedWriteArrival slot)) : exec .postedWriteArrival s =
    .next (s.takeSlot slot (fun s => s.performInOrder slot) (fun s => (s.consumed slot).logLoss (destSta slot) slot 3)) := by
  rw [exec_postedWriteArrival]
  simp only [execPostedWriteArrival, hcur]

theorem State.takeSlot_opened {f g : State → State} (h : s.jobState (destSta slot) slot.job = .opened) : s.takeSlot slot f g = f s := by
  rw [State.takeSlot, h]

theorem State.takeSlot_closing {f g : State → State} (h : s.jobState (destSta slot) slot.job = .closing) : s.takeSlot slot f g = g s := by
  rw [State.takeSlot, h]

theorem State.takeSlot_free {f g : State → State} (h : s.jobState (destSta slot) slot.job = .free) :
    s.takeSlot slot f g = s.logLoss (destSta slot) slot 3 := by
  rw [State.takeSlot, h]

theorem State.performInOrder_first (h : s.waitingAt slot = none) : s.performInOrder slot = s.perform slot := by
  rw [State.performInOrder, h]

theorem State.performInOrder_waits {k : Nat} (h : s.waitingAt slot = some k) :
    s.performInOrder slot = s.modCore k (fun k => { k with inbound := k.inbound ++ [slot] }) := by
  rw [State.performInOrder, h]

theorem State.perform_write (hk : slot.kind = 3) : s.perform slot = if slot.arg = 0 then s.takeInbound slot else s.writeHome slot := by
  rw [State.perform, hk]
  rfl

theorem State.writeHome_plain (hm : slot.mir = false) : s.writeHome slot = State.consumed ((slotLines slot).foldl (fun t _ => t.credit slot)
    ((slotLines slot).foldl (fun t l => l.runs.foldl (fun t r =>
      t.writeMem (s.platOf (srcCore slot) slot.job) slot.dmod.toNat (l.addr + r.1) r.2) t) s)) slot := by
  rw [State.writeHome, hm]
  rfl

theorem State.takeInbound_alone {c : CtxId} (hb : s.bankOfJob (destCore slot) slot.job = some c) (hp : s.pairOf c.core slot.job = none) :
    s.takeInbound slot = (s.modCore c.core (fun k => { k with inbound := k.inbound ++ [slot] })).grantInbound c.core := by
  rw [State.takeInbound, hb]
  dsimp only
  rw [State.twins_alone hp]
  rfl

/-! ## Credits, loss notices, landing slots -/

theorem State.creditReturn_alone {o : Owed} (hcur : s.cur = some (.creditReturn slot)) (hp : s.pairOf (destCore slot) slot.job = none)
    (ho : (s.core (destCore slot)).owed.find? (fun o => o.tag == slot.tag.toNat) = some o) :
    exec .creditReturn s = .next (s.giveBack (destCore slot) o 1) := by
  rw [exec_creditReturn]
  simp only [execCreditReturn, hcur, State.twins_alone hp, List.foldl_cons, List.foldl_nil, ho]

theorem State.lossNotice_raises {c : CtxId} (hcur : s.cur = some (.lossNoticeArrival slot)) (hp : s.pairOf (destCore slot) slot.job = none)
    (ho : (s.core (destCore slot)).owed.find? (fun o => o.tag == slot.tag.toNat) = none) (hb : s.bankOfJob (destCore slot) slot.job = some c) :
    exec .lossNoticeArrival s = .next ((s.modCtx c (fun x =>
      { x with lossCount := x.lossCount + 1 })).raiseAsync c 0x26 (slot.job.setWidth 64)) := by
  rw [exec_lossNoticeArrival]
  simp only [execLossNoticeArrival, hcur, State.twins_alone hp, List.foldl_cons, List.foldl_nil, ho, hb]
  rfl

theorem State.lossNotice_noted (hcur : s.cur = some (.lossNoticeArrival slot)) (hp : s.pairOf (destCore slot) slot.job = none)
    (ho : (s.core (destCore slot)).owed.find? (fun o => o.tag == slot.tag.toNat) = none) (hb : s.bankOfJob (destCore slot) slot.job = none) :
    exec .lossNoticeArrival s = .next ((s.modMod (modOf (destCore slot))
      (fun m => { m with notes := .lossNotice slot :: m.notes })).countErr (modOf (destCore slot)) 0 4) := by
  rw [exec_lossNoticeArrival]
  simp only [execLossNoticeArrival, hcur, State.twins_alone hp, List.foldl_cons, List.foldl_nil, ho, hb]

theorem State.timetabledSlot_lands (hcur : s.cur = some (.timetabledSlotArrival core slot)) (hp : s.pairOf core slot.job = none)
    (hn : (s.core core).landing.length < 64) :
    exec .timetabledSlotArrival s = .next (s.modCore core (fun k => { k with landing := k.landing ++ [slot] })) := by
  rw [exec_timetabledSlotArrival]
  simp only [execTimetabledSlotArrival, hcur, State.twins_alone hp, List.foldl_cons, List.foldl_nil, if_pos hn]

theorem State.timetabledSlot_overruns {c : CtxId} (hcur : s.cur = some (.timetabledSlotArrival core slot)) (hp : s.pairOf core slot.job = none)
    (hn : 64 ≤ (s.core core).landing.length) (hb : s.bankOfJob core slot.job = some c) :
    exec .timetabledSlotArrival s = .next (s.overrun c 3) := by
  rw [exec_timetabledSlotArrival]
  simp only [execTimetabledSlotArrival, hcur, State.twins_alone hp, List.foldl_cons, List.foldl_nil, if_neg (Nat.not_lt.2 hn), hb]

theorem State.bankOfJob_modCore (j : Nat) (f : CoreSt → CoreSt) (k : Nat) (job : BitVec 12) :
    (s.modCore j f).bankOfJob k job = s.bankOfJob k job := rfl

theorem State.drain_lands {rest : List Slot} {c : CtxId} (hcur : s.cur = some (.landingBufferDrain core)) (hl : (s.core core).landing = slot :: rest)
    (hf : s.frozen core = false) (hb : s.bankOfJob core slot.job = some c) (ht : slot.tag.getLsbD 13 = false) :
    exec .landingBufferDrain s = .next ((s.modCore core (fun k => { k with landing := rest })).modCore core (fun k =>
      k.portWrite 2 1 (256 * slot.arg.toNat) slot.data slot.poison)) := by
  rw [exec_landingBufferDrain]
  simp only [execLandingBufferDrain, hcur, hl, State.heldUntil_of_frozen hf, State.bankOfJob_modCore, hb, ht, Bool.false_eq_true, if_false]

theorem State.writeX_own {c : CtxId} (hb : s.bankOfJob core slot.job = some c) (hd : core = destCore slot) :
    s.writeX core slot = State.consumed ((slotLines slot).foldl (fun t _ => t.credit slot)
      ((slotLines slot).foldl (fun t l => t.lineIntoX c l) s)) slot := by
  rw [State.writeX, hb]
  exact if_pos hd

theorem State.drain_writes {c : CtxId} (hcur : s.cur = some (.landingBufferDrain core)) (hl : (s.core core).landing = [])
    (hi : (s.core core).inbound = [slot]) (hf : s.frozen core = false) (hb : s.bankOfJob core slot.job = some c) (hd : core = destCore slot) :
    exec .landingBufferDrain s = .next (State.consumed ((slotLines slot).foldl (fun t _ => t.credit slot)
      ((slotLines slot).foldl (fun t l => t.lineIntoX c l) (s.modCore core (fun k => { k with inbound := [] })))) slot) := by
  rw [exec_landingBufferDrain]
  simp only [execLandingBufferDrain, hcur, hl, hi, State.heldUntil_of_frozen hf, List.length_nil]
  exact congrArg Host.Outcome.next (State.writeX_own hb hd)

end

/-- Settles O44: an entry's sending and leaving, a posted write by the state of its job, and what credits, notices, acceptances and landing slots do
at the one core that they name. -/
theorem postedWriteEvents : Obligations.PostedWriteEvents := by
  unfold Obligations.PostedWriteEvents
  intro s core id slot
  refine ⟨fun hcur hf => ⟨?_, fun e he hid ho => State.sendEntries_sends he hid ho⟩, fun e hcur hf he => ⟨?_, fun hp => ?_⟩,
    fun hcur => ⟨fun hj hk => ⟨fun hw ha hm => ?_, fun c hw ha hb hp => ?_, fun k hw => ?_⟩, fun hj => ?_, fun hj => ?_⟩,
    fun o => State.creditReturn_alone, fun hcur hp ho => ⟨fun c => State.lossNotice_raises hcur hp ho, State.lossNotice_noted hcur hp ho⟩,
    fun hcur => ?_, fun hcur hp => ⟨State.timetabledSlot_lands hcur hp, fun c => State.timetabledSlot_overruns hcur hp⟩,
    fun rest c => State.drain_lands, fun c => State.drain_writes⟩
  · rw [exec_combiningEntrySend]
    simp only [execCombiningEntrySend, hcur, hf, Bool.false_eq_true, if_false]
  · rw [exec_combiningEntryInject]
    simp only [execCombiningEntryInject, hcur, hf, he, Bool.false_eq_true, if_false]
  · exact State.mem_outq_postSlot _ _ _ _ _ _ _ _ _ _ _ hp
  · rw [State.postedWrite_takes hcur, State.takeSlot_opened hj, State.performInOrder_first hw, State.perform_write hk, if_neg (ha ▸ by decide),
      State.writeHome_plain hm]
  · rw [State.postedWrite_takes hcur, State.takeSlot_opened hj, State.performInOrder_first hw, State.perform_write hk, if_pos ha,
      State.takeInbound_alone hb hp]
  · rw [State.postedWrite_takes hcur, State.takeSlot_opened hj, State.performInOrder_waits hw]
  · rw [State.postedWrite_takes hcur, State.takeSlot_closing hj]
  · rw [State.postedWrite_takes hcur, State.takeSlot_free hj]
  · exact ⟨_, State.mirrorAcceptance_goes hcur, mem_of_memNext (State.mirrorAcceptance_goes hcur) (execMirrorAcceptance_memNext s rfl),
      fun k hk => (State.mirrors_acceptAll _ k).trans (if_pos hk)⟩

end Sys2Proof.Machine

namespace Sys2Proof.Machine

/-! Messages, and remote reads and atomics with their replies, at their home (02 R43 to R47, R61, R62). -/

section
variable {s : State} {slot : Slot}

/-! ## Active messages -/

theorem State.core_of_bankOfJob {core : Nat} {job : BitVec 12} {c : CtxId} (h : s.bankOfJob core job = some c) : c.core = core := by
  have hc : c = ⟨core, 0⟩ ∨ c = ⟨core, 1⟩ := by simpa using List.mem_of_find?_eq_some h
  obtain rfl | rfl := hc <;> rfl

/-- A message of an OPEN job at the one core that it names. -/
def State.takeMessage (s : State) (slot : Slot) : State :=
  match s.bankOfJob (destCore slot) slot.job with
  | none => s.lose (destSta slot) slot 2
  | some c =>
    if (s.ctx c).freeEntry.isNone || (s.ctx c).q15.full 32 s.clk then s.refuse (destSta slot) none slot
    else (s.twins c.core slot.job).foldl (fun t k =>
      match t.bankOfJob k slot.job with
      | some d => t.intoInbox d slot
      | none => t) s

theorem State.message_takes (hcur : s.cur = some (.activeMessageArrival slot)) (hj : s.jobState (destSta slot) slot.job = .opened) :
    exec .activeMessageArrival s = .next (s.takeMessage slot) := by
  rw [exec_activeMessageArrival]
  simp only [execActiveMessageArrival, hcur]
  exact congrArg Host.Outcome.next (State.takeSlot_opened hj)

theorem State.message_refused {c : CtxId} (hcur : s.cur = some (.activeMessageArrival slot)) (hj : s.jobState (destSta slot) slot.job = .opened)
    (hb : s.bankOfJob (destCore slot) slot.job = some c) (hfull : (s.ctx c).freeEntry = none ∨ (s.ctx c).q15.full 32 s.clk = true) :
    exec .activeMessageArrival s = .next (s.refuse (destSta slot) none slot) := by
  rw [State.message_takes hcur hj, State.takeMessage, hb]
  refine congrArg Host.Outcome.next (if_pos ?_)
  obtain he | hq := hfull
  · rw [he]
    rfl
  · rw [hq]
    exact Bool.or_true _

theorem State.message_enters {c : CtxId} {e : Nat} (hcur : s.cur = some (.activeMessageArrival slot))
    (hj : s.jobState (destSta slot) slot.job = .opened) (hp : s.pairOf (destCore slot) slot.job = none)
    (hb : s.bankOfJob (destCore slot) slot.job = some c) (he : (s.ctx c).freeEntry = some e) (hq : (s.ctx c).q15.full 32 s.clk = false) :
    exec .activeMessageArrival s = .next (s.intoInbox c slot) := by
  have hone : s.twins c.core slot.job = [destCore slot] := by rw [State.core_of_bankOfJob hb, State.twins_alone hp]
  rw [State.message_takes hcur hj]
  simp only [State.takeMessage, hb, he, hq, hone, List.foldl_cons, List.foldl_nil, Option.isNone_some, Bool.or_self, Bool.false_eq_true, if_false]

/-- The bytes of a message in the lowest free entry of its inbox. -/
def CoreSt.withMessage (c : CtxId) (slot : Slot) (e : Nat) (k : CoreSt) : CoreSt :=
  k.writeBuf 1 (0x2FC000 + 0x2000 * c.bank + 256 * e) (slot.data.take (64 * (slot.nfl.toNat + 1)))

theorem State.intoInbox_eq {c : CtxId} {e : Nat} (he : (s.ctx c).freeEntry = some e) :
    s.intoInbox c slot = (s.modCore c.core (CoreSt.withMessage c slot e)).modCtx c
      (fun x => { x with inbox := e :: x.inbox, q15 := x.q15.add (descriptor slot e) (s.clk + 2) }) := by
  rw [State.intoInbox, he]
  rfl

theorem State.ctx_intoInbox {c : CtxId} {e : Nat} (he : (s.ctx c).freeEntry = some e) :
    (s.intoInbox c slot).ctx c = { s.ctx c with
      inbox := e :: (s.ctx c).inbox
      q15 := (s.ctx c).q15.add (descriptor slot e) (s.clk + 2) } := by
  rw [State.intoInbox_eq he, State.ctx_modCtx_self]
  rfl

theorem State.intoInbox_keeps_mem (c : CtxId) : (s.intoInbox c slot).mem = s.mem := by
  unfold State.intoInbox
  split <;> rfl

/-! ## Requests -/

theorem State.readRequest_takes (hcur : s.cur = some (.remoteReadRequest slot)) : exec .remoteReadRequest s =
    .next (s.takeSlot slot (fun s => s.performInOrder slot) (fun s => (s.reply slot 7 1 false []).consumed slot)) := by
  rw [exec_remoteReadRequest]
  simp only [execRemoteReadRequest, hcur]

theorem State.atomicRequest_takes (hcur : s.cur = some (.remoteAtomicRequest slot)) : exec .remoteAtomicRequest s =
    .next (s.takeSlot slot (fun s => s.performInOrder slot) (fun s => (s.reply slot 5 1 false []).consumed slot)) := by
  rw [exec_remoteAtomicRequest]
  simp only [execRemoteAtomicRequest, hcur]

theorem State.perform_read (hk : slot.kind = 6) : s.perform slot = s.readFor slot := by
  rw [State.perform, hk]
  rfl

theorem State.perform_atomic (hk : slot.kind = 4) : s.perform slot = s.atomicFor slot := by
  rw [State.perform, hk]
  rfl

theorem State.readFor_memory (ha : slot.arg = 1) : s.readFor slot = (s.reply slot 7 0 false (Memory.readN s.mem
    (memKey slot.dmod.toNat (ofBytesLE (slot.data.take 8))) (ofBytesLE ((slot.data.drop 8).take 8)))).consumed slot :=
  if_neg (ha ▸ by decide)

/-- The word that a request's atomic finds at its home, and the one that it leaves there (14 R328). -/
def State.atomicOld (s : State) (slot : Slot) : Word :=
  BitVec.ofNat 64 (Memory.readLE s.mem (memKey slot.dmod.toNat (ofBytesLE (slot.data.take 8))) 8)

def State.atomicNew (s : State) (slot : Slot) : Word :=
  (Amo.ofCode slot.arg.toNat).apply (s.atomicOld slot) (BitVec.ofNat 64 (ofBytesLE ((slot.data.drop 8).take 8)))
    (BitVec.ofNat 64 (ofBytesLE ((slot.data.drop 16).take 8)))

theorem State.atomicFor_word (ha : slot.arg.toNat < 16) : s.atomicFor slot =
    ((s.writeMem (s.platOf (srcCore slot) slot.job) slot.dmod.toNat (ofBytesLE (slot.data.take 8)) (bytesLE 8 (s.atomicNew slot).toNat)).reply
      slot 5 0 false (bytesLE 8 (s.atomicOld slot).toNat)).consumed slot :=
  if_pos ha

/-! ## Replies -/

theorem State.replyArrives_alone (hj : s.jobState (destSta slot) slot.job = .opened) (hp : s.pairOf (destCore slot) slot.job = none) :
    s.replyArrives slot = (s.takeReply (destCore slot) slot).consumed slot := by
  rw [State.replyArrives, State.takeSlot_opened hj]
  rw [State.twins_alone hp]
  rfl

theorem State.heldUntil_of_freeze {core e : Nat} (hf : (s.core core).freeze = some e) (hlt : s.clk < e) : s.heldUntil core = some e := by
  rw [State.heldUntil, hf]
  exact if_pos hlt

theorem State.readReply_held {h : Option Nat} (hcur : s.cur = some (.remoteReadReply slot)) (hh : s.heldUntil (destCore slot) = h) :
    exec .remoteReadReply s = .next (h.elim (s.replyArrives slot) fun e => s.post e (.remoteReadReply slot)) := by
  subst hh
  rw [exec_remoteReadReply]
  simp only [execRemoteReadReply, hcur]
  split
  next e he => rw [he]; rfl
  next he => rw [he]; rfl

theorem State.atomicReply_held {h : Option Nat} (hcur : s.cur = some (.remoteAtomicReply slot)) (hh : s.heldUntil (destCore slot) = h) :
    exec .remoteAtomicReply s = .next (h.elim (s.replyArrives slot) fun e => s.post e (.remoteAtomicReply slot)) := by
  subst hh
  rw [exec_remoteAtomicReply]
  simp only [execRemoteAtomicReply, hcur]
  split
  next e he => rw [he]; rfl
  next he => rw [he]; rfl

end

/-- Settles O45: each arrival by the state of its job at the station, and what an accepted one does there. -/
theorem messageEvents : Obligations.MessageEvents := by
  unfold Obligations.MessageEvents
  intro s slot
  refine ⟨fun hj => ⟨fun hcur hp => ⟨fun hb => ?_, fun c e hb he hq => ?_, fun c => State.message_refused hcur hj⟩, fun hcur hk hw ha => ?_,
    fun hcur hk hw ha => ?_, fun hcur => ?_, fun hcur hf hp => ?_, fun hcur hf hp => ?_⟩, fun hj => ⟨fun hcur => ?_, fun hcur => ?_⟩,
    fun e hf hlt => ⟨fun hcur => State.readReply_held hcur (State.heldUntil_of_freeze hf hlt),
      fun hcur => State.atomicReply_held hcur (State.heldUntil_of_freeze hf hlt)⟩⟩
  · rw [State.message_takes hcur hj, State.takeMessage, hb]
  · refine ⟨_, State.message_enters hcur hj hp hb he hq, ?_, ?_, State.intoInbox_keeps_mem c⟩ <;> rw [State.ctx_intoInbox he]
  · rw [State.readRequest_takes hcur, State.takeSlot_opened hj, State.performInOrder_first hw, State.perform_read hk, State.readFor_memory ha]
  · rw [State.atomicRequest_takes hcur, State.takeSlot_opened hj, State.performInOrder_first hw, State.perform_atomic hk, State.atomicFor_word ha]
    rfl
  · rw [exec_migrationDataArrival]
    simp only [execMigrationDataArrival, hcur, State.takeSlot_opened hj]
    rfl
  · rw [State.readReply_held hcur (State.heldUntil_of_frozen hf), Option.elim_none, State.replyArrives_alone hj hp]
  · rw [State.atomicReply_held hcur (State.heldUntil_of_frozen hf), Option.elim_none, State.replyArrives_alone hj hp]
  · rw [State.readRequest_takes hcur, State.takeSlot_closing hj]
  · rw [State.atomicRequest_takes hcur, State.takeSlot_closing hj]

end Sys2Proof.Machine

namespace Sys2Proof.Machine

/-! Muster waves begin, pass their stations and come back to their leader (02 R53 to R57, R441). -/

section
variable {s : State} {id : WaveId} {w : Wave}

/-! ## Events that stand stay as others are posted -/

theorem State.mem_agenda_of_post {x : Nat × Event} {due : Nat} {e : Event} (h : x ∈ s.agenda) : x ∈ (s.post due e).agenda :=
  mem_insertDue.2 (.inr h)

theorem State.mem_agenda_sendModule {x : Nat × Event} (part place leave : Nat) (h : x ∈ s.agenda) :
    x ∈ (s.sendModule id part place leave).agenda :=
  List.foldlRecOn (motive := fun t : State => x ∈ t.agenda) _ _ h fun _ ht _ _ => State.mem_agenda_of_post ht

theorem State.pod_post (due : Nat) (e : Event) : (s.post due e).pod = s.pod := rfl

@[simp] theorem State.pod_sendModule (part place leave : Nat) : (s.sendModule id part place leave).pod = s.pod :=
  State.foldl_keeps State.pod fun _ _ => rfl

theorem State.pod_sendPod (part place leave : Nat) : (s.sendPod id part place leave).1.pod = s.pod := by
  refine List.foldlRecOn (motive := fun a : State × Nat => a.1.pod = s.pod) _ _ rfl fun a ha v _ => ?_
  cases v <;> exact ha

/-! ## Waves -/

/-- A change of one wave that keeps its name. -/
theorem State.wave_modWaves {f : Wave → Wave} (hf : ∀ v, (f v).id = v.id) :
    (s.modWaves (fun v => v.id == id) f).wave id = (s.wave id).map f := by
  have hid (v : Wave) : ((if v.id == id then f v else v).id == id) = (v.id == id) := by
    split
    · rw [hf]
    · rfl
  refine (List.find?_map ..).trans ?_
  have hcomp : (fun v : Wave => v.id == id) ∘ (fun v => if v.id == id then f v else v) = fun v => v.id == id := funext hid
  rw [hcomp, State.wave]
  cases h : s.pod.waves.find? (fun v => v.id == id) with
  | none => rfl
  | some v => exact congrArg some (if_pos (List.find?_some h))

theorem State.wave_newWave : ((s.newWave id).wave id).isSome = true := by
  have hnew (v : Wave) (l : List Wave) (hv : v.id = id) : ((v :: l).find? (fun w => w.id == id)).isSome = true := by
    rw [List.find?_cons_of_pos (p := fun w : Wave => w.id == id) (beq_iff_eq.2 hv)]
    rfl
  exact hnew _ _ rfl

theorem State.wave_congr {t : State} (h : t.pod = s.pod) : t.wave id = s.wave id := by
  rw [State.wave, State.wave, h]

/-! ## Module waves -/

/-- The slots that a module wave sends as it begins. -/
def State.beginModule (s : State) (mod : Nat) : State :=
  ((((s.newWave ⟨false, mod, s.clk⟩).post (s.clk + 2048) (.moduleWaveBegin mod)).sendModule ⟨false, mod, s.clk⟩ 0 0 s.clk).sendModule
    ⟨false, mod, s.clk⟩ 0 1 (s.clk + 1)).post (s.clk + 49) (.musterRollReturn ⟨false, mod, s.clk⟩)

theorem State.clk_sendModule (part place leave : Nat) : (s.sendModule id part place leave).clk = s.clk :=
  State.foldl_keeps State.clk fun _ _ => rfl

theorem State.moduleWaveBegin_goes {mod : Nat} (hcur : s.cur = some (.moduleWaveBegin mod)) :
    exec .moduleWaveBegin s = .next (s.beginModule mod) := by
  rw [exec_moduleWaveBegin]
  unfold execModuleWaveBegin
  split
  next m h =>
    cases hcur.symm.trans h
    dsimp only
    rw [State.clk_sendModule, State.clk_sendModule]
    rfl
  next h => exact absurd hcur (h _)

theorem State.mem_agenda_beginModule {x : Nat × Event} (mod : Nat)
    (h : x ∈ ((s.newWave ⟨false, mod, s.clk⟩).post (s.clk + 2048) (.moduleWaveBegin mod)).agenda) : x ∈ (s.beginModule mod).agenda :=
  State.mem_agenda_of_post (State.mem_agenda_sendModule _ _ _ (State.mem_agenda_sendModule _ _ _ h))

theorem State.wave_beginModule (mod : Nat) : ((s.beginModule mod).wave ⟨false, mod, s.clk⟩).isSome = true := by
  have hpod : (s.beginModule mod).pod = (s.newWave ⟨false, mod, s.clk⟩).pod :=
    (State.pod_post _ _).trans ((State.pod_sendModule _ _ _).trans ((State.pod_sendModule _ _ _).trans (State.pod_post _ _)))
  rw [State.wave_congr hpod]
  exact State.wave_newWave

/-! ## Pod waves -/

theorem State.podWaveBegin_goes (hcur : s.cur = some .podWaveBegin) : ∃ t, exec .podWaveBegin s = .next t ∧
    (s.clk + 32768, Event.podWaveBegin) ∈ t.agenda ∧ (s.pod.ring.isSome = true → (s.clk, Event.podWavePart 0) ∈ t.agenda) := by
  rw [exec_podWaveBegin]
  unfold execPodWaveBegin
  rw [hcur]
  dsimp only
  split
  next h =>
    refine ⟨_, rfl, State.mem_agenda_post _ _ _, fun hr => ?_⟩
    rw [show s.pod.ring = none from h] at hr
    cases hr
  next k h => exact ⟨_, rfl, State.mem_agenda_of_post (State.mem_agenda_post s _ _), fun _ => State.mem_agenda_post _ _ _⟩

/-- The slots of one part of a pod wave, and the clk by which the last is back. -/
def State.sendPart (s : State) (w : Wave) (part : Nat) : State × Nat :=
  (List.range (w.places part)).foldl (fun (a : State × Nat) i =>
    let (t, back) := a.1.sendPod w.id part i (s.clk + 5 * i)
    (t, Nat.max a.2 back)) (s, s.clk)

theorem State.pod_sendPart (part : Nat) : (s.sendPart w part).1.pod = s.pod :=
  List.foldlRecOn (motive := fun a : State × Nat => a.1.pod = s.pod) _ _ rfl fun a ha _ _ => (State.pod_sendPod (s := a.1) _ _ _).trans ha

theorem State.podWavePart_goes {part : Nat} (hcur : s.cur = some (.podWavePart part)) (hw : s.podWave = some w) (hg : w.gone = false)
    (h0 : 0 < part) (h3 : part < 3) : exec .podWavePart s =
      .next ((s.sendPart w part).1.post (w.id.w + (part + 1) * ((s.sendPart w part).1.pod.bound + 76)) (.podWavePart (part + 1))) := by
  rw [exec_podWavePart]
  simp only [execPodWavePart, hcur, hw, hg, if_pos h3, if_neg (Nat.ne_of_gt h0), Bool.false_eq_true, if_false]
  rfl

/-! ## Stations of a wave -/

theorem State.merge_roll {place sta : Nat} (hcur : s.cur = some (.musterSlotMerge id 0 place sta)) (hw : s.wave id = some w)
    (hg : w.gone = false) (hu : (s.sta sta).unrepaired = false) :
    exec .musterSlotMerge s = .next (s.modWaves (fun v => v.id == id) (fun v =>
      { v with roll := (v.roll ++ (s.rollBits id sta).filter (fun j => j / 2048 == place)).eraseDups })) := by
  rw [exec_musterSlotMerge]
  simp only [execMusterSlotMerge, hcur, hw, hg, hu, Bool.false_eq_true, if_false]

theorem State.merge_sums {place sta : Nat} (hcur : s.cur = some (.musterSlotMerge id 1 place sta)) (hw : s.wave id = some w)
    (hg : w.gone = false) (hu : (s.sta sta).unrepaired = false) :
    exec .musterSlotMerge s = .next (s.modWaves (fun v => v.id == id) (fun v => { v with
      inj1 := addSums v.inj1 (s.sta sta).inj ((w.taken.zipIdx.drop (16 * place)).take 16)
      con1 := addSums v.con1 (s.sta sta).con ((w.taken.zipIdx.drop (16 * place)).take 16)
      los1 := addSums v.los1 (s.sta sta).los ((w.taken.zipIdx.drop (16 * place)).take 16) })) := by
  rw [exec_musterSlotMerge]
  simp only [execMusterSlotMerge, hcur, hw, hg, hu, Bool.false_eq_true, if_false]

/-- A wave that passes an unrepaired station is void afterwards. -/
theorem State.merge_voids {place sta : Nat} (hcur : s.cur = some (.musterSlotMerge id 0 place sta)) (hw : s.wave id = some w)
    (hg : w.gone = false) (hu : (s.sta sta).unrepaired = true) :
    ∃ t, exec .musterSlotMerge s = .next t ∧ ∀ v, t.wave id = some v → v.void = true := by
  rw [exec_musterSlotMerge]
  simp only [execMusterSlotMerge, hcur, hw, hg, hu, Bool.false_eq_true, if_false, if_true]
  refine ⟨_, rfl, fun v hv => ?_⟩
  rw [State.wave_modWaves, State.wave_modWaves, hw] at hv
  · rw [← Option.some.inj hv]
  · exact fun _ => rfl
  · exact fun _ => rfl

/-! ## The roll back at its leader -/

/-- The job that the leader of a wave took last. -/
def State.lastTaken (s : State) (id : WaveId) : Nat := if id.pod then s.pod.waveJob else (s.modu id.mod).waveJob

/-- The jobs that the leader takes, and the last of them. -/
def State.taking (s : State) (id : WaveId) (taken : List Nat) : State :=
  let s := s.modWaves (fun v => v.id == id) (fun v => { v with taken := taken })
  match taken.getLast? with
  | none => s
  | some j => if id.pod then { s with pod := { s.pod with waveJob := j } } else s.modMod id.mod (fun m => { m with waveJob := j })

/-- The slots of the two passes and of the result of a module wave. -/
def State.sendPasses (s : State) (id : WaveId) (taken : List Nat) : State :=
  ((List.range ((taken.length + 15) / 16)).foldl (fun t i =>
    (t.sendModule id 1 i (id.w + 64 + i)).sendModule id 2 i (id.w + 128 + i)) s).sendModule id 3 0 (id.w + 192)

theorem State.rollReturn_takes (hcur : s.cur = some (.musterRollReturn id)) (hw : s.wave id = some w) (hg : w.gone = false) :
    exec .musterRollReturn s = .next (if id.pod then s.taking id (takeJobs w.roll (s.lastTaken id))
      else (s.taking id (takeJobs w.roll (s.lastTaken id))).sendPasses id (takeJobs w.roll (s.lastTaken id))) := by
  rw [exec_musterRollReturn]
  simp only [execMusterRollReturn, hcur, hw, hg, Bool.false_eq_true, if_false]
  rw [State.lastTaken]
  generalize takeJobs w.roll _ = taken
  exact (apply_ite Host.Outcome.next _ _ _).symm

theorem State.wave_taking (taken : List Nat) : (s.taking id taken).wave id = (s.wave id).map (fun v => { v with taken := taken }) := by
  refine Eq.trans ?_ (State.wave_modWaves (f := fun v => { v with taken := taken }) fun _ => rfl)
  unfold State.taking
  dsimp only
  split
  · rfl
  · split <;> rfl

theorem State.wave_sendPasses (taken : List Nat) : (s.sendPasses id taken).wave id = s.wave id := by
  refine State.wave_congr ((State.pod_sendModule _ _ _).trans (State.foldl_keeps State.pod fun t i => ?_))
  rw [State.pod_sendModule, State.pod_sendModule]

end

/-- Settles O46: what a wave posts as it begins, what each station does to it, and what its leader takes. -/
theorem musterEvents : Obligations.MusterEvents := by
  unfold Obligations.MusterEvents
  intro s id w
  refine ⟨fun mod hcur => ⟨_, State.moduleWaveBegin_goes hcur, State.mem_agenda_beginModule mod (State.mem_agenda_post _ _ _),
    State.mem_agenda_post _ _ _, State.wave_beginModule mod⟩, State.podWaveBegin_goes, fun part hcur hw hg h0 h3 => ?_,
    fun place sta => State.merge_roll, fun place sta => State.merge_sums, fun place sta => State.merge_voids, fun hcur hw hg => ?_⟩
  · refine ⟨_, State.podWavePart_goes hcur hw hg h0 h3, ?_⟩
    rw [State.pod_sendPart]
    exact State.mem_agenda_post _ _ _
  · refine ⟨_, State.rollReturn_takes hcur hw hg, fun v hv => ?_⟩
    have hwave : (if id.pod then s.taking id (takeJobs w.roll (s.lastTaken id))
        else (s.taking id (takeJobs w.roll (s.lastTaken id))).sendPasses id (takeJobs w.roll (s.lastTaken id))).wave id =
        some { w with taken := takeJobs w.roll (s.lastTaken id) } := by
      split
      · rw [State.wave_taking, hw, Option.map_some]
      · rw [State.wave_sendPasses, State.wave_taking, hw, Option.map_some]
    have htaken := congrArg Wave.taken (Option.some.inj (hv.symm.trans hwave))
    dsimp only [State.lastTaken] at htaken
    exact htaken

end Sys2Proof.Machine

namespace Sys2Proof.Machine

/-! Jobs open, close and become free at their stations, manifests are read, stations reset and are repaired (02 R49 to R63; 14 R354). -/

section
variable {s : State} {sta : Nat} {job : BitVec 12} {v : Word}

/-! ## Closing -/

theorem State.stations_groupDone_closed (core : Nat) (g : Group) : (s.groupDone core g 0 true).stations = s.stations := by
  have hreply (c : CtxId) (e : EngQ) (seq ea : Nat) (write : State → State) :
      (s.commandReply c e seq ea 7 write).stations = s.stations := by
    unfold State.commandReply
    split
    · split
      · rfl
      · rw [if_pos (by decide)]
        rfl
    · rfl
  unfold State.groupDone
  dsimp only
  cases g.want with
  | place c e seq ea space off => exact hreply c e seq ea _
  | done c e seq ea => exact hreply c e seq ea _
  | _ => rfl

theorem State.stations_closeCtx (c : CtxId) : (s.closeCtx c).stations = s.stations := by
  refine (State.foldl_keeps State.stations ?_).trans rfl
  exact fun t g => (State.stations_groupDone_closed _ _).trans rfl

theorem State.jobs_countTaken (core : Nat) (j : BitVec 12) (n : Nat) : ((s.countTaken core j).sta n).jobs = (s.sta n).jobs := by
  unfold State.countTaken
  split
  · rfl
  · exact State.sta_modSta_keeps Station.jobs s _ _ fun _ => rfl

theorem State.jobState_congr {t : State} (h : (t.sta sta).jobs = (s.sta sta).jobs) : t.jobState sta job = s.jobState sta job := by
  rw [State.jobState, State.jobState, h]

/-- The open entries of a job discarded at the cores of its station, and its contexts closed there. -/
def State.discardJob (s : State) (sta : Nat) (job : BitVec 12) : State :=
  ((s.cores.map Prod.fst).filter (fun k => stationOf k == sta)).foldl (fun t k =>
    ((t.core k).comb.filter (fun e => e.isOpen && e.job == job)).foldl (fun t _ => t.countTaken k job)
      (t.modCore k (fun x => { x with comb := x.comb.filter (fun e => !(e.isOpen && e.job == job)) }))) s

def State.closeJob (s : State) (sta : Nat) (job : BitVec 12) : State :=
  ((s.discardJob sta job).ctxsAt sta job).foldl (fun t c => t.closeCtx c) (s.discardJob sta job)

theorem State.jobCloseNotice_closes (hcur : s.cur = some (.jobCloseNotice sta job)) (hj : job ≠ 0) : exec .jobCloseNotice s =
    .next ((s.modSta sta (fun t => { t with jobs := Sp.set .free t.jobs job.toNat .closing })).closeJob sta job) := by
  rw [exec_jobCloseNotice]
  simp only [execJobCloseNotice, hcur, if_neg hj]
  rfl

theorem State.jobs_closeJob (n : Nat) : ((s.closeJob sta job).sta n).jobs = (s.sta n).jobs := by
  have hdiscard : ((s.discardJob sta job).sta n).jobs = (s.sta n).jobs :=
    State.foldl_keeps (fun t => (t.sta n).jobs) fun t k =>
      (State.foldl_keeps (fun t => (t.sta n).jobs) fun u _ => State.jobs_countTaken k job n).trans rfl
  refine Eq.trans ?_ hdiscard
  exact State.foldl_keeps (fun t => (t.sta n).jobs) fun t c =>
    congrArg (fun m => (Sp.get Station.reset m n).jobs) (State.stations_closeCtx (s := t) c)

theorem State.jobState_of_jobs {t : State} {x : JobState} (hj : job ≠ 0) (h : (t.sta sta).jobs = Sp.set .free (s.sta sta).jobs job.toNat x) :
    t.jobState sta job = x := by
  rw [State.jobState, if_neg hj, h, Sp.get_set, if_pos rfl]

/-! ## Becoming free -/

/-- A station without a job's entries. -/
def Station.without (job : BitVec 12) (t : Station) : Station :=
  { t with
    jobs := Sp.erase t.jobs job.toNat, inj := Sp.erase t.inj job.toNat, con := Sp.erase t.con job.toNat, los := Sp.erase t.los job.toNat }

theorem State.jobFreeNotice_frees (hcur : s.cur = some (.jobFreeNotice sta job)) (hj : job ≠ 0) :
    ∃ t, exec .jobFreeNotice s = .next t ∧ t.sta sta = Station.without job (s.sta sta) := by
  rw [exec_jobFreeNotice]
  simp only [execJobFreeNotice, hcur, if_neg hj]
  refine ⟨_, rfl, (State.foldl_keeps (fun t => t.sta sta) ?_).trans (State.sta_modSta_self s sta _)⟩
  exact fun _ _ => rfl

/-! ## Station reset -/

theorem State.pod_logLoss (slot : Slot) (cause : Nat) : (s.logLoss sta slot cause).pod = s.pod := rfl

theorem State.pod_emptyHop (h : HopId) : (s.emptyHop h).pod = s.pod := by
  exact (State.foldl_keeps State.pod fun _ _ => State.pod_logLoss _ _).trans rfl

/-- The slots in ejection at a station, and those that a pair's core of it holds, are gone. -/
def State.dropSlots (s : State) (sta : Nat) : State :=
  { s with
    agenda := s.agenda.filter (fun (e : Nat × Event) => !(inEjection sta e.2 && decide (e.1 ≤ s.clk + 4)))
    cores := s.cores.map (fun (e : Nat × CoreSt) => if stationOf e.1 = sta then (e.1, { e.2 with pairWait := [] }) else e) }

/-- The hops of a station empty. -/
def State.emptyHops (s : State) (sta : Nat) : State :=
  [HopId.mk sta false false, ⟨sta, false, true⟩, ⟨sta, true, false⟩, ⟨sta, true, true⟩].foldl (fun t h => t.emptyHop h) s

/-- A station right after its reset. -/
def Station.emptied (t : Station) : Station :=
  { t with inj := [], con := [], los := [], outq := [], refusing := [], unrepaired := true }

/-- The waves that pass a station are void. -/
def State.voidWaves (s : State) (sta : Nat) : State := s.modWaves (fun w => w.passes sta) (fun w => { w with void := true })

/-- The reset notice of a station to a module (02 R58). -/
def resetNotice (sta m : Nat) : Slot := stationSlot sta 11 0 m (8 + (m + sta % 16) % 4) 0 0 3 []

def State.sendResets (s : State) (sta : Nat) : State := s.pod.mods.foldl (fun t m => t.enqueue sta (resetNotice sta m) t.clk) s

theorem State.stationReset_goes (hcur : s.cur = some (.stationReset sta)) : exec .stationReset s =
    .next (State.sendResets ((((s.dropSlots sta).emptyHops sta).modSta sta Station.emptied).voidWaves sta) sta) := by
  rw [exec_stationReset]
  unfold execStationReset
  split
  next n h =>
    cases hcur.symm.trans h
    extract_lets dropped empty
    have hempty : empty = (s.dropSlots sta).emptyHops sta := rfl
    clear_value empty
    rw [← hempty]
    rfl
  next h => exact absurd hcur (h _)

theorem State.pod_emptyHops : (s.emptyHops sta).pod = s.pod := State.foldl_keeps State.pod fun _ h => State.pod_emptyHop h

theorem State.void_voidWaves : ∀ w ∈ (s.voidWaves sta).pod.waves, w.passes sta = true → w.void = true := by
  intro w hw hp
  obtain ⟨w', -, rfl⟩ := List.mem_map.1 hw
  by_cases h : w'.passes sta = true
  · rw [if_pos h]
  · rw [if_neg h] at hp
    exact absurd hp h

theorem State.mods_voidWaves : (s.voidWaves sta).pod.mods = s.pod.mods := rfl

theorem State.pod_modSta (n : Nat) (f : Station → Station) : (s.modSta n f).pod = s.pod := rfl

theorem State.sta_voidWaves (n : Nat) : (s.voidWaves n).sta sta = s.sta sta := rfl

theorem State.pod_sendResets : (s.sendResets sta).pod = s.pod := by
  refine (State.foldl_keeps State.pod ?_).trans rfl
  exact fun _ _ => rfl

/-- What a station holds but for its outgoing slots. -/
def Station.counts (t : Station) : Sp Nat × Sp Nat × Sp Nat × Bool := (t.inj, t.con, t.los, t.unrepaired)

theorem State.counts_enqueue (n : Nat) (slot : Slot) (due : Nat) : ((s.enqueue n slot due).sta sta).counts = (s.sta sta).counts :=
  State.sta_modSta_keeps Station.counts s n sta (f := fun y => { y with outq := y.outq ++ [(due + 4, slot)] }) fun _ => rfl

theorem State.counts_sendResets : ((s.sendResets sta).sta sta).counts = (s.sta sta).counts :=
  State.foldl_keeps (fun t => (t.sta sta).counts) fun _ _ => State.counts_enqueue _ _ _

theorem State.outq_enqueue (slot : Slot) (due : Nat) : ((s.enqueue sta slot due).sta sta).outq = (s.sta sta).outq ++ [(due + 4, slot)] :=
  congrArg Station.outq (State.sta_modSta_self s sta fun y => { y with outq := y.outq ++ [(due + 4, slot)] })

/-- A notice to each module stands among the outgoing slots. -/
theorem State.mem_outq_sendResets {m : Nat} (hm : m ∈ s.pod.mods) :
    ∃ q ∈ ((s.sendResets sta).sta sta).outq, q.2 = resetNotice sta m := by
  refine foldl_establishes (P := fun t : State => ∃ q ∈ (t.sta sta).outq, q.2 = resetNotice sta m) hm (fun t n ht => ?_) (fun t => ?_) s
  · obtain ⟨q, hq, he⟩ := ht
    exact ⟨q, State.outq_enqueue (s := t) _ _ ▸ List.mem_append.2 (.inl hq), he⟩
  · exact ⟨_, State.outq_enqueue (s := t) _ _ ▸ List.mem_append.2 (.inr (List.mem_singleton.2 rfl)), rfl⟩

/-- A station right after its reset: its counters, its mark, and a notice to each module on its way. -/
theorem State.stationReset_resets (hcur : s.cur = some (.stationReset sta)) : ∃ t, exec .stationReset s = .next t ∧
    (t.sta sta).counts = ([], [], [], true) ∧ (∀ w ∈ t.pod.waves, w.passes sta = true → w.void = true) ∧
    ∀ m ∈ s.pod.mods, ∃ q ∈ (t.sta sta).outq, q.2 = resetNotice sta m := by
  refine ⟨_, State.stationReset_goes hcur, ?_, ?_, fun m hm => State.mem_outq_sendResets ?_⟩
  · rw [State.counts_sendResets, State.sta_voidWaves, State.sta_modSta_self]
    rfl
  · rw [State.pod_sendResets]
    exact State.void_voidWaves
  · rw [State.mods_voidWaves, State.pod_modSta, State.pod_emptyHops]
    exact hm

/-! ## Repair -/

/-- The delta that MREPAIR adds is the signed value of its 32 bits, modulo 2^48 (14 R354). -/
theorem addDelta_signed (t : Sp Nat) (j : Nat) (d : BitVec 32) :
    ((Sp.get 0 (addDelta t j d.toNat) j : Nat) : Int) = (((Sp.get 0 t j : Nat) : Int) + d.toInt) % 2 ^ 48 := by
  rw [addDelta, Sp.get_set, if_pos rfl, BitVec.toInt_eq_toNat_cond]
  have hd := d.isLt
  split <;> split <;> omega

theorem wfield_high (v : Word) : wfield v 32 32 = ((v >>> 32).setWidth 32).toNat := by
  rw [wfield, fieldOf, BitVec.toNat_setWidth, BitVec.toNat_ushiftRight]

/-- A station's counters after MREPAIR of the first kind, which adds to those injected. -/
def Station.repair (v : Word) (t : Station) : Station :=
  if wbit v 31 then { t with inj := addDelta t.inj (wfield v 0 12) (wfield v 32 32), unrepaired := false }
  else { t with inj := addDelta t.inj (wfield v 0 12) (wfield v 32 32) }

theorem State.mrepairArrival_repairs {i : StreamId} {id : Nat} (hcur : s.cur = some (.mrepairArrival sta v i id)) (hk : wfield v 28 2 = 0) :
    ∃ t, exec .mrepairArrival s = .next t ∧ t.sta sta = Station.repair v (s.sta sta) := by
  rw [exec_mrepairArrival]
  simp only [execMrepairArrival, hcur, hk]
  exact ⟨_, rfl, State.sta_modSta_self s sta (Station.repair v)⟩

theorem Station.repair_unrepaired (t : Station) : (Station.repair v t).unrepaired = (t.unrepaired && !wbit v 31) := by
  unfold Station.repair
  split
  next h => rw [h]; exact (Bool.and_false _).symm
  next h => rw [Bool.eq_false_iff.2 h]; exact (Bool.and_true _).symm

theorem Station.repair_inj (t : Station) : (Station.repair v t).inj = addDelta t.inj (wfield v 0 12) (wfield v 32 32) := by
  unfold Station.repair
  split <;> rfl

theorem Station.repair_con (t : Station) : (Station.repair v t).con = t.con := by
  unfold Station.repair
  split <;> rfl

end

/-- Settles O47: the notices by the job's entries at the station, the reset by what it leaves and sends, MREPAIR by its signed delta. -/
theorem jobEvents : Obligations.JobEvents := by
  unfold Obligations.JobEvents
  intro s sta job v
  refine ⟨fun hcur => ⟨fun hf => ?_, fun hf => ?_⟩, fun hcur => ⟨fun hj => ?_, fun hj => ?_⟩, fun hcur hj => ?_, fun hcur => ?_, fun hcur => ?_,
    fun hcur => ?_, fun hcur => ?_, fun hcur => ?_, fun i id hcur hk => ?_, fun i id hcur hs => ⟨fun hw => ?_, fun hn hl => ?_⟩⟩
  · rw [exec_jobOpenNotice]
    simp only [execJobOpenNotice, hcur, if_pos hf]
  · rw [exec_jobOpenNotice]
    simp only [execJobOpenNotice, hcur, if_neg hf]
  · rw [exec_jobCloseNotice]
    simp only [execJobCloseNotice, hcur, if_pos hj]
  · refine ⟨_, State.jobCloseNotice_closes hcur hj, State.jobState_of_jobs (s := s) hj ?_,
      mem_of_memNext (State.jobCloseNotice_closes hcur hj) (execJobCloseNotice_memNext s rfl)⟩
    rw [State.jobs_closeJob, State.sta_modSta_self]
  · obtain ⟨t, hexec, ht⟩ := State.jobFreeNotice_frees hcur hj
    refine ⟨t, hexec, ?_, ?_, ?_, ?_⟩
    · rw [State.jobState, if_neg hj, ht]
      exact Sp.get_erase_self _ _ _
    all_goals
      rw [ht]
      exact Sp.get_erase_self _ _ _
  · rw [exec_manselWrite]
    simp only [execManselWrite, hcur]
    refine ⟨_, rfl, ?_⟩
    rw [State.sta_modSta_self]
    exact ⟨rfl, rfl, rfl, rfl⟩
  · rw [exec_jopenWrite]
    simp only [execJopenWrite, hcur]
    exact (apply_ite Host.Outcome.next _ _ _).symm
  · rw [exec_jcloseWrite]
    simp only [execJcloseWrite, hcur]
    exact (apply_ite Host.Outcome.next _ _ _).symm
  · rw [exec_losscntClear]
    simp only [execLosscntClear, hcur]
  · obtain ⟨t, hexec, hcounts, hvoid, hout⟩ := State.stationReset_resets hcur
    obtain ⟨hinj, hcon, hlos, hunr⟩ := by simpa only [Station.counts, Prod.mk.injEq] using hcounts
    refine ⟨t, hexec, hinj, hcon, hlos, hunr, hvoid, fun m hm => ?_⟩
    obtain ⟨q, hq, he⟩ := hout m hm
    exact ⟨q, hq, by rw [he]; rfl, by rw [he]; rfl, by rw [he]; rfl⟩
  · obtain ⟨t, hexec, ht⟩ := State.mrepairArrival_repairs hcur hk
    refine ⟨t, hexec, ?_, ?_, ?_⟩ <;> rw [ht]
    · rw [Station.repair_inj, wfield_high]
      exact addDelta_signed _ _ _
    · exact Station.repair_con _
    · exact Station.repair_unrepaired _
  · rw [exec_mrepairNoAnswer]
    simp only [execMrepairNoAnswer, hcur, hs, List.append_nil, List.any_append, hw, Bool.true_or, if_true]
  · have hnone : (s.strm i).pend.any (fun p => p.id == id && p.inter && p.land == 0) = false :=
      List.any_eq_false.2 fun p hp => by simp [by simpa using List.all_eq_true.1 hn p hp]
    rw [exec_mrepairNoAnswer]
    simp only [execMrepairNoAnswer, hcur, hs, hl, List.append_nil, hnone, Bool.false_eq_true, if_false]

end Sys2Proof.Machine

namespace Sys2Proof.Machine

/-! Freezes, self-tests, uncorrectable errors and the comparisons of redundant pairs (07 R185 to R187; 04 R98 to R103, R109). -/

section
variable {s : State} {core : Nat} {u : UnitId} {passes : Bool} {slot : Slot}

/-! ## The begin of a freeze -/

theorem State.frozenWith_alone (h : s.partner ⟨core, (s.core core).active⟩ = none) : s.frozenWith core = [core] := by
  rw [State.frozenWith, h]

/-- The state of a core frozen anew (07 R185). -/
def State.freezeAnew (s : State) (core : Nat) : State :=
  ([0, 1].foldl (fun t b => t.modCtx ⟨core, b⟩ (fun x => if x.resident then x.pause s.clk 40 else x))
    (s.modCore core (fun k => { k.pause s.clk 40 with freeze := some (s.clk + 40) }))).post (s.clk + 40) (.eccFreezeEnd core)

theorem State.freezeCore_anew (hf : s.frozen core = false) : s.freezeCore core = s.freezeAnew core := by
  unfold State.freezeCore
  simp only [hf, Bool.false_eq_true, if_false]
  rfl

theorem State.freeze_freezeAnew : ((s.freezeAnew core).core core).freeze = some (s.clk + 40) :=
  congrArg CoreSt.freeze (State.core_modCore_self s core fun k => { k.pause s.clk 40 with freeze := some (s.clk + 40) })

theorem State.eccFreezeBegin_freezes (hcur : s.cur = some (.eccFreezeBegin core u passes)) (hp : s.partner ⟨core, (s.core core).active⟩ = none)
    (hf : s.frozen core = false) :
    ∃ t : State, t.clk = s.clk ∧ exec .eccFreezeBegin s = .next ((t.freezeAnew core).post (s.clk + 40) (.selfTestEnd (dieOf core) u passes)) := by
  rw [exec_eccFreezeBegin]
  simp only [execEccFreezeBegin, hcur]
  have hone (m f n : Nat) : (s.countErr m f n).frozenWith core = [core] := State.frozenWith_alone hp
  have hcold (m f n : Nat) : (s.countErr m f n).frozen core = false := hf
  rw [hone, List.foldl_cons, List.foldl_nil, State.freezeCore_anew (hcold _ _ _)]
  exact ⟨s.countErr _ _ _, rfl, rfl⟩

/-! ## The end of a freeze -/

/-- A context in normal mode behind by the 40 clk of a freeze, which is counted (07 R186, R187). -/
def Ctx.thawed (x : Ctx) : Ctx :=
  { x with
    c := x.c.slipBy 40
    a := x.a.slipBy 40
    v := x.v.slipBy 40
    freezes := x.freezes + 1 }

theorem Ctx.resident_of_onTime {x : Ctx} (h : x.onTime = true) : x.resident = true := by
  unfold Ctx.onTime at h
  simp only [Bool.and_eq_true] at h
  exact h.1.1

theorem State.ctx_slipActive (n : Nat) (h : (s.ctx (s.issuing core)).onTime = true) : (s.slipActive core n).ctx (s.issuing core) =
    { s.ctx (s.issuing core) with
      c := (s.ctx (s.issuing core)).c.slipBy n
      a := (s.ctx (s.issuing core)).a.slipBy n
      v := (s.ctx (s.issuing core)).v.slipBy n } := by
  rw [State.slipActive, State.ctx_modCtx_self, if_pos h]

theorem State.eccFreezeEnd_thaws (hcur : s.cur = some (.eccFreezeEnd core)) (hf : (s.core core).freeze = some s.clk)
    (ht : (s.ctx (s.issuing core)).onTime = true) (h0 : (s.ctx (s.issuing core)).freezes = 0) (hg : (s.ctx (s.issuing core)).guarded = true) :
    ∃ t, exec .eccFreezeEnd s = .next t ∧ (t.core core).freeze = none ∧ t.ctx (s.issuing core) = (s.ctx (s.issuing core)).thawed := by
  have hissue : (s.modCore core (fun k => { k with freeze := none })).issuing core = s.issuing core := by
    rw [State.issuing, State.core_modCore_self]
    rfl
  have hctx := State.ctx_slipActive (s := s.modCore core (fun k => { k with freeze := none })) (core := core) 40 (hissue.symm ▸ ht)
  rw [hissue] at hctx
  have hcore : ((s.modCore core (fun k => { k with freeze := none })).core core).freeze = none :=
    congrArg CoreSt.freeze (State.core_modCore_self s core _)
  have hcold : (((s.modCore core (fun k => { k with freeze := none })).slipActive core 40).core core).freeze = none :=
    (congrArg CoreSt.freeze (State.core_modCtx _ _ _ _)).trans hcore
  generalize hu : (s.modCore core (fun k => { k with freeze := none })).slipActive core 40 = t at hctx hcold
  have hres : (t.ctx (s.issuing core)).resident = true := hctx ▸ Ctx.resident_of_onTime ht
  have hno : (t.ctx (s.issuing core)).freezes = 0 := hctx ▸ h0
  have hgd : (t.ctx (s.issuing core)).guarded = true := hctx ▸ hg
  rw [exec_eccFreezeEnd]
  simp only [execEccFreezeEnd, hcur, hf, hu, hres, hno, bne_self_eq_false, Bool.not_true, Bool.false_eq_true, if_false, if_neg (Nat.not_succ_le_zero 0)]
  refine ⟨_, rfl, hcold, ?_⟩
  rw [State.ctx_modCtx_self, hgd, Bool.true_or, if_pos rfl, hctx]
  rfl

end

/-- Settles O48: what a freeze sets and posts, what its end adds, and what a pair's comparison does. -/
theorem errorEvents : Obligations.ErrorEvents := by
  unfold Obligations.ErrorEvents
  intro s core u passes slot
  refine ⟨fun hcur hp hf => ?_, fun hcur hf => ?_, fun die hcur => ⟨fun hpass hk => ?_, fun hpass => ?_⟩, fun c a hcur hr hrec => ?_,
    fun die hcur => ?_, fun d second at_ hcur hp => ⟨fun n other rest hw => ⟨fun he => ?_, fun he => ?_⟩, fun hw => ?_⟩, fun n hcur hw => ?_⟩
  · obtain ⟨t, hclk, hexec⟩ := State.eccFreezeBegin_freezes hcur hp hf
    refine ⟨_, hexec, ?_, ?_, State.mem_agenda_post _ _ _, mem_of_memNext hexec (execEccFreezeBegin_memNext s rfl)⟩
    · exact hclk ▸ State.freeze_freezeAnew
    · exact State.mem_agenda_of_post (hclk ▸ State.mem_agenda_post _ _ _)
  · intro c ht h0 hg
    obtain ⟨t, hexec, hcold, hctx⟩ := State.eccFreezeEnd_thaws hcur hf ht h0 hg
    refine ⟨t, hexec, hcold, ?_⟩
    rw [hctx]
    exact ⟨congrArg (· + 1) h0, rfl, rfl, rfl⟩
  · rw [exec_selfTestEnd]
    simp only [execSelfTestEnd, hcur, if_pos hpass]
    refine congrArg Host.Outcome.next (if_neg ?_)
    simp only [Bool.or_eq_true, decide_eq_true_eq]
    omega
  · rw [exec_selfTestEnd]
    simp only [execSelfTestEnd, hcur, hpass, Bool.false_eq_true, if_false]
  · rw [exec_uncorrectableErrorConsumed]
    simp only [execUncorrectableErrorConsumed, hcur, hr, hrec, Bool.not_true, Bool.false_eq_true, if_false]
    rfl
  · rw [exec_memoryUncorrectableError]
    unfold execMemoryUncorrectableError
    split
    next d v p h =>
      cases hcur.symm.trans h
      exact ⟨_, _, rfl, rfl, Nat.le_add_right _ _, Nat.add_le_add_left (Nat.le_of_lt_succ (Nat.mod_lt _ (by decide))) _⟩
    next h => exact absurd hcur (h _ _ _)
  · rw [exec_pairSlotCompare]
    simp only [execPairSlotCompare, hcur, hp, hw, if_pos he]
  · rw [exec_pairSlotCompare]
    simp only [execPairSlotCompare, hcur, hp, hw, if_neg he]
  · rw [exec_pairSlotCompare]
    simp only [execPairSlotCompare, hcur, hp, hw]
    exact ⟨_, rfl, State.mem_agenda_post _ _ _⟩
  · rw [exec_pairCompareTimeout]
    simp only [execPairCompareTimeout, hcur, hw]

end Sys2Proof.Machine

namespace Sys2Proof.Machine

/-! Resurveys, the editions that they sign, what an edition does at E, and temperature (04 R87 to R97, R110, R115; 01 R11). -/

section
variable {s : State} {die m : Nat} {c d : CtxId} {p : Word}

/-! ## The contexts of a plat as other contexts change -/

theorem Sp.mem_erase_of_ne {α : Type} {t : Sp α} {e : Nat × α} {j : Nat} (he : e ∈ t) (hj : e.1 ≠ j) : e ∈ Sp.erase t j := by
  induction t with
  | nil => cases he
  | cons a t ih =>
    rw [Sp.erase]
    split
    next ha =>
      obtain rfl | he := List.mem_cons.1 he
      · exact absurd ha hj
      · exact ih he
    next =>
      obtain rfl | he := List.mem_cons.1 he
      · exact List.mem_cons_self
      · exact List.mem_cons_of_mem _ (ih he)

theorem Sp.mem_insert_of_mem {α : Type} {t : Sp α} {e : Nat × α} {j : Nat} (x : α) (he : e ∈ t) : e ∈ Sp.insert j x t := by
  induction t with
  | nil => cases he
  | cons a t ih =>
    rw [Sp.insert]
    split
    · exact List.mem_cons_of_mem _ he
    · obtain rfl | he := List.mem_cons.1 he
      · exact List.mem_cons_self
      · exact List.mem_cons_of_mem _ (ih he)

theorem Sp.mem_put_of_ne {α : Type} {t : Sp α} {e : Nat × α} {j : Nat} (x : α) (he : e ∈ t) (hj : e.1 ≠ j) : e ∈ Sp.put t j x :=
  Sp.mem_insert_of_mem x (Sp.mem_erase_of_ne he hj)

/-- A resident context of a plat is one still as another context changes. -/
theorem State.mem_ctxsOf_modCtx_ne {f : Ctx → Ctx} (h : c ∈ s.ctxsOf p) (hk : 2 * c.core + c.bank ≠ 2 * d.core + d.bank) :
    c ∈ (s.modCtx d f).ctxsOf p := by
  obtain ⟨hres, hplat⟩ := List.mem_filter.1 h
  obtain ⟨e, he, rfl⟩ := List.mem_map.1 hres
  obtain ⟨hmem, hr⟩ := List.mem_filter.1 he
  have hkey : e.1 ≠ 2 * d.core + d.bank := by
    dsimp only at hk
    omega
  refine List.mem_filter.2 ⟨List.mem_map.2 ⟨e, List.mem_filter.2 ⟨Sp.mem_put_of_ne _ hmem hkey, hr⟩, rfl⟩, ?_⟩
  rw [State.ctx_modCtx_ne s _ _ f hk]
  exact hplat

theorem State.plat_of_mem_ctxsOf (h : c ∈ s.ctxsOf p) : (s.ctx c).plat = p := by
  obtain ⟨-, hplat⟩ := List.mem_filter.1 h
  exact beq_iff_eq.1 (Bool.and_eq_true_iff.1 hplat).1

theorem State.mem_ctxsOf_foldl {f : Ctx → Ctx} {l : List CtxId} (hl : ∀ d ∈ l, 2 * c.core + c.bank ≠ 2 * d.core + d.bank) (h : c ∈ s.ctxsOf p) :
    c ∈ (l.foldl (fun t d => t.modCtx d f) s).ctxsOf p :=
  List.foldlRecOn (motive := fun t : State => c ∈ t.ctxsOf p) l _ h fun _ ht d hd => State.mem_ctxsOf_modCtx_ne ht (hl d hd)

/-! ## Stops asked of plats -/

/-- Contexts of two plats are different contexts. -/
theorem State.key_ne_of_plats {q : Word} (h : c ∈ s.ctxsOf p) (hd : d ∈ s.ctxsOf q) (hpq : q ≠ p) :
    2 * c.core + c.bank ≠ 2 * d.core + d.bank := by
  intro hk
  have hplat := State.plat_of_mem_ctxsOf h
  rw [State.ctx_of_key s hk, State.plat_of_mem_ctxsOf hd] at hplat
  exact hpq hplat

/-- A stop asked of another plat leaves a plat its contexts. -/
theorem State.mem_ctxsOf_askStop {q : Word} (h : c ∈ s.ctxsOf p) (hpq : q ≠ p) : c ∈ (s.askStop q).ctxsOf p := by
  have hkeys : ∀ d ∈ s.ctxsOf q, 2 * c.core + c.bank ≠ 2 * d.core + d.bank := fun d hd => State.key_ne_of_plats h hd hpq
  refine State.mem_ctxsOf_foldl hkeys ?_
  unfold State.nameStop
  dsimp only
  split
  · exact h
  · exact State.mem_ctxsOf_foldl hkeys h

theorem State.stopReq_modCtx (ht : (s.ctx c).stopReq = true) : ((s.modCtx d (fun x => { x with stopReq := true })).ctx c).stopReq = true := by
  by_cases hk : 2 * c.core + c.bank = 2 * d.core + d.bank
  · rw [State.ctx_of_key _ hk, State.ctx_modCtx_self]
  · rw [State.ctx_modCtx_ne s _ _ _ hk]
    exact ht

/-- A stop that is asked stays asked. -/
theorem State.stopReq_askStop (q : Word) (ht : (s.ctx c).stopReq = true) : ((s.askStop q).ctx c).stopReq = true := by
  refine List.foldlRecOn (motive := fun t : State => (t.ctx c).stopReq = true) _ _ ?_ fun t ht d _ => State.stopReq_modCtx ht
  unfold State.nameStop
  dsimp only
  split
  · exact ht
  · refine (State.foldl_keeps (fun t => (t.ctx c).stopReq) fun t d => ?_).trans ht
    exact State.ctx_modCtx_keeps Ctx.stopReq t d c fun _ => rfl

theorem State.stopReq_asked (h : c ∈ s.ctxsOf p) : ((s.askStop p).ctx c).stopReq = true := by
  refine foldl_establishes (P := fun t : State => (t.ctx c).stopReq = true) h (fun t d ht => State.stopReq_modCtx ht) (fun t => ?_) _
  rw [State.ctx_modCtx_self]

/-- Every context of a plat that is among those asked to stop is asked. -/
theorem State.stopReq_askAll {ps : List Word} (hp : p ∈ ps) (h : c ∈ s.ctxsOf p) :
    ((ps.foldl (fun t q => t.askStop q) s).ctx c).stopReq = true := by
  induction ps generalizing s with
  | nil => cases hp
  | cons q ps ih =>
    rw [List.foldl_cons]
    by_cases hq : q = p
    · rw [hq]
      exact List.foldlRecOn (motive := fun t : State => (t.ctx c).stopReq = true) ps _ (State.stopReq_asked h) fun t ht r _ => State.stopReq_askStop r ht
    · refine ih ?_ (State.mem_ctxsOf_askStop h hq)
      obtain rfl | hp := List.mem_cons.1 hp
      · exact absurd rfl hq
      · exact hp

theorem State.modules_askStop (q : Word) : (s.askStop q).modules = s.modules := by
  refine (State.foldl_keeps State.modules ?_).trans ?_
  · exact fun _ _ => rfl
  · unfold State.nameStop
    dsimp only
    split
    · rfl
    · refine (State.foldl_keeps State.modules ?_).trans rfl
      exact fun _ _ => rfl

/-- A module that a stop for temperature has reached. -/
def ModuleSt.heated (x : ModuleSt) : ModuleSt := { x with hot := true, notes := .thermalStop :: x.notes }

/-- The plats with a context on a module. -/
def State.platsOn (s : State) (m : Nat) : List Word := ((s.residents.filter (fun c => modOf c.core == m)).map (fun c => (s.ctx c).plat)).eraseDups

theorem State.thermalStop_goes (hcur : s.cur = some (.thermalStop m)) :
    exec .thermalStop s = .next ((s.platsOn m).foldl (fun t p => t.askStop p) (s.modMod m ModuleSt.heated)) := by
  rw [exec_thermalStop]
  simp only [execThermalStop, hcur]
  rfl

theorem State.plat_mem_platsOn (hr : c ∈ s.residents) (hm : modOf c.core = m) : (s.ctx c).plat ∈ s.platsOn m :=
  List.mem_eraseDups.2 (List.mem_map.2 ⟨c, List.mem_filter.2 ⟨hr, beq_iff_eq.2 hm⟩, rfl⟩)

/-! ## Resurveys -/

theorem State.resurveyEnd_idle {us : List UnitChange} {ls : List (Nat × Nat)} (hcur : s.cur = some (.resurveyEnd die us ls))
    (hr : (s.die die).survey.running = false) : exec .resurveyEnd s = .next s := by
  rw [exec_resurveyEnd]
  simp only [execResurveyEnd, hcur, hr, Bool.not_false, if_true]

/-- A die whose resurvey is over. -/
def DieSt.rested (d : DieSt) : DieSt := { d with survey := { d.survey with running := false } }

/-- A die with a unit's STATUS and CLASS set. -/
def DieSt.withUnit (u : UnitId) (status cls : Nat) (d : DieSt) : DieSt :=
  { d with survey := { d.survey with units := Sp.set 0 d.survey.units (256 * u.kind + u.index) (4 * status + cls) } }

theorem DieSt.unit_withUnit (u : UnitId) (status cls : Nat) (d : DieSt) (h : cls < 4) :
    (DieSt.withUnit u status cls d).unit u.kind u.index = (status, cls) := by
  have hget : Sp.get 0 (DieSt.withUnit u status cls d).survey.units (256 * u.kind + u.index) = 4 * status + cls := by
    rw [DieSt.withUnit, Sp.get_set, if_pos rfl]
  rw [DieSt.unit, hget]
  refine Prod.ext ?_ ?_
  · show (4 * status + cls) / 4 = status
    omega
  · show (4 * status + cls) % 4 = cls
    omega

theorem State.setUnit_changes {u : UnitId} {status cls : Nat} (h : (s.die die).unit u.kind u.index ≠ (status, cls)) :
    s.setUnit die u status cls = (s.modDie die (DieSt.withUnit u status cls),
      [⟨0, u.kind, u.index, status * 2 ^ 14 + cls * 2 ^ 12, false, false⟩]) := by
  rw [State.setUnit, if_neg h]
  rfl

/-- A unit in service that is found slower gets its new class. -/
theorem State.resurveyUnit_slower {u : UnitId} {cls : Nat} (hu : unitExists die u = true) (hk : hasClass u.kind = true)
    (h0 : ((s.die die).unit u.kind u.index).1 = 0) (hlt : ((s.die die).unit u.kind u.index).2 < cls) (h3 : cls < 3) :
    s.resurveyUnit die ⟨u, 0, cls⟩ = (s.modDie die (DieSt.withUnit u 0 cls), [⟨0, u.kind, u.index, 0 * 2 ^ 14 + cls * 2 ^ 12, false, false⟩]) := by
  have hne : (s.die die).unit u.kind u.index ≠ (0, cls) := fun h => by
    rw [h] at hlt
    exact Nat.lt_irrefl _ hlt
  have hset := State.setUnit_changes hne
  rw [State.resurveyUnit]
  simp only [hu, hk, h0, hlt, h3, Bool.not_true, Bool.false_or, Bool.true_and, Bool.true_or, decide_true, if_true]
  exact hset

/-- What signing an edition leaves of a die, and what it changes (04 R87, R92). -/
theorem State.signEdition_die {changes : List HistEntry} (h : changes.isEmpty = false) :
    ((s.signEdition die changes).die die).survey.units = (s.die die).survey.units ∧
    ((s.signEdition die changes).die die).survey.edition = nextEdition (s.die die).survey.edition ∧
    ((s.signEdition die changes).die die).survey.area = (!(s.die die).survey.area) ∧
    ((s.signEdition die changes).die die).survey.running = (s.die die).survey.running := by
  have hpost (t : State) (due : Nat) (e : Event) : (t.post due e).die die = t.die die := rfl
  rw [State.signEdition, h]
  simp only [Bool.false_eq_true, if_false, hpost]
  rw [State.publish]
  simp only [State.die_modDie_self]
  exact ⟨trivial, trivial, trivial, trivial⟩

theorem State.resurveyEnd_publishes {u : UnitId} {cls : Nat} (hcur : s.cur = some (.resurveyEnd die [⟨u, 0, cls⟩] []))
    (hr : (s.die die).survey.running = true) (hu : unitExists die u = true) (hk : hasClass u.kind = true)
    (h0 : ((s.die die).unit u.kind u.index).1 = 0) (hlt : ((s.die die).unit u.kind u.index).2 < cls) (h3 : cls < 3) :
    exec .resurveyEnd s = .next (((s.modDie die DieSt.rested).modDie die (DieSt.withUnit u 0 cls)).signEdition die
      [⟨0, u.kind, u.index, 0 * 2 ^ 14 + cls * 2 ^ 12, false, false⟩]) := by
  have hunit : ((s.modDie die DieSt.rested).die die).unit u.kind u.index = (s.die die).unit u.kind u.index := by
    rw [State.die_modDie_self]
    rfl
  have hone := State.resurveyUnit_slower (s := s.modDie die DieSt.rested) hu hk (hunit ▸ h0) (hunit ▸ hlt) h3
  rw [exec_resurveyEnd]
  simp only [execResurveyEnd, hcur, hr, Bool.not_true, Bool.false_eq_true, if_false, List.foldl_cons, List.foldl_nil, List.nil_append]
  exact congrArg (fun r : State × List HistEntry => Host.Outcome.next (r.1.signEdition die r.2)) hone

/-! ## Editions at E -/

/-- What an edition does at E to a plat, by how it touches it. -/
def State.touched (s : State) (p : PlatRec) (e : BitVec 32) (skip : List Word) : Touch → State
  | .no => s
  | .lock => s.overrunPlat p.plat 4
  | .change => if skip.contains p.plat then s else s.touchPlat p.plat e

theorem State.changePost_one {e : BitVec 32} {skip : List Word} {p : PlatRec} (hcur : s.cur = some (.surveyChangePost die e skip))
    (hp : s.allPlats = [p]) (hc : s.ctxsOf p.plat ≠ []) : exec .surveyChangePost s =
    .next (s.touched p e skip (s.editionTouch die p ((s.die die).survey.history.filter (fun h => h.edition == e.toNat)))) := by
  rw [exec_surveyChangePost]
  simp only [execSurveyChangePost, hcur, hp, List.foldl_cons, List.foldl_nil, hc, decide_false, Bool.false_and, Bool.false_eq_true, if_false]
  cases s.editionTouch die p ((s.die die).survey.history.filter (fun h => h.edition == e.toNat)) <;> rfl

theorem State.touchPlat_running {e : BitVec 32} (h1 : s.ctxsOf p = [c]) (hr : (s.ctx c).phase = .running) : s.touchPlat p e =
    (s.raiseAsync c 0x22 (e.setWidth 64)).modCtx c (fun x => { x with guarded := true }) := by
  have hrest : s.restsAt p = false := by
    rw [State.restsAt, h1]
    simp only [List.all_cons, hr]
    rfl
  rw [State.touchPlat, hrest, h1]
  rfl

end

/-- Settles O49: a resurvey's begin and end, an edition at E by how it touches the plat, and the two temperatures. -/
theorem surveyEvents : Obligations.SurveyEvents := by
  unfold Obligations.SurveyEvents
  intro s die m
  refine ⟨fun hcur => ?_, fun hr us ls hcur => State.resurveyEnd_idle hcur hr, fun hr hcur => ?_, fun u cls hcur hr hu hk h0 hlt h3 => ?_,
    fun e skip hcur hp => ?_, fun e skip p c hcur hp hs h1 hph ht => ?_, fun e skip p hcur hp hc ht => ?_, fun hcur => ?_, fun hcur => ?_⟩
  · refine ⟨s.clk + 1 + s.freeTime.1 % 52500000, by omega, ?_, ?_⟩
    · have := Nat.mod_lt s.freeTime.1 (by decide : 0 < 52500000)
      omega
    · rw [exec_periodicResurvey]
      unfold execPeriodicResurvey
      split
      next d h =>
        cases hcur.symm.trans h
        rfl
      next h => exact absurd hcur (h _)
  · rw [exec_resurveyEnd]
    simp only [execResurveyEnd, hcur, hr, Bool.not_true, Bool.false_eq_true, if_false, List.foldl_nil]
    rfl
  · have hexec := State.resurveyEnd_publishes hcur hr hu hk h0 hlt h3
    obtain ⟨hunits, hed, harea, hrun⟩ := State.signEdition_die (die := die) (s := (s.modDie die DieSt.rested).modDie die (DieSt.withUnit u 0 cls))
      (changes := [⟨0, u.kind, u.index, 0 * 2 ^ 14 + cls * 2 ^ 12, false, false⟩]) rfl
    rw [State.die_modDie_self, State.die_modDie_self] at hunits hed harea hrun
    refine ⟨_, hexec, ?_, hed, harea, hrun, mem_of_memNext hexec (execResurveyEnd_memNext s rfl)⟩
    rw [← DieSt.unit_withUnit u 0 cls (s.die die).rested (Nat.lt_succ_of_lt h3), DieSt.unit, hunits]
    rfl
  · rw [exec_surveyChangePost]
    simp only [execSurveyChangePost, hcur, hp, List.foldl_nil]
  · rw [State.changePost_one hcur hp (by rw [h1]; exact List.cons_ne_nil _ _), ht]
    refine congrArg Host.Outcome.next ?_
    exact (if_neg (fun h => hs (List.contains_iff_mem.1 h))).trans (State.touchPlat_running h1 hph)
  · rw [State.changePost_one hcur hp hc, ht]
    rfl
  · have hmodules : ((s.platsOn m).foldl (fun t p => t.askStop p) (s.modMod m ModuleSt.heated)).modules = (s.modMod m ModuleSt.heated).modules :=
      State.foldl_keeps State.modules fun t q => State.modules_askStop q
    have hmodu : ((s.platsOn m).foldl (fun t p => t.askStop p) (s.modMod m ModuleSt.heated)).modu m = (s.modu m).heated := by
      rw [State.modu, hmodules]
      exact State.modu_modMod_self s m ModuleSt.heated
    refine ⟨_, State.thermalStop_goes hcur, ?_, ?_, fun c hr hm hc => ?_⟩
    · rw [hmodu]
      rfl
    · rw [hmodu]
      rfl
    · exact State.stopReq_askAll (State.plat_mem_platsOn hr hm) hc
  · rw [exec_thermalPowerOff]
    simp only [execThermalPowerOff, hcur]

end Sys2Proof.Machine

namespace Sys2Proof.Machine

/-! The scheduler of a die: deadlines, verdicts, ageing, quanta, forced stops, and where a stopped plat is judged again (05 R128 to R137). -/

section
variable {s : State} {die k : Nat} {plat : Word} {p : PlatRec}

/-! ## Readiness deadlines -/

theorem State.deadline_other (hp : (s.die die).plat plat = some p) (hcur : s.cur = some (.readinessDeadline die plat k)) (hc : p.code ≠ 1) :
    exec .readinessDeadline s = .next s := by
  rw [exec_readinessDeadline]
  simp only [execReadinessDeadline, hcur, hp, bne_iff_ne.2 hc, Bool.true_or, if_true]

/-- A waiting plat whose predecessor does not pass is withdrawn. -/
theorem State.deadline_late {i : Nat} (hp : (s.die die).plat plat = some p) (hcur : s.cur = some (.readinessDeadline die plat k)) (hc : p.code = 1)
    (hdue : s.releaseDue die plat = false) (hl : (s.requestCores die p).latePred die p = some i) : exec .readinessDeadline s =
    .next ((if 1 < p.diesOf.length then (s.requestCores die p).sendVerdict die p k 0 else s.requestCores die p).withdraw die plat 0x16 i) := by
  rw [exec_readinessDeadline]
  simp only [execReadinessDeadline, hcur, hp, hc, hdue, hl, bne_self_eq_false, Bool.or_self, Bool.false_eq_true, if_false, decide_eq_true_eq]

/-- A waiting plat that is ready takes its banks. -/
theorem State.deadline_ready {cs : List CtxId} (hp : (s.die die).plat plat = some p) (hcur : s.cur = some (.readinessDeadline die plat k))
    (hc : p.code = 1) (hdue : s.releaseDue die plat = false) (hl : (s.requestCores die p).latePred die p = none)
    (hb : (s.requestCores die p).readyBanks die p (p.start + k * p.frame) = some cs)
    (hset : (decide (1 < p.diesOf.length) || cs.all (s.requestCores die p).bankSet) = true) : exec .readinessDeadline s =
    .next (if 1 < p.diesOf.length then
        ((((s.requestCores die p).takeBanks die plat cs).sendVerdict die p k 1).post (p.start + k * p.frame - 1024)
          (.verdictTimeout die plat k)).nextCandidate die p k
      else ((s.requestCores die p).takeBanks die plat cs).postNow (.platRelease die plat k)) := by
  rw [exec_readinessDeadline]
  simp only [execReadinessDeadline, hcur, hp, hc, hdue, hl, hb, hset, Option.filter_some, bne_self_eq_false, Bool.or_self, Bool.false_eq_true, if_false,
    if_true, decide_eq_true_eq]
  exact (apply_ite Host.Outcome.next _ _ _).symm

/-- A waiting plat that is neither late nor ready is looked at again. -/
theorem State.deadline_missed (hp : (s.die die).plat plat = some p) (hcur : s.cur = some (.readinessDeadline die plat k))
    (hc : p.code = 1) (hdue : s.releaseDue die plat = false) (hl : (s.requestCores die p).latePred die p = none) (hv : p.verdicts = [])
    (hno : ∀ cs, (s.requestCores die p).readyBanks die p (p.start + k * p.frame) = some cs →
      (decide (1 < p.diesOf.length) || cs.all (s.requestCores die p).bankSet) = false) : exec .readinessDeadline s =
    .next (State.nextCandidate (if 1 < p.diesOf.length then
        (((s.requestCores die p).modPlat die plat (fun q => { q with banks := [] })).sendVerdict die p k 2).post (p.start + k * p.frame - 1024)
          (.verdictTimeout die plat k)
      else (s.requestCores die p).modPlat die plat (fun q => { q with banks := [] })) die p k) := by
  have hnone : ((s.requestCores die p).readyBanks die p (p.start + k * p.frame)).filter
      (fun cs => decide (1 < p.diesOf.length) || cs.all (s.requestCores die p).bankSet) = none :=
    Option.filter_eq_none_iff.2 fun cs hcs => by simp [hno cs hcs]
  rw [exec_readinessDeadline]
  simp only [execReadinessDeadline, hcur, hp, hc, hdue, hl, hnone, hv, List.any_nil, bne_self_eq_false, Bool.or_self, Bool.false_eq_true, if_false,
    decide_eq_true_eq]

/-! ## Verdicts -/

theorem State.verdict_failed {frm : Nat} (hp : (s.die die).plat plat = some p) (hcur : s.cur = some (.readinessVerdict die plat frm k 0))
    (hc : p.code = 1) : exec .readinessVerdict s = .next (s.withdraw die plat 0x17 frm) := by
  rw [exec_readinessVerdict]
  simp only [execReadinessVerdict, hcur, hp, hc, bne_self_eq_false, Bool.false_eq_true, if_false, if_true]

theorem State.verdict_noted {frm v : Nat} (hp : (s.die die).plat plat = some p) (hcur : s.cur = some (.readinessVerdict die plat frm k v))
    (hc : p.code = 1) (hv : v ≠ 0) :
    exec .readinessVerdict s = .next (s.modPlat die plat (fun q => { q with verdicts := (frm, k, v) :: q.verdicts })) := by
  rw [exec_readinessVerdict]
  simp only [execReadinessVerdict, hcur, hp, hc, bne_self_eq_false, Bool.false_eq_true, if_false, if_neg hv]

/-- The verdict that a plat has of a die for a candidate. -/
def PlatRec.verdictOf (p : PlatRec) (k d : Nat) : Option Nat := (p.verdicts.find? (fun v => v.1 == d && v.2.1 == k)).map (fun v => v.2.2)

/-- The first verdict that is missing withdraws the plat on every die that knows it. -/
theorem State.verdictTimeout_missing {ds es : List Nat} {d : Nat} (hp : (s.die die).plat plat = some p)
    (hcur : s.cur = some (.verdictTimeout die plat k)) (hc : p.code = 1) (hds : p.diesOf = ds ++ d :: es) (hd : p.verdictOf k d = none)
    (hes : ∀ e ∈ ds, p.verdictOf k e ≠ none) : exec .verdictTimeout s =
    .next (p.diesOf.foldl (fun t e => if ((t.die e).plat plat).isSome then t.withdraw e plat 0x17 d else t) s) := by
  have hfirst : p.diesOf.find? (fun d => (p.verdictOf k d).isNone) = some d := by
    rw [hds, List.find?_append, List.find?_eq_none.2 fun e he => by simpa using hes e he]
    exact List.find?_cons_of_pos (p := fun d => (p.verdictOf k d).isNone) (by rw [hd]; rfl)
  unfold PlatRec.verdictOf at hfirst
  rw [exec_verdictTimeout]
  simp only [execVerdictTimeout, hcur, hp, hc, hfirst, bne_self_eq_false, Bool.false_eq_true, if_false]

/-- With no verdict missing the plat is released where all of them are ready. -/
theorem State.verdictTimeout_present (hp : (s.die die).plat plat = some p) (hcur : s.cur = some (.verdictTimeout die plat k)) (hc : p.code = 1)
    (hes : ∀ e ∈ p.diesOf, p.verdictOf k e ≠ none) : exec .verdictTimeout s =
    .next (if p.diesOf.all (fun d => p.verdictOf k d == some 1) then s.post (p.start + k * p.frame - 8) (.platRelease die plat k) else s) := by
  have hnone : p.diesOf.find? (fun d => (p.verdictOf k d).isNone) = none := List.find?_eq_none.2 fun e he => by simpa using hes e he
  unfold PlatRec.verdictOf at hnone
  rw [exec_verdictTimeout]
  simp only [execVerdictTimeout, hcur, hp, hc, hnone, bne_self_eq_false, Bool.false_eq_true, if_false]
  exact (apply_ite Host.Outcome.next _ _ _).symm

/-! ## Ageing, quanta and forced stops -/

theorem State.aging_raises (hp : (s.die die).plat plat = some p) (hcur : s.cur = some (.priorityAging die plat)) (hc : p.code = 1 ∨ p.code = 3)
    (hd : p.since + (p.age + 1) * 2 ^ 20 = s.clk) : exec .priorityAging s = .next (State.requestCores
      (if p.age < 3 then (s.modPlat die plat (fun q => { q with age := q.age + 1 })).post (s.clk + 2 ^ 20) (.priorityAging die plat)
        else s.modPlat die plat (fun q => { q with age := q.age + 1 })) die { p with age := p.age + 1 }) := by
  have hcode : (p.code == 1 || p.code == 3) = true := by simpa using hc
  rw [exec_priorityAging]
  simp only [execPriorityAging, hcur, hp, hcode, beq_iff_eq.2 hd, Bool.and_self, Bool.not_true, Bool.false_eq_true, if_false]
  rfl

theorem State.quantum_preempts {w : PlatRec} (hp : (s.die die).plat plat = some p) (hcur : s.cur = some (.runQuantumExpiry die plat))
    (hc : p.code = 2) (hs : p.since + 2 ^ 20 ≤ s.clk) (hw : w ∈ (s.die die).plats) (hcw : w.code = 1 ∨ w.code = 3)
    (hr : s.outranks w.rank p = true) (ho : (s.occupants die w).any (fun q => q.plat == plat) = true) :
    exec .runQuantumExpiry s = .next (s.preempt plat) := by
  have hany : (s.die die).plats.any (fun w => (w.code == 1 || w.code == 3) && s.outranks w.rank p &&
      (s.occupants die w).any (fun q => q.plat == plat)) = true := by
    refine List.any_eq_true.2 ⟨w, hw, ?_⟩
    rw [hr, ho]
    simpa using hcw
  rw [exec_runQuantumExpiry]
  simp only [execRunQuantumExpiry, hcur, hp, hc, decide_eq_true hs, hany, decide_true, Bool.and_self, if_true]

theorem State.forcedStop_unasked (hp : (s.die die).plat plat = some p) (hcur : s.cur = some (.forcedStop die plat)) (ha : p.asked = none) :
    exec .forcedStop s = .next s := by
  rw [exec_forcedStop]
  simp only [execForcedStop, hcur, hp, ha, Option.any_none, Bool.and_false, Bool.not_false, if_true]

/-- Whether a time is over, for any delay: of a number written out, the kernel would count it. -/
theorem any_over {n t0 clk : Nat} (h : t0 + n ≤ clk) : (some t0).any (fun t => decide (t + n ≤ clk)) = true := decide_eq_true h

theorem State.forcedStop_empty {t0 : Nat} (hp : (s.die die).plat plat = some p) (hcur : s.cur = some (.forcedStop die plat)) (hc : p.code = 2)
    (ha : p.asked = some t0) (ht : t0 + 2 ^ 20 ≤ s.clk) (h0 : s.ctxsOf plat = []) : exec .forcedStop s = .next (s.platStopped plat 0) := by
  have hasked : p.asked.any (fun t => decide (t + 2 ^ 20 ≤ s.clk)) = true := by
    rw [ha]
    exact any_over ht
  rw [exec_forcedStop]
  simp only [execForcedStop, hcur, hp, hc, hasked, h0, List.any_nil, List.foldl_nil, beq_self_eq_true, Bool.and_self, Bool.not_true,
    Bool.false_eq_true, if_false]
  rfl

/-! ## Candidates of a resumption -/

theorem State.resume_between {w : BitVec 12} {stop : Nat} (hp : (s.die die).plat plat = some p) (hcur : s.cur = some (.platResume die plat))
    (hst : p.stopped = some (w, stop)) (hc : p.code = 3) (hl : p.lead? = some die) (hn : (s.clk - stop) % p.frame ≠ 0) : exec .platResume s =
    .next (s.post (stop + (s.clk - stop + p.frame - 1) / p.frame * p.frame) (.platResume die plat)) := by
  rw [exec_platResume]
  simp only [execPlatResume, hcur, hp, hst, hc, hl, bne_self_eq_false, Bool.or_self, bne_iff_ne.2 hn, Bool.false_eq_true, if_false, if_true]
  rfl

/-- Where a plat that is judged goes on, if it is ready. -/
def State.resumable (s : State) (plat : Word) (p : PlatRec) : Option (List (CtxId × Option Ctx)) :=
  (if s.canResume p then s.resumeBanks plat else none).filter (fun cs => cs.all (fun c => s.bankSet c.1))

theorem State.resumable_none (h : s.canResume p = false ∨ s.resumeBanks plat = none ∨
    ∃ cs, s.resumeBanks plat = some cs ∧ cs.all (fun c => s.bankSet c.1) = false) : s.resumable plat p = none := by
  unfold State.resumable
  obtain h | h | ⟨cs, h, hall⟩ := h
  · simp only [h, Bool.false_eq_true, if_false, Option.filter_none]
  · simp only [h, ite_self, Option.filter_none]
  · split
    · rw [h, Option.filter_some, hall]
      rfl
    · rfl

theorem State.resumable_some {cs : List (CtxId × Option Ctx)} (hc : s.canResume p = true) (hb : s.resumeBanks plat = some cs)
    (hall : cs.all (fun c => s.bankSet c.1) = true) : s.resumable plat p = some cs := by
  rw [State.resumable, if_pos hc, hb, Option.filter_some, if_pos hall]

theorem State.resume_waits {w : BitVec 12} {stop : Nat} (hp : (s.die die).plat plat = some p) (hcur : s.cur = some (.platResume die plat))
    (hst : p.stopped = some (w, stop)) (hc : p.code = 3) (hl : p.lead? = some die) (hn : (s.clk - stop) % p.frame = 0)
    (hno : s.resumable plat p = none) : exec .platResume s = .next (s.post (s.clk + p.frame) (.platResume die plat)) := by
  rw [State.resumable] at hno
  rw [exec_platResume]
  simp only [execPlatResume, hcur, hp, hst, hc, hl, hn, hno, bne_self_eq_false, Bool.or_self, Bool.false_eq_true, if_false]

end

/-! ## A context at its release (05 R132) -/

/-- Registers set from one number on: the values in their order, the others as they were. -/
theorem Sp.get_setAll_zipIdx (l : List Word) (k : Nat) (m : Sp Word) (n : Nat) :
    Sp.get 0 (Sp.setAll 0 m ((l.zipIdx k).map (fun v => (v.2 + 1, v.1)))) n =
      if k < n ∧ n ≤ k + l.length then l.getD (n - k - 1) 0 else Sp.get 0 m n := by
  induction l generalizing k m with
  | nil =>
    rw [if_neg (by rw [List.length_nil]; omega)]
    rfl
  | cons x l ih =>
    have hcons : Sp.setAll 0 m (((x :: l).zipIdx k).map (fun v => (v.2 + 1, v.1))) =
        Sp.setAll 0 (Sp.set 0 m (k + 1) x) ((l.zipIdx (k + 1)).map (fun v => (v.2 + 1, v.1))) := rfl
    rw [hcons, ih, Sp.get_set, List.length_cons]
    by_cases h1 : n = k + 1
    · subst h1
      rw [if_neg (by omega), if_pos rfl, if_pos (by omega), Nat.add_sub_cancel_left]
      rfl
    · rw [if_neg h1]
      by_cases hin : k + 1 < n ∧ n ≤ k + 1 + l.length
      · obtain ⟨i, rfl⟩ : ∃ i, n = k + 2 + i := ⟨n - (k + 2), by omega⟩
        rw [if_pos hin, if_pos (by omega), show k + 2 + i - k - 1 = i + 1 by omega, show k + 2 + i - (k + 1) - 1 = i by omega]
        rfl
      · rw [if_neg hin, if_neg (by omega)]

section
variable {p : PlatRec} {q : Parcel} {sk : Nat}

/-- The values that C and A hold at release, from register 1 on. -/
def releaseValues (p : PlatRec) (q : Parcel) (sk : Nat) : List Word := p.params ++ [BitVec.ofNat 64 q.index, q.pparam, BitVec.ofNat 64 sk]

theorem reg_releaseStream (g : PadReg) (n : Nat) (h8 : p.params.length = 8) : (releaseStream g (releaseRegs p q sk)).reg n =
    if 0 < n ∧ n ≤ 11 then (releaseValues p q sk).getD (n - 1) 0 else 0 := by
  have hlen : (releaseValues p q sk).length = 11 := by
    rw [releaseValues, List.length_append, h8]
    rfl
  have hget := Sp.get_setAll_zipIdx (releaseValues p q sk) 0 [] n
  rw [hlen, Nat.zero_add, Nat.sub_zero] at hget
  rw [StreamSt.reg]
  split
  next h => rw [if_neg (by omega)]
  next => exact hget

theorem getD_releaseValues_param (h8 : p.params.length = 8) {i : Nat} (hi : i < 8) : (releaseValues p q sk).getD i 0 = p.params.getD i 0 := by
  rw [releaseValues, List.getD_append _ _ _ _ (h8 ▸ hi)]

theorem getD_releaseValues_tail (h8 : p.params.length = 8) (i : Nat) :
    (releaseValues p q sk).getD (8 + i) 0 = [BitVec.ofNat 64 q.index, q.pparam, BitVec.ofNat 64 sk].getD i 0 := by
  rw [releaseValues, List.getD_append_right _ _ _ _ (by omega), h8, Nat.add_sub_cancel_left]

theorem live_releaseStream (g : PadReg) (regs : Sp Word) : (releaseStream g regs).live = true ↔ g.len ≠ 0 := bne_iff_ne

end

end Sys2Proof.Machine

namespace Sys2Proof.Machine

/-! A plat released, and a stopped plat that goes on (05 R132, R137, R138), through what the scheduler's operations leave of the plats' status. -/

/-! ## What a die's records say of the plats -/

/-- What the scheduler goes by of a plat: its id, code, stop, and the clk and rank since when. -/
structure PlatStatus where
  plat : Word
  code : Nat
  stopped : Option (BitVec 12 × Nat)
  since : Nat
  age : Nat

def PlatRec.status (p : PlatRec) : PlatStatus := ⟨p.plat, p.code, p.stopped, p.since, p.age⟩

/-- The clk, and what the records of a die say of its plats. -/
def State.schedView (s : State) (die : Nat) : Nat × List PlatStatus := (s.clk, (s.die die).plats.map PlatRec.status)

section
variable {s t : State} {die : Nat} {plat : Word} {c : CtxId}

theorem State.schedView_congr (hclk : t.clk = s.clk) (hdies : t.dies = s.dies) : t.schedView die = s.schedView die := by
  rw [State.schedView, State.schedView, State.die, State.die, hclk, hdies]

theorem State.clk_of_schedView (h : t.schedView die = s.schedView die) : t.clk = s.clk := congrArg Prod.fst h

theorem DieSt.status_plat (d : DieSt) (w : Word) : (d.plat w).map PlatRec.status = (d.plats.map PlatRec.status).find? (fun r => r.plat == w) := by
  rw [List.find?_map]
  rfl

theorem State.status_of_schedView (h : t.schedView die = s.schedView die) (w : Word) :
    ((t.die die).plat w).map PlatRec.status = ((s.die die).plat w).map PlatRec.status := by
  rw [DieSt.status_plat, DieSt.status_plat, show (t.die die).plats.map PlatRec.status = (s.die die).plats.map PlatRec.status from congrArg Prod.snd h]

theorem State.plat_of_schedView {p : PlatRec} (h : t.schedView die = s.schedView die) (hp : (s.die die).plat plat = some p) :
    ∃ q, (t.die die).plat plat = some q := by
  have hmap := State.status_of_schedView h plat
  rw [hp] at hmap
  cases hq : (t.die die).plat plat with
  | none => rw [hq] at hmap; cases hmap
  | some q => exact ⟨q, rfl⟩

theorem State.schedView_modDie (d : Nat) {f : DieSt → DieSt} (h : ∀ x, (f x).plats.map PlatRec.status = x.plats.map PlatRec.status) :
    (s.modDie d f).schedView die = s.schedView die := by
  by_cases hd : die = d
  · subst hd
    rw [State.schedView, State.die_modDie_self, h]
    rfl
  · rw [State.schedView, State.schedView, State.die, State.die, State.modDie, Sp.get_put_ne _ _ _ hd]

theorem DieSt.status_modPlat {f : PlatRec → PlatRec} (h : ∀ p, (f p).status = p.status) (x : DieSt) :
    (x.modPlat plat f).plats.map PlatRec.status = x.plats.map PlatRec.status := by
  rw [DieSt.modPlat, List.map_map]
  refine List.map_congr_left fun p _ => ?_
  dsimp only [Function.comp]
  split
  · exact h p
  · rfl

theorem State.schedView_modPlat (d : Nat) {f : PlatRec → PlatRec} (h : ∀ p, (f p).status = p.status) :
    (s.modPlat d plat f).schedView die = s.schedView die :=
  State.schedView_modDie d (DieSt.status_modPlat h)

/-- The record of a plat that is changed. -/
theorem DieSt.plat_modPlat {f : PlatRec → PlatRec} (h : ∀ p, (f p).plat = p.plat) (d : DieSt) : (d.modPlat plat f).plat plat = (d.plat plat).map f := by
  rw [DieSt.plat, DieSt.plat, DieSt.modPlat, List.find?_map]
  have hcomp : ((fun p : PlatRec => p.plat == plat) ∘ fun p => if p.plat = plat then f p else p) = fun p => p.plat == plat := by
    funext p
    dsimp only [Function.comp]
    split
    · rw [h]
    · rfl
  rw [hcomp]
  cases hq : d.plats.find? (fun p => p.plat == plat) with
  | none => rfl
  | some q => exact congrArg some (if_pos (beq_iff_eq.1 (List.find?_some (p := fun p : PlatRec => p.plat == plat) hq)))

theorem State.plat_modPlat {f : PlatRec → PlatRec} (h : ∀ p, (f p).plat = p.plat) :
    ((s.modPlat die plat f).die die).plat plat = ((s.die die).plat plat).map f := by
  rw [State.modPlat, State.die_modDie_self]
  exact DieSt.plat_modPlat h _

/-! ## Writes into memory -/

/-- What a write into memory leaves: the contexts, the cores, and what the scheduler goes by. -/
def State.runView (s : State) (die : Nat) : Sp Ctx × Sp CoreSt × Nat × List PlatStatus := (s.ctxs, s.cores, s.schedView die)

theorem State.runView_logLine (w : Word) (mod line : Nat) : (s.logLine w mod line).runView die = s.runView die := by
  unfold State.logLine
  dsimp only
  split
  · rfl
  · split
    · refine congrArg (fun l => (s.ctxs, s.cores, s.clk, l)) ?_
      refine Sp.get_map_keeps (fun d : DieSt => d.plats.map PlatRec.status) DieSt.reset ?_ ?_ s.dies die
      · exact fun _ => rfl
      · intro e
        dsimp only
        rw [List.map_map]
        refine List.map_congr_left fun p _ => ?_
        dsimp only [Function.comp]
        split <;> rfl
    · exact congrArg (fun v => (s.ctxs, s.cores, v)) (State.schedView_modDie _ fun _ => rfl)

theorem State.runView_writeMem (w : Word) (mod pa : Nat) (bs : List Byte) : (s.writeMem w mod pa bs).runView die = s.runView die := by
  have hlog : (if s.inInterval w then (linesOf pa bs.length).foldl (fun t l => t.logLine w mod l) s else s).runView die = s.runView die := by
    split
    · exact State.foldl_keeps (fun t => t.runView die) fun t l => State.runView_logLine _ _ _
    · rfl
  unfold State.writeMem
  dsimp only
  refine (State.foldl_keeps (fun t => t.runView die) ?_).trans (Eq.trans rfl hlog)
  exact fun _ _ => rfl

theorem State.runView_writeVirt (core job va : Nat) (bs : List Byte) : (s.writeVirt core job va bs).runView die = s.runView die := by
  have hpage (t : State) (a : Nat) (cs : List Byte) : (if cs = [] then t else
      match t.walk core job .write a with
      | .ok l => t.writeMem 0 (l.homeMod (modOf core)) (l.pa a) cs
      | .fault .. => t).runView die = t.runView die := by
    split
    · rfl
    · split
      · exact State.runView_writeMem _ _ _ _
      · rfl
  exact (hpage _ _ _).trans (hpage s _ _)

theorem State.runView_writeStatus (d : Nat) (p : PlatRec) (code detail cyc : Nat) : (s.writeStatus d p code detail cyc).runView die = s.runView die :=
  (State.runView_writeVirt _ _ _ _).trans (State.runView_writeVirt _ _ _ _)

theorem State.schedView_of_runView (h : t.runView die = s.runView die) : t.schedView die = s.schedView die := congrArg (fun v => v.2.2) h

/-! ## Contexts moved in and out of the buffers -/

theorem State.dies_displace (d : CtxId) : (s.displace d).dies = s.dies ∧ (s.displace d).clk = s.clk := by
  unfold State.displace
  dsimp only
  split <;> exact ⟨rfl, rfl⟩

theorem State.schedView_displace (d : CtxId) : (s.displace d).schedView die = s.schedView die :=
  State.schedView_congr (State.dies_displace d).2 (State.dies_displace d).1

theorem State.schedView_swapIn (d : CtxId) : (s.swapIn d).schedView die = s.schedView die := by
  unfold State.swapIn
  split
  · rfl
  · exact Eq.trans rfl (State.schedView_displace (s := s) ⟨d.core, 1 - d.bank⟩)

theorem State.ctx_displace_ne (d : CtxId) (hk : 2 * c.core + c.bank ≠ 2 * d.core + d.bank) : (s.displace d).ctx c = s.ctx c := by
  unfold State.displace
  dsimp only
  split
  · rfl
  · exact Sp.get_put_ne _ _ _ hk

/-! ## Release -/

/-- No other plat of a die waits. -/
def State.OthersRest (s : State) (die : Nat) (plat : Word) : Prop := ∀ w ∈ (s.die die).plats, w.plat ≠ plat → w.code ≠ 1 ∧ w.code ≠ 3

theorem State.othersRest_of_schedView (h : t.schedView die = s.schedView die) (hs : s.OthersRest die plat) : t.OthersRest die plat := by
  intro w hw hne
  have hlist : (t.die die).plats.map PlatRec.status = (s.die die).plats.map PlatRec.status := congrArg Prod.snd h
  obtain ⟨v, hv, he⟩ := List.mem_map.1 (hlist ▸ List.mem_map_of_mem hw : w.status ∈ (s.die die).plats.map PlatRec.status)
  have hplat : v.plat = w.plat := congrArg PlatStatus.plat he
  have hcode : v.code = w.code := congrArg PlatStatus.code he
  exact hcode ▸ hs v hv (hplat ▸ hne)

theorem State.othersRest_modPlat {f : PlatRec → PlatRec} (h : ∀ p, (f p).plat = p.plat) (hs : s.OthersRest die plat) :
    (s.modPlat die plat f).OthersRest die plat := by
  intro w hw hne
  rw [State.modPlat, State.die_modDie_self] at hw
  obtain ⟨v, hv, rfl⟩ := List.mem_map.1 hw
  by_cases hp : v.plat = plat
  · rw [if_pos hp, h] at hne
    exact absurd hp hne
  · rw [if_neg hp] at hne ⊢
    exact hs v hv hne

theorem State.askAgain_rested (hs : s.OthersRest die plat) : s.askAgain die plat = s := by
  have hnone : (s.die die).plats.filter (fun w => w.plat != plat && (w.code == 1 || w.code == 3)) = [] := by
    refine List.filter_eq_nil_iff.2 fun w hw => ?_
    by_cases hp : w.plat = plat
    · simp [hp]
    · obtain ⟨h1, h3⟩ := hs w hw hp
      simp [h1, h3]
  rw [State.askAgain, hnone]
  rfl

/-- A core that a plat is released on. -/
def CoreSt.taken (c : CtxId) (plat : Word) (k : CoreSt) : CoreSt :=
  { k with
    active := c.bank
    switching := none
    regions := k.regions.map (fun r => if r.bank = waitBank plat then { r with bank := c.bank } else r) }

/-- A context set up in a clean core. -/
def State.seated (s : State) (p : PlatRec) (q : Parcel) (sk : Nat) (c : CtxId) : State :=
  ((s.modCtx c (fun x => releaseCtx x p q (dieOf c.core) sk ((s.modu (modOf c.core)).features p.job.toNat))).modCore c.core
    (CoreSt.taken c p.plat)).joinTurn c

theorem State.releaseOne_seats {p : PlatRec} {q : Parcel} (sk : Nat) (hq : p.parcelAt c.core = some q) :
    s.releaseOne p sk c = (s.cleanCore c).seated p q sk c := by
  rw [State.releaseOne, hq]
  rfl

theorem State.ctx_seated (p : PlatRec) (q : Parcel) (sk : Nat) : (s.seated p q sk c).ctx c =
    releaseCtx (s.ctx c) p q (dieOf c.core) sk ((s.modu (modOf c.core)).features p.job.toNat) :=
  State.ctx_modCtx_self s c fun x => releaseCtx x p q (dieOf c.core) sk ((s.modu (modOf c.core)).features p.job.toNat)

theorem State.active_seated (p : PlatRec) (q : Parcel) (sk : Nat) : ((s.seated p q sk c).core c.core).active = c.bank :=
  congrArg CoreSt.active (State.core_modCore_self
    (s.modCtx c (fun x => releaseCtx x p q (dieOf c.core) sk ((s.modu (modOf c.core)).features p.job.toNat))) c.core (CoreSt.taken c p.plat))

theorem State.releaseOne_releases {p : PlatRec} {q : Parcel} (sk : Nat) (hq : p.parcelAt c.core = some q) :
    (s.releaseOne p sk c).ctx c = releaseCtx (s.ctx c) p q (dieOf c.core) sk ((s.modu (modOf c.core)).features p.job.toNat) ∧
    ((s.releaseOne p sk c).core c.core).active = c.bank ∧ (s.releaseOne p sk c).dies = s.dies ∧ (s.releaseOne p sk c).clk = s.clk := by
  have hmods : (s.cleanCore c).modules = s.modules := by
    unfold State.cleanCore State.displace
    dsimp only
    split <;> rfl
  have hdies : (s.cleanCore c).dies = s.dies := (State.dies_displace (s := s) (otherBank c)).1
  have hclk : (s.cleanCore c).clk = s.clk := (State.dies_displace (s := s) (otherBank c)).2
  have hctx : (s.cleanCore c).ctx c = s.ctx c := State.ctx_displace_ne (s := s) (otherBank c) (by
    show 2 * c.core + c.bank ≠ 2 * c.core + (1 - c.bank)
    omega)
  rw [State.releaseOne_seats sk hq]
  refine ⟨?_, State.active_seated p q sk, hdies, hclk⟩
  rw [State.ctx_seated, hctx, State.modu, State.modu, hmods]

theorem State.pairTags_keeps (p : PlatRec) (d k : Nat) : (s.pairTags p d).ctxs = s.ctxs ∧ (s.pairTags p d).dies = s.dies ∧
    (s.pairTags p d).clk = s.clk ∧ ((s.pairTags p d).core k).active = (s.core k).active := by
  refine ⟨State.foldl_keeps State.ctxs fun t q => ?_, State.foldl_keeps State.dies fun t q => ?_, State.foldl_keeps State.clk fun t q => ?_,
    State.foldl_keeps (fun t => (t.core k).active) fun t q => ?_⟩
  · split <;> rfl
  · split <;> rfl
  · split <;> rfl
  · split
    · exact State.core_modCore_keeps CoreSt.active _ _ _ fun _ => rfl
    · rfl

/-- The records of a die once a plat of it has been released for candidate `k`. -/
def State.noteRelease (s : State) (die : Nat) (plat : Word) (k sk : Nat) : State :=
  let s := s.modDie die (fun d => { d with seen := if d.seen.contains plat then d.seen else plat :: d.seen })
  let s := s.modPlat die plat (fun q => { q with since := sk, age := 0, asked := none, banks := [], k := k, verdicts := [] })
  match (s.die die).plat plat with
  | some q => (s.writeStatus die q 0x02 k sk).modPlat die plat (fun q => { q with code := 2, detail := k })
  | none => s

theorem State.noteRelease_runs {p : PlatRec} (k sk : Nat) (hp : (s.die die).plat plat = some p) (hs : s.OthersRest die plat) :
    (s.noteRelease die plat k sk).ctxs = s.ctxs ∧ (s.noteRelease die plat k sk).cores = s.cores ∧ (s.noteRelease die plat k sk).clk = s.clk ∧
    (((s.noteRelease die plat k sk).die die).plat plat).map PlatRec.code = some 2 ∧ (s.noteRelease die plat k sk).OthersRest die plat := by
  unfold State.noteRelease
  dsimp only
  have hseen := State.schedView_modDie (s := s) (die := die) die (f := fun d => { d with seen := if d.seen.contains plat then d.seen else plat :: d.seen })
    fun _ => rfl
  obtain ⟨p', hp'⟩ := State.plat_of_schedView hseen hp
  have hrest' := State.othersRest_of_schedView hseen hs
  generalize hu : s.modDie die (fun d => { d with seen := if d.seen.contains plat then d.seen else plat :: d.seen }) = u at hseen hp' hrest' ⊢
  have hctxs : u.ctxs = s.ctxs := by rw [← hu]; rfl
  have hcores : u.cores = s.cores := by rw [← hu]; rfl
  have hplat := State.plat_modPlat (s := u) (die := die) (plat := plat)
    (f := fun q => { q with since := sk, age := 0, asked := none, banks := [], k := k, verdicts := [] }) fun _ => rfl
  rw [hp', Option.map_some] at hplat
  have hrest := State.othersRest_modPlat (s := u) (die := die) (plat := plat)
    (f := fun q => { q with since := sk, age := 0, asked := none, banks := [], k := k, verdicts := [] }) (fun _ => rfl) hrest'
  generalize hv : u.modPlat die plat (fun q => { q with since := sk, age := 0, asked := none, banks := [], k := k, verdicts := [] }) = v
    at hplat hrest ⊢
  have hclk : v.clk = s.clk := by rw [← hv, ← hu]; rfl
  have hctxs' : v.ctxs = s.ctxs := by rw [← hctxs, ← hv]; rfl
  have hcores' : v.cores = s.cores := by rw [← hcores, ← hv]; rfl
  rw [hplat]
  dsimp only
  have hrun := State.runView_writeStatus (s := v) (die := die) die
    { p' with since := sk, age := 0, asked := none, banks := [], k := k, verdicts := [] } 0x02 k sk
  generalize v.writeStatus die { p' with since := sk, age := 0, asked := none, banks := [], k := k, verdicts := [] } 0x02 k sk = w at hrun ⊢
  obtain ⟨q, hq⟩ := State.plat_of_schedView (State.schedView_of_runView hrun) hplat
  refine ⟨(congrArg Prod.fst hrun).trans hctxs', (congrArg (fun v => v.2.1) hrun).trans hcores',
    (State.clk_of_schedView (State.schedView_of_runView hrun)).trans hclk, ?_,
    State.othersRest_modPlat (fun _ => rfl) (State.othersRest_of_schedView (State.schedView_of_runView hrun) hrest)⟩
  rw [State.plat_modPlat (f := fun q => { q with code := 2, detail := k }) fun _ => rfl, hq]
  rfl

theorem State.platRelease_goes {p : PlatRec} {k : Nat} (hp : (s.die die).plat plat = some p) (hcur : s.cur = some (.platRelease die plat k))
    (hc : p.code = 1) (hclk : s.clk = p.start + k * p.frame) (hb : p.banks = [c]) : exec .platRelease s = .next (State.askAgain
      ((((s.releaseOne p s.clk c).pairTags p die).noteRelease die plat k s.clk).post
        ((((s.releaseOne p s.clk c).pairTags p die).noteRelease die plat k s.clk).clk + 2 ^ 20) (.runQuantumExpiry die plat)) die plat) := by
  rw [exec_platRelease]
  simp only [execPlatRelease, hcur, hp, hc, hb, ← hclk, bne_self_eq_false, Bool.false_eq_true, if_false, if_neg (Nat.lt_irrefl _), List.foldl_cons,
    List.foldl_nil]
  rfl

theorem State.platRelease_releases {p : PlatRec} {q : Parcel} {k : Nat} (hp : (s.die die).plat plat = some p)
    (hcur : s.cur = some (.platRelease die plat k)) (hc : p.code = 1) (hclk : s.clk = p.start + k * p.frame) (hb : p.banks = [c])
    (hq : p.parcelAt c.core = some q) (hrest : s.OthersRest die plat) :
    ∃ t, exec .platRelease s = .next t ∧
      t.ctx c = releaseCtx (s.ctx c) p q (dieOf c.core) s.clk ((s.modu (modOf c.core)).features p.job.toNat) ∧
      (t.core c.core).active = c.bank ∧ ((t.die die).plat plat).map (fun r => r.code) = some 2 ∧
      (s.clk + 2 ^ 20, Event.runQuantumExpiry die plat) ∈ t.agenda := by
  have hexec := State.platRelease_goes hp hcur hc hclk hb
  obtain ⟨hctx, hact, hdies, hclk1⟩ := State.releaseOne_releases (s := s) s.clk hq
  obtain ⟨hctxs2, hdies2, hclk2, hact2⟩ := State.pairTags_keeps (s := s.releaseOne p s.clk c) p die c.core
  have hview : ((s.releaseOne p s.clk c).pairTags p die).schedView die = s.schedView die :=
    State.schedView_congr (hclk2.trans hclk1) (hdies2.trans hdies)
  obtain ⟨p', hp'⟩ := State.plat_of_schedView hview hp
  obtain ⟨hctxs3, hcores3, hclk3, hcode, hrest3⟩ := State.noteRelease_runs k s.clk hp' (State.othersRest_of_schedView hview hrest)
  rw [State.askAgain_rested (s := State.post _ _ _) hrest3, hclk3, hclk2, hclk1] at hexec
  refine ⟨_, hexec, ?_, ?_, hcode, State.mem_agenda_post _ _ _⟩
  · rw [← hctx]
    exact congrArg (fun m => Sp.get Ctx.reset m (2 * c.core + c.bank)) (hctxs3.trans hctxs2)
  · rw [← hact, ← hact2]
    exact congrArg (fun m => (Sp.get CoreSt.reset m c.core).active) hcores3

/-! ## Resumption -/

theorem State.schedView_modCtx (d : CtxId) (f : Ctx → Ctx) : (s.modCtx d f).schedView die = s.schedView die := rfl

theorem State.schedView_reinject (i : StreamId) (ls : List Pend) (tr : Nat) : (s.reinject i ls tr).schedView die = s.schedView die := by
  refine State.foldl_keeps (fun t => t.schedView die) fun t p => ?_
  dsimp only
  split <;> rfl

theorem State.schedView_restore (d : CtxId) : (s.restore d).schedView die = s.schedView die := by
  unfold State.restore
  dsimp only
  refine Eq.trans ?_ (State.schedView_swapIn (s := s) d)
  split
  · exact (State.schedView_reinject _ _ _).trans rfl
  · split
    · rfl
    · exact (State.schedView_reinject _ _ _).trans ((State.schedView_reinject _ _ _).trans ((State.schedView_reinject _ _ _).trans rfl))

theorem State.schedView_keepAway (d : CtxId) : (s.keepAway d).schedView die = s.schedView die := by
  have hpost (t : State) (w : Word) (g : PlatRec → List Load) (f : CoreSt → CoreSt) (x : Ctx) :
      (((t.modPlat (dieOf d.core) w (fun p => { p with loads := g p })).modCore d.core f).putCtx d x).schedView die = t.schedView die :=
    Eq.trans rfl (State.schedView_modPlat (s := t) (plat := w) (dieOf d.core) (f := fun p => { p with loads := g p }) fun _ => rfl)
  unfold State.keepAway
  dsimp only
  split
  · rfl
  · refine (hpost _ _ _ _ _).trans ((State.schedView_modDie _ ?_).trans (State.schedView_displace d))
    exact fun _ => rfl

theorem State.schedView_postTimer (d : CtxId) : (s.postTimer d).schedView die = s.schedView die := by
  unfold State.postTimer State.postOnce
  dsimp only
  split
  · split <;> rfl
  · rfl

theorem State.schedView_resumeOne (shift : Nat) (d : CtxId) (kept : Option Ctx) : (s.resumeOne shift d kept).schedView die = s.schedView die := by
  have hset (t : State) : ((t.displace ⟨d.core, 1 - d.bank⟩).swapIn d).schedView die = t.schedView die :=
    (State.schedView_swapIn d).trans (State.schedView_displace _)
  have hturn (t : State) : ((t.postTimer d).joinTurn d).schedView die = t.schedView die := State.schedView_postTimer d
  have hrun (t : State) (f : Ctx → Ctx) : (if (t.ctx d).phase = .forced then (t.modCtx d f).restore d
      else t.modCtx d (fun x => { x with phase := .running })).schedView die = t.schedView die := by
    split
    · exact State.schedView_restore d
    · rfl
  unfold State.resumeOne
  dsimp only
  refine (hturn _).trans ((hrun _ _).trans (Eq.trans rfl ((hset _).trans ?_)))
  split
  · rfl
  · refine Eq.trans rfl ?_
    split
    · exact State.schedView_keepAway d
    · rfl

theorem State.schedView_askStop (w : Word) : (s.askStop w).schedView die = s.schedView die := by
  refine (State.foldl_keeps (fun t => t.schedView die) ?_).trans ?_
  · exact fun _ _ => rfl
  · unfold State.nameStop
    dsimp only
    split
    · rfl
    · refine (State.foldl_keeps (fun t => t.schedView die) ?_).trans rfl
      exact fun _ _ => rfl

/-- A pre-emption asks; it changes no plat's status. -/
theorem State.schedView_preempt (w : Word) : (s.preempt w).schedView die = s.schedView die := by
  refine (State.foldl_keeps (fun t => t.schedView die) fun t d => ?_).trans (State.schedView_askStop w)
  split
  · split
    · rfl
    · exact Eq.trans rfl (State.schedView_modPlat (s := t) (plat := w) d (f := fun p => { p with asked := some t.clk }) fun _ => rfl)
  · rfl

theorem State.schedView_askAgain (d : Nat) (w : Word) : (s.askAgain d w).schedView die = s.schedView die :=
  State.foldl_keeps (fun t => t.schedView die) fun _ _ => State.foldl_keeps (fun t => t.schedView die) fun _ o => State.schedView_preempt o.plat

/-- Events that stand stay as plats are asked to stop. -/
theorem State.mem_agenda_preempt {x : Nat × Event} (w : Word) (h : x ∈ s.agenda) : x ∈ (s.preempt w).agenda := by
  have hstop : (s.askStop w).agenda = s.agenda := by
    refine (State.foldl_keeps State.agenda ?_).trans ?_
    · exact fun _ _ => rfl
    · unfold State.nameStop
      dsimp only
      split
      · rfl
      · refine (State.foldl_keeps State.agenda ?_).trans rfl
        exact fun _ _ => rfl
  refine List.foldlRecOn (motive := fun t : State => x ∈ t.agenda) _ _ (hstop.symm ▸ h) fun t ht d _ => ?_
  split
  · split
    · exact ht
    · exact State.mem_agenda_of_post ht
  · exact ht

theorem State.mem_agenda_askAgain {x : Nat × Event} (d : Nat) (w : Word) (h : x ∈ s.agenda) : x ∈ (s.askAgain d w).agenda :=
  List.foldlRecOn (motive := fun t : State => x ∈ t.agenda) _ _ h fun _ ht _ _ =>
    List.foldlRecOn (motive := fun t : State => x ∈ t.agenda) _ _ ht fun _ hu o _ => State.mem_agenda_preempt o.plat hu

/-- A plat's kept contexts gone from every die. -/
def State.dropKept (s : State) (plat : Word) : State :=
  { s with dies := s.dies.map (fun (d : Nat × DieSt) => (d.1, { d.2 with kept := d.2.kept.filter (fun k => k.1 != plat) })) }

theorem State.schedView_dropKept : (s.dropKept plat).schedView die = s.schedView die := by
  refine congrArg (fun l => (s.clk, l)) (Sp.get_map_keeps (fun d : DieSt => d.plats.map PlatRec.status) DieSt.reset ?_ ?_ s.dies die)
  · exact fun _ => rfl
  · exact fun _ => rfl

/-- The records of a die once a plat of it goes on, moved by `n` frames. -/
def State.noteResume (s : State) (d : Nat) (plat : Word) (n : Nat) : State :=
  let t := s.setStatus d plat 0x02 n
  (t.modPlat d plat (fun q => { q with stopped := none, asked := none, since := t.clk, age := 0 })).post (t.clk + 2 ^ 20) (.runQuantumExpiry d plat)

theorem State.setStatus_runs {p : PlatRec} (n : Nat) (hp : (s.die die).plat plat = some p) :
    (s.setStatus die plat 0x02 n).clk = s.clk ∧ ∃ q, ((s.setStatus die plat 0x02 n).die die).plat plat = some q ∧ q.code = 2 := by
  have hset : s.setStatus die plat 0x02 n = (s.writeStatus die p 0x02 n s.clk).modPlat die plat (fun q => { q with code := 2, detail := n }) := by
    rw [State.setStatus, hp]
    rfl
  have hview := State.schedView_of_runView (State.runView_writeStatus (s := s) (die := die) die p 0x02 n s.clk)
  obtain ⟨q, hq⟩ := State.plat_of_schedView hview hp
  have hclk : (s.writeStatus die p 0x02 n s.clk).clk = s.clk := State.clk_of_schedView hview
  rw [hset]
  refine ⟨hclk, { q with code := 2, detail := n }, ?_, rfl⟩
  rw [State.plat_modPlat (f := fun q => { q with code := 2, detail := n }) fun _ => rfl, hq]
  rfl

theorem State.noteResume_runs {p : PlatRec} (n : Nat) (hp : (s.die die).plat plat = some p) :
    (((s.noteResume die plat n).die die).plat plat).map (fun r => (r.code, r.stopped, r.since, r.age)) = some (2, none, s.clk, 0) ∧
    (s.clk + 2 ^ 20, Event.runQuantumExpiry die plat) ∈ (s.noteResume die plat n).agenda := by
  obtain ⟨hclk, q, hq, hcode⟩ := State.setStatus_runs n hp
  unfold State.noteResume
  dsimp only
  generalize s.setStatus die plat 0x02 n = t at hclk hq ⊢
  rw [hclk]
  refine ⟨?_, State.mem_agenda_post _ _ _⟩
  have hmod := State.plat_modPlat (s := t) (die := die) (plat := plat)
    (f := fun q => { q with stopped := none, asked := none, since := s.clk, age := 0 }) fun _ => rfl
  rw [hq] at hmod
  exact (congrArg (Option.map fun r : PlatRec => (r.code, r.stopped, r.since, r.age)) hmod).trans (congrArg (fun n => some (n, none, s.clk, 0)) hcode)

theorem State.resume_goes {p : PlatRec} {w : BitVec 12} {stop : Nat} {cs : List (CtxId × Option Ctx)} (hp : (s.die die).plat plat = some p)
    (hcur : s.cur = some (.platResume die plat)) (hst : p.stopped = some (w, stop)) (hc : p.code = 3) (hl : p.lead? = some die)
    (hn : (s.clk - stop) % p.frame = 0) (hcs : s.resumable plat p = some cs) (hd : p.diesOf = [die]) : exec .platResume s =
    .next ((((cs.foldl (fun t c => t.resumeOne (s.clk - stop) c.1 c.2) s).dropKept plat).noteResume die plat ((s.clk - stop) / p.frame)).askAgain
      die plat) := by
  rw [State.resumable] at hcs
  rw [exec_platResume]
  simp only [execPlatResume, hcur, hp, hst, hc, hl, hn, hcs, hd, bne_self_eq_false, Bool.or_self, Bool.false_eq_true, if_false, List.foldl_cons,
    List.foldl_nil]
  rfl

theorem State.platResume_resumes {p : PlatRec} {w : BitVec 12} {stop : Nat} {cs : List (CtxId × Option Ctx)} (hp : (s.die die).plat plat = some p)
    (hcur : s.cur = some (.platResume die plat)) (hst : p.stopped = some (w, stop)) (hc : p.code = 3) (hl : p.lead? = some die)
    (hn : (s.clk - stop) % p.frame = 0) (hcs : s.resumable plat p = some cs) (hd : p.diesOf = [die]) : ∃ t, exec .platResume s = .next t ∧
      ((t.die die).plat plat).map (fun r => (r.code, r.stopped, r.since, r.age)) = some (2, none, s.clk, 0) ∧
      (s.clk + 2 ^ 20, Event.runQuantumExpiry die plat) ∈ t.agenda := by
  have hexec := State.resume_goes hp hcur hst hc hl hn hcs hd
  have hview : ((cs.foldl (fun t c => t.resumeOne (s.clk - stop) c.1 c.2) s).dropKept plat).schedView die = s.schedView die :=
    State.schedView_dropKept.trans (State.foldl_keeps (fun t => t.schedView die) fun _ _ => State.schedView_resumeOne _ _ _)
  generalize (cs.foldl (fun t c => t.resumeOne (s.clk - stop) c.1 c.2) s).dropKept plat = u at hexec hview
  obtain ⟨p', hp'⟩ := State.plat_of_schedView hview hp
  obtain ⟨hstat, hev⟩ := State.noteResume_runs ((s.clk - stop) / p.frame) hp'
  rw [State.clk_of_schedView hview] at hstat hev
  refine ⟨_, hexec, ?_, State.mem_agenda_askAgain die plat hev⟩
  have hmap := State.status_of_schedView (State.schedView_askAgain (s := u.noteResume die plat ((s.clk - stop) / p.frame)) (die := die) die plat) plat
  have hpart := congrArg (Option.map fun r : PlatStatus => (r.code, r.stopped, r.since, r.age)) hmap
  rw [Option.map_map, Option.map_map] at hpart
  exact hpart.trans hstat

end

/-- Settles O50: each event of the scheduler by what the plat's record and verdicts say, and the registers of a released context one by one. -/
theorem schedulerAndReleaseEvents : Obligations.SchedulerAndReleaseEvents := by
  unfold Obligations.SchedulerAndReleaseEvents
  refine ⟨fun s die plat k p hp => ⟨fun hcur => ⟨State.deadline_other hp hcur, fun hc hdue => ?_⟩, fun frm v hcur hc => ⟨?_, State.verdict_noted hp hcur hc⟩,
    fun hcur hc => ⟨fun ds d es => State.verdictTimeout_missing hp hcur hc, fun hall => ?_, fun d hd hnot hes => ?_⟩, fun hcur hc hlt => ?_,
    fun c q hcur hc hclk hb hq hrest => State.platRelease_releases hp hcur hc hclk hb hq hrest, fun hcur hc hd => State.aging_raises hp hcur hc hd,
    fun hcur hc hs w => State.quantum_preempts hp hcur hc hs, State.forcedStop_unasked hp, fun t0 => State.forcedStop_empty hp,
    fun w stop hcur hst hc hl => ⟨State.resume_between hp hcur hst hc hl, fun hn hno => ?_, fun cs hn hres hb hall hd => ?_⟩⟩,
    fun old p q die sk feat h8 => ?_⟩
  · intro t sk
    refine ⟨fun h1 => ?_, fun h1 => ?_⟩
    · have hone : ¬ 1 < p.diesOf.length := by omega
      refine ⟨fun i hl => ?_, fun cs hl hb hset => ?_, fun hl hv hno => ?_⟩
      · rw [State.deadline_late hp hcur hc hdue hl, if_neg hone]
      · rw [State.deadline_ready hp hcur hc hdue hl hb (Bool.or_eq_true_iff.2 (.inr hset)), if_neg hone]
      · rw [State.deadline_missed hp hcur hc hdue hl hv fun cs hcs => by rw [decide_eq_false hone, hno cs hcs]; rfl, if_neg hone]
    · refine ⟨fun i hl => ?_, fun cs hl hb => ?_, fun hl hv hno => ?_⟩
      · rw [State.deadline_late hp hcur hc hdue hl, if_pos h1]
      · rw [State.deadline_ready hp hcur hc hdue hl hb (Bool.or_eq_true_iff.2 (.inl (decide_eq_true h1))), if_pos h1]
      · rw [State.deadline_missed hp hcur hc hdue hl hv fun cs hcs => absurd (hno.symm.trans hcs) (Option.some_ne_none cs).symm, if_pos h1]
  · rintro rfl
    exact State.verdict_failed hp hcur hc
  · rw [State.verdictTimeout_present hp hcur hc fun e he h => by cases h.symm.trans (hall e he)]
    exact congrArg Host.Outcome.next (if_pos (List.all_eq_true.2 fun e he => beq_iff_eq.2 (hall e he)))
  · rw [State.verdictTimeout_present hp hcur hc hes]
    exact congrArg Host.Outcome.next (if_neg fun h => hnot (beq_iff_eq.1 (List.all_eq_true.1 h d hd)))
  · rw [exec_platRelease]
    simp only [execPlatRelease, hcur, hp, hc, bne_self_eq_false, Bool.false_eq_true, if_false, if_pos hlt]
  · exact State.resume_waits hp hcur hst hc hl hn (State.resumable_none hno)
  · exact State.platResume_resumes hp hcur hst hc hl hn (State.resumable_some hres hb hall) hd
  · have hreg (g : PadReg) (n : Nat) := reg_releaseStream (p := p) (q := q) (sk := sk) g n h8
    have hparam (g : PadReg) (i : Nat) (hi : i < 8) : (releaseStream g (releaseRegs p q sk)).reg (i + 1) = p.params.getD i 0 := by
      rw [hreg, if_pos (by omega), Nat.add_sub_cancel, getD_releaseValues_param h8 hi]
    have htail (g : PadReg) (i : Nat) (hi : i < 3) : (releaseStream g (releaseRegs p q sk)).reg (8 + i + 1) =
        [BitVec.ofNat 64 q.index, q.pparam, BitVec.ofNat 64 sk].getD i 0 := by
      rw [hreg, if_pos (by omega), Nat.add_sub_cancel, getD_releaseValues_tail h8]
    have hzero (g : PadReg) (n : Nat) (hn : 11 < n) : (releaseStream g (releaseRegs p q sk)).reg n = 0 := by
      rw [hreg, if_neg (by omega)]
    have hnormal : (releaseCtx old p q die sk feat).normal = true := (by decide : (wfield (0 : Word) 44 2 == 0) = true)
    exact ⟨fun i hi => ⟨hparam _ i hi, hparam _ i hi⟩, htail _ 0 (by decide), htail _ 1 (by decide), htail _ 2 (by decide),
      fun n hn => ⟨hzero _ n hn, hzero _ n hn⟩, rfl, rfl, rfl, rfl, live_releaseStream _ _, live_releaseStream _ _, live_releaseStream _ _,
      hnormal, rfl, rfl, rfl, rfl, rfl, rfl, rfl, rfl, rfl, rfl⟩

end Sys2Proof.Machine

namespace Sys2Proof.Machine

/-! Semaphores, mirror entries, function blocks and attestation (01 R35, R39; 03 R70 to R77, R84). -/

section
variable {s : State} {m f n : Nat} {v : Word}

/-! ## Function blocks -/

/-- Two changes of a module that agree on it are one. -/
theorem State.modMod_congr {g h : ModuleSt → ModuleSt} (e : g (s.modu m) = h (s.modu m)) : s.modMod m g = s.modMod m h := by
  rw [State.modMod, State.modMod, e]

@[simp] theorem ModuleSt.fn_modFn_self (x : ModuleSt) (g : FnSt → FnSt) : (x.modFn f g).fn f = g (x.fn f) := Sp.get_put_self _ _ _ _

theorem State.modFn_congr {g h : FnSt → FnSt} (e : g ((s.modu m).fn f) = h ((s.modu m).fn f)) : s.modFn m f g = s.modFn m f h :=
  State.modMod_congr (by rw [ModuleSt.modFn, ModuleSt.modFn, e])

theorem State.fn_modFn_self (g : FnSt → FnSt) : ((s.modFn m f g).modu m).fn f = g ((s.modu m).fn f) := by
  rw [State.modFn, State.modu_modMod_self, ModuleSt.fn_modFn_self]

/-! ## Semaphores -/

/-- The order in which a tie is broken names every requester. -/
theorem find_tieOrder (last : Nat) {w : Nat} (h1 : 1 ≤ w) (h3 : w ≤ 3) : (tieOrder last).find? (fun x => [w].contains x) = some w := by
  have hw : w = 1 ∨ w = 2 ∨ w = 3 := by omega
  unfold tieOrder
  obtain rfl | rfl | rfl := hw <;> split <;> rfl

theorem State.hsemAcquire_one {w : Nat} (hcur : s.cur = some (.hsemAcquire m n [w])) (h1 : 1 ≤ w) (h3 : w ≤ 3) (hfree : Sp.get 0 (s.modu m).hsem n = 0) :
    exec .hsemAcquire s = .next (s.modMod m (fun x => { x with hsem := Sp.set 0 x.hsem n w })) := by
  have hone : ([w].filter (fun w => execHsemAcquire.within3 w)).eraseDups = [w] := by
    have hin : execHsemAcquire.within3 w = true := Bool.and_eq_true_iff.2 ⟨decide_eq_true h1, decide_eq_true h3⟩
    rw [List.filter_cons_of_pos (p := fun w => execHsemAcquire.within3 w) hin]
    rfl
  rw [exec_hsemAcquire]
  simp only [execHsemAcquire, hcur, hone, hfree, bne_self_eq_false, Bool.false_eq_true, if_false, find_tieOrder _ h1 h3]
  exact congrArg Host.Outcome.next (State.modMod_congr rfl)

theorem State.hsemAcquire_taken {ws : List Nat} (hcur : s.cur = some (.hsemAcquire m n ws)) (hheld : Sp.get 0 (s.modu m).hsem n ≠ 0) :
    exec .hsemAcquire s = .next s := by
  rw [exec_hsemAcquire]
  simp only [execHsemAcquire, hcur, bne_iff_ne.2 hheld, if_true]

/-! ## Resets of functions -/

theorem State.modules_sendNotices (sta code : Nat) (job : BitVec 12) : (s.sendNotices sta code job).modules = s.modules := by
  refine (State.foldl_keeps State.modules ?_).trans rfl
  exact fun _ _ => rfl

/-- A function in reset. -/
def FnSt.inReset (g : FnSt) : FnSt := { g with rst := true, go := false, en := false }

/-- The rest of a function's reset leaves its block. -/
theorem State.fnctlRst_resets (hcur : s.cur = some (.fnctlRst m f)) :
    ∃ t, exec .fnctlRst s = .next t ∧ (t.modu m).fn f = (((s.stopFunction m f).modu m).fn f).inReset := by
  rw [exec_fnctlRst]
  simp only [execFnctlRst, hcur]
  refine ⟨_, rfl, ?_⟩
  have hpost (u : State) (b : Bool) (e : Event) : (if b then u.postNow e else u).modules = u.modules := by
    split <;> rfl
  have hsend (u : State) (js : List Nat) : (js.foldl (fun t j => t.sendNotices (16 * m) 3 (BitVec.ofNat 12 j)) u).modules = u.modules :=
    State.foldl_keeps State.modules fun t j => State.modules_sendNotices _ _ _
  have hdrop (u : State) : ((if f % 64 = 0 then u.modMod m (fun x => x.dropSemaphores (f / 64)) else u).modu m).fn f = (u.modu m).fn f := by
    split
    · rw [State.modu_modMod_self]
      rfl
    · rfl
  rw [State.modu, hpost, hsend]
  exact (hdrop _).trans (State.fn_modFn_self (s := s.stopFunction m f) FnSt.inReset)

/-! ## Job ranges -/

/-- Whether a write of a job range is refused (03 R75). -/
def State.rangeRefused (s : State) (m f base cnt : Nat) : Bool :=
  ((s.modu m).fn f).en || (cnt != 0 && (base == 0 || decide (4095 < base + cnt - 1) || (s.modu m).fns.any (fun g =>
    g.1 != f && g.2.cnt != 0 && decide (base < g.2.base.toNat + g.2.cnt.toNat) && decide (g.2.base.toNat < base + cnt))))

theorem State.fnjobsWrite_writes (hcur : s.cur = some (.fnjobsWrite m f v)) : exec .fnjobsWrite s = .next (s.modFn m f (fun g =>
    if s.rangeRefused m f (wfield v 0 12) (wfield v 16 12) then { g with jobErr := true }
    else { g with base := BitVec.ofNat 12 (wfield v 0 12), cnt := BitVec.ofNat 12 (wfield v 16 12) })) := by
  rw [exec_fnjobsWrite]
  simp only [execFnjobsWrite, hcur]
  rfl

theorem State.fnjobsWrite_refused (hcur : s.cur = some (.fnjobsWrite m f v)) (h : s.rangeRefused m f (wfield v 0 12) (wfield v 16 12) = true) :
    exec .fnjobsWrite s = .next (s.modFn m f (fun x => { x with jobErr := true })) := by
  rw [State.fnjobsWrite_writes hcur]
  exact congrArg Host.Outcome.next (State.modFn_congr (if_pos h))

theorem State.fnjobsWrite_taken (hcur : s.cur = some (.fnjobsWrite m f v)) (h : s.rangeRefused m f (wfield v 0 12) (wfield v 16 12) = false) :
    exec .fnjobsWrite s = .next (s.modFn m f (fun x =>
      { x with base := BitVec.ofNat 12 (wfield v 0 12), cnt := BitVec.ofNat 12 (wfield v 16 12) })) := by
  rw [State.fnjobsWrite_writes hcur]
  exact congrArg Host.Outcome.next (State.modFn_congr (if_neg (Bool.eq_false_iff.1 h)))

/-! ## Features -/

/-- FEATACC0 of a function once a value has been written to it (03 R76). -/
def FnSt.accepting (v : Word) (g : FnSt) : FnSt :=
  if g.accLock then g else if v &&& ~~~featOffered != 0 then { g with featErr := true } else { g with accLo := v }

theorem State.feataccWrite_accepts (hcur : s.cur = some (.feataccWrite m f 0 v)) : exec .feataccWrite s = .next (s.modFn m f (FnSt.accepting v)) := by
  rw [exec_feataccWrite]
  simp only [execFeataccWrite, hcur, if_true]
  rfl

/-! ## Attestation -/

theorem State.attestReportReady_reports (hcur : s.cur = some (.attestReportReady m f)) (hp : ((s.modu m).fn f).pending = true) :
    exec .attestReportReady s = .next (s.modFn m f (fun g => { g with
      pending := false
      ready := true
      report := s.attestBytes m f ++ ((Config.sign m (s.attestBytes m f)) ++ List.replicate 132 0).take 132 })) := by
  rw [exec_attestReportReady]
  simp only [execAttestReportReady, hcur, hp, Bool.not_true, Bool.false_eq_true, if_false]

theorem State.attctlRequest_asks (hcur : s.cur = some (.attctlRequest m f)) (hp : ((s.modu m).fn f).pending = false)
    (hport : (s.modu m).port (f / 64) = true) : ∃ t due, exec .attctlRequest s = .next t ∧
      (t.modu m).fn f = { (s.modu m).fn f with
        pending := true
        ready := false
        asked := Memory.readN ((s.modu m).fn f).nonce 0 64 } ∧
      (due, Event.attestReportReady m f) ∈ t.agenda ∧ due ≤ s.clk + 1050000 := by
  rw [exec_attctlRequest]
  simp only [execAttctlRequest, hcur, hp, hport, Bool.not_true, Bool.or_self, Bool.false_eq_true, if_false]
  refine ⟨_, _, rfl, ?_, State.mem_agenda_post _ _ _, ?_⟩
  · exact State.fn_modFn_self (s := s) fun g => { g with pending := true, ready := false, asked := Memory.readN g.nonce 0 64 }
  · exact Nat.add_le_add_left (Nat.le_of_lt_succ (Nat.mod_lt _ (by decide))) _

end

/-- Settles O51: each register's event by the block that it leaves. -/
theorem functionEvents : Obligations.FunctionEvents := by
  unfold Obligations.FunctionEvents
  intro s m f n v g
  refine ⟨fun w hcur h1 h3 => ⟨State.hsemAcquire_one hcur h1 h3, State.hsemAcquire_taken hcur⟩, fun w hcur hw => ?_, fun sta hcur => ?_,
    fun sta hcur hb => ?_, fun hcur => ?_, fun hcur hj => ?_, fun hcur => ?_, fun on hcur => ?_, fun hcur => ⟨fun he => ?_, fun he hc hb => ?_,
      fun he h1 hle h0 => ?_⟩, fun hcur => ⟨fun hl => ?_, fun hl hv => ?_, fun hl hv => ?_⟩, fun hcur => ?_, fun hcur => ?_, fun hcur => ?_,
    fun hcur hp hport => ?_, fun hcur hp => ?_⟩
  · rw [exec_hsemRelease]
    simp only [execHsemRelease, hcur]
    exact congrArg Host.Outcome.next (State.modMod_congr (if_pos hw))
  · rw [exec_mirentWrite]
    simp only [execMirentWrite, hcur]
    refine ⟨_, rfl, ?_⟩
    rw [State.modu_modMod_self, Sp.get_set, if_pos rfl]
  · rw [exec_plostClear]
    simp only [execPlostClear, hcur, if_pos hb]
    refine ⟨_, rfl, ?_⟩
    rw [State.modu_modMod_self, Sp.get_set, if_pos rfl]
  · obtain ⟨t, hexec, ht⟩ := State.fnctlRst_resets hcur
    refine ⟨t, hexec, ?_⟩
    rw [ht]
    exact ⟨rfl, rfl, rfl⟩
  · rw [exec_functionResetComplete]
    simp only [execFunctionResetComplete, hcur, if_pos hj]
  · rw [exec_fnctlGo]
    simp only [execFnctlGo, hcur]
  · rw [exec_fnctlEn]
    simp only [execFnctlEn, hcur]
  · exact State.fnjobsWrite_refused hcur (Bool.or_eq_true_iff.2 (.inl he))
  · refine State.fnjobsWrite_refused hcur ?_
    rw [State.rangeRefused, hb, bne_iff_ne.2 hc]
    simp
  · refine State.fnjobsWrite_taken hcur ?_
    have hbase : (wfield v 0 12 == 0) = false := beq_false_of_ne (by omega)
    have htop : decide (4095 < wfield v 0 12 + wfield v 16 12 - 1) = false := decide_eq_false (by omega)
    rw [State.rangeRefused, h0, hbase, htop, show ((s.modu m).fn f).en = false from he]
    exact Bool.and_false _
  · rw [State.feataccWrite_accepts hcur]
    exact congrArg Host.Outcome.next (State.modFn_congr (if_pos hl))
  · rw [State.feataccWrite_accepts hcur]
    refine congrArg Host.Outcome.next (State.modFn_congr ?_)
    exact (if_neg (Bool.eq_false_iff.1 hl)).trans (if_pos (bne_iff_ne.2 hv))
  · rw [State.feataccWrite_accepts hcur]
    refine congrArg Host.Outcome.next (State.modFn_congr ?_)
    exact (if_neg (Bool.eq_false_iff.1 hl)).trans (if_neg (by rw [hv]; decide))
  · rw [exec_featmaskWrite]
    simp only [execFeatmaskWrite, hcur, if_true]
  · rw [exec_fnnotifyWrite]
    simp only [execFnnotifyWrite, hcur, Bool.and_eq_true, decide_eq_true_eq]
  · rw [exec_fnerrclrWrite]
    simp only [execFnerrclrWrite, hcur]
  · obtain ⟨t, due, hexec, hfn, hev, hdue⟩ := State.attctlRequest_asks hcur hp hport
    refine ⟨t, due, hexec, ?_, ?_, hev, hdue⟩ <;> rw [hfn]
  · refine ⟨_, State.attestReportReady_reports hcur hp, ?_⟩
    rw [State.fn_modFn_self]
    exact ⟨rfl, rfl, List.take_left ..⟩

end Sys2Proof.Machine

namespace Sys2Proof.Machine

/-! Host accesses, ports, the boot of a module and its reset (00 R4; 01 R32; 03 R66 to R71, R80 to R85). -/

section
variable {s : State} {m f off p : Nat} {v : Word}

/-! ## Registers and BAR0 -/

theorem State.jrootWrite_writes {n : Nat} {mask : Word} (hcur : s.cur = some (.registerWrite m (0x40000 + 8 * n) v mask 1)) (hn : n < 4096) :
    exec .registerWrite s = .next (s.modSta (16 * m) (fun t =>
      { t with jroot := Sp.set 0 t.jroot n (merged (Sp.get 0 t.jroot n) v mask 0x000FFFFFFFFFFF01) })) := by
  have hspace : 0x40000 + 8 * n < 0xC00000 := by omega
  have hoff : (0x40000 + 8 * n) % 0x100000 = 0x40000 + 8 * n := Nat.mod_eq_of_lt (by omega)
  have hsta : (0x40000 + 8 * n) / 0x100000 = 0 := Nat.div_eq_of_lt (by omega)
  have hin : 0x40000 ≤ 0x40000 + 8 * n ∧ 0x40000 + 8 * n < 0x48000 ∧ 1 < 64 := by omega
  have hj : (0x40000 + 8 * n - 0x40000) / 8 = n := by omega
  rw [exec_registerWrite]
  simp only [execRegisterWrite, hcur, if_pos hspace, hoff, hsta, if_pos hin, hj, Nat.add_zero]

theorem State.bar0Write_counts {n : Nat} (hcur : s.cur = some (.hostBar0Write m f off n v)) (hs : (s.modu m).serves f = true)
    (hb : bar0 f off n = none) : exec .registerWrite s = .next (s.countHost m f) := by
  rw [exec_registerWrite]
  simp only [execRegisterWrite, hcur, State.hostWrite, hs, hb, Bool.not_true, Bool.false_eq_true, if_false]

/-! ## BAR2 -/

/-- An access within one page of 64 KiB has one part. -/
theorem State.bar2Parts_one {n pa : Nat} {wr : Bool} (hle : off % 65536 + n ≤ 65536) (h0 : 0 < n) (hb : s.bar2 m f off wr = some pa) :
    s.bar2Parts m f off n wr = some [(pa, 0, n)] := by
  have hone : (off % 65536 + n + 65535) / 65536 = 1 := by omega
  have hlo : Nat.max off ((off / 65536 + 0) * 65536) = off := Nat.max_eq_left (by omega)
  have hhi : Nat.min (off + n) ((off / 65536 + 0 + 1) * 65536) = off + n := Nat.min_eq_left (by omega)
  rw [State.bar2Parts, hone, List.range_one]
  simp only [List.map_cons, List.map_nil, hlo, hhi, hb, Option.map_some, Nat.sub_self, Nat.add_sub_cancel_left]
  rfl

/-- A write into memory that no CKPT interval logs and no WAITM watches. -/
theorem State.writeMem_plain {w : Word} {pa : Nat} {bs : List Byte} (hi : s.inInterval w = false) (hw : s.watchers (memKey m pa) bs.length = []) :
    s.writeMem w m pa bs = { s with mem := Memory.writeN s.mem (memKey m pa) bs } := by
  have hwatch : ({ s with mem := Memory.writeN s.mem (memKey m pa) bs } : State).watchers (memKey m pa) bs.length = [] := hw
  unfold State.writeMem
  simp only [hi, Bool.false_eq_true, if_false, hwatch, List.foldl_nil]

theorem State.bar2Write_writes {data : List Byte} {pa : Nat} (hcur : s.cur = some (.hostBar2Write m f off data)) (hs : (s.modu m).serves f = true)
    (hle : off % 65536 + data.length ≤ 65536) (h0 : data ≠ []) (hb : s.bar2 m f off true = some pa) :
    exec .hostBar2Write s = .next (s.writeMem 0 m pa data) := by
  rw [exec_hostBar2Write]
  simp only [execHostBar2Write, hcur, hs, State.bar2Parts_one hle (List.length_pos_iff.2 h0) hb, Bool.not_true, Bool.false_eq_true, if_false,
    List.foldl_cons, List.foldl_nil, List.drop_zero, List.take_length]

theorem State.bar2Read_reads {n pa : Nat} (hcur : s.cur = some (.hostBar2Read m f off n)) (hs : (s.modu m).serves f = true)
    (hle : off % 65536 + n ≤ 65536) (h0 : 0 < n) (hb : s.bar2 m f off false = some pa) : exec .hostBar2Read s = .next (s.modMod m (fun x =>
      { x with notes := .bar2Read f off (some (Memory.readN s.mem (memKey m pa) n)) :: x.notes })) := by
  rw [exec_hostBar2Read]
  simp only [execHostBar2Read, hcur, hs, State.bar2Parts_one hle h0 hb, Bool.not_true, Bool.false_eq_true, if_false, List.flatMap_cons,
    List.flatMap_nil, List.append_nil]

theorem State.bar0Read_counts {n : Nat} (hcur : s.cur = some (.hostBar0Read m f off n)) (hs : (s.modu m).serves f = true)
    (hb : bar0 f off n = none) :
    exec .hostBar2Read s = .next ((s.countHost m f).modMod m (fun x => { x with notes := .bar0Read f off none :: x.notes })) := by
  rw [exec_hostBar2Read]
  simp only [execHostBar2Read, hcur, hs, hb, Bool.not_true, Bool.false_eq_true, if_false]

theorem State.bar0Read_reads {o : Nat} (hcur : s.cur = some (.hostBar0Read m f off 8)) (hs : (s.modu m).serves f = true)
    (hb : bar0 f off 8 = some o) : exec .hostBar2Read s = .next (s.modMod m (fun x =>
      { x with notes := .bar0Read f off (some (s.regRead m (o / 8 * 8))) :: x.notes })) := by
  rw [exec_hostBar2Read]
  simp only [execHostBar2Read, hcur, hs, hb, Bool.not_true, Bool.false_eq_true, if_false, if_true]

/-! ## Ports -/

theorem ModuleSt.port_setPort (x : ModuleSt) (on : Bool) (hp : p < 2) : (x.setPort p on).port p = on := by
  have hp : p = 0 ∨ p = 1 := by omega
  obtain rfl | rfl := hp <;> rfl

theorem State.portReset_resets (hcur : s.cur = some (.portReset m p)) :
    exec .portReset s = .next (s.modMod m (fun x => (x.setPort p false).dropSemaphores p)) := by
  rw [exec_portReset]
  simp only [execPortReset, hcur]

theorem State.hostPortTrained_trains (hcur : s.cur = some (.hostPortTrained m p)) :
    exec .hostPortTrained s = .next (s.modMod m (fun x => x.setPort p true)) := by
  rw [exec_hostPortTrained]
  simp only [execHostPortTrained, hcur]

/-! ## PTIME -/

theorem State.modules_postResurvey (die : Nat) : (s.postResurvey die).modules = s.modules := rfl

theorem State.ptimeSync_sets (hcur : s.cur = some (.ptimeSync m v)) :
    ∃ t, exec .ptimeSync s = .next t ∧ (t.modu m).ptime = v ∧ (t.modu m).ptimeAt = s.clk := by
  have hpost (u : State) (b : Bool) : (if b then (List.range 8).foldl (fun t d => t.postResurvey (8 * m + d)) u else u).modules = u.modules := by
    split
    · exact State.foldl_keeps State.modules fun t d => State.modules_postResurvey _
    · rfl
  rw [exec_ptimeSync]
  simp only [execPtimeSync, hcur]
  refine ⟨_, rfl, ?_⟩
  rw [State.modu, hpost]
  have hmod := State.modu_modMod_self s m fun x => { x with ptime := v, ptimeAt := s.clk }
  exact ⟨congrArg ModuleSt.ptime hmod, congrArg ModuleSt.ptimeAt hmod⟩

/-! ## Boot -/

/-- A module right after its reset, with the fuses and the clocks that it had. -/
def ModuleSt.afterReset (old : ModuleSt) : ModuleSt :=
  { ModuleSt.reset with
    minVersion := old.minVersion
    ptime := old.ptime
    ptimeAt := old.ptimeAt
    cycOff := old.cycOff }

theorem State.modu_resetModule : (s.resetModule m).modu m = (s.modu m).afterReset := by
  unfold State.resetModule
  dsimp only
  rw [State.modu, show ∀ u : State, ((List.range 12).foldl (fun t n => t.modSta (16 * m + n) (fun x =>
    { Station.reset with linkCw := x.linkCw, linkCcw := x.linkCcw })) u).modules = u.modules from
      fun u => State.foldl_keeps State.modules fun _ _ => rfl]
  exact State.modu_modMod_self _ m _

/-- A module that has just been given power. -/
def ModuleSt.poweredOn (x : ModuleSt) : ModuleSt := { x with powered := true, stage := 1, mgmt := [0] }

theorem State.powerOn_starts (hcur : s.cur = some (.powerOn m)) : exec .powerOn s = .next ((s.resetModule m).modMod m ModuleSt.poweredOn) := by
  rw [exec_powerOn]
  simp only [execPowerOn, hcur]
  rfl

theorem State.bootStep_fetches (hcur : s.cur = some (.bootStep m 2 (s.modu m).eth)) (hs : (s.modu m).stage = 1) :
    exec .powerOn s = .next (s.modMod m (fun x => { x with stage := 2 })) := by
  rw [exec_powerOn]
  simp only [execPowerOn, hcur, hs]
  rw [if_neg (by simp), if_pos (by simp)]

/-- The initial surveys of the dies of a module. -/
def State.surveyModule (s : State) (m : Nat) : State := (List.range 8).foldl (fun t d => t.surveyDie (8 * m + d)) s

theorem State.bootStep_surveys (hcur : s.cur = some (.bootStep m 5 p)) (hs : (s.modu m).stage = 4) :
    exec .powerOn s = .next ((s.modMod m (fun x => { x with stage := 5 })).surveyModule m) := by
  rw [exec_powerOn]
  simp only [execPowerOn, hcur, hs]
  rw [if_neg (by simp), if_neg (by simp), if_pos (by simp)]
  rfl

theorem State.modules_surveyDie (die : Nat) : (s.surveyDie die).modules = s.modules := rfl

theorem State.edition_publish (d die : Nat) : ((s.publish die).die d).survey.edition = (s.die d).survey.edition := by
  by_cases h : d = die
  · subst h
    rw [State.publish, State.die_modDie_self]
  · rw [State.publish, State.die, State.modDie, Sp.get_put_ne _ _ _ h]
    rfl

theorem State.edition_surveyDie_self (die : Nat) : ((s.surveyDie die).die die).survey.edition = 1 := by
  rw [State.surveyDie, State.edition_publish, State.die_modDie_self]

theorem State.edition_surveyDie {d : Nat} (die : Nat) (h : (s.die d).survey.edition = 1) : ((s.surveyDie die).die d).survey.edition = 1 := by
  by_cases hd : d = die
  · exact hd ▸ State.edition_surveyDie_self d
  · rw [State.surveyDie, State.edition_publish, State.die, State.modDie, Sp.get_put_ne _ _ _ hd]
    exact h

theorem State.edition_surveyModule {d : Nat} (hd : d < 8) : ((s.surveyModule m).die (8 * m + d)).survey.edition = 1 := by
  rw [State.surveyModule]
  have hmem := List.mem_range.2 hd
  generalize List.range 8 = l at hmem ⊢
  exact foldl_establishes (P := fun t : State => (t.die (8 * m + d)).survey.edition = 1) hmem
    (fun _ _ ht => State.edition_surveyDie _ ht) (fun _ => State.edition_surveyDie_self _) s

theorem State.modules_surveyModule : (s.surveyModule m).modules = s.modules :=
  State.foldl_keeps State.modules fun _ _ => State.modules_surveyDie _

/-- A module whose image has passed. -/
def ModuleSt.accepted (img : List Byte) (v : Word) (x : ModuleSt) : ModuleSt :=
  { x with version := v, image := img, passed := v :: x.passed, stage := 4, mgmt := List.range 8 }

theorem State.image_accepted {img : List Byte} (hcur : s.cur = some (.imageFetchComplete m (Config.keyHash m) img v true))
    (hf : (s.modu m).fail = false) (hs : (s.modu m).stage = 2) (hv : (s.modu m).minVersion.toNat ≤ v.toNat) :
    ∃ due, s.clk < due ∧ exec .imageFetchComplete s =
      .next (State.post { s.modMod m (ModuleSt.accepted img v) with fresh := s.fresh + 1 } due (.bootStep m 5 0)) := by
  rw [exec_imageFetchComplete]
  unfold execImageFetchComplete
  split
  next m' key img' v' sg h =>
    cases hcur.symm.trans h
    simp only [hf, hs, bne_self_eq_false, Bool.or_self, Bool.false_eq_true, if_false, beq_self_eq_true, decide_eq_true hv, Bool.and_self, if_true]
    refine ⟨_, ?_, rfl⟩
    show s.clk < s.clk + 1 + _
    omega
  next h => exact absurd hcur (h _ _ _ _ _)

theorem State.image_failsThird {key img : List Byte} (hcur : s.cur = some (.imageFetchComplete m key img v false)) (hf : (s.modu m).fail = false)
    (hs : (s.modu m).stage = 2) (ht : (s.modu m).tries = 2) :
    exec .imageFetchComplete s = .next (s.modMod m (fun x => { x with tries := 3, fail := true, stage := 3 })) := by
  rw [exec_imageFetchComplete]
  simp only [execImageFetchComplete, hcur, hf, hs, ht, bne_self_eq_false, Bool.or_self, Bool.and_false, Bool.false_eq_true, if_false, le_refl, if_true]

theorem State.firmwareUpdate_raises (hcur : s.cur = some (.firmwareUpdate m v)) (hh : Sp.get 0 (s.modu m).hsem 1 = 3)
    (hv : (s.modu m).minVersion.toNat < v.toNat) (hp : (s.modu m).passed.contains v = true) :
    exec .firmwareUpdate s = .next (s.modMod m (fun x => { x with minVersion := v })) := by
  rw [exec_firmwareUpdate]
  simp only [execFirmwareUpdate, hcur]
  refine congrArg Host.Outcome.next (State.modMod_congr (if_pos ?_))
  rw [hh, hp, decide_eq_true hv]
  rfl

/-! ## The reset of a module -/

theorem State.moduleReset_goes (hcur : s.cur = some (.moduleReset m)) : exec .moduleReset s =
    .next ((List.range 12).foldl (fun t n => t.postNow (.stationReset (16 * m + n))) (s.resetModule m)) := by
  rw [exec_moduleReset]
  simp only [execModuleReset, hcur]

theorem Sp.get_filter_out {α : Type} (dflt : α) (q : Nat → Bool) {j : Nat} (hj : q j = false) (t : Sp α) :
    Sp.get dflt (t.filter (fun e => q e.1)) j = dflt := by
  induction t with
  | nil => rfl
  | cons e t ih =>
    by_cases he : q e.1 = true
    · rw [List.filter_cons_of_pos (p := fun e : Nat × α => q e.1) he, Sp.get, if_neg, ih]
      rintro rfl
      exact Bool.false_ne_true (hj.symm.trans he)
    · rw [List.filter_cons_of_neg (p := fun e : Nat × α => q e.1) he, ih]

theorem State.ctxs_resetModule : (s.resetModule m).ctxs = (s.dropCores m).ctxs := by
  unfold State.resetModule
  dsimp only
  refine (State.foldl_keeps State.ctxs ?_).trans rfl
  exact fun _ _ => rfl

/-- No bank of a module's cores holds a context after its reset. -/
theorem State.resident_resetModule {c : CtxId} (hc : modOf c.core = m) (hb : c.bank < 2) : ((s.resetModule m).ctx c).resident = false := by
  have hkey : (decide ((2 * c.core + c.bank) / 2 / 128 ≠ m)) = false := by
    have : modOf c.core = c.core / 128 := rfl
    exact decide_eq_false fun h => h (by omega)
  rw [State.ctx, State.ctxs_resetModule]
  exact congrArg Ctx.resident (Sp.get_filter_out Ctx.reset (fun k => k / 2 / 128 != m) (by simpa [bne] using hkey) s.ctxs)

theorem State.clk_resetModule : (s.resetModule m).clk = s.clk := by
  unfold State.resetModule
  dsimp only
  refine (State.foldl_keeps State.clk ?_).trans rfl
  exact fun _ _ => rfl

theorem State.mem_agenda_stationResets {n : Nat} (hn : n < 12) : (s.clk, Event.stationReset (16 * m + n)) ∈
    ((List.range 12).foldl (fun t n => t.postNow (.stationReset (16 * m + n))) s).agenda := by
  suffices h : ∀ (l : List Nat) (t : State), n ∈ l → (t.clk, Event.stationReset (16 * m + n)) ∈
      (l.foldl (fun t n => t.postNow (.stationReset (16 * m + n))) t).agenda from h _ s (List.mem_range.2 hn)
  intro l
  induction l with
  | nil => exact fun _ h => absurd h List.not_mem_nil
  | cons k l ih =>
    intro t hk
    rw [List.foldl_cons]
    obtain rfl | hk := List.mem_cons.1 hk
    · exact List.foldlRecOn (motive := fun u : State => (t.clk, Event.stationReset (16 * m + n)) ∈ u.agenda) l _ (State.mem_agenda_post t _ _)
        fun _ hu _ _ => State.mem_agenda_of_post hu
    · exact ih (t.postNow (.stationReset (16 * m + k))) hk

end

/-- Settles O52: each access, port event and step of the boot by what it leaves of the module. -/
theorem hostEvents : Obligations.HostEvents := by
  unfold Obligations.HostEvents
  intro s m f off p v x
  refine ⟨fun n mask => State.jrootWrite_writes, fun data pa hcur hs hle h0 hb hw hi => ?_, fun n pa => State.bar2Read_reads,
    fun n hcur hs => ⟨State.bar0Read_counts hcur hs, fun o hb h8 => ?_⟩, fun n => State.bar0Write_counts, fun hcur => ?_, fun hcur hp => ?_,
    fun hcur hp => ?_, State.ptimeSync_sets, fun hcur => ?_, fun hcur hs => ?_, fun hcur hs => ?_, fun hcur hs => ?_, fun img hcur hf hs hv => ?_,
    fun key img => State.image_failsThird, fun hcur hh hv hpass => ?_, fun hcur => ?_⟩
  · rw [State.bar2Write_writes hcur hs hle h0 hb, State.writeMem_plain hi hw]
  · subst h8
    exact State.bar0Read_reads hcur hs hb
  · rw [exec_hostConfigRequest]
    simp only [execHostConfigRequest, hcur]
  · refine ⟨_, State.portReset_resets hcur, ?_, ?_, rfl⟩ <;> rw [State.modu_modMod_self]
    · exact ModuleSt.port_setPort (s.modu m) false hp
    · intro e he
      exact bne_iff_ne.1 (List.mem_filter.1 he).2
  · refine ⟨_, State.hostPortTrained_trains hcur, ?_, rfl⟩
    rw [State.modu_modMod_self]
    exact ModuleSt.port_setPort _ true hp
  · have hexec := State.powerOn_starts hcur
    refine ⟨_, hexec, ?_, ?_, ?_, ?_, ?_, mem_of_memNext hexec (execPowerOn_memNext s rfl)⟩ <;> rw [State.modu_modMod_self, State.modu_resetModule] <;> rfl
  · exact State.bootStep_fetches hcur hs
  · have hexec := State.bootStep_surveys hcur hs
    refine ⟨_, hexec, ?_, fun d hd => State.edition_surveyModule hd, mem_of_memNext hexec (execPowerOn_memNext s rfl)⟩
    rw [State.modu, State.modules_surveyModule]
    exact congrArg ModuleSt.stage (State.modu_modMod_self s m fun x => { x with stage := 5 })
  · rw [exec_dhcpv6Timeout]
    simp only [execDhcpv6Timeout, hcur]
    exact congrArg Host.Outcome.next (State.modMod_congr (if_pos hs))
  · obtain ⟨due, hdue, hexec⟩ := State.image_accepted hcur hf hs hv
    have hmod := State.modu_modMod_self s m (ModuleSt.accepted img v)
    exact ⟨_, due, hexec, congrArg ModuleSt.stage hmod, congrArg ModuleSt.version hmod, congrArg ModuleSt.image hmod, congrArg ModuleSt.mgmt hmod, hdue,
      State.mem_agenda_post _ _ _, rfl⟩
  · refine ⟨_, State.firmwareUpdate_raises hcur hh hv hpass, ?_⟩
    rw [State.modu_modMod_self]
  · have hexec := State.moduleReset_goes hcur
    refine ⟨_, hexec, mem_of_memNext hexec (execModuleReset_memNext s rfl), fun n hn => ?_, fun c hc => ?_⟩
    · rw [← State.clk_resetModule (s := s) (m := m)]
      exact State.mem_agenda_stationResets hn
    · by_cases hb : c.bank < 2
      · left
        have hctxs : ((List.range 12).foldl (fun t n => t.postNow (.stationReset (16 * m + n))) (s.resetModule m)).ctxs = (s.resetModule m).ctxs :=
          State.foldl_keeps State.ctxs fun _ _ => rfl
        rw [State.ctx, hctxs]
        exact State.resident_resetModule hc hb
      · exact .inr (by omega)

end Sys2Proof.Machine

namespace Sys2Proof.Machine

/-! The translation passes and the loader's answers (06 R147 to R154, R161). -/

section
variable {s : State} {m die : Nat} {out : List (Nat × List Byte)} {es : List (Nat × BitVec 32)} {va : Word}

/-! ## Passes -/

theorem State.templatePass_goes (hcur : s.cur = some (.templatePass m out)) (ht : s.translates m = true) :
    exec .templatePass s = .next (if (s.passOutput m out).isSome then s.writeObject m out else s) := by
  rw [exec_templatePass]
  simp only [execTemplatePass, hcur, ht, Bool.true_and]

/-- A profile pass whose output is an object for its editions. -/
theorem State.profilePass_goes {f : ObjectForm} (hcur : s.cur = some (.profilePass m es out)) (ht : s.translates m = true)
    (hcurrent : es.all (fun e => e.2.toNat == (s.die e.1).survey.edition) = true) (hf : s.passOutput m out = some f) (hm : f.madeFor es = true) :
    exec .profilePass s = .next (if out.all (fun w => !s.keptObjects.any (rangesMeet (m, w.1, w.2.length))) then s.writeObject m out else s) := by
  rw [exec_profilePass]
  simp only [execProfilePass, hcur, ht, hcurrent, hf, hm, Option.any_some, Bool.and_self, Bool.true_and]

theorem State.profilePass_stale {e : Nat × BitVec 32} (hcur : s.cur = some (.profilePass m es out)) (he : e ∈ es)
    (hne : e.2.toNat ≠ (s.die e.1).survey.edition) : exec .profilePass s = .next s := by
  have hstale : es.all (fun e => e.2.toNat == (s.die e.1).survey.edition) = false :=
    List.all_eq_false.2 ⟨e, he, fun h => hne (beq_iff_eq.1 h)⟩
  rw [exec_profilePass]
  simp only [execProfilePass, hcur, hstale, Bool.and_false, Bool.false_and, Bool.false_eq_true, if_false]

/-! ## The loader -/

/-- The loader's answer to a request, in the result that it names (06 R161). -/
def State.loaderAnswer (s : State) (die : Nat) (q : List Byte) (code index : Nat) : State :=
  (s.writeVirt (16 * die + 9) 0 (leAt q 0x10 8 + 4) (bytesLE 4 index ++ bytesLE 8 s.clk)).writeVirt (16 * die + 9) 0 (leAt q 0x10 8)
    [BitVec.ofNat 8 code, 0, 0, 0]

section
variable {q : List Byte} (hcur : s.cur = some (.loaderRequest die va)) (hm : s.mgmtRuns die = true)
  (hq : s.readVirt (16 * die + 9) 0 .read va.toNat 64 = some q)
include hcur hm hq

theorem State.loaderRequest_misformed (hr : (q.drop 0x18).any (fun b => b != 0) = true) :
    exec .loaderRequest s = .next (s.loaderAnswer die q 0x20 0) := by
  rw [exec_loaderRequest]
  simp only [execLoaderRequest, hcur, hm, hq, hr, if_true]
  rfl

theorem State.loaderRequest_unread {code index : Nat} (hr : (q.drop 0x18).any (fun b => b != 0) = false)
    (ho : s.readObject (16 * die + 9) (leAt q 0 8) (leAt q 8 8) = .error (code, index)) :
    exec .loaderRequest s = .next (s.loaderAnswer die q code index) := by
  rw [exec_loaderRequest]
  simp only [execLoaderRequest, hcur, hm, hq, hr, ho, Bool.false_eq_true, if_false, if_true]
  rfl

theorem State.loaderRequest_fails {o : CodeObject} {pe : List Nat} {pva code index : Nat} (hr : (q.drop 0x18).any (fun b => b != 0) = false)
    (ho : s.readObject (16 * die + 9) (leAt q 0 8) (leAt q 8 8) = .ok (o, pe, pva)) (hf : o.failure = some (code, index)) :
    exec .loaderRequest s = .next (s.loaderAnswer die q code index) := by
  rw [exec_loaderRequest]
  simp only [execLoaderRequest, hcur, hm, hq, hr, ho, hf, Bool.false_eq_true, if_false, if_true]
  rfl

/-- The state with an object bound to its plat, which its module notes. -/
def State.boundTo (s : State) (core obj plat : Nat) (o : CodeObject) (pe : List Nat) (pva : Nat) : State :=
  (s.bindObject core plat o pe pva (obj + ofBytesLE ((s.readVirt core 0 .read (obj + 0x18) 8).getD []))).modMod (modOf core)
    (fun x => { x with objects := s.objectRanges core obj o :: x.objects })

theorem State.loaderRequest_binds {o : CodeObject} {pe : List Nat} {pva : Nat} (hr : (q.drop 0x18).any (fun b => b != 0) = false)
    (ho : s.readObject (16 * die + 9) (leAt q 0 8) (leAt q 8 8) = .ok (o, pe, pva)) (hf : o.failure = none) :
    exec .loaderRequest s = .next (State.loaderAnswer
      { s.boundTo (16 * die + 9) (leAt q 0 8) (leAt q 8 8) o pe pva with
        fresh := (s.boundTo (16 * die + 9) (leAt q 0 8) (leAt q 8 8) o pe pva).fresh + o.sects.length } die q 1 0) := by
  rw [exec_loaderRequest]
  simp only [execLoaderRequest, hcur, hm, hq, hr, ho, hf, Bool.false_eq_true, if_false, if_true]
  rfl

end

end

/-- Settles O53: a pass by what its output is, a request by the first check that fails. -/
theorem loaderEvents : Obligations.LoaderEvents := by
  unfold Obligations.LoaderEvents
  intro s m die va out
  refine ⟨fun hcur ht => ⟨fun hn => ?_, fun f hf => ?_⟩, fun es f hcur ht hes hf hm => ?_, fun es e => State.profilePass_stale,
    fun hcur hm => ⟨fun hq => ?_, fun q hq => ?_⟩⟩
  · rw [State.templatePass_goes hcur ht, hn]
    rfl
  · rw [State.templatePass_goes hcur ht, hf]
    rfl
  · have hgoes := State.profilePass_goes hcur ht (List.all_eq_true.2 fun e he => beq_iff_eq.2 (hes e he)) hf hm
    refine ⟨fun hapart => ?_, fun w hw r hr hmeet => ?_⟩
    · rw [hgoes, if_pos]
      exact List.all_eq_true.2 fun w hw => by simpa using hapart w hw
    · rw [hgoes, if_neg]
      intro hall
      have hnone := List.all_eq_true.1 hall w hw
      rw [List.any_eq_true.2 ⟨r, hr, hmeet⟩] at hnone
      exact Bool.false_ne_true hnone
  · rw [exec_loaderRequest]
    simp only [execLoaderRequest, hcur, hm, hq, if_true]
  · exact ⟨State.loaderRequest_misformed hcur hm hq, fun hr => ⟨fun code index => State.loaderRequest_unread hcur hm hq hr,
      fun o pe pva ho => ⟨fun code index => State.loaderRequest_fails hcur hm hq hr ho, State.loaderRequest_binds hcur hm hq hr ho⟩⟩⟩

end Sys2Proof.Machine

namespace Sys2Proof.Machine

/-! What a word of a stream leaves unchanged, whatever way it goes on (07 R162, R180). -/

/-! ## Registers of a stream -/

/-- No register is written. -/
def noReg : Nat → Bool := fun _ => false

namespace StreamSt.SameRegs

variable {x y z : StreamSt} {keep : Nat → Bool}

theorem refl (x : StreamSt) (keep : Nat → Bool) : x.SameRegs x keep := ⟨fun _ _ => rfl, fun _ _ => rfl, fun _ _ => rfl, rfl, rfl, rfl⟩

/-- Streams whose register fields are equal. -/
theorem of_fields (keep : Nat → Bool) (hr : y.regs = x.regs) (hp : y.preds = x.preds) (hb : y.br = x.br)
    (hl : y.swin = x.swin ∧ y.tripc = x.tripc ∧ y.tailc = x.tailc) : x.SameRegs y keep := by
  refine ⟨fun n _ => ?_, fun n _ => by rw [hp], fun b _ => ?_, hl⟩
  · rw [StreamSt.reg, StreamSt.reg, hr]
  · rw [StreamSt.branch, StreamSt.branch, hb]

theorem trans (h : x.SameRegs y keep) (h' : y.SameRegs z noReg) : x.SameRegs z keep := by
  obtain ⟨hr, hp, hb, h1, h2, h3⟩ := h
  obtain ⟨hr', hp', hb', h1', h2', h3'⟩ := h'
  exact ⟨fun n hn => (hr' n rfl).trans (hr n hn), fun n hn => (hp' n rfl).trans (hp n hn), fun b hn => (hb' b rfl).trans (hb b hn),
    h1'.trans h1, h2'.trans h2, h3'.trans h3⟩

theorem mono (keep : Nat → Bool) (h : x.SameRegs y noReg) : x.SameRegs y keep := (refl x keep).trans h

end StreamSt.SameRegs

theorem StreamSt.sameRegs_advance (y : StreamSt) (n : Nat) : y.SameRegs (y.advance n) noReg := by
  unfold StreamSt.advance
  dsimp only
  split
  · exact .of_fields _ rfl rfl rfl ⟨rfl, rfl, rfl⟩
  · split <;> exact .of_fields _ rfl rfl rfl ⟨rfl, rfl, rfl⟩

theorem StreamSt.sameRegs_setReg (y : StreamSt) (r : Nat) (v : Word) {keep : Nat → Bool} (hk : keep r = true) : y.SameRegs (y.setReg r v) keep := by
  unfold StreamSt.setReg
  split
  · exact .refl y keep
  · refine ⟨fun n hn => ?_, fun _ _ => rfl, fun _ _ => rfl, rfl, rfl, rfl⟩
    have hne : n ≠ r := by
      rintro rfl
      exact Bool.false_ne_true (hn.symm.trans hk)
    rw [StreamSt.reg, StreamSt.reg, Sp.get_set, if_neg hne]

theorem StreamSt.sameRegs_setPhysPred (y : StreamSt) (r : Nat) (b : Bool) {keep : Nat → Bool} (hk : keep (codeP r) = true) :
    y.SameRegs (y.setPhysPred r b) keep := by
  unfold StreamSt.setPhysPred
  split
  · exact .refl y keep
  · refine ⟨fun _ _ => rfl, fun n hn => ?_, fun _ _ => rfl, rfl, rfl, rfl⟩
    have hne : n ≠ r := by
      rintro rfl
      exact Bool.false_ne_true (hn.symm.trans hk)
    rw [Sp.get_set, if_neg hne]

theorem StreamSt.sameRegs_setBranch (y : StreamSt) (r : Nat) (v : Half) (clk : Nat) {keep : Nat → Bool} (hk : keep (codeB r) = true) :
    y.SameRegs (y.setBranch r v clk) keep := by
  refine ⟨fun _ _ => rfl, fun _ _ => rfl, fun b hb => ?_, rfl, rfl, rfl⟩
  have hne : b ≠ r := by
    rintro rfl
    exact Bool.false_ne_true (hb.symm.trans hk)
  rw [StreamSt.branch, StreamSt.branch, StreamSt.setBranch, Sp.get_set, if_neg hne]

/-! ## Contexts -/

/-- What a word of the stream `st` leaves of its context. -/
structure Ctx.Framed (st : Stream) (keep : Nat → Bool) (x y : Ctx) : Prop where
  state : x.SameState y
  streams : ∀ su, su ≠ st → (x.strm su).SameRegs (y.strm su) noReg
  regs : (x.strm st).SameRegs (y.strm st) keep

namespace Ctx.Framed

variable {st : Stream} {keep : Nat → Bool} {x y z : Ctx}

theorem refl (x : Ctx) : Ctx.Framed st keep x x := ⟨rfl, fun _ _ => .refl _ _, .refl _ _⟩

theorem trans (h : Ctx.Framed st keep x y) (h' : Ctx.Framed st noReg y z) : Ctx.Framed st keep x z := by
  obtain ⟨hs, ht, hr⟩ := h
  obtain ⟨hs', ht', hr'⟩ := h'
  refine ⟨Eq.trans hs' ?_, fun su hsu => (ht su hsu).trans (ht' su hsu), hr.trans hr'⟩
  exact congrArg (fun w : Ctx => { w with
    c := z.c, a := z.a, v := z.v, stcnt := z.stcnt, phase := z.phase, entry := z.entry, permAt := z.permAt, sysTrap := z.sysTrap }) hs

/-- A change of the word's own stream. -/
theorem putStrm {y : StreamSt} (h : (x.strm st).SameRegs y keep) : Ctx.Framed st keep x (x.putStrm st y) := by
  refine ⟨?_, fun su hsu => ?_, ?_⟩
  · cases st <;> rfl
  · rw [Ctx.strm_putStrm_ne _ _ hsu]
    exact .refl _ _
  · rw [Ctx.strm_putStrm_self]
    exact h

/-- A change of fields that are not a word's to leave, the streams as they were. -/
theorem of_streams (hs : x.SameState y) (hc : y.c = x.c) (ha : y.a = x.a) (hv : y.v = x.v) : Ctx.Framed st keep x y := by
  have hst : ∀ su, y.strm su = x.strm su := by
    intro su
    cases su <;> assumption
  exact ⟨hs, fun su _ => hst su ▸ .refl _ _, hst st ▸ .refl _ _⟩

end Ctx.Framed

theorem Ctx.framed_charge (x : Ctx) (st su : Stream) (code : Nat) : Ctx.Framed st noReg x (x.charge su code) := by
  unfold Ctx.charge
  dsimp only
  split
  · exact .refl x
  · exact .of_streams rfl rfl rfl rfl

/-- A word that is taken up again later has changed no register. -/
theorem Ctx.framed_retrap (x : Ctx) (st : Stream) : Ctx.Framed st noReg x x.retrap := by
  unfold Ctx.retrap
  split
  next pc reps _ =>
    have hc : x.c.SameRegs { x.c with pc := pc, reps := reps, atHeader := false, bubble := 0 } noReg := .of_fields _ rfl rfl rfl ⟨rfl, rfl, rfl⟩
    refine ⟨rfl, fun su _ => ?_, ?_⟩
    · cases su
      · exact hc
      · exact .refl _ _
      · exact .refl _ _
    · cases st
      · exact hc
      · exact .refl _ _
      · exact .refl _ _
  · exact .refl x

/-! ## States -/

namespace State.RegFrame

variable {s t u : State} {keep : Nat → Bool}

theorem refl (s : State) (keep : Nat → Bool) : s.RegFrame s keep :=
  ⟨⟨rfl, rfl, rfl, rfl, rfl, rfl, rfl, rfl, rfl, rfl, rfl⟩, fun _ _ => rfl, rfl, fun _ _ => .refl _ _, .refl _ _⟩

theorem framed (h : s.RegFrame u keep) : Ctx.Framed s.foc.st keep s.fctx u.fctx := by
  obtain ⟨⟨-, -, hfoc, -⟩, -, hs, ht, hr⟩ := h
  refine ⟨hs, ht, ?_⟩
  rw [State.fstrm, State.fstrm, hfoc] at hr
  rw [State.fctx, State.fctx, hfoc]
  exact hr

theorem of_framed (ho : s.SameOutside t) (hc : s.SameOthers t) (h : Ctx.Framed s.foc.st keep s.fctx t.fctx) : s.RegFrame t keep := by
  obtain ⟨hs, ht, hr⟩ := h
  refine ⟨ho, hc, hs, ht, ?_⟩
  rw [State.fctx, State.fctx, ho.foc] at hr
  rw [State.fstrm, State.fstrm, ho.foc]
  exact hr

theorem trans (h : s.RegFrame u keep) (h' : u.RegFrame t noReg) : s.RegFrame t keep := by
  have hf := h.framed
  have hf' := h'.framed
  obtain ⟨o, hc, -⟩ := h
  obtain ⟨o', hc', -⟩ := h'
  rw [o.foc] at hf'
  refine of_framed ⟨o'.clk.trans o.clk, o'.turn.trans o.turn, o'.foc.trans o.foc, o'.cur.trans o.cur, o'.cores.trans o.cores, o'.dies.trans o.dies,
    o'.stations.trans o.stations, o'.modules.trans o.modules, o'.mem.trans o.mem, o'.bars.trans o.bars, o'.pod.trans o.pod⟩
    (fun c hk => (hc' c (o.foc.symm ▸ hk)).trans (hc c hk)) (hf.trans hf')

theorem mono (keep : Nat → Bool) (h : s.RegFrame t noReg) : s.RegFrame t keep := (refl s keep).trans h

/-- A change of the context in focus. -/
theorem modF {f : Ctx → Ctx} (h : Ctx.Framed s.foc.st keep s.fctx (f s.fctx)) : s.RegFrame (s.modF f) keep := by
  refine of_framed ⟨rfl, rfl, rfl, rfl, rfl, rfl, rfl, rfl, rfl, rfl, rfl⟩ (fun c hk => State.ctx_modCtx_ne s _ c f hk) ?_
  rw [State.fctx_modF]
  exact h

/-- A change of the stream in focus. -/
theorem modFs {f : StreamSt → StreamSt} (h : s.fstrm.SameRegs (f s.fstrm) keep) : s.RegFrame (s.modFs f) keep :=
  State.RegFrame.modF (f := fun x => x.putStrm s.foc.st (f s.fstrm)) (.putStrm h)

theorem post (h : s.RegFrame t keep) (due : Nat) (e : Event) : s.RegFrame (t.post due e) keep := by
  obtain ⟨⟨h1, h2, h3, h4, h5, h6, h7, h8, h9, h10, h11⟩, hc, hs, ht, hr⟩ := h
  exact ⟨⟨h1, h2, h3, h4, h5, h6, h7, h8, h9, h10, h11⟩, hc, hs, ht, hr⟩

/-- The model's counter is no part of the machine. -/
theorem fresh (s : State) (keep : Nat → Bool) (n : Nat) : s.RegFrame { s with fresh := n } keep :=
  ⟨⟨rfl, rfl, rfl, rfl, rfl, rfl, rfl, rfl, rfl, rfl, rfl⟩, fun _ _ => rfl, rfl, fun _ _ => .refl _ _, .refl _ _⟩

end State.RegFrame

/-! ## The ways in which a word goes on -/

section
variable {s : State}

theorem State.regFrame_charge (code : Nat) : s.RegFrame (s.charge s.foc code) noReg := .modF (Ctx.framed_charge _ _ _ _)

theorem State.regFrame_issued (n : Nat) : s.RegFrame (s.issued n) noReg :=
  (State.regFrame_charge 0).trans (.modFs (StreamSt.sameRegs_advance _ n))

theorem State.regFrame_waits (code : Nat) : s.RegFrame (s.waits code) noReg :=
  (State.regFrame_charge code).trans (.modFs (.of_fields _ rfl rfl rfl ⟨rfl, rfl, rfl⟩))

theorem State.regFrame_waitsSlip : s.RegFrame s.waitsSlip noReg :=
  (State.regFrame_charge _).trans (.modFs (.of_fields _ rfl rfl rfl ⟨rfl, rfl, rfl⟩))

/-- A context that stops keeps its registers. -/
theorem Ctx.framed_stopping (x : Ctx) (st : Stream) (te : Nat) (e : Entry) : Ctx.Framed st noReg x { x with
    phase := .stopping te
    entry := some e
    c := { x.c with hold := .no, waiting := x.c.waiting }
    a := { x.a with hold := .no, waiting := x.a.waiting }
    v := { x.v with hold := .no, waiting := x.v.waiting } } := by
  have hquiet (y : StreamSt) : y.SameRegs { y with hold := .no, waiting := y.waiting } noReg := .of_fields _ rfl rfl rfl ⟨rfl, rfl, rfl⟩
  refine ⟨rfl, fun su _ => ?_, ?_⟩
  · cases su <;> exact hquiet _
  · cases st <;> exact hquiet _

theorem State.regFrame_raise (cause : Nat) (tval : Word) : s.RegFrame (s.raise cause tval) noReg := by
  refine .post (.modF ?_) _ _
  have hretrap : Ctx.Framed s.foc.st noReg s.fctx (if cause = 0x0C then s.fctx else s.fctx.retrap) := by
    split
    · exact .refl _
    · exact Ctx.framed_retrap _ _
  exact hretrap.trans (Ctx.framed_stopping _ _ _ _)

/-- What a word's own effect leaves unchanged; of a trap it leaves everything. -/
def Res.Framed (s : State) (keep : Nat → Bool) : Res → Prop
  | .done t => s.RegFrame t keep
  | .jumped t => s.RegFrame t keep
  | .wait _ t => s.RegFrame t keep
  | .whole t => s.RegFrame t keep
  | .trap _ _ => True

theorem State.regFrame_permAt : s.RegFrame (s.modF (fun x => { x with permAt := none })) noReg :=
  .modF (f := fun x => { x with permAt := none }) (Ctx.Framed.of_streams (y := { s.fctx with permAt := none }) rfl rfl rfl rfl)

/-- A word that writes what `keep` names, where it takes effect, writes no more in any way in which it goes on. -/
theorem State.regFrame_runWord {n : Need} {body : State → Res} {keep : Nat → Bool} (k : Nat) (h : (body s).Framed s keep) :
    s.RegFrame (runWord k n body s) keep := by
  unfold runWord
  split
  · exact (State.regFrame_raise _ _).mono keep
  · exact (State.regFrame_waits _).mono keep
  · exact State.regFrame_waitsSlip.mono keep
  · exact (State.regFrame_issued _).mono keep
  · split
    · exact (State.regFrame_permAt.trans (State.regFrame_raise _ _)).mono keep
    · revert h
      cases body s with
      | done t => exact fun h => h.trans (State.regFrame_issued k)
      | jumped t => exact fun h => h.trans (State.regFrame_charge 0)
      | wait code t => exact fun h => h.trans (State.regFrame_waits code)
      | whole t => exact fun h => h
      | trap c v => exact fun _ => (State.regFrame_raise c v).mono keep

theorem regFrame_of_word {i : Instr} {t : State} {n : Need} {body : State → Res} {keep : Nat → Bool} {k : Nat}
    (hexec : exec i s = .next (runWord k n body s)) (h : (body s).Framed s keep) (ht : exec i s = .next t) : s.RegFrame t keep := by
  cases hexec.symm.trans ht
  exact State.regFrame_runWord k h

/-! ## Results -/

theorem State.only_self (code : Nat) : s.only [code] (physCode s.foc.st s.fstrm.swin.toNat code) = true := by
  simp [State.only]

/-- A result in flight has written nothing yet. -/
theorem State.regFrame_fly (p : Pend) : s.RegFrame (s.fly s.foc p) noReg := .post (.modFs (.of_fields _ rfl rfl rfl ⟨rfl, rfl, rfl⟩)) _ _

theorem State.regFrame_result_late {lat : Nat} (code : Nat) (v : RVal) (elems : Mask) (fl : Flags) (dst : Bool) (hl : 2 ≤ lat) :
    s.RegFrame (s.result code lat v elems fl dst) noReg := by
  unfold State.result
  dsimp only
  split
  · exact .refl s noReg
  · rw [if_neg (Nat.not_le.2 hl)]
    exact (State.RegFrame.fresh s noReg (s.fresh + 1)).trans (State.regFrame_fly (s := { s with fresh := s.fresh + 1 }) _)

theorem State.regFrame_resWord (d lat : Nat) (v : Word) : s.RegFrame (s.resWord d lat v) (s.only [d]) := by
  by_cases hl : lat ≤ 1
  · unfold State.resWord State.result
    dsimp only
    split
    · exact .refl s _
    · exact .modF (.putStrm (StreamSt.sameRegs_setReg _ _ _ (State.only_self d)))
  · exact (State.regFrame_result_late _ _ _ _ _ (by omega)).mono _

/-- Codes of predicates keep their distance from those of registers. -/
theorem codeP_physCode (st : Stream) (swin p : Nat) : codeP (physCode st swin (codeP p) - 32) = physCode st swin (codeP p) := by
  unfold physCode codeP
  (repeat' split) <;> omega

theorem State.regFrame_resPred (p : Nat) (b : Bool) : s.RegFrame (s.resPred p b) (s.only [codeP p]) := by
  unfold State.resPred State.result
  dsimp only
  split
  · exact .refl s _
  · refine .modF (.putStrm (StreamSt.sameRegs_setPhysPred _ _ _ ?_))
    rw [codeP_physCode]
    exact State.only_self _

theorem State.regFrame_vresult {d lat : Nat} (v : List Elem) (m : Mask) (fl : Flags) (hl : 2 ≤ lat) : s.RegFrame (s.vresult d lat v m fl) noReg := by
  unfold State.vresult
  split
  · exact State.regFrame_result_late _ _ _ _ _ hl
  · exact (State.RegFrame.fresh s noReg _).trans (State.regFrame_result_late _ _ _ _ _ hl)

end

/-! ## The words of the obligation -/

/-- A vector register that lands leaves the rest of its context but for the flags. -/
theorem Ctx.land_vec_frame (x : Ctx) (q : Pend) {v : List Elem} (hv : q.val = .vec v) :
    (∀ m, m ≠ q.reg → Sp.get vzero (x.land .v q).vf.vregs m = Sp.get vzero x.vf.vregs m) ∧ (x.land .v q).vf.masks = x.vf.masks ∧
      (x.land .v q).vf.dregs = x.vf.dregs ∧ (x.land .v q).c = x.c ∧ (x.land .v q).a = x.a ∧ (x.land .v q).v = x.v ∧
      (x.land .v q).pending = x.pending := by
  have hput : ∀ w m, m ≠ q.reg → Sp.get vzero (Sp.put x.vf.vregs q.reg w) m = Sp.get vzero x.vf.vregs m := fun w m hm => Sp.get_put_ne _ _ _ hm
  unfold Ctx.land
  rw [hv]
  dsimp only
  by_cases hm : q.elems = maskAll
  · rw [if_pos hm]
    (repeat' split) <;> exact ⟨hput _, rfl, rfl, rfl, rfl, rfl, rfl⟩
  · rw [if_neg hm]
    (repeat' split) <;> exact ⟨hput _, rfl, rfl, rfl, rfl, rfl, rfl⟩

section
variable {s t : State} {i : Instr} {n : Need} {k lat : Nat}

/-- A scalar word whose result is a register. -/
theorem regFrame_of_resWord {v : State → Word} (d : Nat) (ht : exec i s = .next t)
    (hexec : exec i s = .next (runWord k n (fun s => .done (s.resWord d lat (v s))) s)) : s.RegFrame t (s.only [d]) :=
  regFrame_of_word hexec (State.regFrame_resWord d lat _) ht

/-- A compare of scalars. -/
theorem regFrame_of_resPred {v : State → Bool} (p : Nat) (ht : exec i s = .next t)
    (hexec : exec i s = .next (runWord k n (fun s => .done (s.resPred p (v s))) s)) : s.RegFrame t (s.only [codeP p]) :=
  regFrame_of_word hexec (State.regFrame_resPred p _) ht

theorem State.only_codeB (b : Nat) : s.only [codeB b] (codeB b) = true := by
  have h32 : ¬80 + b < 32 := by omega
  have h80 : ¬80 + b < 80 := by omega
  simp [State.only, physCode, codeB, h32, h80]

/-- A prepare. -/
theorem regFrame_of_setBranch {v : State → StreamSt → Half} (b : Nat)
    (ht : exec i s = .next t)
    (hexec : exec i s = .next (runWord k n (fun s => .done (s.modFs (fun y => y.setBranch b (v s y) s.clk))) s)) : s.RegFrame t (s.only [codeB b]) :=
  regFrame_of_word hexec (.modFs (StreamSt.sameRegs_setBranch _ _ _ _ (State.only_codeB b))) ht

/-- A branch writes no register. -/
theorem regFrame_of_branchTo (b : Nat) (ht : exec i s = .next t) (hexec : exec i s = .next (runWord k n (branchTo b none) s)) :
    s.RegFrame t noReg := by
  refine regFrame_of_word hexec ?_ ht
  unfold branchTo
  dsimp only
  split
  · trivial
  · exact .modFs (.of_fields _ rfl rfl rfl ⟨rfl, rfl, rfl⟩)

/-- A vector word whose result is a vector register. -/
theorem regFrame_of_vresult {v : State → List Elem} {m : State → Mask} {fl : State → Flags} (d : Nat) (hl : 2 ≤ lat)
    (ht : exec i s = .next t) (hexec : exec i s = .next (runWord k n (fun s => .done (s.vresult d lat (v s) (m s) (fl s))) s)) :
    s.RegFrame t noReg :=
  regFrame_of_word hexec (State.regFrame_vresult _ _ _ hl) ht

theorem State.le_lat (base : Nat) : base ≤ s.lat base := Nat.le_add_right _ _

theorem regFrame_of_vword2 {lat : State → Nat} {f : RM → Elem → Elem → Elem × Flags} {g : Guard} {a b d : BitVec 5} (hl : 2 ≤ lat s)
    (ht : exec i s = .next t) (hexec : exec i s = vword2 lat f g b a d s) : s.RegFrame t noReg :=
  regFrame_of_word hexec (State.regFrame_vresult _ _ _ hl) ht

theorem regFrame_of_vword1 {f : RM → Elem → Elem × Flags} {g : Guard} {a d : BitVec 5} (ht : exec i s = .next t)
    (hexec : exec i s = vword1 none lat4 f g a d s) : s.RegFrame t noReg :=
  regFrame_of_word hexec (State.regFrame_vresult _ _ _ (le_trans (by decide) (State.le_lat 4))) ht

theorem regFrame_of_vcmpWord {c : VCond} {neg : Bool} {a b : BitVec 5} {p : BitVec 6} (ht : exec i s = .next t)
    (hexec : exec i s = vcmpWord c neg b a p s) : s.RegFrame t noReg := by
  have hl : 2 ≤ if c.float then s.lat 4 else 2 := by
    split
    · exact le_trans (by decide) (State.le_lat 4)
    · exact le_refl 2
  exact regFrame_of_word hexec (State.regFrame_result_late _ _ _ _ _ hl) ht

end

/-- Settles O60: a word writes what its effect writes and no more in any way in which it goes on (`State.regFrame_runWord`), and the effect of
each kind of word writes its one register, predicate or branch register, or nothing yet. -/
theorem registerFrame : Obligations.RegisterFrame := by
  unfold Obligations.RegisterFrame
  intro s t g a b d p n i12 i11 i20 i6 j6 b3
  have h4 : 2 ≤ lat4 s := le_trans (by decide) (State.le_lat 4)
  have h2 : 2 ≤ lat2 s := le_refl 2
  simp only [List.forall_mem_cons, List.not_mem_nil, false_imp_iff, implies_true, and_true]
  refine ⟨?_, ?_, ?_, ?_, ?_, fun x q v hv => x.land_vec_frame q hv⟩
  · and_intros
    all_goals exact fun ht => regFrame_of_resWord _ ht rfl
  · and_intros
    all_goals exact fun ht => regFrame_of_resPred _ ht rfl
  · exact ⟨fun ht => regFrame_of_setBranch _ ht rfl, fun ht => regFrame_of_setBranch _ ht rfl⟩
  · exact ⟨fun ht => regFrame_of_branchTo _ ht rfl, fun ht => regFrame_of_branchTo _ ht rfl⟩
  · exact ⟨fun ht => regFrame_of_vword2 h4 ht (exec_vadd ..), fun ht => regFrame_of_vword2 h4 ht (exec_vsub ..),
      fun ht => regFrame_of_vword2 h4 ht (exec_vmul ..), fun ht => regFrame_of_vword2 h4 ht (exec_vmin ..),
      fun ht => regFrame_of_vword2 h4 ht (exec_vmax ..), fun ht => regFrame_of_vword1 ht (exec_vabs ..),
      fun ht => regFrame_of_vword1 ht (exec_vneg ..), fun ht => regFrame_of_vword1 ht (exec_vmov ..),
      fun ht => regFrame_of_vword2 h2 ht (exec_viadd ..), fun ht => regFrame_of_vword2 h2 ht (exec_visub ..),
      fun ht => regFrame_of_vword2 h2 ht (exec_vimul ..), fun ht => regFrame_of_vword2 h2 ht (exec_vand ..),
      fun ht => regFrame_of_vword2 h2 ht (exec_vor ..), fun ht => regFrame_of_vword2 h2 ht (exec_vxor ..),
      fun ht => regFrame_of_vcmpWord ht (exec_vcmpEq ..), fun ht => regFrame_of_vcmpWord ht (exec_vcmpLt ..),
      fun ht => regFrame_of_vresult _ (le_refl 2) ht (exec_vli ..),
      fun ht => regFrame_of_vresult _ (le_trans (by decide) (State.le_lat 8)) ht (exec_vredrSum ..)⟩

end Sys2Proof.Machine
